-- ==== Sys2Proof/Word.lean ====
section
/-!
DEFINITION. Word.lean: the word types of the F16, the sparse maps in which the model holds numbered things, the operands of
instructions and the payloads of events.
-/

namespace Sys2Proof

/-- A 32-bit word: an instruction word, a lane of a vector register. -/
abbrev Word := BitVec 32
/-- A 64-bit value: a scalar register, an address. -/
abbrev Dword := BitVec 64
/-- One byte. -/
abbrev Byte := BitVec 8
/-- A 128-byte line, byte 0 in the least significant bits. -/
abbrev LineData := BitVec 1024
/-- A set of lanes of a span: bit l is lane l (03 R33). -/
abbrev Lanes := BitVec 32

/-- A numbered collection in one canonical form: keys strictly rising, and no entry equal to the default that an
unlisted key reads as. Equal collections are then equal lists. -/
abbrev Store (α : Type) := List (Nat × α)

namespace Store

variable {α : Type}

/-- The value at key k; d where k is not listed. -/
def get (d : α) : Store α → Nat → α
  | [], _ => d
  | (k', v) :: m, k => if k = k' then v else get d m k

/-- Take key k out of the list. -/
def erase : Store α → Nat → Store α
  | [], _ => []
  | (k', v) :: m, k => if k = k' then erase m k else (k', v) :: erase m k

/-- Put (k, v) in front of the first larger key. -/
def insert : Store α → Nat → α → Store α
  | [], k, v => [(k, v)]
  | (k', v') :: m, k, v => if k < k' then (k, v) :: (k', v') :: m else (k', v') :: insert m k v

/-- Write v at key k; writing the default takes the entry out. -/
def set [DecidableEq α] (d : α) (m : Store α) (k : Nat) (v : α) : Store α :=
  if v = d then erase m k else insert (erase m k) k v

/-- Canonical form: keys rise strictly, and no entry holds the default. -/
def wf [DecidableEq α] (d : α) : Store α → Bool
  | [] => true
  | [(_, v)] => decide (v ≠ d)
  | (k, v) :: (k', v') :: m => decide (k < k') && decide (v ≠ d) && wf d ((k', v') :: m)

/-- Change the value at key k. -/
def upd [DecidableEq α] (d : α) (m : Store α) (k : Nat) (f : α → α) : Store α := set d m k (f (get d m k))

/-- Change every listed value. -/
def mapVals [DecidableEq α] (d : α) (f : Nat → α → α) (m : Store α) : Store α :=
  m.filterMap (fun e => if f e.1 e.2 = d then none else some (e.1, f e.1 e.2))

/-- The keys listed. -/
def keys (m : Store α) : List Nat := m.map Prod.fst

end Store

/-- Is lane l in the set. -/
def laneIn (S : Lanes) (l : Nat) : Bool := S.getLsbD l

/-- The lanes of a set, in increasing order. -/
def lanesOf (S : Lanes) : List Nat := (List.range 32).filter (laneIn S)

/-- The set of the lanes at which f holds. -/
def lanesWhere (f : Nat → Bool) : Lanes :=
  (List.range 32).foldl (fun a l => if f l then a ||| BitVec.twoPow 32 l else a) 0#32

/-- All 32 lanes. -/
def allLanes : Lanes := 0xFFFFFFFF#32

/-- A 64-bit value with every bit set: the meeting address that matches no clause (03 R31). -/
def allOnes64 : Dword := 0xFFFFFFFFFFFFFFFF#64

/-- Field [hi:lo] of a value as a natural number. -/
def bits {n : Nat} (w : BitVec n) (hi lo : Nat) : Nat := (w.toNat >>> lo) % 2 ^ (hi + 1 - lo)

/-! ## Operands of instructions -/

/-- Operand b of format S (04 R65): a scalar register, or an immediate of six bits. -/
inductive SOp where
  | reg (r : BitVec 6)
  | imm (v : BitVec 6)
  deriving DecidableEq, Repr

/-- Bit I of the operand (04 R65). -/
def SOp.i : SOp → BitVec 1
  | .reg _ => 0#1
  | .imm _ => 1#1

/-- Field [25:20] of the operand (04 R65). -/
def SOp.f : SOp → BitVec 6
  | .reg r => r
  | .imm v => v

/-- The operand that I and [25:20] spell. -/
def SOp.of (i : BitVec 1) (f : BitVec 6) : SOp := if i = 1#1 then .imm f else .reg f

/-- A tile reference (04 R67): pen offset and sibling flag. -/
structure TileRef where
  dx : BitVec 4
  dy : BitVec 4
  sib : BitVec 1
  deriving DecidableEq, Repr

/-- The nine bits of a tile reference: sibling flag in [8], dy in [7:4], dx in [3:0] (04 R67). -/
def TileRef.bits (r : TileRef) : BitVec 9 := r.sib ++ r.dy ++ r.dx

/-- The reference that nine bits spell. -/
def TileRef.ofBits (x : BitVec 9) : TileRef := ⟨x.extractLsb' 0 4, x.extractLsb' 4 4, x.extractLsb' 8 1⟩

/-- A tile coordinate word (04 R68): kind and value of the row and of the column. -/
structure Coord where
  rk : BitVec 2
  ck : BitVec 2
  rv : BitVec 12
  cv : BitVec 12
  deriving DecidableEq, Repr

/-- The coordinate word (04 R68). -/
def Coord.word (c : Coord) : Word := 0#4 ++ c.ck ++ c.rk ++ c.cv ++ c.rv

/-- The coordinate that a word spells. -/
def Coord.ofWord (w : Word) : Coord :=
  ⟨w.extractLsb' 24 2, w.extractLsb' 26 2, w.extractLsb' 0 12, w.extractLsb' 12 12⟩

/-- The memory modifier word of a class 3 instruction (04 R67, 02 R26). -/
structure MemMod where
  fe : BitVec 2
  hint : BitVec 3
  scope : BitVec 3
  order : BitVec 3
  off : BitVec 20
  deriving DecidableEq, Repr

/-- The modifier word: [31] zero, full/empty, hint, scope, order, offset or tile reference (04 R67). -/
def MemMod.word (m : MemMod) : Word := 0#1 ++ m.fe ++ m.hint ++ m.scope ++ m.order ++ m.off

/-- The modifier that a word spells. -/
def MemMod.ofWord (w : Word) : MemMod :=
  ⟨w.extractLsb' 29 2, w.extractLsb' 26 3, w.extractLsb' 23 3, w.extractLsb' 20 3, w.extractLsb' 0 20⟩

/-- The tile reference in [8:0] of an X tile form's modifier. -/
def MemMod.ref (m : MemMod) : TileRef := TileRef.ofBits (m.off.extractLsb' 0 9)

/-- The memory modifier of a class 4 instruction without its tile references (04 R67). -/
structure AMod where
  fe : BitVec 2
  hint : BitVec 3
  scope : BitVec 3
  order : BitVec 3
  deriving DecidableEq, Repr

/-- The modifier word of format A: source reference in [8:0], destination reference in [17:9] (04 R67). -/
def AMod.word (m : AMod) (src dst : BitVec 9) : Word :=
  0#1 ++ m.fe ++ m.hint ++ m.scope ++ m.order ++ 0#2 ++ dst ++ src

/-- The modifier that a word spells. -/
def AMod.ofWord (w : Word) : AMod :=
  ⟨w.extractLsb' 29 2, w.extractLsb' 26 3, w.extractLsb' 23 3, w.extractLsb' 20 3⟩

/-- One side of a class 4 instruction (04 R67): an even register pair of addresses, or a tile operand. -/
inductive ASide where
  | addr (r : BitVec 7)
  | tile (h : BitVec 6) (ref : TileRef) (c : Coord)
  deriving DecidableEq, Repr

/-- The tile flag of the side. -/
def ASide.flag : ASide → BitVec 1
  | .addr _ => 0#1
  | .tile .. => 1#1

/-- The seven-bit field of the side. -/
def ASide.fld : ASide → BitVec 7
  | .addr r => r
  | .tile h _ _ => 0#1 ++ h

/-- The nine reference bits of the side: zero when it is not tile-flagged. -/
def ASide.ref : ASide → BitVec 9
  | .addr _ => 0#9
  | .tile _ r _ => r.bits

/-- The side's coordinate word, if it has one. -/
def ASide.coordWords : ASide → List Word
  | .addr _ => []
  | .tile _ _ c => [c.word]

/-- The side that flag, field, reference bits and coordinate word spell. -/
def ASide.ofWords (flag : BitVec 1) (fld : BitVec 7) (ref : BitVec 9) (cw : Word) : ASide :=
  if flag = 1#1 then .tile (fld.extractLsb' 0 6) (TileRef.ofBits ref) (Coord.ofWord cw) else .addr fld

/-! ## Payloads of events -/

/-- An issue set of a span of a workgroup: the workgroup's key, the span's number, its lanes. -/
structure SpanRef where
  g : Nat
  sp : Nat
  lanes : Lanes
  deriving DecidableEq, Repr

/-- Who waits under the full/empty watchdog (18 R317): an issue set, or the engine at operation n. -/
inductive Waiter where
  | set (q : SpanRef)
  | engine (n : Nat)
  deriving DecidableEq, Repr

/-- A party that a home can lose (13 R247). -/
inductive Party where
  | core (n : Nat)
  | agent (n : Nat)
  | device (slot : Nat)
  deriving DecidableEq, Repr

/-- Header of a coherence message (13 R236): pointers of sender and receiver (the home is 0x1FFF, a pointer that is
never written), the physical line, the sender's Lamport clock, the sender's Rime stamp (17 R302). pod marks a message of
the pod directory, whose pointers are device or tray slots (13 R232). req numbers the request of an instruction or an engine
that awaits the response, which carries it back; 0 for a cache's own transactions. pk and ord are the request's paddock and its
span's ordinal (17 R309); sc marks an sc event that the home performs (12 R223); kind is an Err's, of 15 R281; load is what a tray's
response tells of its load (19 R342). -/
structure Hdr where
  src : BitVec 13
  dst : BitVec 13
  line : Nat
  clock : BitVec 48
  stamp : Dword
  pod : Bool := false
  req : Nat := 0
  pk : Option Nat := none
  ord : BitVec 20 := 0xFFFFF
  sc : Bool := false
  kind : Nat := 1
  load : Nat := 0
  deriving DecidableEq, Repr

/-- A drift operator tag (11 R198): opcode − 0x38, and q for dred.modadd (zero otherwise). -/
structure DTag where
  op : BitVec 3
  q : Dword
  deriving DecidableEq, Repr

/-- One exact accumulator of a drift line (06 R98, R99). -/
abbrev Acc := BitVec 320

/-- The operations that a home performs on a word of memory (11 R195, R197). -/
inductive AmoOp where
  | add32 | add64 | min32 | minn32 | min64 | max32 | maxn32 | max64
  | and32 | or32 | xor32 | swap32 | cas32 | cas64 | fadd32
  deriving DecidableEq, Repr

/-- One atomic or reduction at byte off of a line: operand x, compare value c (cas only). -/
structure AmoReq where
  op : AmoOp
  off : Nat
  x : Dword
  c : Dword
  deriving DecidableEq, Repr

/-- What a packet asks of the target (19 R339), or a device of the pod of another: to count bytes as landed (16 R291), to check a
waiter word and queue the sender's node, to wake waiters (14 R262), to take the node of an earlier request away, whose workgroup has
ended, or to set up a connection of a delivery service: 0 reliable unordered, 1 reliable ordered, 2 and above unreliable. -/
inductive PacketKind where
  | write (bytes : List Byte)
  | read (size : Nat)
  | amo (rs : List AmoReq)
  | dred (tag : DTag) (off : Nat) (x : Dword)
  | landed (n : Nat)
  | waitq (x : Word)
  | wake (n : Nat)
  | unwait (tag : Nat)
  | connect (service : Nat)
  deriving DecidableEq, Repr

/-- How a packet is encrypted (19 R341): in page mode under a window's key, in the hop mode of the links it takes, or not at all. -/
inductive Crypt where
  | page | hop | clear
  deriving DecidableEq, Repr

/-- A scale-out or peer packet that addresses a window of this device (15 R275, R277, 19 R339, R341), with the sender's Rime stamp, which
only a packet of the pod carries (17 R302, R303). far marks one of another pod; seq is the initiator's packet counter under the key, auth
tells that its authentication tag is right, codes are the carriage codes of its granules (19 R340). -/
structure Packet where
  job : BitVec 16
  rank : BitVec 22
  region : BitVec 5
  off : Nat
  key : BitVec 16
  peer : Nat
  tag : Nat
  kind : PacketKind
  stamp : Dword := 0
  far : Bool := false
  mode : Crypt := .page
  seq : Nat := 0
  auth : Bool := true
  codes : List Word := []
  deriving DecidableEq, Repr

/-- What an acknowledgement answers (11 R212, 16 R291): unit u of operation n, with the data that a get brings; a plain store or reduction;
a waitq or wake of a pod peer's word, with its result; or a load or returning atomic of an issue set, with the values. -/
inductive AckBody where
  | unit (n u : Nat) (data : List Byte)
  | store
  | waiter (value : Nat)
  | load (data : List Byte)
  deriving DecidableEq, Repr

/-- An acknowledgement that reaches this device as initiator: the packet's tag; a code, 0 for success, with the kind of 15 R281 of an error;
the sender's stamp, within the pod (17 R302). -/
structure PacketAck where
  tag : Nat
  code : Byte
  kind : Nat
  stamp : Dword
  body : AckBody
  deriving DecidableEq, Repr

/-- The fields of a paddock-table entry that the provider writes (15 R279). Sizes of pinned L2 are in 4 MiB; away is the
residency field, held in the icehouse when set. -/
structure PaddockCfg where
  valid : Bool
  ox : Nat
  oy : Nat
  w : Nat
  h : Nat
  asids : List (Nat × Nat)
  job : BitVec 16
  parkArea : Nat
  l2pool : Nat
  quantumUs : Nat
  floors : Store Nat
  deadlineUs : Nat
  handler : Dword
  trapFrame : Dword
  errBase : Nat
  rimeFilter : BitVec 128
  traceEpoch : Dword
  stops : List Nat
  watchdogUs : Nat
  sampleUs : Nat
  perfBase : Nat
  perfLog2 : Nat
  debugger : Bool
  trustDomain : Bool
  away : Bool := false
  deriving DecidableEq, Repr

/-- An access to a register or table field that has no row of its own (00 R5): writes of tables that the supervisor or the
provider writes, the offset onto which the provider moves a spare global link (19 R336), and of items whose access is read-only; reads through a table window, which clear what is RC: a paddock's
error-log field (15 R281), a sink's descriptor (17 R307), a field of a launch-window page (19 R335). -/
inductive RegWriteReq where
  | rankException (pk idx : Nat) (e : Dword)
  | rankRange (pk idx : Nat) (e : BitVec 128)
  | rankMap (pk pod : Nat) (e : BitVec 320)
  | pathBitmap (group : Nat) (e : BitVec 320)
  | entropy (cls : Nat) (e : BitVec 256)
  | distanceClass (pk idx cls : Nat)
  | perfPeriod (k : Nat)
  | trayLimit (slot limit : Nat)
  | slotReachable (slot : Nat) (up : Bool)
  | identity (pod group slot : Nat)
  | spareLink (group link offset : Nat)
  | codeLoaded (pk : Nat) (hash : BitVec 256)
  | perfRingProvider (base log2 : Nat)
  | readOnly (addr : Dword) (v : Dword)
  | readErrorLog (pk : Nat)
  | readSink (n : Nat)
  | readLaunchWindow (pk : Nat) (off : Nat)
  deriving DecidableEq, Repr

/-- An SPDM responder (19 R343): the device as a whole, or a paddock. -/
abbrev Responder := Option Nat

end Sys2Proof
end

