-- ==== Sys2Proof/Machine/Num.lean ====
section
/-!
DEFINITION. Machine/Num.lean: number formats (06 R82-R93), exact values, the one rounding of 06 R86, and the correctly
rounded functions of 08 R138. A value is exact: a sign, a natural number and a power of two. Rounding finds the code
of the neighbour below and steps to the next code; codes of one sign count up through subnormals and normals alike.
-/

namespace Sys2Proof.Machine

/-- An exact value of any format. A zero keeps its sign. -/
inductive FVal where
  | nan
  | inf (neg : Bool)
  | fin (neg : Bool) (m : Nat) (e : Int)
  deriving DecidableEq, Repr

/-- A floating format: precision, exponent of the least subnormal, largest finite code without sign. -/
structure Fmt where
  prec : Nat
  emin : Int
  top : Nat
  deriving DecidableEq, Repr

/-- binary16 (06 R84). -/
def fmt16 : Fmt := ⟨11, -24, 0x7BFF⟩
/-- bfloat16 (06 R84). -/
def fmtBf : Fmt := ⟨8, -133, 0x7F7F⟩
/-- binary32 (06 R84). -/
def fmt32 : Fmt := ⟨24, -149, 0x7F7FFFFF⟩
/-- binary64 (06 R84). -/
def fmt64 : Fmt := ⟨53, -1074, 0x7FEFFFFFFFFFFFFF⟩

/-- Rounding modes (06 R86). -/
inductive Rnd where
  | rne | rtz | rup | rdn
  deriving DecidableEq, Repr

/-- The mode that a field names (06 R86). -/
def Rnd.of (r : BitVec 2) : Rnd :=
  match r.toNat with
  | 0 => .rne
  | 1 => .rtz
  | 2 => .rup
  | _ => .rdn

/-- Shift m left or right by the signed amount. -/
def shiftI (m : Nat) (n : Int) : Nat := if 0 ≤ n then m <<< n.toNat else m >>> (-n).toNat

/-- Does the mode step away from zero on a value of this sign, given how the rest compares with half of the step. -/
def Rnd.away (r : Rnd) (neg odd : Bool) (rem half : Nat) : Bool :=
  match r with
  | .rtz => false
  | .rup => !neg && rem != 0
  | .rdn => neg && rem != 0
  | .rne => decide (half < rem) || (decide (half = rem) && odd)

/-- Round m · 2^e, m positive, to a code of the format with its exponent unbounded (06 R86, steps 1 and 2). -/
def Fmt.round (F : Fmt) (r : Rnd) (neg : Bool) (m : Nat) (e : Int) : Nat :=
  let q := max F.emin ((Nat.log2 m : Int) + e - (F.prec - 1 : Nat))
  let base := (q - F.emin).toNat * 2 ^ (F.prec - 1)
  if q ≤ e then base + m <<< (e - q).toNat
  else
    let sh := (q - e).toNat
    let c := base + m >>> sh
    if r.away neg (c % 2 == 1) (m % 2 ^ sh * 2) (2 ^ sh) then c + 1 else c

/-- The exact value of a finite code without sign. -/
def Fmt.value (F : Fmt) (neg : Bool) (c : Nat) : FVal :=
  let h := 2 ^ (F.prec - 1)
  if c < h then .fin neg c F.emin else .fin neg (h + c % h) (F.emin + (c / h - 1 : Nat))

/-! ## IEEE and bfloat16 codes (06 R84, R85, R88) -/

/-- The weight of the sign bit of an IEEE format. -/
def Fmt.signBit (F : Fmt) : Nat := if F.prec = 11 ∨ F.prec = 8 then 2 ^ 15 else if F.prec = 24 then 2 ^ 31 else 2 ^ 63
/-- The canonical NaN of an IEEE format (06 R84). -/
def Fmt.qnan (F : Fmt) : Nat := F.top + 1 + 2 ^ (F.prec - 2)

/-- The value of an IEEE code. -/
def Fmt.decode (F : Fmt) (x : Nat) : FVal :=
  let neg := decide (x / F.signBit % 2 = 1)
  let c := x % F.signBit
  if F.top + 1 < c then .nan else if c = F.top + 1 then .inf neg else F.value neg c

/-- Does the mode keep an overflow of this sign at the largest finite value (06 R88, R91). -/
def Rnd.clips (r : Rnd) (neg : Bool) : Bool :=
  match r with
  | .rtz => true
  | .rdn => !neg
  | .rup => neg
  | .rne => false

/-- The IEEE code of a value (06 R85, R86, R88). -/
def Fmt.encode (F : Fmt) (r : Rnd) (sat : Bool) (v : FVal) : Nat :=
  match v with
  | .nan => F.qnan
  | .inf neg => (if neg then F.signBit else 0) + (if sat then F.top else F.top + 1)
  | .fin neg m e =>
    let sg := if neg then F.signBit else 0
    if m = 0 then sg
    else
      let c := F.round r neg m e
      if c ≤ F.top then sg + c else sg + (if sat || r.clips neg then F.top else F.top + 1)

/-- A binary32 word's value. -/
def f32Of (x : Word) : FVal := fmt32.decode x.toNat
/-- A binary64 word's value. -/
def f64Of (x : Dword) : FVal := fmt64.decode x.toNat
/-- A binary16 word's value. -/
def f16Of (x : BitVec 16) : FVal := fmt16.decode x.toNat
/-- The binary32 word of a value, under RNE (06 R85). -/
def toF32 (v : FVal) : Word := BitVec.ofNat 32 (fmt32.encode .rne false v)
/-- The binary64 word of a value, under RNE. -/
def toF64 (v : FVal) : Dword := BitVec.ofNat 64 (fmt64.encode .rne false v)
/-- The binary16 word of a value, under RNE. -/
def toF16 (v : FVal) : BitVec 16 := BitVec.ofNat 16 (fmt16.encode .rne false v)

/-! ## Exact arithmetic -/

/-- The value with its sign changed. -/
def FVal.neg : FVal → FVal
  | .nan => .nan
  | .inf s => .inf (!s)
  | .fin s m e => .fin (!s) m e

/-- The signed numerator of a finite value over the power of two e', which is at most its exponent. -/
def scaled (neg : Bool) (m : Nat) (e e' : Int) : Int := (if neg then -1 else 1) * (m <<< (e - e').toNat : Nat)

/-- An exact finite value from a signed numerator; zero takes the given sign. -/
def FVal.ofInt (z : Bool) (x e : Int) : FVal := if x = 0 then .fin z 0 0 else .fin (decide (x < 0)) x.natAbs e

/-- Exact sum; an exact zero is +0 unless both addends are −0 (06 R85). -/
def FVal.add : FVal → FVal → FVal
  | .nan, _ => .nan
  | _, .nan => .nan
  | .inf a, .inf b => if a = b then .inf a else .nan
  | .inf a, .fin .. => .inf a
  | .fin .., .inf b => .inf b
  | .fin s m e, .fin s' m' e' =>
    let q := min e e'
    FVal.ofInt ((s && s') && (m == 0) && (m' == 0)) (scaled s m e q + scaled s' m' e' q) q

/-- Exact product; 0 · ∞ is NaN (08 R134). -/
def FVal.mul : FVal → FVal → FVal
  | .nan, _ => .nan
  | _, .nan => .nan
  | .inf a, .inf b => .inf (a != b)
  | .inf a, .fin s m _ => if m = 0 then .nan else .inf (a != s)
  | .fin s m _, .inf b => if m = 0 then .nan else .inf (s != b)
  | .fin s m e, .fin s' m' e' => .fin (s != s') (m * m') (e + e')

/-- The value times 2^n. -/
def FVal.scale (n : Int) : FVal → FVal
  | .fin s m e => .fin s m (e + n)
  | v => v

/-- Exact sum of the terms of a block, with the special values of 06 R96: an exact zero is +0. -/
def blockSum (ts : List FVal) : FVal :=
  if ts.any (fun t => decide (t = .nan)) then .nan
  else
    let p := ts.any (fun t => decide (t = .inf false))
    let n := ts.any (fun t => decide (t = .inf true))
    if p && n then .nan else if p then .inf false else if n then .inf true
    else
      match ts.foldl FVal.add (.fin false 0 0) with
      | .fin s m e => if m = 0 then .fin false 0 0 else .fin s m e
      | v => v

/-- Is the value NaN. -/
def FVal.isNan (v : FVal) : Bool := decide (v = .nan)

/-- Order of two values that are not NaN: −1, 0 or 1, with −0 equal to +0. -/
def FVal.cmp : FVal → FVal → Int
  | .inf a, .inf b => if a = b then 0 else if a then -1 else 1
  | .inf a, _ => if a then -1 else 1
  | _, .inf b => if b then 1 else -1
  | .fin s m e, .fin s' m' e' =>
    let q := min e e'
    Int.sign (scaled s m e q - scaled s' m' e' q)
  | _, _ => 0

/-- Is a value negative by its sign. -/
def FVal.isNeg : FVal → Bool
  | .nan => false
  | .inf s => s
  | .fin s _ _ => s

/-! ## Integers (06 R83, R92) -/

/-- Round m · 2^e to an integer of the sign. -/
def roundInt (r : Rnd) (neg : Bool) (m : Nat) (e : Int) : Int :=
  let a : Nat :=
    if 0 ≤ e then m <<< e.toNat
    else
      let sh := (-e).toNat
      let c := m >>> sh
      if r.away neg (c % 2 == 1) (m % 2 ^ sh * 2) (2 ^ sh) then c + 1 else c
  if neg then -(a : Int) else a

/-- Clamp to a range. -/
def clampI (lo hi x : Int) : Int := if x < lo then lo else if hi < x then hi else x

/-- Convert to an integer range: NaN gives 0, infinities and values outside are clamped (06 R92). -/
def toInt (r : Rnd) (lo hi : Int) : FVal → Int
  | .nan => 0
  | .inf s => if s then lo else hi
  | .fin s m e => clampI lo hi (roundInt r s m e)

/-- Range of an integer format code (06 R82): width and signedness. -/
def intRange (c : Nat) : Int × Int :=
  let w := 8 * 2 ^ (c % 4)
  if c < 4 then (-(2 ^ (w - 1) : Int), 2 ^ (w - 1) - 1) else (0, 2 ^ w - 1)

/-! ## binary8 (06 R87-R91) -/

/-- Precision of a binary8 code. -/
def b8P (c : BitVec 6) : Nat := (c.toNat - 0x20) / 4 + 1
/-- Is a binary8 code natural. -/
def b8N (c : BitVec 6) : Bool := c.getLsbD 1
/-- Is a binary8 code finite. -/
def b8F (c : BitVec 6) : Bool := c.getLsbD 0
/-- The format of a binary8 code. -/
def b8Fmt (c : BitVec 6) : Fmt :=
  let P := b8P c
  if b8N c then ⟨P, 2 - P - 2 ^ (8 - P), if b8F c then 0xFE else 0xFD⟩
  else ⟨P, 2 - P - 2 ^ (7 - P), if b8F c then 0x7F else 0x7E⟩

/-- The value of a binary8 code (06 R87, R89). -/
def b8Value (c : BitVec 6) (x : Byte) : FVal :=
  let n := x.toNat
  if b8N c then
    if n = 0xFF then .nan else if n = 0xFE ∧ !b8F c then .inf false else (b8Fmt c).value false n
  else if n = 0x80 then .nan
  else if n % 128 = 0x7F ∧ !b8F c then .inf (decide (128 ≤ n))
  else (b8Fmt c).value (decide (128 ≤ n)) (n % 128)

/-- Convert to binary8 by the table of 06 R91, its rows in order. -/
def toB8 (c : BitVec 6) (r : Rnd) (sat : Bool) (v : FVal) : Byte :=
  let F := b8Fmt c
  let nan : Byte := if b8N c then 0xFF else 0x80
  let sg (s : Bool) : Nat := if s then 128 else 0
  let infCode (s : Bool) : Byte := BitVec.ofNat 8 (sg s + (F.top + 1))
  let big (s : Bool) : Byte := BitVec.ofNat 8 (sg s + F.top)
  match v with
  | .nan => nan
  | .inf s =>
    if b8N c && s then (if sat then 0 else nan)
    else if sat then big s else if b8F c then nan else infCode s
  | .fin s m e =>
    if m = 0 then 0
    else if b8N c && s then (if sat then 0 else nan)
    else
      let k := F.round r s m e
      if F.top < k then
        (if sat || r.clips s then big s else if b8F c then nan else infCode s)
      else if k = 0 then 0 else BitVec.ofNat 8 (sg s + k)

/-! ## Any format code of vcvt (08 R139) -/

/-- The value of a source of format code c, in the low bits of x. -/
def sourceValue (c : BitVec 6) (x : Dword) : FVal :=
  match c.toNat with
  | 0x08 => fmt16.decode (x.toNat % 2 ^ 16)
  | 0x09 => fmtBf.decode (x.toNat % 2 ^ 16)
  | 0x0A => fmt32.decode (x.toNat % 2 ^ 32)
  | 0x0B => fmt64.decode x.toNat
  | n =>
    if n < 4 then FVal.ofInt false ((BitVec.ofNat (8 * 2 ^ n) x.toNat).toInt) 0
    else if n < 8 then FVal.ofInt false ((x.toNat % 2 ^ (8 * 2 ^ (n % 4)) : Nat) : Int) 0
    else b8Value c (x.setWidth 8)

/-- A value as a destination of format code c: narrow signed integers sign-extended to 32 bits, others zero above. -/
def destValue (c : BitVec 6) (r : Rnd) (sat : Bool) (v : FVal) : Dword :=
  match c.toNat with
  | 0x08 => BitVec.ofNat 64 (fmt16.encode r sat v)
  | 0x09 => BitVec.ofNat 64 (fmtBf.encode r sat v)
  | 0x0A => BitVec.ofNat 64 (fmt32.encode r sat v)
  | 0x0B => BitVec.ofNat 64 (fmt64.encode r sat v)
  | n =>
    if n < 8 then BitVec.ofInt 64 (toInt r (intRange n).1 (intRange n).2 v)
    else (toB8 c r sat v).setWidth 64

/-! ## Functions of 08 R138

A result that is not a dyadic value is given by its digits below and one sticky digit; a rounding at a coarser place
then decides as the exact result does. -/

/-- m · 2^e and a little more when st holds. -/
def stickyVal (neg : Bool) (m : Nat) (e : Int) (st : Bool) : FVal := .fin neg (2 * m + (if st then 1 else 0)) (e - 1)

/-- The integer square root of n below 2^(2·b), bit by bit on top of r. -/
def isqrtFrom : Nat → Nat → Nat → Nat
  | 0, _, r => r
  | b + 1, n, r => isqrtFrom b n (if (r + 2 ^ b) * (r + 2 ^ b) ≤ n then r + 2 ^ b else r)
/-- The integer square root. -/
def isqrt (n : Nat) : Nat := isqrtFrom (Nat.log2 n / 2 + 1) n 0

/-- 1/x (08 R138). -/
def fRcp : FVal → FVal
  | .nan => .nan
  | .inf s => .fin s 0 0
  | .fin s m e =>
    if m = 0 then .inf s
    else
      let n := Nat.log2 m + 64
      stickyVal s (2 ^ n / m) (-(n : Int) - e) (2 ^ n % m != 0)

/-- √x (08 R138). -/
def fSqrt : FVal → FVal
  | .nan => .nan
  | .inf s => if s then .nan else .inf false
  | .fin s m e =>
    if m = 0 then .fin s 0 0
    else if s then .nan
    else
      let (m', e') := if e % 2 = 0 then (m, e) else (2 * m, e - 1)
      let n := m' * 2 ^ 80
      let r := isqrt n
      stickyVal false r (e' / 2 - 40) (r * r != n)

/-- 1/√x (08 R138). -/
def fRsqrt : FVal → FVal
  | .nan => .nan
  | .inf s => if s then .nan else .fin false 0 0
  | .fin s m e =>
    if m = 0 then .inf s
    else if s then .nan
    else
      let (m', e') := if e % 2 = 0 then (m, e) else (2 * m, e - 1)
      let r := isqrt (2 ^ 160 / m')
      stickyVal false r (-(e' / 2) - 80) (r * r * m' != 2 ^ 160)

/-- 2^(0.b1 b2 … bn) over 128 fraction bits, by one square root for each bit of f, the last first. -/
def exp2Frac : Nat → Nat → Nat → Nat
  | 0, _, y => y
  | n + 1, f, y => exp2Frac n (f / 2) (isqrt ((if f % 2 = 1 then 2 else 1) * y * 2 ^ 128))

/-- 2^x (08 R138). -/
def fExp2 : FVal → FVal
  | .nan => .nan
  | .inf s => if s then .fin false 0 0 else .inf false
  | .fin s m e =>
    if m = 0 then .fin false 1 0
    else if 8 ≤ (Nat.log2 m : Int) + e then (if s then .fin false 1 (-200) else .fin false 1 200)
    else if (Nat.log2 m : Int) + e < -27 then .fin false 1 0
    else
      let x : Int := if s then -(shiftI m (e + 60) : Int) else shiftI m (e + 60)
      let i := x / 2 ^ 60
      let f := (x % 2 ^ 60).toNat
      if f = 0 then .fin false 1 i
      else stickyVal false (exp2Frac 60 f (2 ^ 128)) (i - 128) true

/-- n more binary digits of log2 y, y in [1, 2) over 200 fraction bits, after the digits r. -/
def log2Frac : Nat → Nat → Nat → Nat
  | 0, _, r => r
  | n + 1, y, r =>
    let z := y * y / 2 ^ 200
    if 2 ^ 201 ≤ z then log2Frac n (z / 2) (2 * r + 1) else log2Frac n z (2 * r)

/-- log2 x (08 R138). -/
def fLog2 : FVal → FVal
  | .nan => .nan
  | .inf s => if s then .nan else .inf false
  | .fin s m e =>
    if m = 0 then .inf true
    else if s then .nan
    else
      let k := Nat.log2 m
      let l : Int := k + e
      if m = 2 ^ k then FVal.ofInt false l 0
      else
        let v : Int := l * 2 ^ 150 + (log2Frac 150 (m * 2 ^ (200 - k)) 0 : Nat)
        if 0 ≤ v then stickyVal false v.toNat (-150) true else stickyVal true ((-v).toNat - 1) (-150) true

end Sys2Proof.Machine
end

