-- ==== Sys2Proof/Machine/Flags.lean ====
section
/-!
DEFINITION. Machine/Flags.lean: conditions, classes and counts. The F16 has no status flags (06 R85); what other machines keep
in flags is a predicate bit here, and this file computes it.
-/

namespace Sys2Proof.Machine

/-- An integer condition .eq .ne .lt .le .gt .ge from a < b and a = b (02 R27). -/
def condInt (c : Nat) (lt eq : Bool) : Bool :=
  match c with
  | 0 => eq
  | 1 => !eq
  | 2 => lt
  | 3 => lt || eq
  | 4 => !(lt || eq)
  | _ => !lt

/-- A condition on two signed values. -/
def condS {n : Nat} (c : Nat) (a b : BitVec n) : Bool := condInt c (a.slt b) (a == b)
/-- A condition on two natural values. -/
def condN {n : Nat} (c : Nat) (a b : BitVec n) : Bool := condInt c (a.ult b) (a == b)

/-- A condition on two floating values (08 R136); 6 is .ord and 7 is .uno. -/
def condF (c : Nat) (a b : FVal) : Bool :=
  let un := a.isNan || b.isNan
  match c with
  | 1 => un || a.cmp b != 0
  | 6 => !un
  | 7 => un
  | _ => !un && condInt c (decide (a.cmp b < 0)) (a.cmp b == 0)

/-- The lesser or greater of two floating values, −0 below +0, any NaN giving NaN (08 R135). -/
def fMinMax (greater : Bool) (a b : FVal) : FVal :=
  if a.isNan || b.isNan then .nan
  else
    let aLess := decide (a.cmp b < 0) || (a.cmp b == 0 && a.isNeg && !b.isNeg)
    if aLess == greater then b else a

/-- The class mask of a binary32 word (08 R137). -/
def classF32 (x : Word) : Word :=
  let neg := x.getLsbD 31
  let c := (x.extractLsb' 0 31).toNat
  if 0x7F800000 < c then 0x100#32
  else if c = 0x7F800000 then (if neg then 0x001#32 else 0x080#32)
  else if 0x00800000 ≤ c then (if neg then 0x002#32 else 0x040#32)
  else if c ≠ 0 then (if neg then 0x004#32 else 0x020#32)
  else if neg then 0x008#32 else 0x010#32

/-- Number of 1 bits. -/
def popCount {n : Nat} (x : BitVec n) : Nat := ((List.range n).filter (fun i => x.getLsbD i)).length
/-- Number of 0 bits above the highest 1 bit; the width when there is none. -/
def leadZeros {n : Nat} (x : BitVec n) : Nat := if x = 0#n then n else n - 1 - Nat.log2 x.toNat

/-- The lesser or greater of two signed values. -/
def sMinMax {n : Nat} (greater : Bool) (a b : BitVec n) : BitVec n := if (a.slt b) == greater then b else a
/-- The lesser or greater of two natural values. -/
def uMinMax {n : Nat} (greater : Bool) (a b : BitVec n) : BitVec n := if (a.ult b) == greater then b else a

/-! ## The carriage code (19 R340) -/

/-- One byte into a CRC-32C register: eight steps of the reflected polynomial. -/
def crcByte (c : Word) (b : Byte) : Word :=
  (List.range 8).foldl (fun x _ => if x.getLsbD 0 then (x >>> 1) ^^^ 0x82F63B78#32 else x >>> 1) (c ^^^ b.setWidth 32)
/-- CRC-32C of bytes. -/
def crc32c (bs : List Byte) : Word := ~~~(bs.foldl crcByte 0xFFFFFFFF#32)
/-- The carriage code of a granule: its 16 bytes, its byte enables and its 64-bit target address. DESIGN CHOICE (log 80): the spec does not
say in which order the three enter the code; here it is this one, each least significant byte first. Unsafe. -/
def granCode (data : BitVec 128) (mask : BitVec 16) (addr : Dword) : Word :=
  crc32c ((List.range 16).map (fun i => data.extractLsb' (8 * i) 8) ++ [mask.extractLsb' 0 8, mask.extractLsb' 8 8] ++
    (List.range 8).map (fun i => addr.extractLsb' (8 * i) 8))
/-- Bytes as a number, first byte lowest. -/
def bytesNat (bs : List Byte) : Nat := bs.foldr (fun b x => b.toNat + 256 * x) 0
/-- The carriage codes of the granules that bytes at a target address fill. -/
def carriageCodes (addr : Dword) (bs : List Byte) : List Word :=
  let k := addr.toNat % 16
  let byte (i : Nat) : Option Byte := if i < k then none else bs[i - k]?
  (List.range ((k + bs.length + 15) / 16)).map (fun g =>
    granCode (BitVec.ofNat 128 ((List.range 16).foldr (fun i x => ((byte (16 * g + i)).getD 0).toNat + 256 * x) 0))
      (BitVec.ofNat 16 ((List.range 16).foldr (fun i x => (if (byte (16 * g + i)).isSome then 1 else 0) + 2 * x) 0))
      (addr - BitVec.ofNat 64 k + BitVec.ofNat 64 (16 * g)))

end Sys2Proof.Machine
end

