-- ==== Sys2Proof/Syntax.lean ====
section
/-!
DEFINITION. Syntax.lean: Instr, one constructor per row of spec/opcode_table.json. Instructions stand first, then the
rows without operands, then the events that reach the device from outside; the order carries no meaning.
-/

namespace Sys2Proof

/-- One constructor per row of spec/opcode_table.json: the instructions of the seven classes (04 R69) with their operand
fields, and the events of the machine with what the event names. -/
inductive Instr where
  /-- R72: An issue set fetches and checks a clause, waits for the counters named in its wait mask, handles any stop site and then issues the clause's instructions in word order. -/
  | clauseIssue (q : SpanRef)
  /-- R110: Once the clause's uncounted results are written, each lane takes its target or the fall-through address, meet is applied, and issue sets re-form. -/
  | clauseEnd (q : SpanRef)
  /-- R72: A counted register-targeting operation writes its result, and its pending counter falls. -/
  | countedResultWrite (g sp n : Nat)
  /-- R319: Once every counted result of the span is written, the faulting lanes enter the user or privileged handler, with a trap frame stored when the level is 2. -/
  | trapEntry (g sp : Nat)
  /-- R51: The yard stops the spans at clause boundaries, waits for the pending counters to reach zero, copies the state to the park image and frees the core resources. -/
  | park (g : Nat)
  /-- R53: The yard chooses a parked stage-workgroup and restores it on its own core from the park image. -/
  | makeResident (g : Nat)
  /-- R31: The yard makes an admitted, unstarted stage-workgroup resident, with the initial register state and its declared handles allocated. -/
  | workgroupStart (g : Nat)
  /-- R43: Once every member core of a pen has room, the yard admits the pen's members together as a gang, each taking an admission entry. -/
  | penAdmission (l pen : Nat)
  /-- R254: The yard examines the head of the highest non-empty queue level and admits it, refuses it, or leaves it waiting. -/
  | launchAdmission (pk : Nat)
  /-- R205: A unit of a class 4 operation lands at its destination, and the full bits of each fully written granule are set. -/
  | asyncUnitLand (n u : Nat)
  /-- R239: A GetS request is served at the home according to the line's home state. -/
  | gets (m : Hdr)
  /-- R239: A PutE eviction notice is handled at the home and answered with PutAck. -/
  | pute (m : Hdr)
  /-- R239: A PutM eviction notice with data is written or discarded at the home and answered with PutAck. -/
  | putm (m : Hdr) (data : LineData)
  /-- R239: A PutO eviction notice with data is handled at the home and answered with PutAck. -/
  | puto (m : Hdr) (data : LineData)
  /-- R240: An invalidation reaches a cache, which drops or never installs its copy and replies InvAck. -/
  | inv (m : Hdr)
  /-- R240: A FwdS reaches the owner, which supplies Data and moves to S or O. -/
  | fwds (m : Hdr) (rq : BitVec 13)
  /-- R240: A FwdX reaches the owner, which supplies Data to the requester and becomes I. -/
  | fwdx (m : Hdr) (rq : BitVec 13)
  /-- R240: A Recall reaches the owner, which returns its data to the home and becomes I. -/
  | recall (m : Hdr)
  /-- R240: A Merge reaches a drift holder, which sends every partial in a DrPart with reply count 1 and becomes I. -/
  | merge (m : Hdr)
  /-- R240: A Data response reaches a cache in a transient state and fills the line. -/
  | data (m : Hdr) (data : LineData) (excl : Bool)
  /-- R235: An invalidation reply, nil or not, reaches the home and lowers acks. -/
  | invack (m : Hdr) (nil : Bool)
  /-- R239: A forward acknowledgement reaches the home, which completes the pending grant and answers any held Put. -/
  | fwdack (m : Hdr) (dirty : Option LineData)
  /-- R240: A PutAck reaches an evicting cache, which frees its eviction buffer and becomes I. -/
  | putack (m : Hdr)
  /-- R243: A drift partial reaches the home, is added exactly into the drift buffer, and lowers acks by its reply count. -/
  | drpart (m : Hdr) (tag : DTag) (parts : Store Acc) (n : Nat)
  /-- R104: Writes a + b modulo 2^64 to s[sd]. -/
  | sadd (d a : BitVec 6) (b : SOp)
  /-- R104: Writes a - b modulo 2^64 to s[sd]. -/
  | ssub (d a : BitVec 6) (b : SOp)
  /-- R104: Writes the low 64 bits of a times b. -/
  | smul (d a : BitVec 6) (b : SOp)
  /-- R104: Writes the high 64 bits of the signed 128-bit product. -/
  | smulh (d a : BitVec 6) (b : SOp)
  /-- R104: Writes the high 64 bits of the natural 128-bit product. -/
  | smulhn (d a : BitVec 6) (b : SOp)
  /-- R104: Writes the bitwise AND of a and b. -/
  | sand (d a : BitVec 6) (b : SOp)
  /-- R104: Writes the bitwise OR of a and b. -/
  | sor (d a : BitVec 6) (b : SOp)
  /-- R104: Writes the bitwise XOR of a and b. -/
  | sxor (d a : BitVec 6) (b : SOp)
  /-- R104: Shifts a left by b[5:0]. -/
  | sshl (d a : BitVec 6) (b : SOp)
  /-- R104: Shifts a right by b[5:0], filling with zeros. -/
  | sshr (d a : BitVec 6) (b : SOp)
  /-- R104: Shifts a right by b[5:0], filling with bit 63. -/
  | ssar (d a : BitVec 6) (b : SOp)
  /-- R104: Writes the signed lesser of a and b. -/
  | smin (d a : BitVec 6) (b : SOp)
  /-- R104: Writes the signed greater of a and b. -/
  | smax (d a : BitVec 6) (b : SOp)
  /-- R104: Writes the natural lesser of a and b. -/
  | sminn (d a : BitVec 6) (b : SOp)
  /-- R104: Writes the natural greater of a and b. -/
  | smaxn (d a : BitVec 6) (b : SOp)
  /-- R105: Writes operand b to s[sd]. -/
  | smov (d : BitVec 6) (b : SOp)
  /-- R105: Writes the literal word to s[sd], zero- or sign-extended. -/
  | smovk (d : BitVec 6) (sx : BitVec 1) (lit : Word)
  /-- R105: Writes the literal word to bits [63:32] of s[sd] and keeps bits [31:0]. -/
  | smovkh (d : BitVec 6) (lit : Word)
  /-- R106: Compares a with b as signed or natural values and writes 0 or 1 to s[sd]. -/
  | scmp (n : BitVec 1) (c : BitVec 3) (d a : BitVec 6) (b : SOp)
  /-- R106: Compares a with b and sets the bit of pN for every lane of the issue set. -/
  | scmpP (n : BitVec 1) (c q : BitVec 3) (a : BitVec 6) (b : SOp)
  /-- R107: Chooses s[sa] or b according to whether any or all lanes of pN are set. -/
  | ssel (all : BitVec 1) (q : BitVec 3) (d a : BitVec 6) (b : SOp)
  /-- R108: Reads one lane of a vector register or pair into s[sd]. -/
  | sfromv (w64 hi : BitVec 1) (lo d : BitVec 6) (b : SOp)
  /-- R109: Writes the bits of pN for the lanes of the issue set to s[sd]. -/
  | sballot (d : BitVec 6) (q : BitVec 3)
  /-- R109: Writes the number of 1 bits in b. -/
  | spopc (d : BitVec 6) (b : SOp)
  /-- R109: Writes the number of leading zero bits of b. -/
  | sclz (d : BitVec 6) (b : SOp)
  /-- R111: Branches every lane of the issue set to the literal target. -/
  | br (lit : Word)
  /-- R111: Branches the whole issue set when s[sa] is zero. -/
  | bz (a : BitVec 6) (lit : Word)
  /-- R111: Branches the whole issue set when s[sa] is nonzero. -/
  | bnz (a : BitVec 6) (lit : Word)
  /-- R112: Branches the lanes whose bit in pN is set, or clear for .not, dividing the issue set. -/
  | bp (neg : BitVec 1) (q : BitVec 3) (lit : Word)
  /-- R113: Writes the fall-through address to s[sd] and branches to the literal target. -/
  | call (d : BitVec 6) (lit : Word)
  /-- R113: Branches every lane to s[sa], faulting with code 04 on a non-canonical target. -/
  | ret (a : BitVec 6)
  /-- R113: Branches every lane indirectly to s[sa]. -/
  | bi (a : BitVec 6)
  /-- R119: Enrols the threads of the issue set in jN at the literal meeting address and sets their mr. -/
  | mset (j : BitVec 3) (lit : Word)
  /-- R120: Removes the issue set's threads from jN, restores their mr and runs release_check. -/
  | mstrike (j : BitVec 3)
  /-- R121: Writes each lane's mr into a vector register pair. -/
  | mget (d : BitVec 6)
  /-- R121: Sets each lane's mr from a vector register pair. -/
  | mput (a : BitVec 6)
  /-- R122: Writes the held and enrol bits of jN to s[sd]. -/
  | jread (d : BitVec 6) (j : BitVec 3)
  /-- R122: Writes the meeting address of jN to s[sd]. -/
  | jreadAddr (d : BitVec 6) (j : BitVec 3)
  /-- R128: Copies va to vd in each active lane. -/
  | vmov (p : BitVec 3) (d a : BitVec 7)
  /-- R128: Writes the literal word to vd in each active lane. -/
  | vmovk (p : BitVec 3) (d : BitVec 7) (lit : Word)
  /-- R128: Adds modulo 2^32 per lane. -/
  | vaddI32 (p : BitVec 3) (d a b : BitVec 7)
  /-- R128: Adds register pairs modulo 2^64 per lane. -/
  | vaddI64 (p : BitVec 3) (d a b : BitVec 7)
  /-- R128: Subtracts modulo 2^32 per lane. -/
  | vsubI32 (p : BitVec 3) (d a b : BitVec 7)
  /-- R128: Subtracts register pairs modulo 2^64 per lane. -/
  | vsubI64 (p : BitVec 3) (d a b : BitVec 7)
  /-- R128: Writes the low 32 bits of the product per lane. -/
  | vmulI32 (p : BitVec 3) (d a b : BitVec 7)
  /-- R128: Writes the high 32 bits of the signed product per lane. -/
  | vmulhI32 (p : BitVec 3) (d a b : BitVec 7)
  /-- R128: Writes the high 32 bits of the natural product per lane. -/
  | vmulhN32 (p : BitVec 3) (d a b : BitVec 7)
  /-- R128: Writes the low 32 bits of a times b plus vd per lane. -/
  | vmadI32 (p : BitVec 3) (d a b : BitVec 7)
  /-- R128: Bitwise AND per lane. -/
  | vand (p : BitVec 3) (d a b : BitVec 7)
  /-- R128: Bitwise OR per lane. -/
  | vor (p : BitVec 3) (d a b : BitVec 7)
  /-- R128: Bitwise XOR per lane. -/
  | vxor (p : BitVec 3) (d a b : BitVec 7)
  /-- R128: Bitwise NOT per lane. -/
  | vnot (p : BitVec 3) (d a : BitVec 7)
  /-- R129: Shifts left by a per-lane count, giving 0 for counts of 32 or more. -/
  | vshl (p : BitVec 3) (d a b : BitVec 7)
  /-- R129: Shifts right logically by a per-lane count. -/
  | vshr (p : BitVec 3) (d a b : BitVec 7)
  /-- R129: Shifts right arithmetically by a per-lane count. -/
  | vsar (p : BitVec 3) (d a b : BitVec 7)
  /-- R128: Signed lesser per lane. -/
  | vminI32 (p : BitVec 3) (d a b : BitVec 7)
  /-- R128: Signed greater per lane. -/
  | vmaxI32 (p : BitVec 3) (d a b : BitVec 7)
  /-- R128: Natural lesser per lane. -/
  | vminN32 (p : BitVec 3) (d a b : BitVec 7)
  /-- R128: Natural greater per lane. -/
  | vmaxN32 (p : BitVec 3) (d a b : BitVec 7)
  /-- R128: Absolute value modulo 2^32 per lane. -/
  | vabsI32 (p : BitVec 3) (d a : BitVec 7)
  /-- R128: Counts leading zero bits per lane. -/
  | vclz (p : BitVec 3) (d a : BitVec 7)
  /-- R128: Counts 1 bits per lane. -/
  | vpopc (p : BitVec 3) (d a : BitVec 7)
  /-- R128: Reverses the bit order per lane. -/
  | vbrev (p : BitVec 3) (d a : BitVec 7)
  /-- R129: Extracts a zero-extended bit field per lane. -/
  | vbfx (p : BitVec 3) (d a b : BitVec 7)
  /-- R129: Inserts a bit field into vd per lane. -/
  | vbfi (p : BitVec 3) (d a b : BitVec 7)
  /-- R130: Selects va or vb in every lane of the issue set according to pN. -/
  | vsel (p : BitVec 3) (d a b : BitVec 7)
  /-- R131: Compares as signed 32-bit values and writes predicate bits. -/
  | vcmpI32 (p : BitVec 3) (c : BitVec 4) (q : BitVec 3) (a b : BitVec 7)
  /-- R131: Compares as natural 32-bit values and writes predicate bits. -/
  | vcmpN32 (p : BitVec 3) (c : BitVec 4) (q : BitVec 3) (a b : BitVec 7)
  /-- R131: Compares signed 64-bit pairs and writes predicate bits. -/
  | vcmpI64 (p : BitVec 3) (c : BitVec 4) (q : BitVec 3) (a b : BitVec 7)
  /-- R128: Signed saturating add per lane. -/
  | vaddsI32 (p : BitVec 3) (d a b : BitVec 7)
  /-- R132: Each lane reads va from the lane given by vb within the issue set. -/
  | vshflIdx (p : BitVec 3) (d a b : BitVec 7)
  /-- R132: Each lane reads va from lane l XOR c. -/
  | vshflXor (p : BitVec 3) (d a : BitVec 7) (c : BitVec 5)
  /-- R132: Each lane reads va from lane l - c. -/
  | vshflUp (p : BitVec 3) (d a : BitVec 7) (c : BitVec 5)
  /-- R132: Each lane reads va from lane l + c. -/
  | vshflDown (p : BitVec 3) (d a : BitVec 7) (c : BitVec 5)
  /-- R132: Each lane reads va from lane c. -/
  | vbcast (p : BitVec 3) (d a : BitVec 7) (c : BitVec 5)
  /-- R133: Writes the lane number to each active lane. -/
  | vlaneid (p : BitVec 3) (d : BitVec 7)
  /-- R133: Writes the inclusive prefix sum over active lanes. -/
  | vprefixI32 (p : BitVec 3) (d a : BitVec 7)
  /-- R134: Correctly rounded binary32 addition under RNE. -/
  | vaddF32 (p : BitVec 3) (d a b : BitVec 7)
  /-- R134: Correctly rounded binary32 subtraction. -/
  | vsubF32 (p : BitVec 3) (d a b : BitVec 7)
  /-- R134: Correctly rounded binary32 multiplication. -/
  | vmulF32 (p : BitVec 3) (d a b : BitVec 7)
  /-- R134: Binary32 fused multiply-add into vd with one rounding. -/
  | vfmaF32 (p : BitVec 3) (d a b : BitVec 7)
  /-- R135: Binary32 lesser, with -0 below +0 and NaN propagating. -/
  | vminF32 (p : BitVec 3) (d a b : BitVec 7)
  /-- R135: Binary32 greater. -/
  | vmaxF32 (p : BitVec 3) (d a b : BitVec 7)
  /-- R136: Binary32 compare writing predicate bits. -/
  | vcmpF32 (p : BitVec 3) (c : BitVec 4) (q : BitVec 3) (a b : BitVec 7)
  /-- R138: Correctly rounded reciprocal, with an optional pending counter. -/
  | vrcpF32 (p : BitVec 3) (d a : BitVec 7) (k : BitVec 3)
  /-- R138: Correctly rounded reciprocal square root. -/
  | vrsqrtF32 (p : BitVec 3) (d a : BitVec 7) (k : BitVec 3)
  /-- R138: Correctly rounded square root. -/
  | vsqrtF32 (p : BitVec 3) (d a : BitVec 7) (k : BitVec 3)
  /-- R138: Correctly rounded 2^x. -/
  | vexp2F32 (p : BitVec 3) (d a : BitVec 7) (k : BitVec 3)
  /-- R138: Correctly rounded log2 x. -/
  | vlog2F32 (p : BitVec 3) (d a : BitVec 7) (k : BitVec 3)
  /-- R137: Writes a one-hot class mask of the binary32 value. -/
  | vclassF32 (p : BitVec 3) (d a : BitVec 7)
  /-- R134: Correctly rounded binary64 addition on pairs. -/
  | vaddF64 (p : BitVec 3) (d a b : BitVec 7)
  /-- R134: Correctly rounded binary64 subtraction. -/
  | vsubF64 (p : BitVec 3) (d a b : BitVec 7)
  /-- R134: Correctly rounded binary64 multiplication. -/
  | vmulF64 (p : BitVec 3) (d a b : BitVec 7)
  /-- R134: Binary64 fused multiply-add into the vd pair. -/
  | vfmaF64 (p : BitVec 3) (d a b : BitVec 7)
  /-- R135: Binary64 lesser. -/
  | vminF64 (p : BitVec 3) (d a b : BitVec 7)
  /-- R135: Binary64 greater. -/
  | vmaxF64 (p : BitVec 3) (d a b : BitVec 7)
  /-- R136: Binary64 compare writing predicate bits. -/
  | vcmpF64 (p : BitVec 3) (c : BitVec 4) (q : BitVec 3) (a b : BitVec 7)
  /-- R134: Adds two packed binary16 elements per lane. -/
  | vaddF16x2 (p : BitVec 3) (d a b : BitVec 7)
  /-- R134: Multiplies two packed binary16 elements per lane. -/
  | vmulF16x2 (p : BitVec 3) (d a b : BitVec 7)
  /-- R134: Fused multiply-add on two packed binary16 elements per lane. -/
  | vfmaF16x2 (p : BitVec 3) (d a b : BitVec 7)
  /-- R139: Converts between formats under the rounding mode and saturation given in its literal. -/
  | vcvt (p : BitVec 3) (d a : BitVec 7) (sat : BitVec 1) (rnd : BitVec 2) (df sf : BitVec 6)
  /-- R140: Packs four registers into four bytes, converting or clamping as the format says. -/
  | vpack8 (p : BitVec 3) (d a : BitVec 7) (sat : BitVec 1) (f : BitVec 6)
  /-- R140: Unpacks four bytes into four registers. -/
  | vunpack8 (p : BitVec 3) (d a : BitVec 7) (f : BitVec 6)
  /-- R141: Multiplies by a block scale 2^(x-127) and rounds. -/
  | vscaleF32 (p : BitVec 3) (d a b : BitVec 7)
  /-- R142: Rearranges bytes of va and vd within each lane under the selector in vb. -/
  | vperm (p : BitVec 3) (d a b : BitVec 7)
  /-- R143: Adds a four-term binary8 dot product to a binary32 addend with one rounding. -/
  | vdot4 (p : BitVec 3) (d a b : BitVec 7)
  /-- R144: Modular addition modulo %mq on pairs. -/
  | vmodadd (p : BitVec 3) (d a b : BitVec 7)
  /-- R144: Modular subtraction. -/
  | vmodsub (p : BitVec 3) (d a b : BitVec 7)
  /-- R144: Modular multiplication from the exact product. -/
  | vmodmul (p : BitVec 3) (d a b : BitVec 7)
  /-- R144: Reduces a 128-bit group modulo q. -/
  | vmodred (p : BitVec 3) (d a : BitVec 7)
  /-- R145: Performs a Cooley-Tukey butterfly modulo q. -/
  | vnttCt (p : BitVec 3) (d a b : BitVec 7)
  /-- R145: Performs a Gentleman-Sande butterfly modulo q. -/
  | vnttGs (p : BitVec 3) (d a b : BitVec 7)
  /-- R153: Writes tcfgN from s[sa] after the legality check. -/
  | tcfgw (n : BitVec 4) (a : BitVec 6)
  /-- R153: Reads tcfgN into a vector register pair in every lane. -/
  | tcfgr (d : BitVec 7) (n : BitVec 4)
  /-- R153: Clears every byte of the tile register, or of its pair. -/
  | tzero (n : BitVec 4)
  /-- R155: Loads a tile from a tile handle, optionally waiting for full granules and clearing them. -/
  | tld (k : BitVec 3) (fe : BitVec 2) (dy dx n : BitVec 4) (sib : BitVec 1) (h : BitVec 6) (c : Coord)
  /-- R156: Loads a tile through a channel-permutation table. -/
  | tldPerm (k : BitVec 3) (fe : BitVec 2) (tT : BitVec 4) (bb : BitVec 1) (n : BitVec 4) (h : BitVec 6) (c : Coord)
  /-- R157: Stores a tile to a handle and sets the full bit of each touched granule. -/
  | tst (fe : BitVec 2) (dy dx n : BitVec 4) (sib : BitVec 1) (h : BitVec 6) (c : Coord)
  /-- R159: Copies tile bits in row-major order. -/
  | tmov (d s : BitVec 4)
  /-- R159: Transposes one tile into another. -/
  | tmovTr (d s : BitVec 4)
  /-- R164: Binary8 matrix multiply-accumulate into binary32 accumulators. -/
  | mmaB8 (k : BitVec 3) (bs : BitVec 2) (tB tA : BitVec 4) (v : BitVec 7)
  /-- R164: Block-scaled binary8 matrix multiply-accumulate. -/
  | mmaB8Scl (k : BitVec 3) (bs : BitVec 2) (tB tA : BitVec 4) (v vA vB : BitVec 7)
  /-- R165: 2:4-sparse binary8 matrix multiply-accumulate with metadata. -/
  | mmaB8Sp (k : BitVec 3) (bs : BitVec 2) (tM tB tA : BitVec 4) (v : BitVec 7)
  /-- R165: Block-scaled, sparse binary8 matrix multiply-accumulate. -/
  | mmaB8SclSp (k : BitVec 3) (bs : BitVec 2) (tM tB tA : BitVec 4) (v vA vB : BitVec 7)
  /-- R164: Bfloat16 matrix multiply-accumulate. -/
  | mmaBf16 (k : BitVec 3) (bs : BitVec 2) (tB tA : BitVec 4) (v : BitVec 7)
  /-- R164: Binary16 matrix multiply-accumulate. -/
  | mmaF16 (k : BitVec 3) (bs : BitVec 2) (tB tA : BitVec 4) (v : BitVec 7)
  /-- R164: Binary32 matrix multiply-accumulate. -/
  | mmaF32 (k : BitVec 3) (bs : BitVec 2) (tB tA : BitVec 4) (v : BitVec 7)
  /-- R164: Binary64 matrix multiply-accumulate. -/
  | mmaF64 (k : BitVec 3) (bs : BitVec 2) (tB tA : BitVec 4) (v : BitVec 7)
  /-- R164: 8-bit integer matrix multiply-accumulate into i32 accumulators. -/
  | mmaI8 (k : BitVec 3) (bs : BitVec 2) (tB tA : BitVec 4) (v : BitVec 7)
  /-- R164: 64-bit modular matrix multiply-accumulate modulo q. -/
  | mmaMod (k : BitVec 3) (bs : BitVec 2) (tB tA : BitVec 4) (v : BitVec 7)
  /-- R187: Loads one byte per lane, zero-extended. -/
  | ldN8 (k : BitVec 3) (i : BitVec 7) (b : BitVec 6) (d : BitVec 7) (m : MemMod)
  /-- R187: Loads one byte per lane, sign-extended. -/
  | ldI8 (k : BitVec 3) (i : BitVec 7) (b : BitVec 6) (d : BitVec 7) (m : MemMod)
  /-- R187: Loads two bytes per lane, zero-extended. -/
  | ldN16 (k : BitVec 3) (i : BitVec 7) (b : BitVec 6) (d : BitVec 7) (m : MemMod)
  /-- R187: Loads two bytes per lane, sign-extended. -/
  | ldI16 (k : BitVec 3) (i : BitVec 7) (b : BitVec 6) (d : BitVec 7) (m : MemMod)
  /-- R187: Loads four bytes per lane. -/
  | ld32 (k : BitVec 3) (i : BitVec 7) (b : BitVec 6) (d : BitVec 7) (m : MemMod)
  /-- R187: Loads eight bytes per lane into a pair. -/
  | ld64 (k : BitVec 3) (i : BitVec 7) (b : BitVec 6) (d : BitVec 7) (m : MemMod)
  /-- R187: Loads sixteen bytes per lane into a group of four registers. -/
  | ld128 (k : BitVec 3) (i : BitVec 7) (b : BitVec 6) (d : BitVec 7) (m : MemMod)
  /-- R187: Stores one byte per lane, completing when the write is accepted. -/
  | st8 (i : BitVec 7) (b : BitVec 6) (d : BitVec 7) (m : MemMod)
  /-- R187: Stores two bytes per lane. -/
  | st16 (i : BitVec 7) (b : BitVec 6) (d : BitVec 7) (m : MemMod)
  /-- R187: Stores four bytes per lane. -/
  | st32 (i : BitVec 7) (b : BitVec 6) (d : BitVec 7) (m : MemMod)
  /-- R187: Stores eight bytes per lane. -/
  | st64 (i : BitVec 7) (b : BitVec 6) (d : BitVec 7) (m : MemMod)
  /-- R187: Stores sixteen bytes per lane. -/
  | st128 (i : BitVec 7) (b : BitVec 6) (d : BitVec 7) (m : MemMod)
  /-- R193: Loads a 4-byte tile element per active lane, with optional full/empty wait and clear. -/
  | ldt32 (k p : BitVec 3) (h : BitVec 6) (d : BitVec 7) (m : MemMod) (c : Coord)
  /-- R193: Loads an 8-byte tile element per active lane. -/
  | ldt64 (k p : BitVec 3) (h : BitVec 6) (d : BitVec 7) (m : MemMod) (c : Coord)
  /-- R193: Loads a 16-byte tile element per active lane. -/
  | ldt128 (k p : BitVec 3) (h : BitVec 6) (d : BitVec 7) (m : MemMod) (c : Coord)
  /-- R193: Stores a 4-byte tile element per active lane and sets the granule's full bit. -/
  | stt32 (p : BitVec 3) (h : BitVec 6) (d : BitVec 7) (m : MemMod) (c : Coord)
  /-- R193: Stores an 8-byte tile element per active lane. -/
  | stt64 (p : BitVec 3) (h : BitVec 6) (d : BitVec 7) (m : MemMod) (c : Coord)
  /-- R193: Stores a 16-byte tile element per active lane. -/
  | stt128 (p : BitVec 3) (h : BitVec 6) (d : BitVec 7) (m : MemMod) (c : Coord)
  /-- R192: Loads eight bytes into a scalar register. -/
  | sld64 (k : BitVec 3) (b d : BitVec 6) (m : MemMod)
  /-- R192: Stores a scalar register's eight bytes. -/
  | sst64 (b a : BitVec 6) (m : MemMod)
  /-- R195: Atomic 32-bit add at the home, returning the old value. -/
  | amoAddI32 (k : BitVec 3) (i : BitVec 7) (b : BitVec 6) (d : BitVec 7) (m : MemMod)
  /-- R195: Atomic 64-bit add at the home. -/
  | amoAddI64 (k : BitVec 3) (i : BitVec 7) (b : BitVec 6) (d : BitVec 7) (m : MemMod)
  /-- R195: Atomic signed 32-bit minimum. -/
  | amoMinI32 (k : BitVec 3) (i : BitVec 7) (b : BitVec 6) (d : BitVec 7) (m : MemMod)
  /-- R195: Atomic natural 32-bit minimum. -/
  | amoMinN32 (k : BitVec 3) (i : BitVec 7) (b : BitVec 6) (d : BitVec 7) (m : MemMod)
  /-- R195: Atomic signed 64-bit minimum. -/
  | amoMinI64 (k : BitVec 3) (i : BitVec 7) (b : BitVec 6) (d : BitVec 7) (m : MemMod)
  /-- R195: Atomic signed 32-bit maximum. -/
  | amoMaxI32 (k : BitVec 3) (i : BitVec 7) (b : BitVec 6) (d : BitVec 7) (m : MemMod)
  /-- R195: Atomic natural 32-bit maximum. -/
  | amoMaxN32 (k : BitVec 3) (i : BitVec 7) (b : BitVec 6) (d : BitVec 7) (m : MemMod)
  /-- R195: Atomic signed 64-bit maximum. -/
  | amoMaxI64 (k : BitVec 3) (i : BitVec 7) (b : BitVec 6) (d : BitVec 7) (m : MemMod)
  /-- R195: Atomic bitwise AND. -/
  | amoAnd (k : BitVec 3) (i : BitVec 7) (b : BitVec 6) (d : BitVec 7) (m : MemMod)
  /-- R195: Atomic bitwise OR. -/
  | amoOr (k : BitVec 3) (i : BitVec 7) (b : BitVec 6) (d : BitVec 7) (m : MemMod)
  /-- R195: Atomic bitwise XOR. -/
  | amoXor (k : BitVec 3) (i : BitVec 7) (b : BitVec 6) (d : BitVec 7) (m : MemMod)
  /-- R195: Atomic swap. -/
  | amoSwap (k : BitVec 3) (i : BitVec 7) (b : BitVec 6) (d : BitVec 7) (m : MemMod)
  /-- R195: Atomic 32-bit compare-and-swap. -/
  | amoCas32 (k : BitVec 3) (i : BitVec 7) (b : BitVec 6) (d : BitVec 7) (m : MemMod)
  /-- R195: Atomic 64-bit compare-and-swap. -/
  | amoCas64 (k : BitVec 3) (i : BitVec 7) (b : BitVec 6) (d : BitVec 7) (m : MemMod)
  /-- R196: Atomic binary32 add, whose result depends on arrival order and sets the T bit of the launch record. -/
  | amoFaddF32 (k : BitVec 3) (i : BitVec 7) (b : BitVec 6) (d : BitVec 7) (m : MemMod)
  /-- R197: Non-returning 32-bit add reduction. -/
  | redAddI32 (i : BitVec 7) (b : BitVec 6) (d : BitVec 7) (m : MemMod)
  /-- R197: Non-returning 64-bit add reduction. -/
  | redAddI64 (i : BitVec 7) (b : BitVec 6) (d : BitVec 7) (m : MemMod)
  /-- R197: Signed 32-bit minimum reduction. -/
  | redMin (i : BitVec 7) (b : BitVec 6) (d : BitVec 7) (m : MemMod)
  /-- R197: Signed 32-bit maximum reduction. -/
  | redMax (i : BitVec 7) (b : BitVec 6) (d : BitVec 7) (m : MemMod)
  /-- R197: Bitwise AND reduction. -/
  | redAnd (i : BitVec 7) (b : BitVec 6) (d : BitVec 7) (m : MemMod)
  /-- R197: Bitwise OR reduction. -/
  | redOr (i : BitVec 7) (b : BitVec 6) (d : BitVec 7) (m : MemMod)
  /-- R197: Bitwise XOR reduction. -/
  | redXor (i : BitVec 7) (b : BitVec 6) (d : BitVec 7) (m : MemMod)
  /-- R198: Adds a 64-bit partial into a drift line. -/
  | dredAddI64 (i : BitVec 7) (b : BitVec 6) (d : BitVec 7) (m : MemMod)
  /-- R198: Adds a binary32 value exactly into a drift line. -/
  | dredFaddF32 (i : BitVec 7) (b : BitVec 6) (d : BitVec 7) (m : MemMod)
  /-- R198: Adds a decoded binary8 value exactly into a drift line. -/
  | dredFaddB8 (i : BitVec 7) (b : BitVec 6) (d : BitVec 7) (m : MemMod)
  /-- R198: Adds a residue modulo q into a drift line. -/
  | dredModadd (i : BitVec 7) (b : BitVec 6) (d : BitVec 7) (m : MemMod)
  /-- R198: Contributes a binary32 minimum to a drift line. -/
  | dredMinF32 (i : BitVec 7) (b : BitVec 6) (d : BitVec 7) (m : MemMod)
  /-- R198: Contributes a binary32 maximum to a drift line. -/
  | dredMaxF32 (i : BitVec 7) (b : BitVec 6) (d : BitVec 7) (m : MemMod)
  /-- R198: Contributes a bitwise OR to a drift line. -/
  | dredOr (i : BitVec 7) (b : BitVec 6) (d : BitVec 7) (m : MemMod)
  /-- R199: Orders the thread's accesses for observers within its scope. -/
  | fence (m : MemMod)
  /-- R200: Discards every copy held by the read-only path on the core. -/
  | fenceRo (m : MemMod)
  /-- R201: Writes back dirty data and merges drift lines, keeping the line valid. -/
  | cflush (i : BitVec 7) (b : BitVec 6) (m : MemMod)
  /-- R201: Writes back, then invalidates the line in the chosen caches. -/
  | cinv (i : BitVec 7) (b : BitVec 6) (m : MemMod)
  /-- R203: Invalidates the line without write-back, faulting with code 0B on a dirty line of a non-discardable page. -/
  | cinvDiscard (i : BitVec 7) (b : BitVec 6) (m : MemMod)
  /-- R202: Prefetches the line, never faulting. -/
  | pref (i : BitVec 7) (b : BitVec 6) (m : MemMod)
  /-- R209: Copies one unit per active lane between memory and tile memory on a timeline. -/
  | cp (p : BitVec 3) (sz : BitVec 2) (tl : BitVec 3) (dst src : ASide) (m : AMod)
  /-- R209: Multicasts each unit to the same handle of every pen member. -/
  | cpm (p : BitVec 3) (sz : BitVec 2) (tl : BitVec 3) (dst src : ASide) (m : AMod)
  /-- R210: Combines each unit into the destination under an exact operator. -/
  | cpr (p : BitVec 3) (sz : BitVec 2) (tl : BitVec 3) (dst src : ASide) (m : AMod)
  /-- R211: Gathers whole rows from memory into a tile handle. -/
  | gth (p : BitVec 3) (sz : BitVec 2) (tl : BitVec 3) (dst src : ASide) (m : AMod)
  /-- R211: Scatters whole rows of a tile handle to memory. -/
  | sct (p : BitVec 3) (sz : BitVec 2) (tl : BitVec 3) (dst src : ASide) (m : AMod)
  /-- R212: Moves units to a global address, counted in the window counters. -/
  | put (p : BitVec 3) (sz : BitVec 2) (tl : BitVec 3) (dst src : ASide) (m : AMod)
  /-- R212: Fetches units from a global address. -/
  | get (p : BitVec 3) (sz : BitVec 2) (tl : BitVec 3) (dst src : ASide) (m : AMod)
  /-- R212: Claims a chute slot, fills its row and publishes it as one operation. -/
  | cpchute (p : BitVec 3) (sz : BitVec 2) (tl : BitVec 3) (dst src : ASide) (m : AMod)
  /-- R212: Places a launch record in the paddock's queue and completes when the launch ends or is refused. -/
  | launch (p tl : BitVec 3) (src : BitVec 7) (m : AMod)
  /-- R289: Waits until the timeline's contiguous count reaches n and reports a covered error mark as a fault. -/
  | tlwait (n : BitVec 3) (b : SOp)
  /-- R290: Reads one view of a timeline without waiting. -/
  | tlread (d : BitVec 6) (n : BitVec 3) (sel : BitVec 2)
  /-- R292: Waits until a window's landed or acked counter reaches n. -/
  | wcwait (k : BitVec 1) (r : BitVec 5) (b : SOp)
  /-- R292: Reads a window's landed or acked counter. -/
  | wcread (d : BitVec 6) (r : BitVec 5) (k : BitVec 1)
  /-- R260: Waits for and claims the next free chute slot in ring order. -/
  | chqClaim (d h : BitVec 6)
  /-- R260: Publishes a filled chute slot and sets its row's full bits. -/
  | chqPub (h : BitVec 6) (b : SOp)
  /-- R260: Waits for and takes the next ready chute slot. -/
  | chqWait (d h : BitVec 6)
  /-- R260: Frees an in-use chute slot and clears its row's full bits. -/
  | chqRel (h : BitVec 6) (b : SOp)
  /-- R262: At the word's home, sleeps in the waiter queue while the word equals the expected value. -/
  | waitq (d a : BitVec 6) (b : SOp)
  /-- R262: Releases up to n nodes from the head of the word's waiter queue. -/
  | wake (d a : BitVec 6) (b : SOp)
  /-- R264: Arms the span's monitor on the address's line. -/
  | mon (a : BitVec 6)
  /-- R265: Waits until the monitor triggers or the timeout elapses. -/
  | mwait (d : BitVec 6) (b : SOp)
  /-- R270: Binds a tile handle to a descriptor's shape and level. -/
  | talloc (d h b : BitVec 6)
  /-- R271: Unbinds a tile handle after the span's earlier tile accesses complete. -/
  | tfree (h : BitVec 6)
  /-- R271: Returns a handle's descriptor. -/
  | tquery (d h : BitVec 6)
  /-- R277: Registers a window region for the launch. -/
  | winreg (d a b : BitVec 6)
  /-- R278: Frees a window region once its accepted units have landed. -/
  | winfree (d : BitVec 6) (b : SOp)
  /-- R274: Resolves a rank to its scope, pod, group and slot. -/
  | rankq (d a : BitVec 6)
  /-- R298: Reads a system register into s[sd]. -/
  | sprd (d : BitVec 6) (n : BitVec 12)
  /-- R298: Writes a system register, checking access and deriving %mqr from %mq. -/
  | spwr (a : BitVec 6) (n : BitVec 12)
  /-- R314: Emits a user Rime record. -/
  | evt (a n : BitVec 6)
  /-- R272: Drops every translation of the ASID covering the address, and the L1 lines of that page. -/
  | tlbinvPage (a : BitVec 6) (b : SOp)
  /-- R272: Drops every translation and L1 line of the ASID. -/
  | tlbinvAsid (a : BitVec 6) (b : SOp)
  /-- R272: Drops every translation and L1 line of every ASID of the paddock. -/
  | tlbinvPaddock (a : BitVec 6) (b : SOp)
  /-- R272: Drops every cached resolution of one rank. -/
  | tlbinvRank (a : BitVec 6)
  /-- R272: Drops every cached rank resolution, path set and hot-destination entry of the paddock. -/
  | tlbinvRankall (a : BitVec 6)
  /-- R253: A launch record enters its paddock's queue at its priority, taking state 1 and a serial, once the queues have room. -/
  | launchPlacement
  /-- R212: The engine of a waiting cpchute claims the chute's next free slot in issue order once that slot is free. -/
  | cpchuteClaim
  /-- R330: Each core's icehouse exchanges the outgoing context with the incoming one, and the incoming paddock resumes at its saved positions. -/
  | icehouseExchange
  /-- R307: A record reaches a sink, is filtered, and is written at the head, with the head mirror updated under release. -/
  | rimeRecord
  /-- R301: PTP lock is lost; the counters run on the common reference and an epoch record is written. -/
  | ptpLockLoss
  /-- R295: Every 1,024 core clocks, each Lamport clock is raised to at least the beacon. -/
  | beacon
  /-- R296: Every 2^k reference ticks, every busy and stall counter latches a sample to a performance ring and restarts at zero. -/
  | perfLatch
  /-- R294: The firmware samples each paddock's progress counters and wait descriptors and updates the wait-for graph. -/
  | progressSample
  /-- R345: At 110 degrees C the module powers down its dies, and their readiness entries go to 4. -/
  | thermalTrip
  /-- R104: Changes no state. -/
  | snop
  /-- R114: Ends every thread of the issue set at the clause end and removes them from every rejoin mask. -/
  | exit
  /-- R115: Falls through and counts the issue set as the most recent issuer. -/
  | yield
  /-- R259: Holds the issue set until every span of the workgroup arrives. -/
  | barWg
  /-- R259: Holds until every workgroup of the pen arrives. -/
  | barPen
  /-- R259: Holds until every workgroup of the flagged launch arrives. -/
  | barLaunch
  /-- R323: Raises the software trap, code 11, on every lane. -/
  | trap
  /-- R322: Returns the lanes from the handler to retry the faulting instruction. -/
  | tretRetry
  /-- R322: Returns the lanes from the handler past the faulting instruction. -/
  | tretSkip
  /-- R323: Ends the workgroup and marks the launch in error. -/
  | tretKill
  /-- R325: Sets the span's trap-mask bit. -/
  | tmask
  /-- R325: Clears the trap-mask bit; pending items are taken at the next clause boundary. -/
  | tunmask
  /-- R327: Ends the clause and sets the stop-next flag when a debugger is attached. -/
  | brk
  /-- R326: Makes a forced reset of the issuing workgroup's launch from the privileged handler. -/
  | halt
  /-- R327: The debugger, acting through the Sahnan die, resumes an issue set held at a stop, and issue continues from the saved word position. -/
  | debuggerResume (q : SpanRef)
  /-- R317: A wait on a full/empty bit or on a sibling binding outlasts the watchdog limit and raises code 08, or ends the engine operation in error. -/
  | watchdogExpiry (who : Waiter)
  /-- R265: An mwait reaches its timeout without a trigger, raises code 10 to the user handler and disarms the monitor. -/
  | mwaitTimeout (q : SpanRef)
  /-- R50: The rotation quantum of a resident stage-workgroup expires while a candidate of equal or higher priority waits, so the yard may park it. -/
  | quantumExpiry (g : Nat)
  /-- R335: A write to the place field of a paddock's launch window checks the record address and places the record in the paddock's queue, reporting placed, busy or refused. -/
  | launchWindowPlace (pk : Nat) (addr : Dword)
  /-- R328: A serial written to the launch window's pre-empt field starts the drain of that launch and its deadline timer. -/
  | preemptionRequest (pk : Nat) (serial : Word)
  /-- R335: A serial written to the launch window's resume field lets a drained launch take residency again. -/
  | preemptionResume (pk : Nat) (serial : Word)
  /-- R328: The pre-emption deadline expires before the drain completes. -/
  | preemptionDeadline (pk : Nat) (serial : Word)
  /-- R330: The provider requests a swap; the resident paddock's issue sets halt at instruction boundaries, register results are written, and engine operations complete or are suspended. -/
  | paddockSwap (leave enter : Option Nat)
  /-- R239: A GetX request is served at the home, which takes other copies away and grants ownership. -/
  | getx (m : Hdr)
  /-- R239: An Upg request is served at the home, and one from a cache no longer recorded as a sharer is served as a GetX. -/
  | upg (m : Hdr)
  /-- R239: A DrGet with an operator tag enters the line into D, adds a holder, or forces a merge first when the tag differs. -/
  | drget (m : Hdr) (tag : DTag)
  /-- R239: An Amo request is performed at the home once the line's copies are out. -/
  | amoMsg (m : Hdr) (r : List AmoReq)
  /-- R189: A whole-line write reaches the home, which writes all 128 bytes and clears any poison. -/
  | wrline (m : Hdr) (data : LineData)
  /-- R240: A Grant reaches a cache, which moves to M and then serves any deferred forward. -/
  | grant (m : Hdr)
  /-- R241: A GrantD reaches a cache, which takes a drift-buffer line with empty accumulators and enters D. -/
  | grantd (m : Hdr) (tag : DTag)
  /-- R238: A reduction acknowledgement returns, and each merging router splits it to every contributor. -/
  | redack (m : Hdr) (n : Nat)
  /-- R239: An Err response reaches the requester and becomes a precise fault, or a retry. -/
  | err (m : Hdr) (retry : Bool)
  /-- R239: A RedOp combining message reaches the home and is applied, or waits in the CMB queue while the line is busy. -/
  | redop (m : Hdr) (r : List AmoReq) (n : Nat)
  /-- R240: A cache evicts a line, silently from S or with a put notice or DrPart from other states. -/
  | cacheEviction (core line : Nat)
  /-- R237: A requester repeats a request refused with Err-retry after 64 clocks. -/
  | requestRetry (core line : Nat)
  /-- R338: A link or UCIe module reports down, and its traffic moves to other paths or its parties are declared lost. -/
  | linkDown (port : Nat)
  /-- R247: A party misses five heartbeats within 10 microseconds. -/
  | heartbeatMiss (party : Party)
  /-- R248: An extent is revoked from a host; the pod home recalls or merges its lines and answers new requests with Err. -/
  | extentRevoke (host first count : Nat)
  /-- R248: Twenty microseconds after a revocation, the lines still unanswered are poisoned and logged. -/
  | revocationTimeout (host first count : Nat)
  /-- R341: The supervisor replaces a window's page-mode key number through the window table. -/
  | windowKeyReplace (pk w : Nat) (key : BitVec 16)
  /-- R346: Twenty microseconds after a key replacement, packets under the old key are refused with code 0A. -/
  | oldKeyTimeout (pk w : Nat)
  /-- R339: A scale-out packet arrives at the target and is placed into memory, counting in the window's landed counter. -/
  | remotePacket (pkt : Packet)
  /-- R212: An acknowledgement of landed bytes reaches the initiator, counts in the acked counter and completes puts. -/
  | remoteAck (ack : PacketAck)
  /-- R279: The provider writes a paddock-table entry, which is applied whole or refused whole. -/
  | paddockTableWrite (pk : Nat) (e : PaddockCfg)
  /-- R281: The supervisor advances the error-log tail, and a write that would pass the head is refused. -/
  | errorLogTailWrite (pk : Nat) (v : Word)
  /-- R307: The provider writes a sink descriptor, which is applied whole or refused whole. -/
  | sinkDescriptorWrite (n : Nat) (d : BitVec 256)
  /-- R307: A consumer advances a sink's tail, freeing records. -/
  | sinkTailWrite (n : Nat) (v : Word)
  /-- R283: A provider read through the readback port returns 8 bytes of any device state without changing it. -/
  | readback (addr : Dword)
  /-- R5: A write to a register or table field that has no row of its own takes effect according to its access type. -/
  | registerWrite (w : RegWriteReq)
  /-- R312: An episode of back-pressure outlasts the stall limit; the sink releases its sources and works as lossy. -/
  | stallLimit (n : Nat)
  /-- R295: The device reaches PTP lock, and the beacon and the time base follow PTP time from then on. -/
  | ptpLock (ns : Dword)
  /-- R301: A PTP correction is applied to the die counters by slewing, or by a forward step above 1 ms. -/
  | ptpCorrection (delta : Int)
  /-- R258: A pipe's window of 1,024 clocks ends, and the floor grant counts restart. -/
  | floorWindow (core pipe : Nat)
  /-- R344: After power good, the firmware verifies the images, halts on failure, or releases the dies. -/
  | powerGood (verified : Bool)
  /-- R282: A function writes its own readiness state to the readiness table. -/
  | readinessReport (idx : Nat) (st : BitVec 4)
  /-- R345: The provider sets a module power cap, which the firmware meets by withholding issue clocks. -/
  | powerCapSet (watts : Nat)
  /-- R345: A die junction reaches 100 degrees C, and the die withholds issue clocks. -/
  | thermalThrottle (die : Nat)
  /-- R342: After 1,024 tray responses below load 12, the device doubles its window of outstanding requests to that tray. -/
  | trayWindowDouble (slot : Nat)
  /-- R343: An SPDM GET_VERSION request is answered by a responder. -/
  | getVersion (r : Responder)
  /-- R343: An SPDM GET_CAPABILITIES request is answered. -/
  | getCapabilities (r : Responder)
  /-- R343: An SPDM NEGOTIATE_ALGORITHMS request is answered. -/
  | negotiateAlgorithms (r : Responder) (asym kem : BitVec 32)
  /-- R343: An SPDM GET_DIGESTS request is answered. -/
  | getDigests (r : Responder)
  /-- R343: An SPDM GET_CERTIFICATE request is answered. -/
  | getCertificate (r : Responder) (slot off len : Nat)
  /-- R343: An SPDM CHALLENGE request is answered with an SLH-DSA signature. -/
  | challenge (r : Responder) (nonce : BitVec 256)
  /-- R343: An SPDM GET_MEASUREMENTS request returns the device's and the paddock's SHA-256 measurements. -/
  | getMeasurements (r : Responder) (idx : Nat) (nonce : BitVec 256)
  /-- R343: An SPDM KEY_EXCHANGE request begins a session using ML-KEM-1024. -/
  | keyExchange (r : Responder) (session kem : Nat)
  /-- R343: An SPDM FINISH request completes session setup. -/
  | finish (r : Responder) (session : Nat)
  /-- R343: An SPDM KEY_UPDATE request updates the session keys. -/
  | keyUpdate (r : Responder) (session : Nat)
  /-- R343: An SPDM END_SESSION request ends the session. -/
  | endSession (r : Responder) (session : Nat)
  /-- R306: A port's link completes training and reports up, with a link-state record, and carries traffic again. -/
  | linkUp (port : Nat)
  /-- R341: When a scale-up link's flit counter reaches 2^48 under one hop-mode key, the link is retrained and the two Sahnan firmwares set a new key. -/
  | hopKeyChange (port : Nat)
  /-- R306: A scale-out port resends an outstanding packet that was not acknowledged, and writes a retransmission record. -/
  | retransmission (die seq : Nat)
  /-- R247: The Sahnan firmware reports a device, tray or host lost, and the home declares the party lost. -/
  | firmwareReportsLost (party : Party)
  deriving DecidableEq, Repr

end Sys2Proof
end

