-- ==== Sys2Proof/WellFormed.lean ====
section
/-!
DEFINITION. WellFormed.lean: which instructions are legal encodings (04 R71 and each instruction's description).
An instruction outside this set, and a word that spells none, fails at its own issue with code 02.
-/

namespace Sys2Proof

/-- A field that names a 64-bit pair holds an even number (04 R66). -/
def even7 (r : BitVec 7) : Bool := r.toNat % 2 == 0
/-- The low six bits of a pair's number are even (07 R108). -/
def even6 (r : BitVec 6) : Bool := r.toNat % 2 == 0
/-- A field that names a group of four holds a multiple of 4 (08 R126). -/
def quad7 (r : BitVec 7) : Bool := r.toNat % 4 == 0
/-- A 32-bit accumulator group starts at a multiple of 8 (09 R162). -/
def mult8 (r : BitVec 7) : Bool := r.toNat % 8 == 0
/-- A 64-bit accumulator group starts at a multiple of 16 (09 R162). -/
def mult16 (r : BitVec 7) : Bool := r.toNat % 16 == 0

/-- An immediate of the operand lies in 0 to 31: for shifts, lanes, slots and counts (07 R104, R108, 14 R250). -/
def SOp.natOk : SOp → Bool
  | .reg _ => true
  | .imm v => decide (v.toNat < 32)
/-- The immediate of a shift or lane operand lies in 0 to 31 (07 R104, R108). -/
def SOp.shiftOk (b : SOp) : Bool := b.natOk

/-- Format codes that vcvt accepts (08 R139). -/
def cvtCode (f : BitVec 6) : Bool := decide (f.toNat ≤ 0x0B) || (decide (0x20 ≤ f.toNat) && decide (f.toNat ≤ 0x3B))
/-- Formats of 64 bits among them (08 R139). -/
def code64 (f : BitVec 6) : Bool := f == 0x03#6 || f == 0x07#6 || f == 0x0B#6
/-- A binary8 format code (06 R82). -/
def isB8 (f : BitVec 6) : Bool := decide (0x20 ≤ f.toNat) && decide (f.toNat ≤ 0x3B)
/-- Format codes that vpack8 and vunpack8 accept (08 R140). -/
def packCode (f : BitVec 6) : Bool := f == 0x00#6 || f == 0x04#6 || isB8 f

/-- System-register numbers that 05 R78 lists. -/
def sysRegOk (n : BitVec 12) : Bool :=
  decide (n.toNat ≤ 0x0C) || n == 0x010#12 || n == 0x011#12 || n == 0x020#12 || n == 0x021#12 ||
  (decide (0x030 ≤ n.toNat) && decide (n.toNat ≤ 0x033))

/-- One row or column of a coordinate word (04 R68). -/
def coordPartOk (k : BitVec 2) (v : BitVec 12) : Bool :=
  match k.toNat with
  | 0 => true
  | 1 => decide (v.toNat < 64)
  | 2 => decide (v.toNat < 128)
  | _ => false
/-- A legal coordinate word (04 R68). -/
def Coord.ok (c : Coord) : Bool := coordPartOk c.rk c.rv && coordPartOk c.ck c.cv
/-- A legal coordinate word without vector kinds (09 R151, 11 R211). -/
def Coord.scalarOk (c : Coord) : Bool := c.ok && decide (c.rk ≠ 2#2) && decide (c.ck ≠ 2#2)
/-- An own handle has dx and dy zero (04 R67, R71). -/
def refOk (r : TileRef) : Bool := r.sib == 1#1 || (r.dx == 0#4 && r.dy == 0#4)

/-- Scope and hint values of 02 R26, and a full/empty value among those given. -/
def MemMod.base (m : MemMod) (orders : List Nat) (maxHint : Nat) (fes : List Nat) : Bool :=
  orders.contains m.order.toNat && decide (m.scope.toNat ≤ 5) && decide (m.hint.toNat ≤ maxHint) &&
  fes.contains m.fe.toNat
/-- The modifier of ld.* and sld.64 (11 R184). -/
def MemMod.ldOk (m : MemMod) : Bool := m.base [0, 1, 4, 5] 3 [0]
/-- The modifier of st.* and sst.64 (11 R184). -/
def MemMod.stOk (m : MemMod) : Bool := m.base [0, 2, 4] 3 [0]
/-- The modifier of amo.* (11 R184). -/
def MemMod.amoOk (m : MemMod) : Bool := m.base [0, 1, 2, 3, 4] 3 [0]
/-- The modifier of red.* and dred.* (11 R184). -/
def MemMod.redOk (m : MemMod) : Bool := m.base [0, 2] 3 [0]
/-- The offset field of a tile form is a legal reference with [19:9] zero (04 R67). -/
def MemMod.refFieldOk (m : MemMod) : Bool := decide (m.off.toNat < 512) && refOk m.ref
/-- The modifier of ldt.* (11 R184). -/
def MemMod.ldtOk (m : MemMod) : Bool := m.base [0, 1] 0 [0, 1, 2] && m.refFieldOk
/-- The modifier of stt.* (11 R184). -/
def MemMod.sttOk (m : MemMod) : Bool := m.base [0, 2] 0 [0, 3] && m.refFieldOk
/-- The modifier of fence (11 R184, R199). -/
def MemMod.fenceOk (m : MemMod) : Bool := m.base [1, 2, 3, 4] 0 [0] && m.off == 0#20
/-- The modifier of fence.ro (11 R184, R200). -/
def MemMod.fenceRoOk (m : MemMod) : Bool := m.base [0] 0 [0] && m.off == 0#20
/-- The modifier of cflush, cinv and cinv.discard (11 R184). -/
def MemMod.cacheOk (m : MemMod) : Bool := m.base [0] 0 [0]
/-- The modifier of pref (11 R184). -/
def MemMod.prefOk (m : MemMod) : Bool := m.base [0] 3 [0]

/-- The modifier of class 4 (11 R184); the hint is checked apart, because cpr uses it as operator. -/
def AMod.ok (m : AMod) : Bool :=
  m.order == 0#3 && decide (m.scope.toNat ≤ 5) && [0, 1, 3].contains m.fe.toNat

/-- A side whose fields are legal (04 R67, R68). -/
def ASide.ok : ASide → Bool
  | .addr r => even7 r
  | .tile _ ref c => refOk ref && c.ok
/-- An address side. -/
def ASide.isAddr : ASide → Bool
  | .addr _ => true
  | .tile .. => false
/-- A tile side. -/
def ASide.isTile (a : ASide) : Bool := !a.isAddr
/-- A tile side with the own handle (11 R204, cpm). -/
def ASide.isOwnTile : ASide → Bool
  | .addr _ => false
  | .tile _ ref _ => ref.sib == 0#1
/-- A tile side without vector coordinates (11 R211). -/
def ASide.scalarOk : ASide → Bool
  | .addr _ => true
  | .tile _ _ c => c.scalarOk
/-- The coordinate's row is the constant 0 (11 R204, cpchute). -/
def ASide.rowZero : ASide → Bool
  | .addr _ => false
  | .tile _ _ c => c.rk == 0#2 && c.rv == 0#12
/-- The operator of cpr agrees with the size and the destination (11 R210). -/
def cprOk (sz : BitVec 2) (op : BitVec 3) (dst : ASide) : Bool :=
  (op != 1#3 || decide (1 ≤ sz.toNat)) && (op != 7#3 || dst.isAddr)

/-- Instructions and events whose fields are legal. -/
def Instr.wf : Instr → Bool
  | .clauseIssue _ => true
  | .debuggerResume _ => true
  | .clauseEnd _ => true
  | .countedResultWrite _ _ _ => true
  | .trapEntry _ _ => true
  | .watchdogExpiry _ => true
  | .mwaitTimeout _ => true
  | .quantumExpiry _ => true
  | .park _ => true
  | .makeResident _ => true
  | .workgroupStart _ => true
  | .penAdmission _ _ => true
  | .launchPlacement => true
  | .launchAdmission _ => true
  | .asyncUnitLand _ _ => true
  | .cpchuteClaim => true
  | .launchWindowPlace _ _ => true
  | .preemptionRequest _ _ => true
  | .preemptionResume _ _ => true
  | .preemptionDeadline _ _ => true
  | .paddockSwap _ _ => true
  | .icehouseExchange => true
  | .gets _ => true
  | .getx _ => true
  | .upg _ => true
  | .drget _ _ => true
  | .amoMsg _ _ => true
  | .wrline _ _ => true
  | .pute _ => true
  | .putm _ _ => true
  | .puto _ _ => true
  | .inv _ => true
  | .fwds _ _ => true
  | .fwdx _ _ => true
  | .recall _ => true
  | .merge _ => true
  | .data _ _ _ => true
  | .grant _ => true
  | .grantd _ _ => true
  | .invack _ _ => true
  | .fwdack _ _ => true
  | .putack _ => true
  | .redack _ _ => true
  | .err _ _ => true
  | .redop _ _ _ => true
  | .drpart _ _ _ _ => true
  | .cacheEviction _ _ => true
  | .requestRetry _ _ => true
  | .linkDown _ => true
  | .heartbeatMiss _ => true
  | .extentRevoke _ _ _ => true
  | .revocationTimeout _ _ _ => true
  | .windowKeyReplace _ _ _ => true
  | .oldKeyTimeout _ _ => true
  | .remotePacket _ => true
  | .remoteAck _ => true
  | .paddockTableWrite _ _ => true
  | .errorLogTailWrite _ _ => true
  | .sinkDescriptorWrite _ _ => true
  | .sinkTailWrite _ _ => true
  | .readback _ => true
  | .registerWrite _ => true
  | .rimeRecord => true
  | .stallLimit _ => true
  | .ptpLock _ => true
  | .ptpLockLoss => true
  | .ptpCorrection _ => true
  | .beacon => true
  | .perfLatch => true
  | .floorWindow _ _ => true
  | .progressSample => true
  | .powerGood _ => true
  | .readinessReport _ _ => true
  | .powerCapSet _ => true
  | .thermalThrottle _ => true
  | .thermalTrip => true
  | .trayWindowDouble _ => true
  | .getVersion _ => true
  | .getCapabilities _ => true
  | .negotiateAlgorithms _ _ _ => true
  | .getDigests _ => true
  | .getCertificate _ _ _ _ => true
  | .challenge _ _ => true
  | .getMeasurements _ _ _ => true
  | .keyExchange _ _ _ => true
  | .finish _ _ => true
  | .keyUpdate _ _ => true
  | .endSession _ _ => true
  | .snop => true
  | .sadd _ _ _ => true
  | .ssub _ _ _ => true
  | .smul _ _ _ => true
  | .smulh _ _ _ => true
  | .smulhn _ _ _ => true
  | .sand _ _ _ => true
  | .sor _ _ _ => true
  | .sxor _ _ _ => true
  | .sshl _ _ b => b.shiftOk
  | .sshr _ _ b => b.shiftOk
  | .ssar _ _ b => b.shiftOk
  | .smin _ _ _ => true
  | .smax _ _ _ => true
  | .sminn _ _ _ => true
  | .smaxn _ _ _ => true
  | .smov _ _ => true
  | .smovk _ _ _ => true
  | .smovkh _ _ => true
  | .scmp _ c _ _ _ => decide (c.toNat ≤ 5)
  | .scmpP _ c _ _ _ => decide (c.toNat ≤ 5)
  | .ssel _ _ _ _ _ => true
  | .sfromv w64 _ lo _ b => b.shiftOk && (w64 == 0#1 || even6 lo)
  | .sballot _ _ => true
  | .spopc _ _ => true
  | .sclz _ _ => true
  | .br _ => true
  | .bz _ _ => true
  | .bnz _ _ => true
  | .bp _ _ _ => true
  | .call _ _ => true
  | .ret _ => true
  | .bi _ => true
  | .exit => true
  | .yield => true
  | .mset _ _ => true
  | .mstrike _ => true
  | .mget _ => true
  | .mput _ => true
  | .jread _ _ => true
  | .jreadAddr _ _ => true
  | .vmov _ _ _ => true
  | .vmovk _ _ _ => true
  | .vaddI32 _ _ _ _ => true
  | .vaddI64 _ d a b => even7 d && even7 a && even7 b
  | .vsubI32 _ _ _ _ => true
  | .vsubI64 _ d a b => even7 d && even7 a && even7 b
  | .vmulI32 _ _ _ _ => true
  | .vmulhI32 _ _ _ _ => true
  | .vmulhN32 _ _ _ _ => true
  | .vmadI32 _ _ _ _ => true
  | .vand _ _ _ _ => true
  | .vor _ _ _ _ => true
  | .vxor _ _ _ _ => true
  | .vnot _ _ _ => true
  | .vshl _ _ _ _ => true
  | .vshr _ _ _ _ => true
  | .vsar _ _ _ _ => true
  | .vminI32 _ _ _ _ => true
  | .vmaxI32 _ _ _ _ => true
  | .vminN32 _ _ _ _ => true
  | .vmaxN32 _ _ _ _ => true
  | .vabsI32 _ _ _ => true
  | .vclz _ _ _ => true
  | .vpopc _ _ _ => true
  | .vbrev _ _ _ => true
  | .vbfx _ _ _ _ => true
  | .vbfi _ _ _ _ => true
  | .vsel _ _ _ _ => true
  | .vcmpI32 _ c _ _ _ => decide (c.toNat ≤ 5)
  | .vcmpN32 _ c _ _ _ => decide (c.toNat ≤ 5)
  | .vcmpI64 _ c _ a b => decide (c.toNat ≤ 5) && even7 a && even7 b
  | .vaddsI32 _ _ _ _ => true
  | .vshflIdx _ _ _ _ => true
  | .vshflXor _ _ _ _ => true
  | .vshflUp _ _ _ _ => true
  | .vshflDown _ _ _ _ => true
  | .vbcast _ _ _ _ => true
  | .vlaneid _ _ => true
  | .vprefixI32 _ _ _ => true
  | .vaddF32 _ _ _ _ => true
  | .vsubF32 _ _ _ _ => true
  | .vmulF32 _ _ _ _ => true
  | .vfmaF32 _ _ _ _ => true
  | .vminF32 _ _ _ _ => true
  | .vmaxF32 _ _ _ _ => true
  | .vcmpF32 _ c _ _ _ => decide (c.toNat ≤ 7)
  | .vrcpF32 _ _ _ k => decide (k ≠ 6#3)
  | .vrsqrtF32 _ _ _ k => decide (k ≠ 6#3)
  | .vsqrtF32 _ _ _ k => decide (k ≠ 6#3)
  | .vexp2F32 _ _ _ k => decide (k ≠ 6#3)
  | .vlog2F32 _ _ _ k => decide (k ≠ 6#3)
  | .vclassF32 _ _ _ => true
  | .vaddF64 _ d a b => even7 d && even7 a && even7 b
  | .vsubF64 _ d a b => even7 d && even7 a && even7 b
  | .vmulF64 _ d a b => even7 d && even7 a && even7 b
  | .vfmaF64 _ d a b => even7 d && even7 a && even7 b
  | .vminF64 _ d a b => even7 d && even7 a && even7 b
  | .vmaxF64 _ d a b => even7 d && even7 a && even7 b
  | .vcmpF64 _ c _ a b => decide (c.toNat ≤ 7) && even7 a && even7 b
  | .vaddF16x2 _ _ _ _ => true
  | .vmulF16x2 _ _ _ _ => true
  | .vfmaF16x2 _ _ _ _ => true
  | .vcvt _ d a _ _ df sf => cvtCode df && cvtCode sf && (!code64 df || even7 d) && (!code64 sf || even7 a)
  | .vpack8 _ _ a _ f => quad7 a && packCode f
  | .vunpack8 _ d _ f => quad7 d && packCode f
  | .vscaleF32 _ _ _ _ => true
  | .vperm _ _ _ _ => true
  | .vdot4 _ _ a _ => even7 a
  | .vmodadd _ d a b => even7 d && even7 a && even7 b
  | .vmodsub _ d a b => even7 d && even7 a && even7 b
  | .vmodmul _ d a b => even7 d && even7 a && even7 b
  | .vmodred _ d a => even7 d && quad7 a
  | .vnttCt _ d a b => quad7 d && quad7 a && even7 b
  | .vnttGs _ d a b => quad7 d && quad7 a && even7 b
  | .tcfgw _ _ => true
  | .tcfgr d _ => even7 d
  | .tzero _ => true
  | .tld k fe dy dx _ sib _ c => decide (k ≠ 6#3) && decide (fe ≠ 3#2) && refOk ⟨dx, dy, sib⟩ && c.scalarOk
  | .tldPerm k fe tT _ n _ c => decide (k ≠ 6#3) && decide (fe ≠ 3#2) && decide (tT ≠ n) && c.scalarOk
  | .tst fe dy dx _ sib _ c => (fe == 0#2 || fe == 3#2) && refOk ⟨dx, dy, sib⟩ && c.scalarOk
  | .tmov _ _ => true
  | .tmovTr _ _ => true
  | .mmaB8 k _ _ _ v => decide (k ≠ 6#3) && mult8 v
  | .mmaB8Scl k _ _ _ v _ _ => decide (k ≠ 6#3) && mult8 v
  | .mmaB8Sp k _ _ _ _ v => decide (k ≠ 6#3) && mult8 v
  | .mmaB8SclSp k _ _ _ _ v _ _ => decide (k ≠ 6#3) && mult8 v
  | .mmaBf16 k _ _ _ v => decide (k ≠ 6#3) && mult8 v
  | .mmaF16 k _ _ _ v => decide (k ≠ 6#3) && mult8 v
  | .mmaF32 k _ _ _ v => decide (k ≠ 6#3) && mult8 v
  | .mmaF64 k _ _ _ v => decide (k ≠ 6#3) && mult16 v
  | .mmaI8 k _ _ _ v => decide (k ≠ 6#3) && mult8 v
  | .mmaMod k _ _ _ v => decide (k ≠ 6#3) && mult16 v
  | .ldN8 k _ _ _ m => decide (k ≠ 6#3) && m.ldOk
  | .ldI8 k _ _ _ m => decide (k ≠ 6#3) && m.ldOk
  | .ldN16 k _ _ _ m => decide (k ≠ 6#3) && m.ldOk
  | .ldI16 k _ _ _ m => decide (k ≠ 6#3) && m.ldOk
  | .ld32 k _ _ _ m => decide (k ≠ 6#3) && m.ldOk
  | .ld64 k _ _ d m => decide (k ≠ 6#3) && even7 d && m.ldOk
  | .ld128 k _ _ d m => decide (k ≠ 6#3) && quad7 d && m.ldOk
  | .st8 _ _ _ m => m.stOk
  | .st16 _ _ _ m => m.stOk
  | .st32 _ _ _ m => m.stOk
  | .st64 _ _ d m => even7 d && m.stOk
  | .st128 _ _ d m => quad7 d && m.stOk
  | .ldt32 k _ _ _ m c => decide (k ≠ 6#3) && m.ldtOk && c.ok
  | .ldt64 k _ _ d m c => decide (k ≠ 6#3) && even7 d && m.ldtOk && c.ok
  | .ldt128 k _ _ d m c => decide (k ≠ 6#3) && quad7 d && m.ldtOk && c.ok
  | .stt32 _ _ _ m c => m.sttOk && c.ok
  | .stt64 _ _ d m c => even7 d && m.sttOk && c.ok
  | .stt128 _ _ d m c => quad7 d && m.sttOk && c.ok
  | .sld64 k _ _ m => decide (k ≠ 6#3) && m.ldOk
  | .sst64 _ _ m => m.stOk
  | .amoAddI32 k _ _ _ m => decide (k ≠ 6#3) && m.amoOk
  | .amoAddI64 k _ _ d m => decide (k ≠ 6#3) && even7 d && m.amoOk
  | .amoMinI32 k _ _ _ m => decide (k ≠ 6#3) && m.amoOk
  | .amoMinN32 k _ _ _ m => decide (k ≠ 6#3) && m.amoOk
  | .amoMinI64 k _ _ d m => decide (k ≠ 6#3) && even7 d && m.amoOk
  | .amoMaxI32 k _ _ _ m => decide (k ≠ 6#3) && m.amoOk
  | .amoMaxN32 k _ _ _ m => decide (k ≠ 6#3) && m.amoOk
  | .amoMaxI64 k _ _ d m => decide (k ≠ 6#3) && even7 d && m.amoOk
  | .amoAnd k _ _ _ m => decide (k ≠ 6#3) && m.amoOk
  | .amoOr k _ _ _ m => decide (k ≠ 6#3) && m.amoOk
  | .amoXor k _ _ _ m => decide (k ≠ 6#3) && m.amoOk
  | .amoSwap k _ _ _ m => decide (k ≠ 6#3) && m.amoOk
  | .amoCas32 k _ _ d m => decide (k ≠ 6#3) && even7 d && m.amoOk
  | .amoCas64 k _ _ d m => decide (k ≠ 6#3) && quad7 d && m.amoOk
  | .amoFaddF32 k _ _ _ m => decide (k ≠ 6#3) && m.amoOk
  | .redAddI32 _ _ _ m => m.redOk
  | .redAddI64 _ _ d m => even7 d && m.redOk
  | .redMin _ _ _ m => m.redOk
  | .redMax _ _ _ m => m.redOk
  | .redAnd _ _ _ m => m.redOk
  | .redOr _ _ _ m => m.redOk
  | .redXor _ _ _ m => m.redOk
  | .dredAddI64 _ _ d m => even7 d && m.redOk
  | .dredFaddF32 _ _ _ m => m.redOk
  | .dredFaddB8 _ _ _ m => m.redOk
  | .dredModadd _ _ d m => even7 d && m.redOk
  | .dredMinF32 _ _ _ m => m.redOk
  | .dredMaxF32 _ _ _ m => m.redOk
  | .dredOr _ _ _ m => m.redOk
  | .fence m => m.fenceOk
  | .fenceRo m => m.fenceRoOk
  | .cflush _ _ m => m.cacheOk
  | .cinv _ _ m => m.cacheOk
  | .cinvDiscard _ _ m => m.cacheOk
  | .pref _ _ m => m.prefOk
  | .cp _ sz _ dst src m => decide (sz ≠ 3#2) && m.ok && decide (m.hint.toNat ≤ 3) && src.ok && dst.ok
  | .cpm _ sz _ dst src m => decide (sz ≠ 3#2) && m.ok && decide (m.hint.toNat ≤ 3) && src.ok && dst.ok && dst.isOwnTile
  | .cpr _ sz _ dst src m => decide (sz ≠ 3#2) && m.ok && src.ok && dst.ok && cprOk sz m.hint dst
  | .gth _ sz _ dst src m => decide (sz ≠ 3#2) && m.ok && decide (m.hint.toNat ≤ 3) && src.ok && dst.ok && src.isAddr && dst.isTile && dst.scalarOk
  | .sct _ sz _ dst src m => decide (sz ≠ 3#2) && m.ok && decide (m.hint.toNat ≤ 3) && src.ok && dst.ok && src.isTile && dst.isAddr && src.scalarOk
  | .put _ sz _ dst src m => decide (sz ≠ 3#2) && m.ok && decide (m.hint.toNat ≤ 3) && src.ok && dst.ok && dst.isAddr
  | .get _ sz _ dst src m => decide (sz ≠ 3#2) && m.ok && decide (m.hint.toNat ≤ 3) && src.ok && dst.ok && src.isAddr
  | .cpchute _ sz _ dst src m => decide (sz ≠ 3#2) && m.ok && decide (m.hint.toNat ≤ 3) && src.ok && dst.ok && dst.isTile && dst.rowZero
  | .launch _ _ src m => m.ok && decide (m.hint.toNat ≤ 3) && even7 src
  | .barWg => true
  | .barPen => true
  | .barLaunch => true
  | .tlwait _ b => b.natOk
  | .tlread _ _ _ => true
  | .wcwait _ _ b => b.natOk
  | .wcread _ _ _ => true
  | .chqClaim _ _ => true
  | .chqPub _ b => b.natOk
  | .chqWait _ _ => true
  | .chqRel _ b => b.natOk
  | .waitq _ _ _ => true
  | .wake _ _ _ => true
  | .mon _ => true
  | .mwait _ _ => true
  | .talloc _ _ _ => true
  | .tfree _ => true
  | .tquery _ _ => true
  | .winreg _ _ _ => true
  | .winfree _ b => b.natOk
  | .rankq _ _ => true
  | .sprd _ n => sysRegOk n
  | .spwr _ n => sysRegOk n
  | .trap => true
  | .tretRetry => true
  | .tretSkip => true
  | .tretKill => true
  | .tmask => true
  | .tunmask => true
  | .brk => true
  | .evt _ _ => true
  | .tlbinvPage _ _ => true
  | .tlbinvAsid _ _ => true
  | .tlbinvPaddock _ _ => true
  | .tlbinvRank _ => true
  | .tlbinvRankall _ => true
  | .halt => true
  | .linkUp _ => true
  | .hopKeyChange _ => true
  | .retransmission _ _ => true
  | .firmwareReportsLost _ => true

end Sys2Proof
end

