-- ==== Sys2Proof/Decode.lean ====
section
/-!
DEFINITION. Decode.lean: from the words of an instruction to an Instr (04 R60-R71), and back.
Decoding takes the class of the clause header, the instruction word and the words after it; it is total and rejects by
name. An encoding with a nonzero bit in a field that its instruction does not use does not encode back to itself, and
is rejected.
-/

namespace Sys2Proof

/-- Why words spell no legal instruction (04 R71). -/
inductive Reject where
  /-- The opcode is unassigned in the class. -/
  | unassigned
  /-- A reserved value, or a nonzero bit in a field that must be zero. -/
  | reserved
  deriving DecidableEq, Repr

/-! ## Formats (04 R65-R67) -/

/-- Format S. -/
def fS (op : BitVec 8) (sd sa : BitVec 6) (i : BitVec 1) (sb : BitVec 6) (md : BitVec 5) : Word :=
  md ++ i ++ sb ++ sa ++ sd ++ op
/-- Format V. -/
def fV (op : BitVec 8) (vd va vb : BitVec 7) (p : BitVec 3) : Word := p ++ vb ++ va ++ vd ++ op
/-- Format M. -/
def fM (op : BitVec 8) (v : BitVec 7) (tA tB tM : BitVec 4) (bs : BitVec 2) (k : BitVec 3) : Word :=
  k ++ bs ++ tM ++ tB ++ tA ++ v ++ op
/-- Format X. -/
def fX (op : BitVec 8) (d : BitVec 7) (b : BitVec 6) (i : BitVec 7) (k : BitVec 3) : Word :=
  0#1 ++ k ++ i ++ b ++ d ++ op
/-- Format A. -/
def fA (op : BitVec 8) (src dst : BitVec 7) (tl : BitVec 3) (sz : BitVec 2) (st dt : BitVec 1) (p : BitVec 3) : Word :=
  p ++ dt ++ st ++ sz ++ tl ++ dst ++ src ++ op

/-- The opcode. -/
def fldOp (w : Word) : BitVec 8 := w.extractLsb' 0 8
/-- sd of format S. -/
def fldFSd (w : Word) : BitVec 6 := w.extractLsb' 8 6
/-- sa of format S. -/
def fldFSa (w : Word) : BitVec 6 := w.extractLsb' 14 6
/-- sb or imm6 of format S. -/
def fldFSbf (w : Word) : BitVec 6 := w.extractLsb' 20 6
/-- I of format S. -/
def fldFSi (w : Word) : BitVec 1 := w.extractLsb' 26 1
/-- mod of format S. -/
def fldFSmod (w : Word) : BitVec 5 := w.extractLsb' 27 5
/-- vd of format V. -/
def fldFVd (w : Word) : BitVec 7 := w.extractLsb' 8 7
/-- va of format V. -/
def fldFVa (w : Word) : BitVec 7 := w.extractLsb' 15 7
/-- vb of format V. -/
def fldFVb (w : Word) : BitVec 7 := w.extractLsb' 22 7
/-- predicate of format V. -/
def fldFVp (w : Word) : BitVec 3 := w.extractLsb' 29 3
/-- vacc of format M. -/
def fldFMv (w : Word) : BitVec 7 := w.extractLsb' 8 7
/-- tA of format M. -/
def fldFMtA (w : Word) : BitVec 4 := w.extractLsb' 15 4
/-- tB of format M. -/
def fldFMtB (w : Word) : BitVec 4 := w.extractLsb' 19 4
/-- tM of format M. -/
def fldFMtM (w : Word) : BitVec 4 := w.extractLsb' 23 4
/-- byte select of format M. -/
def fldFMbs (w : Word) : BitVec 2 := w.extractLsb' 27 2
/-- pending counter of format M. -/
def fldFMk (w : Word) : BitVec 3 := w.extractLsb' 29 3
/-- v data of format X. -/
def fldFXd (w : Word) : BitVec 7 := w.extractLsb' 8 7
/-- s base or handle of format X. -/
def fldFXb (w : Word) : BitVec 6 := w.extractLsb' 15 6
/-- v index of format X. -/
def fldFXi (w : Word) : BitVec 7 := w.extractLsb' 21 7
/-- pending counter of format X. -/
def fldFXk (w : Word) : BitVec 3 := w.extractLsb' 28 3
/-- source of format A. -/
def fldFAsrc (w : Word) : BitVec 7 := w.extractLsb' 8 7
/-- destination of format A. -/
def fldFAdst (w : Word) : BitVec 7 := w.extractLsb' 15 7
/-- timeline of format A. -/
def fldFAtl (w : Word) : BitVec 3 := w.extractLsb' 22 3
/-- size of format A. -/
def fldFAsz (w : Word) : BitVec 2 := w.extractLsb' 25 2
/-- ST of format A. -/
def fldFAst (w : Word) : BitVec 1 := w.extractLsb' 27 1
/-- DT of format A. -/
def fldFAdt (w : Word) : BitVec 1 := w.extractLsb' 28 1
/-- predicate of format A. -/
def fldFAp (w : Word) : BitVec 3 := w.extractLsb' 29 3
/-- Operand b of format S. -/
def fldB (w : Word) : SOp := SOp.of (fldFSi w) (fldFSbf w)

/-! ## Encoding -/

/-- The words of an instruction, in order (04 R63): the instruction word and its extra words. Events have none. -/
def encode : Instr → List Word
  | .clauseIssue _ => []
  | .debuggerResume _ => []
  | .clauseEnd _ => []
  | .countedResultWrite _ _ _ => []
  | .trapEntry _ _ => []
  | .watchdogExpiry _ => []
  | .mwaitTimeout _ => []
  | .quantumExpiry _ => []
  | .park _ => []
  | .makeResident _ => []
  | .workgroupStart _ => []
  | .penAdmission _ _ => []
  | .launchPlacement => []
  | .launchAdmission _ => []
  | .asyncUnitLand _ _ => []
  | .cpchuteClaim => []
  | .launchWindowPlace _ _ => []
  | .preemptionRequest _ _ => []
  | .preemptionResume _ _ => []
  | .preemptionDeadline _ _ => []
  | .paddockSwap _ _ => []
  | .icehouseExchange => []
  | .gets _ => []
  | .getx _ => []
  | .upg _ => []
  | .drget _ _ => []
  | .amoMsg _ _ => []
  | .wrline _ _ => []
  | .pute _ => []
  | .putm _ _ => []
  | .puto _ _ => []
  | .inv _ => []
  | .fwds _ _ => []
  | .fwdx _ _ => []
  | .recall _ => []
  | .merge _ => []
  | .data _ _ _ => []
  | .grant _ => []
  | .grantd _ _ => []
  | .invack _ _ => []
  | .fwdack _ _ => []
  | .putack _ => []
  | .redack _ _ => []
  | .err _ _ => []
  | .redop _ _ _ => []
  | .drpart _ _ _ _ => []
  | .cacheEviction _ _ => []
  | .requestRetry _ _ => []
  | .linkDown _ => []
  | .heartbeatMiss _ => []
  | .extentRevoke _ _ _ => []
  | .revocationTimeout _ _ _ => []
  | .windowKeyReplace _ _ _ => []
  | .oldKeyTimeout _ _ => []
  | .remotePacket _ => []
  | .remoteAck _ => []
  | .paddockTableWrite _ _ => []
  | .errorLogTailWrite _ _ => []
  | .sinkDescriptorWrite _ _ => []
  | .sinkTailWrite _ _ => []
  | .readback _ => []
  | .registerWrite _ => []
  | .rimeRecord => []
  | .stallLimit _ => []
  | .ptpLock _ => []
  | .ptpLockLoss => []
  | .ptpCorrection _ => []
  | .beacon => []
  | .perfLatch => []
  | .floorWindow _ _ => []
  | .progressSample => []
  | .powerGood _ => []
  | .readinessReport _ _ => []
  | .powerCapSet _ => []
  | .thermalThrottle _ => []
  | .thermalTrip => []
  | .trayWindowDouble _ => []
  | .getVersion _ => []
  | .getCapabilities _ => []
  | .negotiateAlgorithms _ _ _ => []
  | .getDigests _ => []
  | .getCertificate _ _ _ _ => []
  | .challenge _ _ => []
  | .getMeasurements _ _ _ => []
  | .keyExchange _ _ _ => []
  | .finish _ _ => []
  | .keyUpdate _ _ => []
  | .endSession _ _ => []
  | .snop => [fS 0x00#8 (0#6) (0#6) 0#1 0#6 (0#5)]
  | .sadd d a b => [fS 0x01#8 (d) (a) b.i b.f (0#5)]
  | .ssub d a b => [fS 0x02#8 (d) (a) b.i b.f (0#5)]
  | .smul d a b => [fS 0x03#8 (d) (a) b.i b.f (0#5)]
  | .smulh d a b => [fS 0x04#8 (d) (a) b.i b.f (0#5)]
  | .smulhn d a b => [fS 0x05#8 (d) (a) b.i b.f (0#5)]
  | .sand d a b => [fS 0x06#8 (d) (a) b.i b.f (0#5)]
  | .sor d a b => [fS 0x07#8 (d) (a) b.i b.f (0#5)]
  | .sxor d a b => [fS 0x08#8 (d) (a) b.i b.f (0#5)]
  | .sshl d a b => [fS 0x09#8 (d) (a) b.i b.f (0#5)]
  | .sshr d a b => [fS 0x0A#8 (d) (a) b.i b.f (0#5)]
  | .ssar d a b => [fS 0x0B#8 (d) (a) b.i b.f (0#5)]
  | .smin d a b => [fS 0x0C#8 (d) (a) b.i b.f (0#5)]
  | .smax d a b => [fS 0x0D#8 (d) (a) b.i b.f (0#5)]
  | .sminn d a b => [fS 0x0E#8 (d) (a) b.i b.f (0#5)]
  | .smaxn d a b => [fS 0x0F#8 (d) (a) b.i b.f (0#5)]
  | .smov d b => [fS 0x10#8 (d) (0#6) b.i b.f (0#5)]
  | .smovk d sx lit => [fS 0x11#8 (d) (0#6) 0#1 0#6 (0#4 ++ sx), lit]
  | .smovkh d lit => [fS 0x12#8 (d) (0#6) 0#1 0#6 (0#5), lit]
  | .scmp n c d a b => [fS 0x13#8 (d) (a) b.i b.f (0#1 ++ n ++ c)]
  | .scmpP n c q a b => [fS 0x13#8 (0#3 ++ q) (a) b.i b.f (1#1 ++ n ++ c)]
  | .ssel all q d a b => [fS 0x14#8 (d) (a) b.i b.f (all ++ 0#1 ++ q)]
  | .sfromv w64 hi lo d b => [fS 0x15#8 (d) (lo) b.i b.f (0#3 ++ w64 ++ hi)]
  | .sballot d q => [fS 0x16#8 (d) (0#3 ++ q) 0#1 0#6 (0#5)]
  | .spopc d b => [fS 0x17#8 (d) (0#6) b.i b.f (0#5)]
  | .sclz d b => [fS 0x18#8 (d) (0#6) b.i b.f (0#5)]
  | .br lit => [fS 0x20#8 (0#6) (0#6) 0#1 0#6 (0#5), lit]
  | .bz a lit => [fS 0x21#8 (0#6) (a) 0#1 0#6 (0#5), lit]
  | .bnz a lit => [fS 0x22#8 (0#6) (a) 0#1 0#6 (0#5), lit]
  | .bp neg q lit => [fS 0x23#8 (0#6) (0#3 ++ q) 0#1 0#6 (0#4 ++ neg), lit]
  | .call d lit => [fS 0x24#8 (d) (0#6) 0#1 0#6 (0#5), lit]
  | .ret a => [fS 0x25#8 (0#6) (a) 0#1 0#6 (0#5)]
  | .bi a => [fS 0x26#8 (0#6) (a) 0#1 0#6 (0#5)]
  | .exit => [fS 0x27#8 (0#6) (0#6) 0#1 0#6 (0#5)]
  | .yield => [fS 0x28#8 (0#6) (0#6) 0#1 0#6 (0#5)]
  | .mset j lit => [fS 0x30#8 (0#3 ++ j) (0#6) 0#1 0#6 (0#5), lit]
  | .mstrike j => [fS 0x31#8 (0#3 ++ j) (0#6) 0#1 0#6 (0#5)]
  | .mget d => [fS 0x32#8 (d) (0#6) 0#1 0#6 (0#5)]
  | .mput a => [fS 0x33#8 (0#6) (a) 0#1 0#6 (0#5)]
  | .jread d j => [fS 0x34#8 (d) (0#3 ++ j) 0#1 0#6 (0#5)]
  | .jreadAddr d j => [fS 0x34#8 (d) (0#3 ++ j) 0#1 0#6 (1#5)]
  | .vmov p d a => [fV 0x00#8 (d) (a) (0#7) p]
  | .vmovk p d lit => [fV 0x01#8 (d) (0#7) (0#7) p, lit]
  | .vaddI32 p d a b => [fV 0x02#8 (d) (a) (b) p]
  | .vaddI64 p d a b => [fV 0x03#8 (d) (a) (b) p]
  | .vsubI32 p d a b => [fV 0x04#8 (d) (a) (b) p]
  | .vsubI64 p d a b => [fV 0x05#8 (d) (a) (b) p]
  | .vmulI32 p d a b => [fV 0x06#8 (d) (a) (b) p]
  | .vmulhI32 p d a b => [fV 0x07#8 (d) (a) (b) p]
  | .vmulhN32 p d a b => [fV 0x08#8 (d) (a) (b) p]
  | .vmadI32 p d a b => [fV 0x09#8 (d) (a) (b) p]
  | .vand p d a b => [fV 0x0A#8 (d) (a) (b) p]
  | .vor p d a b => [fV 0x0B#8 (d) (a) (b) p]
  | .vxor p d a b => [fV 0x0C#8 (d) (a) (b) p]
  | .vnot p d a => [fV 0x0D#8 (d) (a) (0#7) p]
  | .vshl p d a b => [fV 0x0E#8 (d) (a) (b) p]
  | .vshr p d a b => [fV 0x0F#8 (d) (a) (b) p]
  | .vsar p d a b => [fV 0x10#8 (d) (a) (b) p]
  | .vminI32 p d a b => [fV 0x11#8 (d) (a) (b) p]
  | .vmaxI32 p d a b => [fV 0x12#8 (d) (a) (b) p]
  | .vminN32 p d a b => [fV 0x13#8 (d) (a) (b) p]
  | .vmaxN32 p d a b => [fV 0x14#8 (d) (a) (b) p]
  | .vabsI32 p d a => [fV 0x15#8 (d) (a) (0#7) p]
  | .vclz p d a => [fV 0x16#8 (d) (a) (0#7) p]
  | .vpopc p d a => [fV 0x17#8 (d) (a) (0#7) p]
  | .vbrev p d a => [fV 0x18#8 (d) (a) (0#7) p]
  | .vbfx p d a b => [fV 0x19#8 (d) (a) (b) p]
  | .vbfi p d a b => [fV 0x1A#8 (d) (a) (b) p]
  | .vsel p d a b => [fV 0x1B#8 (d) (a) (b) p]
  | .vcmpI32 p c q a b => [fV 0x1C#8 (c ++ q) (a) (b) p]
  | .vcmpN32 p c q a b => [fV 0x1D#8 (c ++ q) (a) (b) p]
  | .vcmpI64 p c q a b => [fV 0x1E#8 (c ++ q) (a) (b) p]
  | .vaddsI32 p d a b => [fV 0x1F#8 (d) (a) (b) p]
  | .vshflIdx p d a b => [fV 0x20#8 (d) (a) (b) p]
  | .vshflXor p d a c => [fV 0x21#8 (d) (a) (0#2 ++ c) p]
  | .vshflUp p d a c => [fV 0x22#8 (d) (a) (0#2 ++ c) p]
  | .vshflDown p d a c => [fV 0x23#8 (d) (a) (0#2 ++ c) p]
  | .vbcast p d a c => [fV 0x24#8 (d) (a) (0#2 ++ c) p]
  | .vlaneid p d => [fV 0x25#8 (d) (0#7) (0#7) p]
  | .vprefixI32 p d a => [fV 0x26#8 (d) (a) (0#7) p]
  | .vaddF32 p d a b => [fV 0x40#8 (d) (a) (b) p]
  | .vsubF32 p d a b => [fV 0x41#8 (d) (a) (b) p]
  | .vmulF32 p d a b => [fV 0x42#8 (d) (a) (b) p]
  | .vfmaF32 p d a b => [fV 0x43#8 (d) (a) (b) p]
  | .vminF32 p d a b => [fV 0x44#8 (d) (a) (b) p]
  | .vmaxF32 p d a b => [fV 0x45#8 (d) (a) (b) p]
  | .vcmpF32 p c q a b => [fV 0x46#8 (c ++ q) (a) (b) p]
  | .vrcpF32 p d a k => [fV 0x47#8 (d) (a) (0#4 ++ k) p]
  | .vrsqrtF32 p d a k => [fV 0x48#8 (d) (a) (0#4 ++ k) p]
  | .vsqrtF32 p d a k => [fV 0x49#8 (d) (a) (0#4 ++ k) p]
  | .vexp2F32 p d a k => [fV 0x4A#8 (d) (a) (0#4 ++ k) p]
  | .vlog2F32 p d a k => [fV 0x4B#8 (d) (a) (0#4 ++ k) p]
  | .vclassF32 p d a => [fV 0x4C#8 (d) (a) (0#7) p]
  | .vaddF64 p d a b => [fV 0x50#8 (d) (a) (b) p]
  | .vsubF64 p d a b => [fV 0x51#8 (d) (a) (b) p]
  | .vmulF64 p d a b => [fV 0x52#8 (d) (a) (b) p]
  | .vfmaF64 p d a b => [fV 0x53#8 (d) (a) (b) p]
  | .vminF64 p d a b => [fV 0x54#8 (d) (a) (b) p]
  | .vmaxF64 p d a b => [fV 0x55#8 (d) (a) (b) p]
  | .vcmpF64 p c q a b => [fV 0x56#8 (c ++ q) (a) (b) p]
  | .vaddF16x2 p d a b => [fV 0x58#8 (d) (a) (b) p]
  | .vmulF16x2 p d a b => [fV 0x59#8 (d) (a) (b) p]
  | .vfmaF16x2 p d a b => [fV 0x5A#8 (d) (a) (b) p]
  | .vcvt p d a sat rnd df sf => [fV 0x60#8 (d) (a) (0#7) p, 0#17 ++ sat ++ rnd ++ df ++ sf]
  | .vpack8 p d a sat f => [fV 0x61#8 (d) (a) (sat ++ f) p]
  | .vunpack8 p d a f => [fV 0x62#8 (d) (a) (0#1 ++ f) p]
  | .vscaleF32 p d a b => [fV 0x63#8 (d) (a) (b) p]
  | .vperm p d a b => [fV 0x64#8 (d) (a) (b) p]
  | .vdot4 p d a b => [fV 0x65#8 (d) (a) (b) p]
  | .vmodadd p d a b => [fV 0x70#8 (d) (a) (b) p]
  | .vmodsub p d a b => [fV 0x71#8 (d) (a) (b) p]
  | .vmodmul p d a b => [fV 0x72#8 (d) (a) (b) p]
  | .vmodred p d a => [fV 0x73#8 (d) (a) (0#7) p]
  | .vnttCt p d a b => [fV 0x74#8 (d) (a) (b) p]
  | .vnttGs p d a b => [fV 0x75#8 (d) (a) (b) p]
  | .tcfgw n a => [fM 0x00#8 (0#1 ++ a) (n) (0#4) (0#4) (0#2) (7#3)]
  | .tcfgr d n => [fM 0x01#8 (d) (n) (0#4) (0#4) (0#2) (7#3)]
  | .tzero n => [fM 0x02#8 (0#7) (n) (0#4) (0#4) (0#2) (7#3)]
  | .tld k fe dy dx n sib h c => [fM 0x03#8 (sib ++ h) (n) (dx) (dy) (fe) (k), c.word]
  | .tldPerm k fe tT bb n h c => [fM 0x04#8 (0#1 ++ h) (n) (0#3 ++ bb) (tT) (fe) (k), c.word]
  | .tst fe dy dx n sib h c => [fM 0x05#8 (sib ++ h) (n) (dx) (dy) (fe) (7#3), c.word]
  | .tmov d s => [fM 0x06#8 (0#7) (d) (s) (0#4) (0#2) (7#3)]
  | .tmovTr d s => [fM 0x06#8 (0#7) (d) (s) (0#4) (1#2) (7#3)]
  | .mmaB8 k bs tB tA v => [fM 0x10#8 (v) (tA) (tB) (0#4) (bs) (k)]
  | .mmaB8Scl k bs tB tA v vA vB => [fM 0x11#8 (v) (tA) (tB) (0#4) (bs) (k), 0#17 ++ vB ++ 0#1 ++ vA]
  | .mmaB8Sp k bs tM tB tA v => [fM 0x12#8 (v) (tA) (tB) (tM) (bs) (k)]
  | .mmaB8SclSp k bs tM tB tA v vA vB => [fM 0x13#8 (v) (tA) (tB) (tM) (bs) (k), 0#17 ++ vB ++ 0#1 ++ vA]
  | .mmaBf16 k bs tB tA v => [fM 0x14#8 (v) (tA) (tB) (0#4) (bs) (k)]
  | .mmaF16 k bs tB tA v => [fM 0x15#8 (v) (tA) (tB) (0#4) (bs) (k)]
  | .mmaF32 k bs tB tA v => [fM 0x16#8 (v) (tA) (tB) (0#4) (bs) (k)]
  | .mmaF64 k bs tB tA v => [fM 0x17#8 (v) (tA) (tB) (0#4) (bs) (k)]
  | .mmaI8 k bs tB tA v => [fM 0x18#8 (v) (tA) (tB) (0#4) (bs) (k)]
  | .mmaMod k bs tB tA v => [fM 0x19#8 (v) (tA) (tB) (0#4) (bs) (k)]
  | .ldN8 k i b d m => [fX 0x00#8 (d) (b) (i) (k), m.word]
  | .ldI8 k i b d m => [fX 0x01#8 (d) (b) (i) (k), m.word]
  | .ldN16 k i b d m => [fX 0x02#8 (d) (b) (i) (k), m.word]
  | .ldI16 k i b d m => [fX 0x03#8 (d) (b) (i) (k), m.word]
  | .ld32 k i b d m => [fX 0x04#8 (d) (b) (i) (k), m.word]
  | .ld64 k i b d m => [fX 0x05#8 (d) (b) (i) (k), m.word]
  | .ld128 k i b d m => [fX 0x06#8 (d) (b) (i) (k), m.word]
  | .st8 i b d m => [fX 0x08#8 (d) (b) (i) (7#3), m.word]
  | .st16 i b d m => [fX 0x09#8 (d) (b) (i) (7#3), m.word]
  | .st32 i b d m => [fX 0x0A#8 (d) (b) (i) (7#3), m.word]
  | .st64 i b d m => [fX 0x0B#8 (d) (b) (i) (7#3), m.word]
  | .st128 i b d m => [fX 0x0C#8 (d) (b) (i) (7#3), m.word]
  | .ldt32 k p h d m c => [fX 0x10#8 (d) (h) (0#4 ++ p) (k), m.word, c.word]
  | .ldt64 k p h d m c => [fX 0x11#8 (d) (h) (0#4 ++ p) (k), m.word, c.word]
  | .ldt128 k p h d m c => [fX 0x12#8 (d) (h) (0#4 ++ p) (k), m.word, c.word]
  | .stt32 p h d m c => [fX 0x14#8 (d) (h) (0#4 ++ p) (7#3), m.word, c.word]
  | .stt64 p h d m c => [fX 0x15#8 (d) (h) (0#4 ++ p) (7#3), m.word, c.word]
  | .stt128 p h d m c => [fX 0x16#8 (d) (h) (0#4 ++ p) (7#3), m.word, c.word]
  | .sld64 k b d m => [fX 0x18#8 (0#1 ++ d) (b) (0#7) (k), m.word]
  | .sst64 b a m => [fX 0x19#8 (0#1 ++ a) (b) (0#7) (7#3), m.word]
  | .amoAddI32 k i b d m => [fX 0x20#8 (d) (b) (i) (k), m.word]
  | .amoAddI64 k i b d m => [fX 0x21#8 (d) (b) (i) (k), m.word]
  | .amoMinI32 k i b d m => [fX 0x22#8 (d) (b) (i) (k), m.word]
  | .amoMinN32 k i b d m => [fX 0x23#8 (d) (b) (i) (k), m.word]
  | .amoMinI64 k i b d m => [fX 0x24#8 (d) (b) (i) (k), m.word]
  | .amoMaxI32 k i b d m => [fX 0x25#8 (d) (b) (i) (k), m.word]
  | .amoMaxN32 k i b d m => [fX 0x26#8 (d) (b) (i) (k), m.word]
  | .amoMaxI64 k i b d m => [fX 0x27#8 (d) (b) (i) (k), m.word]
  | .amoAnd k i b d m => [fX 0x28#8 (d) (b) (i) (k), m.word]
  | .amoOr k i b d m => [fX 0x29#8 (d) (b) (i) (k), m.word]
  | .amoXor k i b d m => [fX 0x2A#8 (d) (b) (i) (k), m.word]
  | .amoSwap k i b d m => [fX 0x2B#8 (d) (b) (i) (k), m.word]
  | .amoCas32 k i b d m => [fX 0x2C#8 (d) (b) (i) (k), m.word]
  | .amoCas64 k i b d m => [fX 0x2D#8 (d) (b) (i) (k), m.word]
  | .amoFaddF32 k i b d m => [fX 0x2E#8 (d) (b) (i) (k), m.word]
  | .redAddI32 i b d m => [fX 0x30#8 (d) (b) (i) (7#3), m.word]
  | .redAddI64 i b d m => [fX 0x31#8 (d) (b) (i) (7#3), m.word]
  | .redMin i b d m => [fX 0x32#8 (d) (b) (i) (7#3), m.word]
  | .redMax i b d m => [fX 0x33#8 (d) (b) (i) (7#3), m.word]
  | .redAnd i b d m => [fX 0x34#8 (d) (b) (i) (7#3), m.word]
  | .redOr i b d m => [fX 0x35#8 (d) (b) (i) (7#3), m.word]
  | .redXor i b d m => [fX 0x36#8 (d) (b) (i) (7#3), m.word]
  | .dredAddI64 i b d m => [fX 0x38#8 (d) (b) (i) (7#3), m.word]
  | .dredFaddF32 i b d m => [fX 0x39#8 (d) (b) (i) (7#3), m.word]
  | .dredFaddB8 i b d m => [fX 0x3A#8 (d) (b) (i) (7#3), m.word]
  | .dredModadd i b d m => [fX 0x3B#8 (d) (b) (i) (7#3), m.word]
  | .dredMinF32 i b d m => [fX 0x3C#8 (d) (b) (i) (7#3), m.word]
  | .dredMaxF32 i b d m => [fX 0x3D#8 (d) (b) (i) (7#3), m.word]
  | .dredOr i b d m => [fX 0x3E#8 (d) (b) (i) (7#3), m.word]
  | .fence m => [fX 0x40#8 (0#7) (0#6) (0#7) (7#3), m.word]
  | .fenceRo m => [fX 0x41#8 (0#7) (0#6) (0#7) (7#3), m.word]
  | .cflush i b m => [fX 0x42#8 (0#7) (b) (i) (7#3), m.word]
  | .cinv i b m => [fX 0x43#8 (0#7) (b) (i) (7#3), m.word]
  | .cinvDiscard i b m => [fX 0x44#8 (0#7) (b) (i) (7#3), m.word]
  | .pref i b m => [fX 0x45#8 (0#7) (b) (i) (7#3), m.word]
  | .cp p sz tl dst src m => [fA 0x00#8 src.fld dst.fld tl sz src.flag dst.flag p, m.word src.ref dst.ref] ++ src.coordWords ++ dst.coordWords
  | .cpm p sz tl dst src m => [fA 0x01#8 src.fld dst.fld tl sz src.flag dst.flag p, m.word src.ref dst.ref] ++ src.coordWords ++ dst.coordWords
  | .cpr p sz tl dst src m => [fA 0x02#8 src.fld dst.fld tl sz src.flag dst.flag p, m.word src.ref dst.ref] ++ src.coordWords ++ dst.coordWords
  | .gth p sz tl dst src m => [fA 0x03#8 src.fld dst.fld tl sz src.flag dst.flag p, m.word src.ref dst.ref] ++ src.coordWords ++ dst.coordWords
  | .sct p sz tl dst src m => [fA 0x04#8 src.fld dst.fld tl sz src.flag dst.flag p, m.word src.ref dst.ref] ++ src.coordWords ++ dst.coordWords
  | .put p sz tl dst src m => [fA 0x05#8 src.fld dst.fld tl sz src.flag dst.flag p, m.word src.ref dst.ref] ++ src.coordWords ++ dst.coordWords
  | .get p sz tl dst src m => [fA 0x06#8 src.fld dst.fld tl sz src.flag dst.flag p, m.word src.ref dst.ref] ++ src.coordWords ++ dst.coordWords
  | .cpchute p sz tl dst src m => [fA 0x07#8 src.fld dst.fld tl sz src.flag dst.flag p, m.word src.ref dst.ref] ++ src.coordWords ++ dst.coordWords
  | .launch p tl src m => [fA 0x08#8 src 0#7 tl 0#2 0#1 0#1 p, m.word 0#9 0#9]
  | .barWg => [fS 0x00#8 (0#6) (0#6) 0#1 0#6 (0#5)]
  | .barPen => [fS 0x01#8 (0#6) (0#6) 0#1 0#6 (0#5)]
  | .barLaunch => [fS 0x02#8 (0#6) (0#6) 0#1 0#6 (0#5)]
  | .tlwait n b => [fS 0x03#8 (0#6) (0#3 ++ n) b.i b.f (0#5)]
  | .tlread d n sel => [fS 0x04#8 (d) (0#3 ++ n) 1#1 (0#4 ++ sel) (0#5)]
  | .wcwait k r b => [fS 0x05#8 (0#5 ++ k) (0#1 ++ r) b.i b.f (0#5)]
  | .wcread d r k => [fS 0x06#8 (d) (0#1 ++ r) 1#1 (0#5 ++ k) (0#5)]
  | .chqClaim d h => [fS 0x07#8 (d) (h) 0#1 0#6 (0#5)]
  | .chqPub h b => [fS 0x08#8 (0#6) (h) b.i b.f (0#5)]
  | .chqWait d h => [fS 0x09#8 (d) (h) 0#1 0#6 (0#5)]
  | .chqRel h b => [fS 0x0A#8 (0#6) (h) b.i b.f (0#5)]
  | .waitq d a b => [fS 0x0B#8 (d) (a) b.i b.f (0#5)]
  | .wake d a b => [fS 0x0C#8 (d) (a) b.i b.f (0#5)]
  | .mon a => [fS 0x0D#8 (0#6) (a) 0#1 0#6 (0#5)]
  | .mwait d b => [fS 0x0E#8 (d) (0#6) b.i b.f (0#5)]
  | .talloc d h b => [fS 0x00#8 (d) (h) 0#1 b (0#5)]
  | .tfree h => [fS 0x01#8 (0#6) (h) 0#1 0#6 (0#5)]
  | .tquery d h => [fS 0x02#8 (d) (h) 0#1 0#6 (0#5)]
  | .winreg d a b => [fS 0x03#8 (d) (a) 0#1 b (0#5)]
  | .winfree d b => [fS 0x04#8 (d) (0#6) b.i b.f (0#5)]
  | .rankq d a => [fS 0x05#8 (d) (a) 0#1 0#6 (0#5)]
  | .sprd d n => [fS 0x06#8 (d) (0#6) 0#1 0#6 (0#5), 0#20 ++ n]
  | .spwr a n => [fS 0x07#8 (0#6) (a) 0#1 0#6 (0#5), 0#20 ++ n]
  | .trap => [fS 0x08#8 (0#6) (0#6) 0#1 0#6 (0#5)]
  | .tretRetry => [fS 0x09#8 (0#6) (0#6) 0#1 0#6 (0#5)]
  | .tretSkip => [fS 0x09#8 (0#6) (0#6) 0#1 0#6 (1#5)]
  | .tretKill => [fS 0x09#8 (0#6) (0#6) 0#1 0#6 (2#5)]
  | .tmask => [fS 0x0A#8 (0#6) (0#6) 0#1 0#6 (0#5)]
  | .tunmask => [fS 0x0B#8 (0#6) (0#6) 0#1 0#6 (0#5)]
  | .brk => [fS 0x0C#8 (0#6) (0#6) 0#1 0#6 (0#5)]
  | .evt a n => [fS 0x0D#8 (0#6) (a) 0#1 0#6 (0#5), 0#26 ++ n]
  | .tlbinvPage a b => [fS 0x0E#8 (0#6) (a) b.i b.f (0#5)]
  | .tlbinvAsid a b => [fS 0x0E#8 (0#6) (a) b.i b.f (1#5)]
  | .tlbinvPaddock a b => [fS 0x0E#8 (0#6) (a) b.i b.f (2#5)]
  | .tlbinvRank a => [fS 0x0E#8 (0#6) (a) 0#1 0#6 (3#5)]
  | .tlbinvRankall a => [fS 0x0E#8 (0#6) (a) 0#1 0#6 (4#5)]
  | .halt => [fS 0x0F#8 (0#6) (0#6) 0#1 0#6 (0#5)]
  | .linkUp _ => []
  | .hopKeyChange _ => []
  | .retransmission _ _ => []
  | .firmwareReportsLost _ => []

/-! ## Decoding -/

/-- Class 0 (04 R69): the instruction that the fields of a word and its extra words spell, before the checks of R71. -/
def parseScalar (w : Word) (x : List Word) : Except Reject Instr :=
  match (fldOp w).toNat with
  | 0x00 => .ok (.snop)
  | 0x01 => .ok (.sadd (fldFSd w) (fldFSa w) (fldB w))
  | 0x02 => .ok (.ssub (fldFSd w) (fldFSa w) (fldB w))
  | 0x03 => .ok (.smul (fldFSd w) (fldFSa w) (fldB w))
  | 0x04 => .ok (.smulh (fldFSd w) (fldFSa w) (fldB w))
  | 0x05 => .ok (.smulhn (fldFSd w) (fldFSa w) (fldB w))
  | 0x06 => .ok (.sand (fldFSd w) (fldFSa w) (fldB w))
  | 0x07 => .ok (.sor (fldFSd w) (fldFSa w) (fldB w))
  | 0x08 => .ok (.sxor (fldFSd w) (fldFSa w) (fldB w))
  | 0x09 => .ok (.sshl (fldFSd w) (fldFSa w) (fldB w))
  | 0x0A => .ok (.sshr (fldFSd w) (fldFSa w) (fldB w))
  | 0x0B => .ok (.ssar (fldFSd w) (fldFSa w) (fldB w))
  | 0x0C => .ok (.smin (fldFSd w) (fldFSa w) (fldB w))
  | 0x0D => .ok (.smax (fldFSd w) (fldFSa w) (fldB w))
  | 0x0E => .ok (.sminn (fldFSd w) (fldFSa w) (fldB w))
  | 0x0F => .ok (.smaxn (fldFSd w) (fldFSa w) (fldB w))
  | 0x10 => .ok (.smov (fldFSd w) (fldB w))
  | 0x11 => .ok (.smovk (fldFSd w) ((fldFSmod w).extractLsb' 0 1) (x.getD 0 0#32))
  | 0x12 => .ok (.smovkh (fldFSd w) (x.getD 0 0#32))
  | 0x13 => if (fldFSmod w).extractLsb' 4 1 = 0#1 then .ok (.scmp ((fldFSmod w).extractLsb' 3 1) ((fldFSmod w).extractLsb' 0 3) (fldFSd w) (fldFSa w) (fldB w)) else
      .ok (.scmpP ((fldFSmod w).extractLsb' 3 1) ((fldFSmod w).extractLsb' 0 3) ((fldFSd w).extractLsb' 0 3) (fldFSa w) (fldB w))
  | 0x14 => .ok (.ssel ((fldFSmod w).extractLsb' 4 1) ((fldFSmod w).extractLsb' 0 3) (fldFSd w) (fldFSa w) (fldB w))
  | 0x15 => .ok (.sfromv ((fldFSmod w).extractLsb' 1 1) ((fldFSmod w).extractLsb' 0 1) (fldFSa w) (fldFSd w) (fldB w))
  | 0x16 => .ok (.sballot (fldFSd w) ((fldFSa w).extractLsb' 0 3))
  | 0x17 => .ok (.spopc (fldFSd w) (fldB w))
  | 0x18 => .ok (.sclz (fldFSd w) (fldB w))
  | 0x20 => .ok (.br (x.getD 0 0#32))
  | 0x21 => .ok (.bz (fldFSa w) (x.getD 0 0#32))
  | 0x22 => .ok (.bnz (fldFSa w) (x.getD 0 0#32))
  | 0x23 => .ok (.bp ((fldFSmod w).extractLsb' 0 1) ((fldFSa w).extractLsb' 0 3) (x.getD 0 0#32))
  | 0x24 => .ok (.call (fldFSd w) (x.getD 0 0#32))
  | 0x25 => .ok (.ret (fldFSa w))
  | 0x26 => .ok (.bi (fldFSa w))
  | 0x27 => .ok (.exit)
  | 0x28 => .ok (.yield)
  | 0x30 => .ok (.mset ((fldFSd w).extractLsb' 0 3) (x.getD 0 0#32))
  | 0x31 => .ok (.mstrike ((fldFSd w).extractLsb' 0 3))
  | 0x32 => .ok (.mget (fldFSd w))
  | 0x33 => .ok (.mput (fldFSa w))
  | 0x34 => if (fldFSmod w).extractLsb' 0 1 = 0#1 then .ok (.jread (fldFSd w) ((fldFSa w).extractLsb' 0 3)) else
      .ok (.jreadAddr (fldFSd w) ((fldFSa w).extractLsb' 0 3))
  | _ => .error .unassigned

/-- Class 1 (04 R69): the instruction that the fields of a word and its extra words spell, before the checks of R71. -/
def parseVector (w : Word) (x : List Word) : Except Reject Instr :=
  match (fldOp w).toNat with
  | 0x00 => .ok (.vmov (fldFVp w) (fldFVd w) (fldFVa w))
  | 0x01 => .ok (.vmovk (fldFVp w) (fldFVd w) (x.getD 0 0#32))
  | 0x02 => .ok (.vaddI32 (fldFVp w) (fldFVd w) (fldFVa w) (fldFVb w))
  | 0x03 => .ok (.vaddI64 (fldFVp w) (fldFVd w) (fldFVa w) (fldFVb w))
  | 0x04 => .ok (.vsubI32 (fldFVp w) (fldFVd w) (fldFVa w) (fldFVb w))
  | 0x05 => .ok (.vsubI64 (fldFVp w) (fldFVd w) (fldFVa w) (fldFVb w))
  | 0x06 => .ok (.vmulI32 (fldFVp w) (fldFVd w) (fldFVa w) (fldFVb w))
  | 0x07 => .ok (.vmulhI32 (fldFVp w) (fldFVd w) (fldFVa w) (fldFVb w))
  | 0x08 => .ok (.vmulhN32 (fldFVp w) (fldFVd w) (fldFVa w) (fldFVb w))
  | 0x09 => .ok (.vmadI32 (fldFVp w) (fldFVd w) (fldFVa w) (fldFVb w))
  | 0x0A => .ok (.vand (fldFVp w) (fldFVd w) (fldFVa w) (fldFVb w))
  | 0x0B => .ok (.vor (fldFVp w) (fldFVd w) (fldFVa w) (fldFVb w))
  | 0x0C => .ok (.vxor (fldFVp w) (fldFVd w) (fldFVa w) (fldFVb w))
  | 0x0D => .ok (.vnot (fldFVp w) (fldFVd w) (fldFVa w))
  | 0x0E => .ok (.vshl (fldFVp w) (fldFVd w) (fldFVa w) (fldFVb w))
  | 0x0F => .ok (.vshr (fldFVp w) (fldFVd w) (fldFVa w) (fldFVb w))
  | 0x10 => .ok (.vsar (fldFVp w) (fldFVd w) (fldFVa w) (fldFVb w))
  | 0x11 => .ok (.vminI32 (fldFVp w) (fldFVd w) (fldFVa w) (fldFVb w))
  | 0x12 => .ok (.vmaxI32 (fldFVp w) (fldFVd w) (fldFVa w) (fldFVb w))
  | 0x13 => .ok (.vminN32 (fldFVp w) (fldFVd w) (fldFVa w) (fldFVb w))
  | 0x14 => .ok (.vmaxN32 (fldFVp w) (fldFVd w) (fldFVa w) (fldFVb w))
  | 0x15 => .ok (.vabsI32 (fldFVp w) (fldFVd w) (fldFVa w))
  | 0x16 => .ok (.vclz (fldFVp w) (fldFVd w) (fldFVa w))
  | 0x17 => .ok (.vpopc (fldFVp w) (fldFVd w) (fldFVa w))
  | 0x18 => .ok (.vbrev (fldFVp w) (fldFVd w) (fldFVa w))
  | 0x19 => .ok (.vbfx (fldFVp w) (fldFVd w) (fldFVa w) (fldFVb w))
  | 0x1A => .ok (.vbfi (fldFVp w) (fldFVd w) (fldFVa w) (fldFVb w))
  | 0x1B => .ok (.vsel (fldFVp w) (fldFVd w) (fldFVa w) (fldFVb w))
  | 0x1C => .ok (.vcmpI32 (fldFVp w) ((fldFVd w).extractLsb' 3 4) ((fldFVd w).extractLsb' 0 3) (fldFVa w) (fldFVb w))
  | 0x1D => .ok (.vcmpN32 (fldFVp w) ((fldFVd w).extractLsb' 3 4) ((fldFVd w).extractLsb' 0 3) (fldFVa w) (fldFVb w))
  | 0x1E => .ok (.vcmpI64 (fldFVp w) ((fldFVd w).extractLsb' 3 4) ((fldFVd w).extractLsb' 0 3) (fldFVa w) (fldFVb w))
  | 0x1F => .ok (.vaddsI32 (fldFVp w) (fldFVd w) (fldFVa w) (fldFVb w))
  | 0x20 => .ok (.vshflIdx (fldFVp w) (fldFVd w) (fldFVa w) (fldFVb w))
  | 0x21 => .ok (.vshflXor (fldFVp w) (fldFVd w) (fldFVa w) ((fldFVb w).extractLsb' 0 5))
  | 0x22 => .ok (.vshflUp (fldFVp w) (fldFVd w) (fldFVa w) ((fldFVb w).extractLsb' 0 5))
  | 0x23 => .ok (.vshflDown (fldFVp w) (fldFVd w) (fldFVa w) ((fldFVb w).extractLsb' 0 5))
  | 0x24 => .ok (.vbcast (fldFVp w) (fldFVd w) (fldFVa w) ((fldFVb w).extractLsb' 0 5))
  | 0x25 => .ok (.vlaneid (fldFVp w) (fldFVd w))
  | 0x26 => .ok (.vprefixI32 (fldFVp w) (fldFVd w) (fldFVa w))
  | 0x40 => .ok (.vaddF32 (fldFVp w) (fldFVd w) (fldFVa w) (fldFVb w))
  | 0x41 => .ok (.vsubF32 (fldFVp w) (fldFVd w) (fldFVa w) (fldFVb w))
  | 0x42 => .ok (.vmulF32 (fldFVp w) (fldFVd w) (fldFVa w) (fldFVb w))
  | 0x43 => .ok (.vfmaF32 (fldFVp w) (fldFVd w) (fldFVa w) (fldFVb w))
  | 0x44 => .ok (.vminF32 (fldFVp w) (fldFVd w) (fldFVa w) (fldFVb w))
  | 0x45 => .ok (.vmaxF32 (fldFVp w) (fldFVd w) (fldFVa w) (fldFVb w))
  | 0x46 => .ok (.vcmpF32 (fldFVp w) ((fldFVd w).extractLsb' 3 4) ((fldFVd w).extractLsb' 0 3) (fldFVa w) (fldFVb w))
  | 0x47 => .ok (.vrcpF32 (fldFVp w) (fldFVd w) (fldFVa w) ((fldFVb w).extractLsb' 0 3))
  | 0x48 => .ok (.vrsqrtF32 (fldFVp w) (fldFVd w) (fldFVa w) ((fldFVb w).extractLsb' 0 3))
  | 0x49 => .ok (.vsqrtF32 (fldFVp w) (fldFVd w) (fldFVa w) ((fldFVb w).extractLsb' 0 3))
  | 0x4A => .ok (.vexp2F32 (fldFVp w) (fldFVd w) (fldFVa w) ((fldFVb w).extractLsb' 0 3))
  | 0x4B => .ok (.vlog2F32 (fldFVp w) (fldFVd w) (fldFVa w) ((fldFVb w).extractLsb' 0 3))
  | 0x4C => .ok (.vclassF32 (fldFVp w) (fldFVd w) (fldFVa w))
  | 0x50 => .ok (.vaddF64 (fldFVp w) (fldFVd w) (fldFVa w) (fldFVb w))
  | 0x51 => .ok (.vsubF64 (fldFVp w) (fldFVd w) (fldFVa w) (fldFVb w))
  | 0x52 => .ok (.vmulF64 (fldFVp w) (fldFVd w) (fldFVa w) (fldFVb w))
  | 0x53 => .ok (.vfmaF64 (fldFVp w) (fldFVd w) (fldFVa w) (fldFVb w))
  | 0x54 => .ok (.vminF64 (fldFVp w) (fldFVd w) (fldFVa w) (fldFVb w))
  | 0x55 => .ok (.vmaxF64 (fldFVp w) (fldFVd w) (fldFVa w) (fldFVb w))
  | 0x56 => .ok (.vcmpF64 (fldFVp w) ((fldFVd w).extractLsb' 3 4) ((fldFVd w).extractLsb' 0 3) (fldFVa w) (fldFVb w))
  | 0x58 => .ok (.vaddF16x2 (fldFVp w) (fldFVd w) (fldFVa w) (fldFVb w))
  | 0x59 => .ok (.vmulF16x2 (fldFVp w) (fldFVd w) (fldFVa w) (fldFVb w))
  | 0x5A => .ok (.vfmaF16x2 (fldFVp w) (fldFVd w) (fldFVa w) (fldFVb w))
  | 0x60 => .ok (.vcvt (fldFVp w) (fldFVd w) (fldFVa w) ((x.getD 0 0#32).extractLsb' 14 1) ((x.getD 0 0#32).extractLsb' 12 2) ((x.getD 0 0#32).extractLsb' 6 6) ((x.getD 0 0#32).extractLsb' 0 6))
  | 0x61 => .ok (.vpack8 (fldFVp w) (fldFVd w) (fldFVa w) ((fldFVb w).extractLsb' 6 1) ((fldFVb w).extractLsb' 0 6))
  | 0x62 => .ok (.vunpack8 (fldFVp w) (fldFVd w) (fldFVa w) ((fldFVb w).extractLsb' 0 6))
  | 0x63 => .ok (.vscaleF32 (fldFVp w) (fldFVd w) (fldFVa w) (fldFVb w))
  | 0x64 => .ok (.vperm (fldFVp w) (fldFVd w) (fldFVa w) (fldFVb w))
  | 0x65 => .ok (.vdot4 (fldFVp w) (fldFVd w) (fldFVa w) (fldFVb w))
  | 0x70 => .ok (.vmodadd (fldFVp w) (fldFVd w) (fldFVa w) (fldFVb w))
  | 0x71 => .ok (.vmodsub (fldFVp w) (fldFVd w) (fldFVa w) (fldFVb w))
  | 0x72 => .ok (.vmodmul (fldFVp w) (fldFVd w) (fldFVa w) (fldFVb w))
  | 0x73 => .ok (.vmodred (fldFVp w) (fldFVd w) (fldFVa w))
  | 0x74 => .ok (.vnttCt (fldFVp w) (fldFVd w) (fldFVa w) (fldFVb w))
  | 0x75 => .ok (.vnttGs (fldFVp w) (fldFVd w) (fldFVa w) (fldFVb w))
  | _ => .error .unassigned

/-- Class 2 (04 R69): the instruction that the fields of a word and its extra words spell, before the checks of R71. -/
def parseMatrix (w : Word) (x : List Word) : Except Reject Instr :=
  match (fldOp w).toNat with
  | 0x00 => .ok (.tcfgw (fldFMtA w) ((fldFMv w).extractLsb' 0 6))
  | 0x01 => .ok (.tcfgr (fldFMv w) (fldFMtA w))
  | 0x02 => .ok (.tzero (fldFMtA w))
  | 0x03 => .ok (.tld (fldFMk w) (fldFMbs w) (fldFMtM w) (fldFMtB w) (fldFMtA w) ((fldFMv w).extractLsb' 6 1) ((fldFMv w).extractLsb' 0 6) (Coord.ofWord (x.getD 0 0#32)))
  | 0x04 => .ok (.tldPerm (fldFMk w) (fldFMbs w) (fldFMtM w) ((fldFMtB w).extractLsb' 0 1) (fldFMtA w) ((fldFMv w).extractLsb' 0 6) (Coord.ofWord (x.getD 0 0#32)))
  | 0x05 => .ok (.tst (fldFMbs w) (fldFMtM w) (fldFMtB w) (fldFMtA w) ((fldFMv w).extractLsb' 6 1) ((fldFMv w).extractLsb' 0 6) (Coord.ofWord (x.getD 0 0#32)))
  | 0x06 => if (fldFMbs w).extractLsb' 0 1 = 0#1 then .ok (.tmov (fldFMtA w) (fldFMtB w)) else
      .ok (.tmovTr (fldFMtA w) (fldFMtB w))
  | 0x10 => .ok (.mmaB8 (fldFMk w) (fldFMbs w) (fldFMtB w) (fldFMtA w) (fldFMv w))
  | 0x11 => .ok (.mmaB8Scl (fldFMk w) (fldFMbs w) (fldFMtB w) (fldFMtA w) (fldFMv w) ((x.getD 0 0#32).extractLsb' 0 7) ((x.getD 0 0#32).extractLsb' 8 7))
  | 0x12 => .ok (.mmaB8Sp (fldFMk w) (fldFMbs w) (fldFMtM w) (fldFMtB w) (fldFMtA w) (fldFMv w))
  | 0x13 => .ok (.mmaB8SclSp (fldFMk w) (fldFMbs w) (fldFMtM w) (fldFMtB w) (fldFMtA w) (fldFMv w) ((x.getD 0 0#32).extractLsb' 0 7) ((x.getD 0 0#32).extractLsb' 8 7))
  | 0x14 => .ok (.mmaBf16 (fldFMk w) (fldFMbs w) (fldFMtB w) (fldFMtA w) (fldFMv w))
  | 0x15 => .ok (.mmaF16 (fldFMk w) (fldFMbs w) (fldFMtB w) (fldFMtA w) (fldFMv w))
  | 0x16 => .ok (.mmaF32 (fldFMk w) (fldFMbs w) (fldFMtB w) (fldFMtA w) (fldFMv w))
  | 0x17 => .ok (.mmaF64 (fldFMk w) (fldFMbs w) (fldFMtB w) (fldFMtA w) (fldFMv w))
  | 0x18 => .ok (.mmaI8 (fldFMk w) (fldFMbs w) (fldFMtB w) (fldFMtA w) (fldFMv w))
  | 0x19 => .ok (.mmaMod (fldFMk w) (fldFMbs w) (fldFMtB w) (fldFMtA w) (fldFMv w))
  | _ => .error .unassigned

/-- Class 3 (04 R69): the instruction that the fields of a word and its extra words spell, before the checks of R71. -/
def parseMemory (w : Word) (x : List Word) : Except Reject Instr :=
  match (fldOp w).toNat with
  | 0x00 => .ok (.ldN8 (fldFXk w) (fldFXi w) (fldFXb w) (fldFXd w) (MemMod.ofWord (x.getD 0 0#32)))
  | 0x01 => .ok (.ldI8 (fldFXk w) (fldFXi w) (fldFXb w) (fldFXd w) (MemMod.ofWord (x.getD 0 0#32)))
  | 0x02 => .ok (.ldN16 (fldFXk w) (fldFXi w) (fldFXb w) (fldFXd w) (MemMod.ofWord (x.getD 0 0#32)))
  | 0x03 => .ok (.ldI16 (fldFXk w) (fldFXi w) (fldFXb w) (fldFXd w) (MemMod.ofWord (x.getD 0 0#32)))
  | 0x04 => .ok (.ld32 (fldFXk w) (fldFXi w) (fldFXb w) (fldFXd w) (MemMod.ofWord (x.getD 0 0#32)))
  | 0x05 => .ok (.ld64 (fldFXk w) (fldFXi w) (fldFXb w) (fldFXd w) (MemMod.ofWord (x.getD 0 0#32)))
  | 0x06 => .ok (.ld128 (fldFXk w) (fldFXi w) (fldFXb w) (fldFXd w) (MemMod.ofWord (x.getD 0 0#32)))
  | 0x08 => .ok (.st8 (fldFXi w) (fldFXb w) (fldFXd w) (MemMod.ofWord (x.getD 0 0#32)))
  | 0x09 => .ok (.st16 (fldFXi w) (fldFXb w) (fldFXd w) (MemMod.ofWord (x.getD 0 0#32)))
  | 0x0A => .ok (.st32 (fldFXi w) (fldFXb w) (fldFXd w) (MemMod.ofWord (x.getD 0 0#32)))
  | 0x0B => .ok (.st64 (fldFXi w) (fldFXb w) (fldFXd w) (MemMod.ofWord (x.getD 0 0#32)))
  | 0x0C => .ok (.st128 (fldFXi w) (fldFXb w) (fldFXd w) (MemMod.ofWord (x.getD 0 0#32)))
  | 0x10 => .ok (.ldt32 (fldFXk w) ((fldFXi w).extractLsb' 0 3) (fldFXb w) (fldFXd w) (MemMod.ofWord (x.getD 0 0#32)) (Coord.ofWord (x.getD 1 0#32)))
  | 0x11 => .ok (.ldt64 (fldFXk w) ((fldFXi w).extractLsb' 0 3) (fldFXb w) (fldFXd w) (MemMod.ofWord (x.getD 0 0#32)) (Coord.ofWord (x.getD 1 0#32)))
  | 0x12 => .ok (.ldt128 (fldFXk w) ((fldFXi w).extractLsb' 0 3) (fldFXb w) (fldFXd w) (MemMod.ofWord (x.getD 0 0#32)) (Coord.ofWord (x.getD 1 0#32)))
  | 0x14 => .ok (.stt32 ((fldFXi w).extractLsb' 0 3) (fldFXb w) (fldFXd w) (MemMod.ofWord (x.getD 0 0#32)) (Coord.ofWord (x.getD 1 0#32)))
  | 0x15 => .ok (.stt64 ((fldFXi w).extractLsb' 0 3) (fldFXb w) (fldFXd w) (MemMod.ofWord (x.getD 0 0#32)) (Coord.ofWord (x.getD 1 0#32)))
  | 0x16 => .ok (.stt128 ((fldFXi w).extractLsb' 0 3) (fldFXb w) (fldFXd w) (MemMod.ofWord (x.getD 0 0#32)) (Coord.ofWord (x.getD 1 0#32)))
  | 0x18 => .ok (.sld64 (fldFXk w) (fldFXb w) ((fldFXd w).extractLsb' 0 6) (MemMod.ofWord (x.getD 0 0#32)))
  | 0x19 => .ok (.sst64 (fldFXb w) ((fldFXd w).extractLsb' 0 6) (MemMod.ofWord (x.getD 0 0#32)))
  | 0x20 => .ok (.amoAddI32 (fldFXk w) (fldFXi w) (fldFXb w) (fldFXd w) (MemMod.ofWord (x.getD 0 0#32)))
  | 0x21 => .ok (.amoAddI64 (fldFXk w) (fldFXi w) (fldFXb w) (fldFXd w) (MemMod.ofWord (x.getD 0 0#32)))
  | 0x22 => .ok (.amoMinI32 (fldFXk w) (fldFXi w) (fldFXb w) (fldFXd w) (MemMod.ofWord (x.getD 0 0#32)))
  | 0x23 => .ok (.amoMinN32 (fldFXk w) (fldFXi w) (fldFXb w) (fldFXd w) (MemMod.ofWord (x.getD 0 0#32)))
  | 0x24 => .ok (.amoMinI64 (fldFXk w) (fldFXi w) (fldFXb w) (fldFXd w) (MemMod.ofWord (x.getD 0 0#32)))
  | 0x25 => .ok (.amoMaxI32 (fldFXk w) (fldFXi w) (fldFXb w) (fldFXd w) (MemMod.ofWord (x.getD 0 0#32)))
  | 0x26 => .ok (.amoMaxN32 (fldFXk w) (fldFXi w) (fldFXb w) (fldFXd w) (MemMod.ofWord (x.getD 0 0#32)))
  | 0x27 => .ok (.amoMaxI64 (fldFXk w) (fldFXi w) (fldFXb w) (fldFXd w) (MemMod.ofWord (x.getD 0 0#32)))
  | 0x28 => .ok (.amoAnd (fldFXk w) (fldFXi w) (fldFXb w) (fldFXd w) (MemMod.ofWord (x.getD 0 0#32)))
  | 0x29 => .ok (.amoOr (fldFXk w) (fldFXi w) (fldFXb w) (fldFXd w) (MemMod.ofWord (x.getD 0 0#32)))
  | 0x2A => .ok (.amoXor (fldFXk w) (fldFXi w) (fldFXb w) (fldFXd w) (MemMod.ofWord (x.getD 0 0#32)))
  | 0x2B => .ok (.amoSwap (fldFXk w) (fldFXi w) (fldFXb w) (fldFXd w) (MemMod.ofWord (x.getD 0 0#32)))
  | 0x2C => .ok (.amoCas32 (fldFXk w) (fldFXi w) (fldFXb w) (fldFXd w) (MemMod.ofWord (x.getD 0 0#32)))
  | 0x2D => .ok (.amoCas64 (fldFXk w) (fldFXi w) (fldFXb w) (fldFXd w) (MemMod.ofWord (x.getD 0 0#32)))
  | 0x2E => .ok (.amoFaddF32 (fldFXk w) (fldFXi w) (fldFXb w) (fldFXd w) (MemMod.ofWord (x.getD 0 0#32)))
  | 0x30 => .ok (.redAddI32 (fldFXi w) (fldFXb w) (fldFXd w) (MemMod.ofWord (x.getD 0 0#32)))
  | 0x31 => .ok (.redAddI64 (fldFXi w) (fldFXb w) (fldFXd w) (MemMod.ofWord (x.getD 0 0#32)))
  | 0x32 => .ok (.redMin (fldFXi w) (fldFXb w) (fldFXd w) (MemMod.ofWord (x.getD 0 0#32)))
  | 0x33 => .ok (.redMax (fldFXi w) (fldFXb w) (fldFXd w) (MemMod.ofWord (x.getD 0 0#32)))
  | 0x34 => .ok (.redAnd (fldFXi w) (fldFXb w) (fldFXd w) (MemMod.ofWord (x.getD 0 0#32)))
  | 0x35 => .ok (.redOr (fldFXi w) (fldFXb w) (fldFXd w) (MemMod.ofWord (x.getD 0 0#32)))
  | 0x36 => .ok (.redXor (fldFXi w) (fldFXb w) (fldFXd w) (MemMod.ofWord (x.getD 0 0#32)))
  | 0x38 => .ok (.dredAddI64 (fldFXi w) (fldFXb w) (fldFXd w) (MemMod.ofWord (x.getD 0 0#32)))
  | 0x39 => .ok (.dredFaddF32 (fldFXi w) (fldFXb w) (fldFXd w) (MemMod.ofWord (x.getD 0 0#32)))
  | 0x3A => .ok (.dredFaddB8 (fldFXi w) (fldFXb w) (fldFXd w) (MemMod.ofWord (x.getD 0 0#32)))
  | 0x3B => .ok (.dredModadd (fldFXi w) (fldFXb w) (fldFXd w) (MemMod.ofWord (x.getD 0 0#32)))
  | 0x3C => .ok (.dredMinF32 (fldFXi w) (fldFXb w) (fldFXd w) (MemMod.ofWord (x.getD 0 0#32)))
  | 0x3D => .ok (.dredMaxF32 (fldFXi w) (fldFXb w) (fldFXd w) (MemMod.ofWord (x.getD 0 0#32)))
  | 0x3E => .ok (.dredOr (fldFXi w) (fldFXb w) (fldFXd w) (MemMod.ofWord (x.getD 0 0#32)))
  | 0x40 => .ok (.fence (MemMod.ofWord (x.getD 0 0#32)))
  | 0x41 => .ok (.fenceRo (MemMod.ofWord (x.getD 0 0#32)))
  | 0x42 => .ok (.cflush (fldFXi w) (fldFXb w) (MemMod.ofWord (x.getD 0 0#32)))
  | 0x43 => .ok (.cinv (fldFXi w) (fldFXb w) (MemMod.ofWord (x.getD 0 0#32)))
  | 0x44 => .ok (.cinvDiscard (fldFXi w) (fldFXb w) (MemMod.ofWord (x.getD 0 0#32)))
  | 0x45 => .ok (.pref (fldFXi w) (fldFXb w) (MemMod.ofWord (x.getD 0 0#32)))
  | _ => .error .unassigned

/-- Class 4 (04 R69): the instruction that the fields of a word and its extra words spell, before the checks of R71. -/
def parseAsync (w : Word) (x : List Word) : Except Reject Instr :=
  match (fldOp w).toNat with
  | 0x00 => .ok (.cp (fldFAp w) (fldFAsz w) (fldFAtl w) (ASide.ofWords (fldFAdt w) (fldFAdst w) ((x.getD 0 0#32).extractLsb' 9 9) (x.getD (1 + (fldFAst w).toNat) 0#32)) (ASide.ofWords (fldFAst w) (fldFAsrc w) ((x.getD 0 0#32).extractLsb' 0 9) (x.getD 1 0#32)) (AMod.ofWord (x.getD 0 0#32)))
  | 0x01 => .ok (.cpm (fldFAp w) (fldFAsz w) (fldFAtl w) (ASide.ofWords (fldFAdt w) (fldFAdst w) ((x.getD 0 0#32).extractLsb' 9 9) (x.getD (1 + (fldFAst w).toNat) 0#32)) (ASide.ofWords (fldFAst w) (fldFAsrc w) ((x.getD 0 0#32).extractLsb' 0 9) (x.getD 1 0#32)) (AMod.ofWord (x.getD 0 0#32)))
  | 0x02 => .ok (.cpr (fldFAp w) (fldFAsz w) (fldFAtl w) (ASide.ofWords (fldFAdt w) (fldFAdst w) ((x.getD 0 0#32).extractLsb' 9 9) (x.getD (1 + (fldFAst w).toNat) 0#32)) (ASide.ofWords (fldFAst w) (fldFAsrc w) ((x.getD 0 0#32).extractLsb' 0 9) (x.getD 1 0#32)) (AMod.ofWord (x.getD 0 0#32)))
  | 0x03 => .ok (.gth (fldFAp w) (fldFAsz w) (fldFAtl w) (ASide.ofWords (fldFAdt w) (fldFAdst w) ((x.getD 0 0#32).extractLsb' 9 9) (x.getD (1 + (fldFAst w).toNat) 0#32)) (ASide.ofWords (fldFAst w) (fldFAsrc w) ((x.getD 0 0#32).extractLsb' 0 9) (x.getD 1 0#32)) (AMod.ofWord (x.getD 0 0#32)))
  | 0x04 => .ok (.sct (fldFAp w) (fldFAsz w) (fldFAtl w) (ASide.ofWords (fldFAdt w) (fldFAdst w) ((x.getD 0 0#32).extractLsb' 9 9) (x.getD (1 + (fldFAst w).toNat) 0#32)) (ASide.ofWords (fldFAst w) (fldFAsrc w) ((x.getD 0 0#32).extractLsb' 0 9) (x.getD 1 0#32)) (AMod.ofWord (x.getD 0 0#32)))
  | 0x05 => .ok (.put (fldFAp w) (fldFAsz w) (fldFAtl w) (ASide.ofWords (fldFAdt w) (fldFAdst w) ((x.getD 0 0#32).extractLsb' 9 9) (x.getD (1 + (fldFAst w).toNat) 0#32)) (ASide.ofWords (fldFAst w) (fldFAsrc w) ((x.getD 0 0#32).extractLsb' 0 9) (x.getD 1 0#32)) (AMod.ofWord (x.getD 0 0#32)))
  | 0x06 => .ok (.get (fldFAp w) (fldFAsz w) (fldFAtl w) (ASide.ofWords (fldFAdt w) (fldFAdst w) ((x.getD 0 0#32).extractLsb' 9 9) (x.getD (1 + (fldFAst w).toNat) 0#32)) (ASide.ofWords (fldFAst w) (fldFAsrc w) ((x.getD 0 0#32).extractLsb' 0 9) (x.getD 1 0#32)) (AMod.ofWord (x.getD 0 0#32)))
  | 0x07 => .ok (.cpchute (fldFAp w) (fldFAsz w) (fldFAtl w) (ASide.ofWords (fldFAdt w) (fldFAdst w) ((x.getD 0 0#32).extractLsb' 9 9) (x.getD (1 + (fldFAst w).toNat) 0#32)) (ASide.ofWords (fldFAst w) (fldFAsrc w) ((x.getD 0 0#32).extractLsb' 0 9) (x.getD 1 0#32)) (AMod.ofWord (x.getD 0 0#32)))
  | 0x08 => .ok (.launch (fldFAp w) (fldFAtl w) (fldFAsrc w) (AMod.ofWord (x.getD 0 0#32)))
  | _ => .error .unassigned

/-- Class 5 (04 R69): the instruction that the fields of a word and its extra words spell, before the checks of R71. -/
def parseSync (w : Word) (_x : List Word) : Except Reject Instr :=
  match (fldOp w).toNat with
  | 0x00 => .ok (.barWg)
  | 0x01 => .ok (.barPen)
  | 0x02 => .ok (.barLaunch)
  | 0x03 => .ok (.tlwait ((fldFSa w).extractLsb' 0 3) (fldB w))
  | 0x04 => .ok (.tlread (fldFSd w) ((fldFSa w).extractLsb' 0 3) ((fldFSbf w).extractLsb' 0 2))
  | 0x05 => .ok (.wcwait ((fldFSd w).extractLsb' 0 1) ((fldFSa w).extractLsb' 0 5) (fldB w))
  | 0x06 => .ok (.wcread (fldFSd w) ((fldFSa w).extractLsb' 0 5) ((fldFSbf w).extractLsb' 0 1))
  | 0x07 => .ok (.chqClaim (fldFSd w) (fldFSa w))
  | 0x08 => .ok (.chqPub (fldFSa w) (fldB w))
  | 0x09 => .ok (.chqWait (fldFSd w) (fldFSa w))
  | 0x0A => .ok (.chqRel (fldFSa w) (fldB w))
  | 0x0B => .ok (.waitq (fldFSd w) (fldFSa w) (fldB w))
  | 0x0C => .ok (.wake (fldFSd w) (fldFSa w) (fldB w))
  | 0x0D => .ok (.mon (fldFSa w))
  | 0x0E => .ok (.mwait (fldFSd w) (fldB w))
  | _ => .error .unassigned

/-- Class 6 (04 R69): the instruction that the fields of a word and its extra words spell, before the checks of R71. -/
def parseSystem (w : Word) (x : List Word) : Except Reject Instr :=
  match (fldOp w).toNat with
  | 0x00 => .ok (.talloc (fldFSd w) (fldFSa w) (fldFSbf w))
  | 0x01 => .ok (.tfree (fldFSa w))
  | 0x02 => .ok (.tquery (fldFSd w) (fldFSa w))
  | 0x03 => .ok (.winreg (fldFSd w) (fldFSa w) (fldFSbf w))
  | 0x04 => .ok (.winfree (fldFSd w) (fldB w))
  | 0x05 => .ok (.rankq (fldFSd w) (fldFSa w))
  | 0x06 => .ok (.sprd (fldFSd w) ((x.getD 0 0#32).extractLsb' 0 12))
  | 0x07 => .ok (.spwr (fldFSa w) ((x.getD 0 0#32).extractLsb' 0 12))
  | 0x08 => .ok (.trap)
  | 0x09 => if (fldFSmod w).extractLsb' 0 2 = 0#2 then .ok (.tretRetry) else
      if (fldFSmod w).extractLsb' 0 2 = 1#2 then .ok (.tretSkip) else
      if (fldFSmod w).extractLsb' 0 2 = 2#2 then .ok (.tretKill) else
      .error .reserved
  | 0x0A => .ok (.tmask)
  | 0x0B => .ok (.tunmask)
  | 0x0C => .ok (.brk)
  | 0x0D => .ok (.evt (fldFSa w) ((x.getD 0 0#32).extractLsb' 0 6))
  | 0x0E => if (fldFSmod w).extractLsb' 0 3 = 0#3 then .ok (.tlbinvPage (fldFSa w) (fldB w)) else
      if (fldFSmod w).extractLsb' 0 3 = 1#3 then .ok (.tlbinvAsid (fldFSa w) (fldB w)) else
      if (fldFSmod w).extractLsb' 0 3 = 2#3 then .ok (.tlbinvPaddock (fldFSa w) (fldB w)) else
      if (fldFSmod w).extractLsb' 0 3 = 3#3 then .ok (.tlbinvRank (fldFSa w)) else
      if (fldFSmod w).extractLsb' 0 3 = 4#3 then .ok (.tlbinvRankall (fldFSa w)) else
      .error .reserved
  | 0x0F => .ok (.halt)
  | _ => .error .unassigned

/-- The instruction that a word of class c and its extra words spell, before the checks of R71. -/
def parse (c : Nat) (w : Word) (x : List Word) : Except Reject Instr :=
  match c with
  | 0 => parseScalar w x
  | 1 => parseVector w x
  | 2 => parseMatrix w x
  | 3 => parseMemory w x
  | 4 => parseAsync w x
  | 5 => parseSync w x
  | 6 => parseSystem w x
  | _ => .error .unassigned

/-- The number of extra words of instruction word w of class c (04 R63), or none when its opcode is unassigned. It
follows from the instruction word alone. -/
def extraWords (c : Nat) (w : Word) : Option Nat :=
  match parse c w [] with
  | .ok i => some ((encode i).length - 1)
  | .error .reserved => some 0
  | .error .unassigned => none

/-- Decode one instruction of class c from its word and the words after it: rejected with its name where R71 fails. -/
def decode (c : Nat) (ws : List Word) : Except Reject Instr :=
  match ws with
  | [] => .error .reserved
  | w :: x =>
    match parse c w x with
    | .error e => .error e
    | .ok i =>
      if encode i = (w :: x).take (encode i).length && i.wf then .ok i else .error .reserved

/-- How many bits of instruction word w are fixed by the encoding of i: 32 less the bits of its fields. The host's
words carry no class, so among the classes that accept one word the most specific encoding is taken. -/
def fixedBits : Instr → Nat
  | .clauseIssue .. => 0
  | .debuggerResume .. => 0
  | .clauseEnd .. => 0
  | .countedResultWrite .. => 0
  | .trapEntry .. => 0
  | .watchdogExpiry .. => 0
  | .mwaitTimeout .. => 0
  | .quantumExpiry .. => 0
  | .park .. => 0
  | .makeResident .. => 0
  | .workgroupStart .. => 0
  | .penAdmission .. => 0
  | .launchPlacement => 0
  | .launchAdmission .. => 0
  | .asyncUnitLand .. => 0
  | .cpchuteClaim => 0
  | .launchWindowPlace .. => 0
  | .preemptionRequest .. => 0
  | .preemptionResume .. => 0
  | .preemptionDeadline .. => 0
  | .paddockSwap .. => 0
  | .icehouseExchange => 0
  | .gets .. => 0
  | .getx .. => 0
  | .upg .. => 0
  | .drget .. => 0
  | .amoMsg .. => 0
  | .wrline .. => 0
  | .pute .. => 0
  | .putm .. => 0
  | .puto .. => 0
  | .inv .. => 0
  | .fwds .. => 0
  | .fwdx .. => 0
  | .recall .. => 0
  | .merge .. => 0
  | .data .. => 0
  | .grant .. => 0
  | .grantd .. => 0
  | .invack .. => 0
  | .fwdack .. => 0
  | .putack .. => 0
  | .redack .. => 0
  | .err .. => 0
  | .redop .. => 0
  | .drpart .. => 0
  | .cacheEviction .. => 0
  | .requestRetry .. => 0
  | .linkDown .. => 0
  | .heartbeatMiss .. => 0
  | .extentRevoke .. => 0
  | .revocationTimeout .. => 0
  | .windowKeyReplace .. => 0
  | .oldKeyTimeout .. => 0
  | .remotePacket .. => 0
  | .remoteAck .. => 0
  | .paddockTableWrite .. => 0
  | .errorLogTailWrite .. => 0
  | .sinkDescriptorWrite .. => 0
  | .sinkTailWrite .. => 0
  | .readback .. => 0
  | .registerWrite .. => 0
  | .rimeRecord => 0
  | .stallLimit .. => 0
  | .ptpLock .. => 0
  | .ptpLockLoss => 0
  | .ptpCorrection .. => 0
  | .beacon => 0
  | .perfLatch => 0
  | .floorWindow .. => 0
  | .progressSample => 0
  | .powerGood .. => 0
  | .readinessReport .. => 0
  | .powerCapSet .. => 0
  | .thermalThrottle .. => 0
  | .thermalTrip => 0
  | .trayWindowDouble .. => 0
  | .getVersion .. => 0
  | .getCapabilities .. => 0
  | .negotiateAlgorithms .. => 0
  | .getDigests .. => 0
  | .getCertificate .. => 0
  | .challenge .. => 0
  | .getMeasurements .. => 0
  | .keyExchange .. => 0
  | .finish .. => 0
  | .keyUpdate .. => 0
  | .endSession .. => 0
  | .snop => 32
  | .sadd .. => 13
  | .ssub .. => 13
  | .smul .. => 13
  | .smulh .. => 13
  | .smulhn .. => 13
  | .sand .. => 13
  | .sor .. => 13
  | .sxor .. => 13
  | .sshl .. => 13
  | .sshr .. => 13
  | .ssar .. => 13
  | .smin .. => 13
  | .smax .. => 13
  | .sminn .. => 13
  | .smaxn .. => 13
  | .smov .. => 19
  | .smovk .. => 25
  | .smovkh .. => 26
  | .scmp .. => 9
  | .scmpP .. => 12
  | .ssel .. => 9
  | .sfromv .. => 11
  | .sballot .. => 23
  | .spopc .. => 19
  | .sclz .. => 19
  | .br .. => 32
  | .bz .. => 26
  | .bnz .. => 26
  | .bp .. => 28
  | .call .. => 26
  | .ret .. => 26
  | .bi .. => 26
  | .exit => 32
  | .yield => 32
  | .mset .. => 29
  | .mstrike .. => 29
  | .mget .. => 26
  | .mput .. => 26
  | .jread .. => 23
  | .jreadAddr .. => 23
  | .vmov .. => 15
  | .vmovk .. => 22
  | .vaddI32 .. => 8
  | .vaddI64 .. => 8
  | .vsubI32 .. => 8
  | .vsubI64 .. => 8
  | .vmulI32 .. => 8
  | .vmulhI32 .. => 8
  | .vmulhN32 .. => 8
  | .vmadI32 .. => 8
  | .vand .. => 8
  | .vor .. => 8
  | .vxor .. => 8
  | .vnot .. => 15
  | .vshl .. => 8
  | .vshr .. => 8
  | .vsar .. => 8
  | .vminI32 .. => 8
  | .vmaxI32 .. => 8
  | .vminN32 .. => 8
  | .vmaxN32 .. => 8
  | .vabsI32 .. => 15
  | .vclz .. => 15
  | .vpopc .. => 15
  | .vbrev .. => 15
  | .vbfx .. => 8
  | .vbfi .. => 8
  | .vsel .. => 8
  | .vcmpI32 .. => 8
  | .vcmpN32 .. => 8
  | .vcmpI64 .. => 8
  | .vaddsI32 .. => 8
  | .vshflIdx .. => 8
  | .vshflXor .. => 10
  | .vshflUp .. => 10
  | .vshflDown .. => 10
  | .vbcast .. => 10
  | .vlaneid .. => 22
  | .vprefixI32 .. => 15
  | .vaddF32 .. => 8
  | .vsubF32 .. => 8
  | .vmulF32 .. => 8
  | .vfmaF32 .. => 8
  | .vminF32 .. => 8
  | .vmaxF32 .. => 8
  | .vcmpF32 .. => 8
  | .vrcpF32 .. => 12
  | .vrsqrtF32 .. => 12
  | .vsqrtF32 .. => 12
  | .vexp2F32 .. => 12
  | .vlog2F32 .. => 12
  | .vclassF32 .. => 15
  | .vaddF64 .. => 8
  | .vsubF64 .. => 8
  | .vmulF64 .. => 8
  | .vfmaF64 .. => 8
  | .vminF64 .. => 8
  | .vmaxF64 .. => 8
  | .vcmpF64 .. => 8
  | .vaddF16x2 .. => 8
  | .vmulF16x2 .. => 8
  | .vfmaF16x2 .. => 8
  | .vcvt .. => 15
  | .vpack8 .. => 8
  | .vunpack8 .. => 9
  | .vscaleF32 .. => 8
  | .vperm .. => 8
  | .vdot4 .. => 8
  | .vmodadd .. => 8
  | .vmodsub .. => 8
  | .vmodmul .. => 8
  | .vmodred .. => 15
  | .vnttCt .. => 8
  | .vnttGs .. => 8
  | .tcfgw .. => 22
  | .tcfgr .. => 21
  | .tzero .. => 28
  | .tld .. => 8
  | .tldPerm .. => 12
  | .tst .. => 11
  | .tmov .. => 24
  | .tmovTr .. => 24
  | .mmaB8 .. => 12
  | .mmaB8Scl .. => 12
  | .mmaB8Sp .. => 8
  | .mmaB8SclSp .. => 8
  | .mmaBf16 .. => 12
  | .mmaF16 .. => 12
  | .mmaF32 .. => 12
  | .mmaF64 .. => 12
  | .mmaI8 .. => 12
  | .mmaMod .. => 12
  | .ldN8 .. => 9
  | .ldI8 .. => 9
  | .ldN16 .. => 9
  | .ldI16 .. => 9
  | .ld32 .. => 9
  | .ld64 .. => 9
  | .ld128 .. => 9
  | .st8 .. => 12
  | .st16 .. => 12
  | .st32 .. => 12
  | .st64 .. => 12
  | .st128 .. => 12
  | .ldt32 .. => 13
  | .ldt64 .. => 13
  | .ldt128 .. => 13
  | .stt32 .. => 16
  | .stt64 .. => 16
  | .stt128 .. => 16
  | .sld64 .. => 17
  | .sst64 .. => 20
  | .amoAddI32 .. => 9
  | .amoAddI64 .. => 9
  | .amoMinI32 .. => 9
  | .amoMinN32 .. => 9
  | .amoMinI64 .. => 9
  | .amoMaxI32 .. => 9
  | .amoMaxN32 .. => 9
  | .amoMaxI64 .. => 9
  | .amoAnd .. => 9
  | .amoOr .. => 9
  | .amoXor .. => 9
  | .amoSwap .. => 9
  | .amoCas32 .. => 9
  | .amoCas64 .. => 9
  | .amoFaddF32 .. => 9
  | .redAddI32 .. => 12
  | .redAddI64 .. => 12
  | .redMin .. => 12
  | .redMax .. => 12
  | .redAnd .. => 12
  | .redOr .. => 12
  | .redXor .. => 12
  | .dredAddI64 .. => 12
  | .dredFaddF32 .. => 12
  | .dredFaddB8 .. => 12
  | .dredModadd .. => 12
  | .dredMinF32 .. => 12
  | .dredMaxF32 .. => 12
  | .dredOr .. => 12
  | .fence .. => 32
  | .fenceRo .. => 32
  | .cflush .. => 19
  | .cinv .. => 19
  | .cinvDiscard .. => 19
  | .pref .. => 19
  | .cp .. => 8
  | .cpm .. => 8
  | .cpr .. => 8
  | .gth .. => 8
  | .sct .. => 8
  | .put .. => 8
  | .get .. => 8
  | .cpchute .. => 8
  | .launch .. => 19
  | .barWg => 32
  | .barPen => 32
  | .barLaunch => 32
  | .tlwait .. => 22
  | .tlread .. => 21
  | .wcwait .. => 19
  | .wcread .. => 20
  | .chqClaim .. => 20
  | .chqPub .. => 19
  | .chqWait .. => 20
  | .chqRel .. => 19
  | .waitq .. => 13
  | .wake .. => 13
  | .mon .. => 26
  | .mwait .. => 19
  | .talloc .. => 14
  | .tfree .. => 26
  | .tquery .. => 20
  | .winreg .. => 14
  | .winfree .. => 19
  | .rankq .. => 20
  | .sprd .. => 26
  | .spwr .. => 26
  | .trap => 32
  | .tretRetry => 32
  | .tretSkip => 32
  | .tretKill => 32
  | .tmask => 32
  | .tunmask => 32
  | .brk => 32
  | .evt .. => 26
  | .tlbinvPage .. => 19
  | .tlbinvAsid .. => 19
  | .tlbinvPaddock .. => 19
  | .tlbinvRank .. => 26
  | .tlbinvRankall .. => 26
  | .halt => 32
  | .linkUp .. => 0
  | .hopKeyChange .. => 0
  | .retransmission .. => 0
  | .firmwareReportsLost .. => 0

/-- The words of a table number: bit 0 is the least significant bit of the first word; five words hold the longest
instruction with its last words zero. -/
def tableWords (w : Nat) : List Word :=
  (List.range 5).map (fun n => BitVec.ofNat 32 (w >>> (32 * n)))

/-- The better of two candidates for a word without class: more fixed bits, and between equals the first. -/
def betterClass (a : Option (Nat × Instr)) (c : Nat) (ws : List Word) : Option (Nat × Instr) :=
  match decode c ws with
  | .error _ => a
  | .ok i =>
    match a with
    | none => some (c, i)
    | some (c', i') => if fixedBits i' < fixedBits i then some (c, i) else some (c', i')

/-- The class and instruction that the words spell when no clause header gives the class. -/
def decodeAnyClass (ws : List Word) : Option (Nat × Instr) :=
  [0, 1, 2, 3, 4, 5, 6].foldl (fun a c => betterClass a c ws) none

/-- The instruction that the decoder reads from bits numbered as spec/opcode_table.json numbers them. -/
def decodeTableWord (nbits w : Nat) : Option Instr :=
  if nbits = 0 then none else (decodeAnyClass (tableWords (w % 2 ^ nbits))).map Prod.snd

end Sys2Proof
end

