-- ==== Sys2Proof/Config.lean ====
section
/-!
DEFINITION. Config.lean: what the F16 fixes as numbers, and the free values: constants without a body for what the
spec leaves open, so that no proof can see them.
-/

namespace Sys2Proof.Config

/-- Core count of the device (01 R9, R10). -/
def cores : Nat := 4096
/-- Admission entries per core (03 R47). -/
def entriesPerCore : Nat := 64
/-- Span slots per core (03 R47). -/
def spanSlots : Nat := 8
/-- Tile registers per core (03 R47). -/
def tileRegs : Nat := 16
/-- Tile memory per core in bytes (03 R47). -/
def tileMemory : Nat := 1048576
/-- Records that the 64 launch queues of a paddock hold together (14 R253). -/
def queueRecords : Nat := 4096
/-- Waiter-queue headers per paddock (14 R262). -/
def waiterHeaders : Nat := 1024
/-- Window-table entries per paddock (15 R277). -/
def windowEntries : Nat := 1024
/-- Incomplete operations per timeline (11 R205). -/
def timelineLimit : Nat := 4096
/-- Entries of a die's translation cache (15_tables.md, before R273). -/
def tcEntries : Nat := 8192
/-- Entries of the error-log ring (15 R281). -/
def errRing : Nat := 4096
/-- Lines of a core's L1, 128 KiB (01 R9). -/
def l1Lines : Nat := 1024
/-- Lines of a core's drift buffer (01 R9, 13 R242). -/
def driftPerCore : Nat := 32
/-- Home drift-buffer lines per slice (13 R242). -/
def driftPerSlice : Nat := 512
/-- Images that the drift spill area holds (13 R242). -/
def driftSpill : Nat := 52428
/-- Outstanding packets per die (15 R276). -/
def outstandingPackets : Nat := 65536

/-- FREE. Which of several enabled actions a step takes: a number per step (log 2). -/
opaque choose : Nat → Nat
/-- FREE. By how many clocks %cycle advances at a step (log 3). -/
opaque freeCycles : Nat → BitVec 64
/-- FREE. By how many units of 1/256 ns the time base advances at a step (log 3). -/
opaque freeTime : Nat → BitVec 64
/-- FREE. Skew of a die's time counter; used modulo 513 units, the 2 ns of 17 R301 (log 3). -/
opaque dieSkew : Nat → Nat
/-- FREE. The place field of a tile-table entry bound at a given count of bindings (15 R269; log 5). -/
opaque place : Nat → BitVec 64
/-- FREE. By how much a core's counters of stalls and busy quarters (16 R296; log 20), and a port's flits under its hop-mode key (19 R341; log
22), rise at a step. -/
opaque perfCount : Nat → Nat → BitVec 32
/-- FREE. Which counters of shared units rise at a step, and by how much (16 R286, R296; log 20). -/
opaque sharedRise : Nat → List (Nat × Nat)
/-- FREE. Bytes of a reply of an SPDM responder: certificates, digests, signatures, keys, measured hashes
(19 R343; log 21). -/
opaque spdmBytes : Nat → Nat → BitVec 256
/-- FREE. Does a device of another pod accept a write or reduction: otherwise it refuses with code 0A (log 22). -/
opaque remoteOk : Nat → Bool
/-- FREE. Does data that the device has accepted prove wrong at a step (11 R188, 19 R340; log 36). -/
opaque mismatch : Nat → Bool
/-- FREE. Which double word of the state a readback address names: the offset map of a unit class, which the spec does not
give (15 R283; log 23). -/
opaque readbackItem : BitVec 64 → Nat
/-- FREE. Which lanes' data fail the carriage check at acceptance at a step (11 R188; log 36). -/
opaque carriage : Nat → BitVec 32
/-- FREE. Does a cached translation leave its translation cache at a step, and which (10 R182, 15 R284; log 66). -/
opaque tcVictim : Nat → Nat
/-- FREE. The physical line of a pod peer that a page of a window lies at, by the count of changes, job, rank, region and page
(10 R180; log 67). -/
opaque podLine : Nat → Nat → Nat → Nat → Nat → Nat
/-- FREE. The HBM stack of a line (10 R181; log 19). -/
opaque stackOf : Nat → Nat
/-- FREE. How much of a paddock's level-2 pool lies on a die, of a paddock that covers several (10 R171, R174; log 79). -/
opaque poolOfDie : Nat → Nat → Nat
/-- FREE. The spill area's first byte in memory (13 R242; log 50). -/
opaque spillBase : Nat
/-- FREE. With how many of the quarters of other spans that may fuse with it the matrix pipe fuses a quarter (09 R168, 17 R306; log 73). -/
opaque fused : Nat → Nat
/-- FREE. A value that only another device or agent knows changes at a step (log 22). -/
opaque outside : Nat → Nat

end Sys2Proof.Config
end

