-- ==== Sys2Proof/Machine/State.lean ====
section
/-!
DEFINITION. Machine/State.lean: everything the spec gives the F16 to hold, as plain data; the reasons a step can stop;
the machine right after reset. INVENTORY.md lists each field with its rule.
-/

namespace Sys2Proof.Machine

/-- Reasons the machine stops. -/
inductive Fault where
  /-- Raised by no meaning: every fault of 18 R316 is taken as a trap, and a loss, refusal or error of the spec is a next
  state. The constructor is the interface's; it would be safe. -/
  | stopped
  deriving DecidableEq, Repr

/-- Reasons the model gives no meaning. -/
inductive Refusal where
  /-- Raised by Dispatch.lean alone, for an instruction without a meaning. Safe: nothing is claimed of it. -/
  | notModelled (mnemonic : String)
  deriving DecidableEq, Repr

/-! ## Threads and spans -/

/-- Barrier kinds (14 R259). -/
inductive BarKind where
  | wg | pen | launch
  deriving DecidableEq, Repr

/-- Where a thread that does not run is held: in a rejoin mask (03 R36), at a barrier (14 R259), at a debugger's stop
(18 R327), or, outside the innermost handler level, nowhere. -/
inductive Hold where
  | free
  | meeting
  | barrier (k : BarKind)
  deriving DecidableEq, Repr

/-- A thread's own state besides its vector lane (03 R30), its trap registers (05 R78) and its trap level (18 R318). -/
structure Lane where
  pc : Dword
  mr : Dword
  ended : Bool
  hold : Hold
  level : Nat
  tcode : Byte
  tpc : Dword
  tvaddr : Dword
  lastIssue : Nat
  deriving DecidableEq, Repr

/-- A lane that no thread has used: mr matches no clause (03 R31). -/
def Lane.fresh : Lane := ⟨0, allOnes64, false, .free, 0, 0, 0, 0, 0⟩

/-- A rejoin mask (07 R117). Save values are listed per lane. -/
structure Rejoin where
  enrol : Lanes
  held : Lanes
  addr : Dword
  save : Store Dword
  deriving DecidableEq, Repr

/-- The empty mask (07 R117). -/
def Rejoin.empty : Rejoin := ⟨0, 0, allOnes64, []⟩

/-- Names of registers for the interlock and for rule 6 of 04 R70. -/
inductive RegName where
  | v (n : Nat) | s (n : Nat) | p (n : Nat) | j (n : Nat) | t (n : Nat) | mr
  deriving DecidableEq, Repr

/-- One register write of a pending result. -/
inductive RegWrite where
  | v (r lane : Nat) (x : Word)
  | s (r : Nat) (x : Dword)
  | t (r off : Nat) (x : Byte)
  deriving DecidableEq, Repr

/-- A clause in issue by one issue set (04 R72): the words are fetched once and held; targets holds the lanes that took
a target; stopped marks a debugger's stop (18 R327), waiting a class 5 instruction that waits (14 R251), suspended the
lanes of a fault whose handler has not returned (04 R74): at word pos, or at the header with pos 0. arg is the operand that
the class 5 instruction at a position has read before it waits, stale the position of a wcwait whose window was freed (16
R292). -/
structure Clause where
  lanes : Lanes
  hdrPc : Dword
  hdr : Word
  words : List Word
  pos : Nat
  targets : Store Dword
  exiting : Bool
  yielded : Bool
  stopped : Bool
  waiting : Bool
  suspended : Bool
  arg : Option (Nat × Dword) := Option.none
  stale : Option Nat := Option.none
  deriving DecidableEq, Repr

/-- An outstanding result: its pending counter (7 for none), the clause issue it belongs to (the lastIssue of its lanes),
its lanes, its destination registers, the values to be written, known at issue. -/
structure Pending where
  ctr : Nat
  seq : Nat
  lanes : Lanes
  dests : List RegName
  ws : List RegWrite
  deriving DecidableEq, Repr

/-- A fault raised on lanes of a span and not yet delivered (18 R318, R319): %tpc, and %tcode and %tvaddr per lane. -/
structure PendingTrap where
  lanes : Lanes
  codes : Store Byte
  tpc : Dword
  tvaddr : Store Dword
  deriving DecidableEq, Repr

/-- The kind of wait that a span's wait descriptor records (16 R293), with what is waited on; a granule by its place and
number, or the handle of a pen member that is not bound yet. -/
inductive WaitKind where
  | none
  | barrier (k : BarKind)
  | chute (key : Nat) (producer : Bool)
  | granule (place gran : Nat)
  | handle (key h : Nat)
  | waiter (key : Nat)
  | timeline (tl : Nat) (n : Nat)
  | window (region : Nat) (n : Nat)
  | mwait
  deriving DecidableEq, Repr

/-- A tile instruction that waits at its word for full/empty bits or for a sibling's handle (11 R193, 09 R155, R157): its issue set;
what it waits on; the lanes that wait, the lanes that are served, the granules written, the lanes that will fault, with codes. What it
read at issue: its active lanes, the configuration of its tile register, its elements (element or lane, row, column), the data that it
stores by byte or lane. The granules (place, granule) that it has still to access, the registers that it will write, the counter that it
has raised (7 for none), and the number of the next class 4 operation at its issue, by which its span's engine writes are ordered (09
R158). -/
structure TileWait where
  own : Lanes
  on : WaitKind
  lanes : Lanes
  served : Lanes
  wrote : List Nat
  failed : Store Byte
  active : Lanes := 0
  cfg : Dword := 0
  elems : List (Nat × Nat × Nat) := []
  vals : List (Nat × Nat) := []
  grans : List (Nat × Nat) := []
  dests : List RegName := []
  ctr : Nat := 7
  seq : Nat := 0
  deriving DecidableEq, Repr

/-- What a leaf gives: the physical address, the leaf's W, U and D bits. -/
structure Xlat where
  pa : Nat
  w : Bool
  u : Bool
  d : Bool
  deriving DecidableEq, Repr

/-- What answers a request that an instruction or an engine has sent to a line's home (13 R236), or to another pod: data, an
acknowledgement, an error of a kind of 15 R281, the bytes that another pod returns. -/
inductive Answer where
  | data (d : LineData)
  | ack
  | err (kind : Nat)
  | bytes (bs : List Byte)
  deriving DecidableEq, Repr

/-- A request for a line that has been sent to its home, by its number (Hdr.req), and its answer once that has come. Number 0
stands for a line that is being fetched again (11 R201). A lane's request to another pod has a number above every line, and its packet's
tag. -/
structure Sent where
  line : Nat
  req : Nat
  resp : Option Answer
  deriving DecidableEq, Repr

/-- A memory instruction that waits at its word for lines (11 R183: each line is a request of its own): its issue set; the lanes
that will fault, with codes; the values of the lanes whose lines are done; every lane's physical address with its window; the lines
still to do; the span-wide operand that it read at issue (a scalar, or %mq); the lanes' addresses; the requests that it has sent; the
pending counter that it has raised (7 for none). -/
structure MemWait where
  own : Lanes
  bad : List (Nat × Byte)
  vals : List (Nat × Nat)
  phys : List (Nat × Xlat × Option (Nat × Nat))
  left : List Nat
  arg : Dword := 0
  addrs : List (Nat × Dword) := []
  sent : List Sent := []
  ctr : Nat := 7
  deriving DecidableEq, Repr

/-- The span's monitor (14 R264): the watched physical line and whether it has been triggered. -/
structure Monitor where
  line : Nat
  triggered : Bool
  deriving DecidableEq, Repr

/-- The span's waiter node (14 R262): the queue it stands in, its issue set, and whether a wake has released it. -/
structure Node where
  key : Nat
  lanes : Lanes
  released : Bool
  deriving DecidableEq, Repr

/-- A span (03 R33, 05 R76): vector registers by 32 · register + lane, scalar registers, predicates, rejoin masks,
pending counters, system registers, trap state, clauses in issue, waits. -/
structure Span where
  lane : Store Lane
  v : Store Word
  s : Store Dword
  p : Store Lanes
  j : Store Rejoin
  k : Store Nat
  mq : Dword
  mqr : Dword
  tmask : Lanes
  trapMask : Bool
  nested : Bool
  stopNext : Bool
  clauses : List Clause
  pending : List Pending
  traps : List PendingTrap
  deferred : List PendingTrap
  wait : WaitKind
  tileWait : List TileWait
  memWait : List MemWait
  mon : Option Monitor
  node : Option Node
  lastStop : BitVec 20
  deriving DecidableEq, Repr

/-- A span as a workgroup starts it (03 R31): every register zero, masks empty; no stop site passed yet (15 R281). -/
def Span.fresh : Span :=
  { lane := [], v := [], s := [], p := [], j := [], k := [], mq := 0, mqr := 0, tmask := 0, trapMask := false,
    nested := false, stopNext := false, clauses := [], pending := [], traps := [], deferred := [], wait := .none,
    tileWait := [], memWait := [], mon := none, node := none, lastStop := 0xFFFFF }

/-! ## Tile memory, timelines, workgroups -/

/-- A granule of tile memory (10 R170): 16 bytes, its full/empty bit, its poison (11 R188). -/
structure Granule where
  data : BitVec 128
  full : Bool
  poison : Bool
  deriving DecidableEq, Repr

/-- An empty granule; the bytes of tile memory never written read as zero (log 4). -/
def Granule.empty : Granule := ⟨0, false, false⟩

/-- An error of an operation that no tlwait has reported (16 R288). -/
structure Mark where
  op : Nat
  code : Byte
  addr : Dword
  deriving DecidableEq, Repr

/-- A timeline (16 R288): c, i, the held mark, the further unreported errors, and which operations beyond the prefix
are complete. -/
structure Timeline where
  c : Nat
  i : Nat
  mark : Option Mark
  errors : List Mark
  done : List Nat
  deriving DecidableEq, Repr

/-- A timeline at workgroup start (03 R31). -/
def Timeline.fresh : Timeline := ⟨0, 0, none, [], []⟩

/-- Where a stage-workgroup is (03 R47): not admitted, admitted and unstarted, resident, parked, ended. -/
inductive Residency where
  | none | unstarted | resident | parked | ended
  deriving DecidableEq, Repr

/-- Why a workgroup is to be parked (17 R306, type 0x1B). -/
inductive ParkCause where
  | quantum | wait | preempt
  deriving DecidableEq, Repr

/-- A stage-workgroup (03 R37, R44): its place, its residency, its spans, its handles with their tile-table entries
(15 R269) and granules (key 2^24 · handle + granule), its tile registers (key 4096 · register + byte), timelines and
progress counters (16 R293), the address of its park image in its core's admission directory (15 R269), the step at which its
quantum last expired, and what B slice each quarter of each span last read and by which form (09 R168; key 4 · span + quarter). -/
structure Wg where
  res : Residency
  paddock : Nat
  serial : Word
  stage : Nat
  wx : Nat
  wy : Nat
  wz : Nat
  lin : Nat
  core : Nat
  entry : Nat
  nspans : Nat
  span : Store Span
  handle : Store (BitVec 128)
  granule : Store Granule
  t : Store Byte
  tcfg : Store Dword
  tl : Store Timeline
  progBar : Word
  progChute : Word
  progFe : Word
  progWaiter : Word
  wgGen : Nat
  parkWanted : Option ParkCause
  killed : Bool
  since : Nat
  image : BitVec 64
  expiry : List Nat := []
  mmaLast : Store Nat := []
  deriving DecidableEq, Repr

/-- No workgroup. -/
def Wg.none : Wg :=
  { res := .none, paddock := 0, serial := 0, stage := 0, wx := 0, wy := 0, wz := 0, lin := 0, core := 0, entry := 0,
    nspans := 0, span := [], handle := [], granule := [], t := [], tcfg := [], tl := [], progBar := 0, progChute := 0,
    progFe := 0, progWaiter := 0, wgGen := 0, parkWanted := Option.none, killed := false, since := 0, image := 0 }

/-! ## Launches, chutes -/

/-- Pre-emption of a launch (18 R328). -/
inductive Preempt where
  | none | draining | drained
  deriving DecidableEq, Repr

/-- Which stage-workgroup a key named when an operation was issued: an admission entry may be taken again later. -/
structure WgId where
  paddock : Nat
  serial : Word
  stage : Nat
  lin : Nat
  deriving DecidableEq, Repr

/-- A launch (14 R252, R253): the 48 double words of its record, the physical address of its status word, its serial,
its state, what it has so far, and the class 4 operation that placed it. pens counts admitted pens; gens are barrier generations. clock is
the greatest Lamport clock of the core that issued it and of those whose workgroups of it have ended (12 R223). -/
structure Launch where
  live : Bool
  paddock : Nat
  serial : Word
  record : List Dword
  statusPa : Nat
  asid : Nat
  state : Nat
  reason : Nat
  killed : Nat
  timing : Bool
  inError : Bool
  admitted : Bool
  issuer : Option Nat
  nextPen : Store Nat
  penGen : Store Nat
  launchGen : Nat
  unstartedKilled : Bool
  preempt : Preempt
  ended : Nat
  clock : BitVec 48 := 0
  deriving DecidableEq, Repr

/-- No launch. -/
def Launch.none : Launch :=
  { live := false, paddock := 0, serial := 0, record := [], statusPa := 0, asid := 0, state := 0, reason := 0, killed := 0,
    timing := false, inError := false, admitted := false, issuer := Option.none, nextPen := [], penGen := [],
    launchGen := 0, unstartedKilled := false, preempt := .none, ended := 0 }

/-- A chute on one core (14 R255): its control block, its geometry, its slot rows (by granule), and the issue sets and
operations waiting on each side, oldest first. -/
structure Chute where
  live : Bool
  paddock : Nat
  serial : Word
  core : Nat
  handle : Nat
  fromStage : Nat
  toStage : Nat
  slotsM1 : BitVec 6
  width : Nat
  colsM1 : Nat
  wptr : BitVec 6
  rptr : BitVec 6
  claimed : BitVec 64
  full : BitVec 64
  taken : BitVec 64
  engine : BitVec 64
  granule : Store Granule
  prodWait : List (Nat × Nat × Nat)
  consWait : List (Nat × Nat × Nat)
  deriving DecidableEq, Repr

/-- No chute. -/
def Chute.none : Chute :=
  { live := false, paddock := 0, serial := 0, core := 0, handle := 0, fromStage := 0, toStage := 0, slotsM1 := 0,
    width := 0, colsM1 := 0, wptr := 0, rptr := 0, claimed := 0, full := 0, taken := 0, engine := 0, granule := [],
    prodWait := [], consWait := [] }

/-- The control block as the 320 bits of 14 R255. -/
def Chute.block (c : Chute) : BitVec 320 :=
  c.engine ++ 0#46 ++ c.slotsM1 ++ c.rptr ++ c.wptr ++ c.taken ++ c.full ++ c.claimed

/-! ## Class 4 operations -/

/-- One side of a unit of an operation: bytes of memory by virtual or global address; an element of a handle of the
workgroup that stood at key g as id, named as a pen member's when sib is set; an element of a chute, whose storage is no workgroup's (14
R255); or data that have arrived from another device. -/
inductive UnitSide where
  | mem (addr : Dword)
  | tile (g : Nat) (id : WgId) (h row col : Nat) (sib : Bool)
  | chute (key row col : Nat)
  | data (x : Nat)
  deriving DecidableEq, Repr

/-- Progress of a unit: not landed, landed, or failed (11 R206). -/
inductive UnitSt where
  | pending | landed | failed
  deriving DecidableEq, Repr

/-- A unit of an operation: its sides, its size in bytes, its progress, the tag of the packet that it waits for. A unit with
row set stands for a whole row whose sibling handle was not bound at issue (11 R211). -/
structure AUnit where
  src : UnitSide
  dst : UnitSide
  size : Nat
  row : Bool
  st : UnitSt
  sent : Option Nat
  deriving DecidableEq, Repr

/-- Kinds of class 4 operations (04 R69): cpr with its operator (11 R210), cpchute with its chute and, once it has
claimed one, its slot, launch with its record's address and whether the record is in a queue. -/
inductive AsyncKind where
  | cp | cpm | cpr (op : Nat) | gth | sct | put | get | cpchute (key : Nat) (slot : Option Nat)
  | launch (recAddr : Dword) (placed : Bool)
  deriving DecidableEq, Repr

/-- A class 4 operation in flight (11 R205): its own number, the workgroup and span that issued it with their core and
ASID, its timeline and operation number, its units, its first error. -/
structure AsyncOp where
  uid : Nat
  g : Nat
  id : WgId
  sp : Nat
  core : Nat
  asid : Nat
  priv : Bool
  ordinal : BitVec 20
  tl : Nat
  num : Nat
  kind : AsyncKind
  wf : Bool
  we : Bool
  units : List AUnit
  err : Option Mark
  suspended : Bool
  noBegin : Bool
  deriving DecidableEq, Repr

/-! ## Coherence -/

/-- Home states of a line (13 R233). -/
inductive HomeState where
  | I | S | X | O | D | P | BInv | BFwd | BMrg
  deriving DecidableEq, Repr

/-- The code of a home state (13 R233). -/
def HomeState.code : HomeState → BitVec 4
  | .I => 0 | .S => 1 | .X => 2 | .O => 3 | .D => 4 | .P => 5 | .BInv => 8 | .BFwd => 9 | .BMrg => 10

/-- The bodies of coherence messages (13 R236). -/
inductive Msg where
  | getS | getX | upg | drGet (t : DTag) | amo (rs : List AmoReq) | wrLine (d : LineData)
  | putE | putM (d : LineData) | putO (d : LineData)
  | inv | fwdS (rq : BitVec 13) | fwdX (rq : BitVec 13) | recall | merge
  | data (d : LineData) (excl : Bool) | grant | grantD (t : DTag) | invAck (nil : Bool)
  | fwdAck (dirty : Option LineData) | putAck | redAck (n : Nat) | err (retry : Bool)
  | redOp (rs : List AmoReq) (n : Nat) | drPart (t : DTag) (parts : Store Acc) (n : Nat)
  deriving DecidableEq, Repr

/-- A directory entry (13 R232) with what the home keeps beside it: the drift base and merged partials (13 R241), the
modulus, the request being served, the requests waiting, held put notices, a lost holder's mark (13 R247), the state before the
line was busy, whether the drift values are to be dropped at the merge (11 R203), and the greatest stamp among the messages of the
transaction (17 R302). -/
structure DirEntry where
  state : HomeState
  coarse : Bool
  ptrs : List (BitVec 13)
  vec : BitVec 65
  owner : BitVec 13
  tag : DTag
  acks : Nat
  requester : BitVec 13
  accs : Store Acc
  serving : Option (Hdr × Msg)
  queue : List (Hdr × Msg)
  held : List (Hdr × Msg)
  fwdTo : Option (BitVec 13)
  replied : List (BitVec 13)
  lostHolder : Bool
  before : HomeState := .I
  drop : Bool := false
  stamp : Dword := 0
  deriving DecidableEq, Repr

/-- A line that no cache holds (13 R233). -/
def DirEntry.idle : DirEntry :=
  { state := .I, coarse := false, ptrs := [], vec := 0, owner := 0, tag := ⟨0, 0⟩, acks := 0, requester := 0, accs := [],
    serving := none, queue := [], held := [], fwdTo := none, replied := [], lostHolder := false }

/-- Cache states of a line, stable and transient (13 R231, R240). -/
inductive CacheState where
  | I | S | E | M | O | D | IS | IM | SM | OM | ID | MI | EI | II
  deriving DecidableEq, Repr

/-- A virtual tag under which an L1 holds a line, with the leaf's W and U bits (10 R177, R178). -/
structure L1Tag where
  asid : Nat
  vline : Nat
  w : Bool
  u : Bool
  deriving DecidableEq, Repr

/-- A line in one core's L1 or drift buffer (13 R231). In IM, haveData and haveGrant say which of the two responses have
come; in IS, fillDead marks a fill that serves its one load and is not installed, haveData that it has come, and asker names the issue
set whose load requested it (12 R225). Of a proxy, owed tells that the access that it asked for has not been performed yet (13 R240),
failed that its pod home has answered with an error, of which kind. refused marks a request that Err-retry has turned away (13 R237); in II
haveData tells that the line was dirty. -/
structure CacheLine where
  state : CacheState
  data : LineData
  tags : List L1Tag
  tag : DTag
  accs : Store Acc
  haveData : Bool
  haveGrant : Bool
  fillDead : Bool
  defer : Option (Hdr × Msg)
  asker : Option SpanRef := Option.none
  owed : Bool := false
  failed : Option Nat := Option.none
  refused : Bool := false
  deriving DecidableEq, Repr

/-- No line. -/
def CacheLine.none : CacheLine :=
  { state := .I, data := 0, tags := [], tag := ⟨0, 0⟩, accs := [], haveData := false, haveGrant := false, fillDead := false,
    defer := Option.none }

/-- A copy on the read-only path of a core (11 R190), valid for one launch. -/
structure RoCopy where
  core : Nat
  line : Nat
  launch : Nat
  data : LineData
  deriving DecidableEq, Repr

/-- An entry of a die's translation cache (10 R177): the leaf, its page size in bits, its ASID. -/
structure TcEntry where
  die : Nat
  asid : Nat
  vpage : Nat
  log2 : Nat
  leaf : Dword
  leafPa : Nat
  deriving DecidableEq, Repr

/-! ## Waiters, windows, paddocks -/

/-- A waiter queue (14 R262): the word, the job that it belongs to, the paddock whose table holds the header, its nodes
(workgroup, span), oldest first. Nodes of other devices carry key 0 and the device's slot. -/
structure WaitQueue where
  key : Nat
  pa : Nat
  job : Nat
  paddock : Nat
  nodes : List (Nat × Nat)
  deriving DecidableEq, Repr

/-- A window-table entry (15 R277) with its page-mode keys (19 R341). -/
structure Window where
  valid : Bool
  serial : Word
  region : BitVec 5
  base : Dword
  size : Nat
  landed : Dword
  acked : Dword
  key : BitVec 16
  oldKey : Option (BitVec 16)
  deriving DecidableEq, Repr

/-- A free entry. -/
def Window.none : Window := ⟨false, 0, 0, 0, 0, 0, 0, 0, Option.none⟩

/-- A record on its way into the queues, for a launch operation whose paddock's queues are full, or queued. -/
structure QueuedLaunch where
  prio : Nat
  serial : Word
  deriving DecidableEq, Repr

/-- A paddock (15 R279) with its tables (15 R273, R277, R281) and queues (14 R253). -/
structure Paddock where
  cfg : PaddockCfg
  resident : Bool
  held : Bool
  errHead : Word
  errTail : Word
  errLost : Word
  perfHead : Word
  perfLost : Word
  nextSerial : Word
  queue : List QueuedLaunch
  rankExc : Store Dword
  rankRange : Store (BitVec 128)
  rankMap : Store (BitVec 320)
  rankClass : Store Nat
  rankCache : Store Dword
  window : Store Window
  placeResult : Nat
  readbacks : Nat
  codeHashes : List (BitVec 256)
  samples : Store (List Nat)
  reports : Nat
  sampledAt : Nat := 0
  deriving DecidableEq, Repr

/-- The reset value of the provider-written fields (15 R279, 03 R56, 18 R317, R328, 17 R308). -/
def PaddockCfg.reset : PaddockCfg :=
  { valid := false, ox := 0, oy := 0, w := 0, h := 0, asids := [], job := 0, parkArea := 0, l2pool := 0,
    quantumUs := 200, floors := [], deadlineUs := 500, handler := 0, trapFrame := 0, errBase := 0,
    rimeFilter := 0xFFFFF#128 <<< 76, traceEpoch := 0, stops := [], watchdogUs := 10000, sampleUs := 10000,
    perfBase := 0, perfLog2 := 0, debugger := false, trustDomain := false }

/-- An absent paddock. -/
def Paddock.none : Paddock :=
  { cfg := PaddockCfg.reset, resident := false, held := false, errHead := 0, errTail := 0, errLost := 0, perfHead := 0,
    perfLost := 0, nextSerial := 0, queue := [], rankExc := [], rankRange := [], rankMap := [], rankClass := [],
    rankCache := [], window := [], placeResult := 0, readbacks := 0, codeHashes := [], samples := [], reports := 0 }

/-! ## Rime -/

/-- A record of Rime (17 R304) on its way to the sinks. paddock none: provider-only. -/
structure Record where
  stamp : Dword
  typ : Nat
  unit : Nat
  idx : Nat
  die : Nat
  paddock : Option Nat
  ordinal : BitVec 20
  timing : Bool
  raised : Bool
  stalled : Bool
  w2 : Dword
  w3 : Dword
  deriving DecidableEq, Repr

/-- A sink (17 R307): its descriptor fields; the records dropped since the last gap record and the first one's stamp (R310);
its episode of back-pressure: since when, on which sources, and whether the stall limit has released them (R311, R312). -/
structure Sink where
  base : Dword
  head : Word
  tail : Word
  drops : Word
  limits : Word
  stallLimit : BitVec 16
  log2 : Nat
  threshold : Nat
  provider : Bool
  paddock : Nat
  lossless : Bool
  enable : Bool
  gap : Nat
  gapStamp : Dword
  stalling : Bool
  stallSince : Dword
  released : Bool
  stalled : List Nat
  deriving DecidableEq, Repr

/-- A sink's descriptor at reset (17 R307). -/
def Sink.reset : Sink :=
  { base := 0, head := 0, tail := 0, drops := 0, limits := 0, stallLimit := 100, log2 := 13, threshold := 4096,
    provider := false, paddock := 0, lossless := false, enable := false, gap := 0, gapStamp := 0, stalling := false,
    stallSince := 0, released := false, stalled := [] }

/-! ## Fabric, SPDM -/

/-- A scale-up port or a UCIe module (19 R334, R336): link state and hop-mode key. -/
structure Port where
  link : Nat
  hopKey : Nat
  flits : Nat
  deriving DecidableEq, Repr

/-- A port at reset: down, no key. -/
def Port.reset : Port := ⟨0, 0, 0⟩

/-- A tray's request window at this device (19 R342): its limit, its present size, the responses below load 12 since it last changed. -/
structure TrayWindow where
  limit : Nat
  size : Nat
  lows : Nat := 0
  deriving DecidableEq, Repr

/-- No window set. -/
def TrayWindow.reset : TrayWindow := ⟨0, 0, 0⟩

/-- Stages of an SPDM responder and of its sessions (19 R343). -/
inductive SpdmPhase where
  | fresh | version | capabilities | negotiated
  deriving DecidableEq, Repr

/-- A responder: its phase, its sessions (number, established, key updates). -/
structure Spdm where
  phase : SpdmPhase
  asym : Word
  kem : Word
  sessions : List (Nat × Bool × Nat)
  deriving DecidableEq, Repr

/-- A responder before any request. -/
def Spdm.fresh : Spdm := ⟨.fresh, 0, 0, []⟩

/-- What a responder answered: the request's code name, whether it was accepted, and the reply's content. -/
structure SpdmReply where
  responder : Responder
  request : String
  ok : Bool
  values : List (BitVec 256)
  deriving DecidableEq, Repr

/-- A write of the machine itself that waits for its line to be free (10 R176, 14 R252, 17 R307): n bytes at a physical address
become (old and keep) or val. With n = 0 it stands for the completion of the launch operation with number pa, which follows the
writes before it: in error when keep is 1, val its serial. -/
structure LateWrite where
  pa : Nat
  n : Nat
  keep : Nat
  val : Nat
  ring : Bool := false
  deriving DecidableEq, Repr

/-- A revoked extent (13 R248): the host's pointer, the first line, how many; lapsed when 20 µs have passed. -/
structure Revoked where
  host : Nat
  first : Nat
  count : Nat
  lapsed : Bool
  deriving DecidableEq, Repr

/-- A packet or pod request of this device that is not acknowledged yet (15 R276, 16 R291): its tag, the die that keeps
it, whether it left by the scale-out port, who sent it and where it goes, whether its bytes count as acked, and the packet,
kept for retransmission. -/
structure RemoteReq where
  tag : Nat
  die : Nat
  scaleOut : Bool
  paddock : Nat
  serial : Word
  core : Nat
  ordinal : BitVec 20
  addr : Dword
  size : Nat
  counts : Bool
  packet : Packet
  deriving DecidableEq, Repr

/-- Which issue set is issuing (04 R72): the workgroup, the span, the lanes, the header's address, and the position to
which the clause moves when the instruction retires. -/
structure Focus where
  g : Nat
  sp : Nat
  lanes : Lanes
  hdrPc : Dword
  pos : Nat
  next : Nat
  deriving DecidableEq, Repr

/-- What leaves the device: coherence messages to agents, packets, acknowledgements to initiators, reports of the firmware. -/
inductive OutMsg where
  | coh (h : Hdr) (m : Msg)
  | packet (p : Packet)
  | ack (peer tag : Nat) (code : Byte) (kind : Nat) (stamp : Dword) (data : List Byte)
  | firmware (kind : Nat) (payload : List Nat)
  deriving DecidableEq, Repr

/-! ## The whole machine -/

/-- Everything the spec gives the F16 to hold. Numbered things are in canonical sparse maps (Store). -/
structure State where
  mem : Store Byte
  wg : Store Wg
  launch : Store Launch
  chute : Store Chute
  paddock : Store Paddock
  async : List AsyncOp
  opSeq : Nat
  dir : Store DirEntry
  pod : Store DirEntry
  cache : Store CacheLine
  proxy : Store CacheLine
  podMap : Nat
  msgs : List (Hdr × Msg)
  combined : List ((Hdr × Msg) × List (Hdr × Nat))
  late : List LateWrite
  outbox : List OutMsg
  ro : List RoCopy
  tc : List TcEntry
  waitq : List WaitQueue
  lamport : Store (BitVec 48)
  sliceClock : Store (BitVec 48)
  beacon : BitVec 48
  ptpLocked : Bool
  ptpEver : Bool
  homeKey : Store (BitVec 61)
  time : Dword
  timeHigh : Nat
  deviceEpoch : Dword
  cycle : Dword
  records : List Record
  lastStamp : Store Dword
  stallFlag : List Nat
  sink : Store Sink
  readiness : Store (BitVec 4)
  floorCnt : Store Nat
  readySince : List (SpanRef × Nat)
  perfPeriod : Nat
  perfRingBase : Nat
  perfRingLog2 : Nat
  perfRingHead : Word
  perfRingLost : Word
  perf : Store Nat
  perfUnit : Store Nat
  port : Store Port
  spareLink : Store Nat
  pktCount : Store Nat
  connected : List Nat
  pathBits : Store (BitVec 320)
  entropy : Store (BitVec 256)
  hotDest : List Nat
  tray : Store TrayWindow
  slotDown : List Nat
  congestion : Store Nat
  podId : Nat
  groupId : Nat
  slotId : Nat
  lost : List Party
  revoked : List Revoked
  remote : List RemoteReq
  remoteTag : Nat
  inbox : List Packet
  spdm : Store Spdm
  spdmOut : List SpdmReply
  readOut : List Dword
  readWait : List Dword
  powered : Bool
  halted : Bool
  powerCap : Nat
  throttled : List Nat
  tripped : Bool
  spillReserved : Bool
  spilled : List (Nat × Nat)
  driftOrder : List Nat
  carriage : Lanes
  swap : List (Option Nat × Option Nat)
  bindings : Nat
  chosen : Store Nat
  cfgWait : List (Nat × PaddockCfg)
  placing : List (Nat × Dword)
  agenda : List (Nat × Instr)
  focus : Focus
  steps : Nat
  deriving DecidableEq, Repr

/-- The machine right after reset: nothing configured, nothing resident, no memory written, every clock at zero. -/
def State.reset : State :=
  { mem := [], wg := [], launch := [], chute := [], paddock := [], async := [], opSeq := 0, dir := [], pod := [],
    cache := [], proxy := [], podMap := 0, msgs := [], combined := [], late := [], outbox := [], ro := [], tc := [],
    waitq := [], lamport := [], sliceClock := [], beacon := 0, ptpLocked := false, ptpEver := false,
    homeKey := [], time := 0, timeHigh := 0, deviceEpoch := 0, cycle := 0, records := [], lastStamp := [], stallFlag := [], sink := [], readiness := [],
    floorCnt := [], readySince := [], perfPeriod := 26, perfRingBase := 0, perfRingLog2 := 0, perfRingHead := 0, perfRingLost := 0,
    perf := [], perfUnit := [], port := [], spareLink := [], pktCount := [], connected := [], pathBits := [], entropy := [], hotDest := [],
    tray := [], slotDown := [], congestion := [], podId := 0, groupId := 0, slotId := 0, lost := [], revoked := [],
    remote := [], remoteTag := 0, inbox := [], spdm := [], spdmOut := [], readOut := [], readWait := [], powered := false, halted := false,
    powerCap := 11500, throttled := [], tripped := false, spillReserved := false, spilled := [], driftOrder := [],
    carriage := 0, swap := [], bindings := 0,
    chosen := [], cfgWait := [], placing := [], agenda := [], focus := ⟨0, 0, 0, 0, 0, 0⟩, steps := 0 }

end Sys2Proof.Machine
end

