-- ==== Sys2Proof/Machine/Regs.lean ====
section
/-!
DEFINITION. Machine/Regs.lean: the named operations over registers, clauses, memory bytes and records that every meaning
uses. Reads of registers and of memory go through here, so fixed registers and byte order are decided once.
-/

namespace Sys2Proof.Machine

/-- What a meaning answers. -/
abbrev Res := Host.Outcome State Fault Refusal

/-! ## Spans -/

namespace Span

/-- v[r][l] (05 R76). -/
def vr (sp : Span) (r l : Nat) : Word := Store.get 0 sp.v (32 * r + l)
/-- Write v[r][l]. -/
def setV (sp : Span) (r l : Nat) (x : Word) : Span := { sp with v := Store.set 0 sp.v (32 * r + l) x }
/-- The pair v[r], v[r+1] of a lane, bits [31:0] in the even register (05 R77). -/
def pair (sp : Span) (r l : Nat) : Dword := sp.vr (r + 1) l ++ sp.vr r l
/-- Write a pair. -/
def setPair (sp : Span) (r l : Nat) (x : Dword) : Span :=
  (sp.setV r l (x.extractLsb' 0 32)).setV (r + 1) l (x.extractLsb' 32 32)
/-- The group v[r] … v[r+3] of a lane, least significant register first (05 R77). -/
def group (sp : Span) (r l : Nat) : BitVec 128 := sp.pair (r + 2) l ++ sp.pair r l
/-- Write a group. -/
def setGroup (sp : Span) (r l : Nat) (x : BitVec 128) : Span :=
  (sp.setPair r l (x.extractLsb' 0 64)).setPair (r + 2) l (x.extractLsb' 64 64)
/-- s[r]; s63 reads zero (05 R77). -/
def sr (sp : Span) (r : BitVec 6) : Dword := if r = 63#6 then 0 else Store.get 0 sp.s r.toNat
/-- Write s[r]; a write to s63 is ignored (05 R77). -/
def setS (sp : Span) (r : BitVec 6) (x : Dword) : Span :=
  if r = 63#6 then sp else { sp with s := Store.set 0 sp.s r.toNat x }
/-- p[r]; p7 reads all ones (05 R77). -/
def pr (sp : Span) (r : BitVec 3) : Lanes := if r = 7#3 then allLanes else Store.get 0 sp.p r.toNat
/-- Write the bits of p[r] in the lanes of S; a write to p7 is ignored (05 R77). -/
def setP (sp : Span) (r : BitVec 3) (S x : Lanes) : Span :=
  if r = 7#3 then sp else { sp with p := Store.set 0 sp.p r.toNat ((sp.pr r &&& ~~~S) ||| (x &&& S)) }
/-- Operand b (07 R102): a scalar register, or the immediate sign-extended. -/
def opB (sp : Span) : SOp → Dword
  | .reg r => sp.sr r
  | .imm v => v.signExtend 64
/-- Thread state of lane l. -/
def laneAt (sp : Span) (l : Nat) : Lane := Store.get Lane.fresh sp.lane l
/-- Change the thread state of lane l. -/
def updLane (sp : Span) (l : Nat) (f : Lane → Lane) : Span :=
  { sp with lane := Store.upd Lane.fresh sp.lane l f }
/-- Change the thread state of every lane of S. -/
def updLanes (sp : Span) (S : Lanes) (f : Nat → Lane → Lane) : Span :=
  (lanesOf S).foldl (fun a l => a.updLane l (f l)) sp
/-- Rejoin mask jN. -/
def jm (sp : Span) (n : Nat) : Rejoin := Store.get Rejoin.empty sp.j n
/-- Write rejoin mask jN. -/
def setJ (sp : Span) (n : Nat) (x : Rejoin) : Span := { sp with j := Store.set Rejoin.empty sp.j n x }
/-- Pending counter kN. -/
def kc (sp : Span) (n : Nat) : Nat := Store.get 0 sp.k n
/-- Write one 32-bit register in every lane of a set; every value is computed before any is written (08 R125). -/
def mapV (sp : Span) (S : Lanes) (d : Nat) (f : Nat → Word) : Span :=
  (lanesOf S).foldl (fun a l => a.setV d l (f l)) sp
/-- Write one pair in every lane of a set. -/
def mapPair (sp : Span) (S : Lanes) (d : Nat) (f : Nat → Dword) : Span :=
  (lanesOf S).foldl (fun a l => a.setPair d l (f l)) sp
/-- Write one group in every lane of a set. -/
def mapGroup (sp : Span) (S : Lanes) (d : Nat) (f : Nat → BitVec 128) : Span :=
  (lanesOf S).foldl (fun a l => a.setGroup d l (f l)) sp
/-- The lanes that have not ended. -/
def alive (sp : Span) : Lanes := lanesWhere (fun l => !(sp.laneAt l).ended)
/-- The lanes at trap level n that have not ended. -/
def atLevel (sp : Span) (n : Nat) : Lanes := lanesWhere (fun l => (sp.laneAt l).level == n && !(sp.laneAt l).ended)
/-- The innermost open trap level of the span (18 R318): 2, 1, or 0 when no handler is open. -/
def openLevel (sp : Span) : Nat := if sp.atLevel 2 ≠ 0 then 2 else if sp.atLevel 1 ≠ 0 then 1 else 0
/-- The clause that issue set S has open. -/
def clauseOf (sp : Span) (S : Lanes) : Option Clause := sp.clauses.find? (fun c => c.lanes == S && !c.suspended)
/-- Replace the first clause for which p holds by what f makes of it. -/
def updFirst (p : Clause → Bool) (f : Clause → List Clause) : List Clause → List Clause
  | [] => []
  | c :: cs => if p c then f c ++ cs else c :: updFirst p f cs
/-- Is this the open clause of issue set S. -/
def openFor (S : Lanes) (c : Clause) : Bool := c.lanes == S && !c.suspended
/-- Change the open clause of issue set S. -/
def updClause (sp : Span) (S : Lanes) (f : Clause → Clause) : Span :=
  { sp with clauses := updFirst (openFor S) (fun c => [f c]) sp.clauses }
/-- Perform one register write of a result; a result for a thread that has ended is discarded (07 R114). A scalar or tile
register belongs to no lane: its result is written though the threads that issued it have ended (log 62). -/
def write1 (sp : Span) : RegWrite → Span
  | .v r l x => if (sp.laneAt l).ended then sp else sp.setV r l x
  | .s r x => sp.setS (BitVec.ofNat 6 r) x
  | .t _ _ _ => sp

end Span

/-! ## Workgroups and the issuing span -/

namespace Wg

/-- Span n of the workgroup. -/
def spanAt (w : Wg) (n : Nat) : Span := Store.get Span.fresh w.span n
/-- Change span n. -/
def updSpan (w : Wg) (n : Nat) (f : Span → Span) : Wg := { w with span := Store.upd Span.fresh w.span n f }
/-- Timeline n. -/
def tlAt (w : Wg) (n : Nat) : Timeline := Store.get Timeline.fresh w.tl n
/-- Change timeline n. -/
def updTl (w : Wg) (n : Nat) (f : Timeline → Timeline) : Wg := { w with tl := Store.upd Timeline.fresh w.tl n f }
/-- Byte b of tile register n. -/
def tByte (w : Wg) (n b : Nat) : Byte := Store.get 0 w.t (4096 * n + b)
/-- Write byte b of tile register n. -/
def setTByte (w : Wg) (n b : Nat) (x : Byte) : Wg := { w with t := Store.set 0 w.t (4096 * n + b) x }
/-- tcfg of tile register n. -/
def cfg (w : Wg) (n : Nat) : Dword := Store.get 0 w.tcfg n
/-- Tile-table entry of handle h (15 R269). -/
def entryOf (w : Wg) (h : Nat) : BitVec 128 := Store.get 0 w.handle h
/-- A granule of a handle. -/
def granuleAt (w : Wg) (h g : Nat) : Granule := Store.get Granule.empty w.granule (16777216 * h + g)
/-- Write a granule of a handle. -/
def setGranule (w : Wg) (h g : Nat) (x : Granule) : Wg :=
  { w with granule := Store.set Granule.empty w.granule (16777216 * h + g) x }
/-- The launch's key in State.launch. -/
def launchKey (w : Wg) : Nat := 2 ^ 32 * w.paddock + w.serial.toNat
/-- The numbers of the workgroup's spans. -/
def spanNums (w : Wg) : List Nat := List.range w.nspans
/-- A span of the workgroup has ended when all its threads have (03 R38). -/
def spanEnded (w : Wg) (n : Nat) : Bool := (w.spanAt n).alive == 0
/-- All threads of the workgroup have ended. -/
def allEnded (w : Wg) : Bool := w.spanNums.all w.spanEnded

end Wg

/-- A span's wait descriptor (16 R293): what it waits on, or the barrier at which threads of it are held. -/
def Span.descriptor (sp : Span) : WaitKind :=
  match sp.wait with
  | .none => ((List.range 32).findSome? (fun l => match (sp.laneAt l).hold with
    | .barrier k => some (WaitKind.barrier k)
    | _ => none)).getD .none
  | k => k

namespace State

/-- The workgroup with key g. -/
def wgAt (s : State) (g : Nat) : Wg := Store.get Wg.none s.wg g
/-- Change the workgroup with key g. -/
def updWg (s : State) (g : Nat) (f : Wg → Wg) : State := { s with wg := Store.upd Wg.none s.wg g f }
/-- Span n of workgroup g. -/
def spanAt (s : State) (g n : Nat) : Span := (s.wgAt g).spanAt n
/-- Change span n of workgroup g. -/
def updSpanAt (s : State) (g n : Nat) (f : Span → Span) : State := s.updWg g (fun w => w.updSpan n f)
/-- The issuing workgroup. -/
def here (s : State) : Wg := s.wgAt s.focus.g
/-- The issuing span. -/
def span (s : State) : Span := s.spanAt s.focus.g s.focus.sp
/-- Change the issuing workgroup. -/
def updHere (s : State) (f : Wg → Wg) : State := s.updWg s.focus.g f
/-- Change the issuing span. -/
def updSpan (s : State) (f : Span → Span) : State := s.updSpanAt s.focus.g s.focus.sp f
/-- The issue set S. -/
def lanes (s : State) : Lanes := s.focus.lanes
/-- The active lanes: those of S whose bit is set in pN (02 R29). -/
def active (s : State) (p : BitVec 3) : Lanes := s.lanes &&& s.span.pr p
/-- The lowest lane of S. -/
def lowLane (s : State) : Nat := (lanesOf s.lanes).headD 0

/-- The instruction is complete: the issue set's clause moves to the next word position (04 R72). -/
def retire (s : State) : State :=
  s.updSpan (fun sp =>
    { sp.updClause s.focus.lanes (fun c => { c with pos := s.focus.next, waiting := false }) with wait := .none })

/-- The issue set waits at this instruction, which is taken up again (14 R251); w is what it waits for. -/
def waitOn (s : State) (w : WaitKind) : State :=
  s.updSpan (fun sp => { sp.updClause s.focus.lanes (fun c => { c with waiting := true }) with wait := w })

/-- The operand of a class 5 instruction that waits: what it read when it first issued, else x (14 R251). -/
def argOr (s : State) (x : Dword) : Dword :=
  match (s.span.clauseOf s.lanes).bind (·.arg) with
  | some (p, v) => if p = s.focus.pos then v else x
  | none => x
/-- The issue set waits at this instruction, whose operand x is kept. -/
def waitWith (s : State) (w : WaitKind) (x : Dword) : State :=
  (s.updSpan (fun sp => sp.updClause s.focus.lanes (fun c => { c with arg := some (s.focus.pos, x) }))).waitOn w
/-- Forget the operand of a wait that ends in an exception: a retry reads it anew. -/
def dropArg (s : State) : State :=
  s.updSpan (fun sp => sp.updClause s.focus.lanes (fun c => { c with arg := none, stale := none }))

/-- Every lane of S takes target a at the clause end (07 R110). -/
def setTargets (s : State) (S : Lanes) (a : Nat → Dword) : State :=
  s.updSpan (fun sp => sp.updClause s.focus.lanes (fun c =>
    { c with targets := (lanesOf S).foldl (fun m l => (l, a l) :: m.filter (fun e => e.1 != l)) c.targets }))

/-- The fall-through address of the issuing clause: pc + 4 · (N + 1) (07 R110). -/
def nextPc (s : State) : Dword :=
  match s.span.clauseOf s.lanes with
  | some c => c.hdrPc + BitVec.ofNat 64 (4 * (bits c.hdr 3 0 + 1))
  | none => s.focus.hdrPc

/-- The address of the issuing instruction's word (04 R74). -/
def instrPc (s : State) : Dword := s.focus.hdrPc + BitVec.ofNat 64 (4 * s.focus.pos)

/-- A branch target: the header's address plus the signed literal, modulo 2^48 (04 R64). -/
def branchTarget (s : State) (lit : Word) : Dword :=
  ((s.focus.hdrPc + lit.signExtend 64).extractLsb' 0 48).setWidth 64

/-! ## Bytes of memory -/

end State

/-- The canonical form of memory: addresses strictly rising, no listed byte zero, which is what an unlisted address reads as
(log 4). -/
def Memory.wf (m : Store Byte) : Bool := Store.wf 0 m

namespace State

/-- A byte of memory at a physical address; a byte that nothing has written reads as zero (log 4). -/
def byte (s : State) (a : Nat) : Byte := Store.get 0 s.mem a
/-- Write a byte of memory. -/
def setByte (s : State) (a : Nat) (x : Byte) : State := { s with mem := Store.set 0 s.mem a x }
/-- n bytes from a, little-endian, as a natural number (02 R28). -/
def bytesAt (s : State) (a : Nat) : Nat → Nat
  | 0 => 0
  | n + 1 => (s.byte a).toNat + 256 * bytesAt s (a + 1) n
/-- Write the n low bytes of x from a, little-endian. -/
def setBytes (s : State) (a : Nat) : Nat → Nat → State
  | 0, _ => s
  | n + 1, x => setBytes (s.setByte a (BitVec.ofNat 8 (x % 256))) (a + 1) n (x / 256)
/-- The home's data of a line: 128 bytes at 128 · line. -/
def memLine (s : State) (line : Nat) : LineData := BitVec.ofNat 1024 (s.bytesAt (128 * line) 128)
/-- Write the home's data of a line. -/
def setMemLine (s : State) (line : Nat) (d : LineData) : State := s.setBytes (128 * line) 128 d.toNat

/-! ## Time and records -/

/-- The time counter of a die: the module's time base plus the die's skew, at most 2 ns (17 R301). -/
def dieTime (s : State) (die : Nat) : Dword := s.time + BitVec.ofNat 64 (Config.dieSkew die % 513)
/-- The die of a core (01 R10). -/
def dieOf (core : Nat) : Nat := 4 * (core / 64 / 16) + core % 64 / 16
/-- x of a core. -/
def coreX (core : Nat) : Nat := core % 64
/-- y of a core. -/
def coreY (core : Nat) : Nat := core / 64

/-- The larger of two stamps. -/
def maxD (a b : Dword) : Dword := if a.toNat < b.toNat then b else a

/-- The key of a source: unit class, die, index (17 R305). -/
def srcKey (unit die idx : Nat) : Nat := 65536 * unit + 4096 * die + idx
/-- The stamp that a message of a unit of a die carries (17 R302): its local time, or its greatest record's stamp. -/
def sentStamp (s : State) (die : Nat) (keys : List Nat) : Dword :=
  keys.foldl (fun a k => maxD a (Store.get 0 s.lastStamp k)) (s.dieTime die)
/-- The stamp of an answer of this device as a whole: not below any of its units'. -/
def deviceStamp (s : State) : Dword := s.lastStamp.foldl (fun a e => maxD a e.2) (s.dieTime 0)
/-- The stamp that a message of a core carries: that of its units, classes 0 to 6. -/
def coreStamp (s : State) (core : Nat) : Dword := s.sentStamp (dieOf core) ((List.range 7).map (fun u => srcKey u (dieOf core) core))

/-- The stamp that a source takes for a record (17 R302): local time, one more than its last stamp, one more than a
stamp carried by the message that caused the event. -/
def stampFor (s : State) (die src : Nat) (carried : Dword) : Dword :=
  maxD (maxD (s.dieTime die) (Store.get 0 s.lastStamp src + 1)) (if carried = 0 then 0 else carried + 1)


/-- The time base with the wraps of its 64 bits counted, in 1/256 ns (17 R301). -/
def absTime (s : State) : Nat := 2 ^ 64 * s.timeHigh + s.time.toNat
/-- Set it. -/
def setAbsTime (s : State) (t : Nat) : State := { s with time := BitVec.ofNat 64 t, timeHigh := t / 2 ^ 64 }

/-- A unit stamps a record (17 R302, R304); carried is the greatest stamp that the causing message carried, or zero. -/
def makeRecord (s : State) (typ unit idx die : Nat) (pk : Option Nat) (ordinal : BitVec 20) (timing : Bool)
    (w2 w3 : Dword) (carried : Dword) : State × Record :=
  let src := srcKey unit die idx
  let t := s.stampFor die src carried
  ({ s with lastStamp := Store.set 0 s.lastStamp src t },
    { stamp := t, typ := typ, unit := unit, idx := idx, die := die, paddock := pk, ordinal := ordinal, timing := timing,
      raised := decide (carried ≠ 0) && t == carried + 1, stalled := false, w2 := w2, w3 := w3 })

/-- A unit makes a record: it is stamped and waits for its sinks. Flag S tells of a stall since the source's last record
(17 R311). -/
def emit (s : State) (typ unit idx die : Nat) (pk : Option Nat) (ordinal : BitVec 20) (timing : Bool)
    (w2 w3 : Dword) (carried : Dword) : State :=
  let src := srcKey unit die idx
  let (s1, r) := s.makeRecord typ unit idx die pk ordinal timing w2 w3 carried
  { s1 with records := s1.records ++ [{ r with stalled := s.stallFlag.contains src }],
            stallFlag := s.stallFlag.filter (fun x => x != src) }

/-- The workgroup word W of 17 R306. -/
def workWord (w : Wg) (sp : Nat) : Dword :=
  w.serial ++ (BitVec.ofNat 3 sp ++ BitVec.ofNat 3 w.stage ++ BitVec.ofNat 26 w.lin)

/-- A record of a core's unit for a workgroup. -/
def emitWg (s : State) (typ unit g sp : Nat) (w3 : Dword) : State :=
  let w := s.wgAt g
  s.emit typ unit w.core (dieOf w.core) (some w.paddock) (w.spanAt sp).lastStop false (workWord w sp) w3 0

/-- A saturating 32-bit count rises by one. -/
def satInc (x : Word) : Word := if x = 0xFFFFFFFF#32 then x else x + 1

/-! ## Performance counters (16 R296) -/

/-- A core's performance counter i rises by n; the 32 stand in the order of 16 R296. -/
def count (s : State) (core i n : Nat) : State := { s with perf := Store.upd 0 s.perf (32 * core + i) (fun x => x + n) }

/-- Performance counter i of a unit: a core's (class 0), or a shared unit's (16 R286, R296). -/
def perfOf (s : State) (cls idx i : Nat) : Nat :=
  if cls = 0 then Store.get 0 s.perf (32 * idx + i) else Store.get 0 s.perfUnit (2 ^ 21 * cls + 32 * idx + i)

/-- Is k the key of a counter of a shared unit: of 256 L2 slices, 4,096 routers, 88 ports, 32 memory controllers (16 R297). -/
def perfKeyOk (k : Nat) : Bool :=
  [(1, 256), (2, 4096), (3, 88), (4, 32)].any (fun e => k / 2 ^ 21 == e.1 && decide (k % 2 ^ 21 / 32 < e.2))

/-! ## Paddocks and launches -/

/-- Paddock n. -/
def pk (s : State) (n : Nat) : Paddock := Store.get Paddock.none s.paddock n
/-- Change paddock n. -/
def updPk (s : State) (n : Nat) (f : Paddock → Paddock) : State := { s with paddock := Store.upd Paddock.none s.paddock n f }
/-- The launch with key k = 2^32 · paddock + serial. -/
def launchAt (s : State) (k : Nat) : Launch := Store.get Launch.none s.launch k
/-- Change a launch. -/
def updLaunch (s : State) (k : Nat) (f : Launch → Launch) : State := { s with launch := Store.upd Launch.none s.launch k f }
/-- The launch of the issuing workgroup. -/
def launchHere (s : State) : Launch := s.launchAt s.here.launchKey
/-- The chute with a key. -/
def chuteAt (s : State) (k : Nat) : Chute := Store.get Chute.none s.chute k
/-- Change a chute. -/
def updChute (s : State) (k : Nat) (f : Chute → Chute) : State := { s with chute := Store.upd Chute.none s.chute k f }
/-- The issuing set is in the privileged handler: its lanes are at level 2 (04 R71). -/
def privileged (s : State) : Bool := (s.span.laneAt s.lowLane).level == 2
/-- The ASID under which the issuing workgroup translates (14 R252). -/
def asid (s : State) : Nat := s.launchHere.asid

end State

/-- Outcome of a meaning that completes with state s. -/
def done (s : State) : Res := .next s.retire

end Sys2Proof.Machine
end

