-- ==== Sys2Proof/Machine/Memory.lean ====
section
/-!
DEFINITION. Machine/Memory.lean: lines and their coherence at the home (13 R230-R245), address translation
(10 R175-R181), rank resolution and windows (15 R273-R277, 10 R180), and the checks of one address (11 R186).
A core's access runs the whole transaction of 13 R239 and R240 in one step when the home is quiet and every other
holder is a core of this device (log 6); otherwise its request goes to the home, and the access waits for the answer.
-/

namespace Sys2Proof.Machine

/-- What a home answers: the access is performed, it must wait, or it meets an error response (13 R239). -/
inductive HomeAns where
  | ok (s : State)
  | wait (s : State)
  | err
  deriving DecidableEq, Repr

/-- n bytes of a line from byte off. -/
def lineBytes (d : LineData) (off n : Nat) : Nat := (d.toNat >>> (8 * off)) % 256 ^ n
/-- The line with n bytes from byte off replaced. -/
def setLineBytes (d : LineData) (off n x : Nat) : LineData :=
  let m : LineData := BitVec.ofNat 1024 (256 ^ n - 1) <<< (8 * off)
  (d &&& ~~~m) ||| (BitVec.ofNat 1024 (x % 256 ^ n) <<< (8 * off))

/-! ## Drift accumulators -/

/-- Elements of a drift operator: 8 bytes for add.i64 and modadd, 4 otherwise (06 R98, R99). -/
def dtagWidth (t : DTag) : Nat := if t.op = 0#3 ∨ t.op = 3#3 then 8 else 4
/-- Is the operator one of the floating-point sums. -/
def dtagFadd (t : DTag) : Bool := t.op == 1#3 || t.op == 2#3
/-- Key of binary32 order with −0 below +0 (06 R99). -/
def f32Key (x : Word) : Int := if x.getLsbD 31 then -(x.extractLsb' 0 31).toNat - 1 else (x.extractLsb' 0 31).toNat
/-- Is the word a NaN of binary32. -/
def f32NaN (x : Word) : Bool := decide ((x.extractLsb' 0 31).toNat > 0x7F800000)
/-- The lesser or greater of two binary32 words; any NaN gives the canonical NaN (08 R135, 06 R99). -/
def f32MinMax (greater : Bool) (a b : Word) : Word :=
  if f32NaN a || f32NaN b then 0x7FC00000#32
  else if (f32Key a < f32Key b) == greater then b else a

/-- The contribution of a finite binary32 word to the sum field: v · 2^149 (06 R98). -/
def f32Fixed (x : Word) : Int :=
  let e := (x.extractLsb' 23 8).toNat
  let f := (x.extractLsb' 0 23).toNat
  let m : Int := if e = 0 then f else (8388608 + f) * 2 ^ (e - 1)
  if x.getLsbD 31 then -m else m

/-- One binary32 value as an accumulator of 06 R98. -/
def accOfF32 (x : Word) : Acc :=
  if f32NaN x then 1#320 <<< 319
  else if x = 0x7F800000#32 then 1#320 <<< 318
  else if x = 0xFF800000#32 then 1#320 <<< 317
  else (BitVec.ofInt 316 (f32Fixed x)).setWidth 320

/-- The accumulator of an element's value under an operator: the base contribution, or one dred's (06 R98, R99).
Bit 32 marks that a min or max accumulator holds a value. -/
def accOf (t : DTag) (x : Dword) : Acc :=
  match t.op.toNat with
  | 1 => accOfF32 (x.setWidth 32)
  | 2 => accOfF32 (x.setWidth 32)
  | 3 => BitVec.ofNat 320 (x.toNat % t.q.toNat)
  | 4 => BitVec.ofNat 320 (x.toNat % 2 ^ 32 + 2 ^ 32)
  | 5 => BitVec.ofNat 320 (x.toNat % 2 ^ 32 + 2 ^ 32)
  | 6 => BitVec.ofNat 320 (x.toNat % 2 ^ 32)
  | _ => x.setWidth 320

/-- Combine two accumulators of one operator exactly (06 R98, R99); zero is the empty accumulator. -/
def accAdd (t : DTag) (a b : Acc) : Acc :=
  match t.op.toNat with
  | 0 => (a.setWidth 64 + b.setWidth 64).setWidth 320
  | 3 => BitVec.ofNat 320 ((a.toNat + b.toNat) % t.q.toNat)
  | 4 => if a = 0 then b else if b = 0 then a else
      (f32MinMax false (a.setWidth 32) (b.setWidth 32)).setWidth 320 ||| (1#320 <<< 32)
  | 5 => if a = 0 then b else if b = 0 then a else
      (f32MinMax true (a.setWidth 32) (b.setWidth 32)).setWidth 320 ||| (1#320 <<< 32)
  | 6 => a ||| b
  | _ => ((a ||| b) &&& (0xF#320 <<< 316)) ||| (a.setWidth 316 + b.setWidth 316).setWidth 320

/-- Round m · 2^-149 to binary32 under RNE, m positive: the code without sign (06 R86, R98). -/
def roundF32 (m : Nat) : Nat :=
  let n := Nat.log2 m + 1
  let sh := n - 24
  let q := m >>> sh
  let r := m % 2 ^ sh
  let up := decide (2 ^ sh < 2 * r) || (decide (2 ^ sh = 2 * r) && sh ≠ 0 && q % 2 == 1)
  let q' := if up then q + 1 else q
  let code := if n ≤ 23 then m else if n = 24 then m else sh * 8388608 + q'
  if 0x7F800000 ≤ code then 0x7F800000 else code

/-- The value that an element takes when the line leaves D (06 R98, R99). DESIGN CHOICE (log 78): an element of a min or max line whose one
contribution is its base, a NaN that is not canonical, keeps the base's bits; the spec does not say whether it becomes the canonical NaN.
Unsafe. -/
def accValue (t : DTag) (a : Acc) : Dword :=
  match t.op.toNat with
  | 1 | 2 =>
    if a.getLsbD 319 || (a.getLsbD 318 && a.getLsbD 317) then 0x7FC00000#64
    else if a.getLsbD 318 then 0x7F800000#64
    else if a.getLsbD 317 then 0xFF800000#64
    else
      let v := (a.setWidth 316).toInt
      if v = 0 then 0
      else if 0 < v then BitVec.ofNat 64 (roundF32 v.toNat)
      else BitVec.ofNat 64 (0x80000000 + roundF32 (-v).toNat)
  | 0 => a.setWidth 64
  | 3 => a.setWidth 64
  | _ => (a.setWidth 32).setWidth 64

/-- The accumulators of a whole line's base value (13 R241). -/
def baseAccs (t : DTag) (d : LineData) : Store Acc :=
  (List.range (128 / (dtagWidth t))).foldl
    (fun m e => Store.set 0 m e (accOf t (BitVec.ofNat 64 (lineBytes d (e * dtagWidth t) (dtagWidth t))))) []

/-- Add one set of accumulators into another, element by element. -/
def addAccs (t : DTag) (a b : Store Acc) : Store Acc :=
  b.foldl (fun m e => Store.set 0 m e.1 (accAdd t (Store.get 0 m e.1) e.2)) a

/-- The bytes of a line whose elements have these accumulators. -/
def accsLine (t : DTag) (a : Store Acc) : LineData :=
  (List.range (128 / (dtagWidth t))).foldl
    (fun d e => setLineBytes d (e * dtagWidth t) (dtagWidth t) (accValue t (Store.get 0 a e)).toNat) 0

/-- The pointer of a party at a home slice (13 R232); a device is a party of the pod directory alone. -/
def partyPtr : Party → Option (BitVec 13)
  | .core n => some (BitVec.ofNat 13 (n % 4096))
  | .agent n => some (BitVec.ofNat 13 (0x1000 + n % 16))
  | .device _ => none

/-- The home slice of a line (10 R181). -/
def homeSlice (line : Nat) : Nat :=
  (line % 256) ^^^ (line / 2 ^ 8 % 256) ^^^ (line / 2 ^ 16 % 256) ^^^ (line / 2 ^ 24 % 256) ^^^ (line / 2 ^ 32 % 256) ^^^
    (line / 2 ^ 40 % 32)

/-- Is a line pod memory of another device or tray (10 R179): kind 1. Kind 1 with this device's own slot is its own HBM, and
a walk gives it as kind 0 (log 64). -/
def isPod (line : Nat) : Bool := line / 2 ^ 49 == 1
/-- The slot that exports a pod line. -/
def podSlot (line : Nat) : Nat := line / 2 ^ 39 % 1024

/-- a precedes b among Lamport stamps compared modulo 2^48 (12 R223). -/
def precedes (a b : BitVec 48) : Bool := let d := (b - a).toNat; decide (1 ≤ d) && decide (d < 2 ^ 47)

/-- The transient states of a cache (13 R240). -/
def CacheState.moving : CacheState → Bool
  | .IS | .IM | .SM | .OM | .ID | .MI | .EI | .II => true
  | _ => false
/-- The states in which a cache reads its copy (13 R231). -/
def CacheState.readable : CacheState → Bool
  | .S | .E | .M | .O => true
  | _ => false
/-- Is a home state one of the busy ones (13 R233). -/
def HomeState.busy : HomeState → Bool
  | .BInv | .BFwd | .BMrg => true
  | _ => false

/-- What an access needs of its line: to read it, to own it for a write, to hold it in drift under a tag, or that the home
performs it on the only copy (13 R239). -/
inductive Need where
  | read | write | drift (t : DTag) | home
  deriving DecidableEq, Repr

/-- The unit that a record comes from (17 R305): its class, its index, its die. -/
abbrev Source := Nat × Nat × Nat
/-- The home slice of a line as a source; a line of another device is reached through a scale-up port, which one is open (15
R276). -/
def lineSrc (n line : Nat) : Source :=
  if isPod line then (0x0A, Config.choose n % 72, 0) else (0x07, homeSlice line % 16, homeSlice line / 16)
/-- The unit that gives an error response of a kind at a line (17 R306): the memory controller of a stack that is not ready, which one is
open (log 19), else the line's home or the port towards it. DESIGN CHOICE (log 19): whether the home or the memory controller answers for
poisoned data is free. Unsafe. -/
def errSource (n kind line : Nat) : Source :=
  if ¬isPod line ∧ (kind = 4 ∨ (kind = 1 ∧ Config.choose n / 128 % 2 = 1)) then (0x09, Config.stackOf line % 32, Config.stackOf line % 32 / 2) else lineSrc n line
/-- The port through which a die reaches another device: a scale-up port, which one is open, or its own scale-out port. -/
def portSrc (n die scope : Nat) : Source := if scope = 2 then (0x0B, die, die) else (0x0A, Config.choose n % 72, 0)

namespace State

/-! ## Readiness (01 R20, 15 R282) -/

/-- Readiness of function i. -/
def ready (s : State) (i : Nat) : Bool := let r := Store.get 0 s.readiness i; r == 2#4 || r == 3#4
/-- Can the HBM of a line serve it: every stack is ready, or the line's own, which of the 32 it is being open (log 19), and its
home slice's die is. -/
def hbmReady (s : State) (line : Nat) : Bool :=
  ((List.range 32).all (fun n => s.ready (0x10 + n)) || s.ready (0x10 + Config.stackOf line % 32)) && s.ready (homeSlice line / 16)

/-- HBM of this device that cannot serve a line now (01 R20); other memory is not this device's HBM. -/
def hbmDown (s : State) (line : Nat) : Bool := line / 2 ^ 49 == 0 && !s.hbmReady line

/-- Are the sources of a paddock stopped by back-pressure of a ready sink (17 R307, R311). -/
def sourceStopped (s : State) (pkn : Nat) : Bool :=
  s.sink.any (fun e => e.2.enable && e.2.stalling && !e.2.provider && e.2.paddock == pkn && s.ready (0x1100 + e.1))
/-- Do the device timers of a paddock stand still: in the icehouse (18 R331), and in a lossless stall (17 R313). -/
def timersHeld (s : State) (pkn : Nat) : Bool := !(s.pk pkn).resident || s.sourceStopped pkn
/-- Does a paddock leave its cores (18 R330). -/
def leaving (s : State) (pkn : Nat) : Bool := s.swap.any (fun x => decide (x.1 = some pkn))

/-! ## Directory and caches -/

/-- The directory entry of a line. -/
def dirAt (s : State) (line : Nat) : DirEntry := Store.get DirEntry.idle s.dir line
/-- The home's drift lines in the order of their last change (13 R242), when the entry of a line becomes d; other tells that the other
directory has the line in drift. -/
def driftOrderWith (order : List Nat) (line : Nat) (o d : DirEntry) (other : Bool) : List Nat :=
  let rest := order.filter (fun n => n != line)
  if d.state = .D ∧ (o.state ≠ .D ∨ o.tag ≠ d.tag ∨ o.accs ≠ d.accs) then rest ++ [line]
  else if d.state = .D ∨ d.state = .BMrg ∨ other then order else rest
/-- Write the directory entry of a line. -/
def setDir (s : State) (line : Nat) (d : DirEntry) : State :=
  { s with dir := Store.set DirEntry.idle s.dir line d
           driftOrder := driftOrderWith s.driftOrder line (s.dirAt line) d ((Store.get DirEntry.idle s.pod line).state == .D) }
/-- The entry of a line becomes idle, or poisoned; the requests and notices that wait there stay. -/
def freeDir (s : State) (line : Nat) (st : HomeState) : State :=
  s.setDir line { DirEntry.idle with state := st, queue := (s.dirAt line).queue, held := (s.dirAt line).held }
/-- Key of a core's copy of a line. -/
def cacheKey (core line : Nat) : Nat := core * 2 ^ 53 + line
/-- A core's copy of a line. -/
def cacheAt (s : State) (core line : Nat) : CacheLine := Store.get CacheLine.none s.cache (cacheKey core line)
/-- Write a core's copy of a line. -/
def setCache (s : State) (core line : Nat) (c : CacheLine) : State :=
  { s with cache := Store.set CacheLine.none s.cache (cacheKey core line) c }
/-- Every core's copy of a line. -/
def copiesOf (s : State) (line : Nat) : List (Nat × CacheLine) :=
  (s.cache.filter (fun e => e.1 % 2 ^ 53 == line)).map (fun e => (e.1 / 2 ^ 53, e.2))
/-- Take every core's copy of a line away. -/
def dropCopies (s : State) (line : Nat) : State :=
  { s with cache := s.cache.filter (fun e => e.1 % 2 ^ 53 != line) }
/-- Every core gives its copy of a line up: what a core waits for still comes, into a line without data (13 R240). -/
def outCopies (s : State) (line : Nat) : State :=
  { s with cache := s.cache.filterMap (fun e =>
      if e.1 % 2 ^ 53 != line then some e
      else match e.2.state with
        | .IS | .IM | .ID | .MI | .EI | .II => some e
        | .SM | .OM => some (e.1, { e.2 with state := .IM, haveData := false, haveGrant := false })
        | _ => none) }
/-- Does a cache state own the line's data. -/
def owns (c : CacheLine) : Bool := [CacheState.E, .M, .O, .OM, .MI, .EI].contains c.state
/-- The core that owns a line's data, with its copy. -/
def ownerOf (s : State) (line : Nat) : Option (Nat × CacheLine) := (s.copiesOf line).find? (fun e => owns e.2)
/-- The coherent value of a line outside D: the owner's data, else the home's (13 R231). -/
def lineView (s : State) (line : Nat) : LineData :=
  match s.ownerOf line with
  | some (_, c) => c.data
  | none => s.memLine line
/-- A coherent read of n bytes that lie in one line. -/
def viewBytes (s : State) (pa n : Nat) : Nat := lineBytes (s.lineView (pa / 128)) (pa % 128) n

/-- A write to a line triggers every monitor armed on it (14 R264). -/
def trigger (s : State) (line : Nat) : State :=
  { s with wg := Store.mapVals Wg.none (fun _ w =>
      { w with span := Store.mapVals Span.fresh (fun _ sp =>
          match sp.mon with
          | some m => if m.line = line then { sp with mon := some { m with triggered := true } } else sp
          | none => sp) w.span }) s.wg }

/-- Is a pointer outside the cores: a Sahnan agent (13 R232). -/
def isAgent (p : BitVec 13) : Bool := decide (0x1000 ≤ p.toNat)
/-- Agents that the entry records as sharers or holders. -/
def DirEntry.agents (d : DirEntry) : List (BitVec 13) :=
  if d.coarse then (if d.vec.getLsbD 64 then (List.range 16).map (fun n => BitVec.ofNat 13 (0x1000 + n)) else [])
  else d.ptrs.filter isAgent
/-- Agents that must be asked before the line is the home's alone. -/
def outsideHolders (d : DirEntry) : List (BitVec 13) :=
  DirEntry.agents d ++ (if (d.state = .X ∨ d.state = .O) ∧ isAgent d.owner then [d.owner] else [])

/-- The Lamport clock of a line's home slice (12 R223, 13 R236): the greatest that it has heard of or performed. -/
def sliceClockAt (s : State) (line : Nat) : BitVec 48 := Store.get 0 s.sliceClock (homeSlice line)
/-- A home slice hears a clock. -/
def hearSlice (s : State) (line : Nat) (c : BitVec 48) : State :=
  if precedes (s.sliceClockAt line) c then { s with sliceClock := Store.set 0 s.sliceClock (homeSlice line) c } else s
/-- The header of a response of a home: it carries the slice's clock (12 R223). -/
def fromHome (s : State) (dst : BitVec 13) (line : Nat) : Hdr :=
  let h := homeSlice line
  { src := 0x1FFF, dst := dst, line := line, clock := s.sliceClockAt line
    stamp := s.sentStamp (h / 16) [srcKey 7 (h / 16) (h % 16), srcKey 8 (h / 16) (h % 16)] }
/-- The header of a message of a core. -/
def fromCore (s : State) (core : Nat) (dst : BitVec 13) (line : Nat) : Hdr :=
  { src := BitVec.ofNat 13 core, dst := dst, line := line, clock := Store.get 0 s.lamport core, stamp := s.coreStamp core }
/-- This device's slot as a pointer of the pod directory (13 R232). -/
def mySlot (s : State) : BitVec 13 := BitVec.ofNat 13 (32 * s.groupId + s.slotId)
/-- The node of another device's request: its slot and its packet's tag. -/
def peerNode (peer tag : Nat) : Nat × Nat := (0, 2 ^ 20 * (2 ^ 11 * tag + peer + 1))
/-- The slot of the device whose request a node stands for. -/
def nodePeer (e : Nat × Nat) : Option Nat := if e.1 = 0 ∧ 2 ^ 20 ≤ e.2 then some (e.2 / 2 ^ 20 % 2 ^ 11 - 1) else none
/-- The header of a message of the pod directory that this device sends for a line. -/
def fromPod (s : State) (dst : BitVec 13) (line : Nat) : Hdr := { s.fromHome dst line with src := s.mySlot, pod := true }

/-- The pod home of a line: the slot that exports it. -/
def podHome (s : State) (line : Nat) : BitVec 13 := if isPod line then BitVec.ofNat 13 (podSlot line) else s.mySlot
/-- A message sets out: to a core, a home slice or this device's own slot it travels, to an agent or another device it leaves the
device. -/
def send (s : State) (h : Hdr) (m : Msg) : State :=
  if (if h.pod then h.dst ≠ s.mySlot else isAgent h.dst && h.dst ≠ 0x1FFF#13) then { s with outbox := s.outbox ++ [.coh h m] }
  else { s with msgs := s.msgs ++ [(h, m)] }
/-- The header of a request that issue set q of a core makes: it names the paddock and the span's ordinal (17 R309). -/
def fromCoreFor (s : State) (core line : Nat) (q : Option SpanRef) : Hdr :=
  match q with
  | some r => { s.fromCore core 0x1FFF line with pk := some (s.wgAt r.g).paddock, ord := (s.spanAt r.g r.sp).lastStop }
  | none => s.fromCore core 0x1FFF line
/-- A message of a core to a line's home. -/
def toHome (s : State) (core line : Nat) (m : Msg) : State := s.send (s.fromCore core 0x1FFF line) m

/-- This device's holding of a pod line (13 R230); its data stand in memory under the line's physical address. -/
def proxyAt (s : State) (line : Nat) : CacheLine := Store.get CacheLine.none s.proxy line
/-- Write this device's holding of a pod line. -/
def setProxy (s : State) (line : Nat) (c : CacheLine) : State := { s with proxy := Store.set CacheLine.none s.proxy line c }
/-- The access for which the proxy asked its line has been performed (13 R240). -/
def gained (s : State) (line : Nat) : State :=
  if isPod line && (s.proxyAt line).owed then s.setProxy line { s.proxyAt line with owed := false } else s

/-- A core's clock is raised to a stamp that a message brings it (12 R223). -/
def hearClock (s : State) (core : Nat) (c : BitVec 48) : State :=
  if precedes (Store.get 0 s.lamport core) c then { s with lamport := Store.set 0 s.lamport core c } else s
/-- A transaction that completes in one step answers the core: the home hears the core's clock, and the core's is raised by the home's
response and by the clock of the core that supplied the data (12 R223). -/
def answered (s : State) (core line : Nat) (giver : Option Nat) : State :=
  let s0 := match giver with
    | some o => s.hearSlice line (Store.get 0 s.lamport o)
    | none => s
  let s1 := s0.hearSlice line (Store.get 0 s.lamport core)
  (s1.hearClock core (s1.sliceClockAt line)).gained line
/-- The same for whoever asked: a core hears the home, the machine itself has no clock. -/
def answeredTo (s : State) (p : BitVec 13) (line : Nat) : State := if p.toNat < 4096 then s.answered p.toNat line none else s.gained line

/-- Quadrant of a core (01 R10). -/
def quadrant (core : Nat) : Nat := 8 * (core / 64 / 8) + core % 64 / 8
/-- The bit that a party sets in a coarse vector (13 R234). -/
def coarseBit (p : BitVec 13) : BitVec 65 :=
  if isAgent p then BitVec.twoPow 65 64 else BitVec.twoPow 65 (quadrant p.toNat)

/-- Record one more sharer or drift holder (13 R234): a pointer, or its bit once five parties have arrived. -/
def addParty (d : DirEntry) (p : BitVec 13) : DirEntry :=
  if d.coarse then { d with vec := d.vec ||| coarseBit p }
  else if d.ptrs.contains p then d
  else if d.ptrs.length < 4 then { d with ptrs := d.ptrs ++ [p] }
  else { d with coarse := true, ptrs := [], vec := (d.ptrs ++ [p]).foldl (fun v q => v ||| coarseBit q) 0 }

/-- Is the party recorded as lost (13 R247). -/
def isLost (s : State) (p : BitVec 13) : Bool := s.lost.any (fun q => decide (partyPtr q = some p))
/-- The members of an entry's sharer set (13 R235): the pointed parties, or all cores of each set quadrant and all
agents when the host bit is set. -/
def members (d : DirEntry) : List (BitVec 13) :=
  if d.coarse then
    ((List.range 4096).filter (fun c => d.vec.getLsbD (quadrant c))).map (BitVec.ofNat 13) ++ DirEntry.agents d
  else d.ptrs

/-! ## Entries of the error log (15 R281) -/

/-- The error-log words of an entry. -/
def errWord (s : State) (pkn : Nat) (addr : Dword) (rank : Option (BitVec 22)) (requester : Nat) (code kind : Nat)
    (ordinal : BitVec 20) : Nat :=
  (s.time - (s.pk pkn).cfg.traceEpoch).toNat * 2 ^ 192 + addr.toNat * 2 ^ 128 + ((rank.getD 0).toNat) * 2 ^ 106
    + requester % 8192 * 2 ^ 93 + (if rank.isSome then 2 ^ 92 else 0) + (code * 256 + kind) * 2 ^ 64 + ordinal.toNat * 2 ^ 44

/-- The pod entry of a line of this device (13 R232). -/
def podAt (s : State) (line : Nat) : DirEntry := Store.get DirEntry.idle s.pod line
/-- Write a pod entry. -/
def setPod (s : State) (line : Nat) (d : DirEntry) : State :=
  { s with pod := Store.set DirEntry.idle s.pod line d
           driftOrder := driftOrderWith s.driftOrder line (s.podAt line) d ((s.dirAt line).state == .D) }

/-- Nobody holds the line and nothing travels for it. -/
def lineIdle (s : State) (line : Nat) : Bool :=
  decide (s.dirAt line = DirEntry.idle) && (s.copiesOf line).isEmpty && !(s.msgs.any (fun m => m.1.line == line)) &&
    decide (s.podAt line = DirEntry.idle) && !isPod line

/-- An entry of the paddock's error log (15 R281): written at the head, or counted as lost when the ring is full, or when the HBM
that holds it is not ready (01 R20; log 14). A ring line that someone holds takes the entry when it is free. -/
def logError (s : State) (pkn : Nat) (addr : Dword) (rank : Option (BitVec 22)) (requester : Nat) (code kind : Nat)
    (ordinal : BitVec 20) : State :=
  let p := s.pk pkn
  if (p.errHead - p.errTail).toNat = Config.errRing ∨ s.hbmDown ((p.cfg.errBase + 32 * (p.errHead.toNat % 4096)) / 128) then
    s.updPk pkn (fun p => { p with errLost := satInc p.errLost })
  else
    let a := p.cfg.errBase + 32 * (p.errHead.toNat % 4096)
    let w := s.errWord pkn addr rank requester code kind ordinal
    (if s.late.isEmpty && s.lineIdle (a / 128) then (s.setBytes a 32 w).trigger (a / 128)
     else { s with late := s.late ++ [⟨a, 32, 0, w, false⟩] }).updPk pkn (fun p => { p with errHead := p.errHead + 1 })

/-- Log an event at a line: in the log of the paddock whose instruction asked for it, or, where none did, in every valid
paddock's (log 30). -/
def logLine (s : State) (line : Nat) (p : BitVec 13) (kind : Nat) (pk : Option Nat) : State :=
  (s.paddock.filter (fun e => e.2.cfg.valid && pk.all (fun n => n == e.1))).foldl (fun a e =>
    a.logError e.1 (BitVec.ofNat 64 (128 * line)) none p.toNat 9 kind 0xFFFFF) s

/-! ## Merges and copies out (13 R239, R243) -/

/-- The exact sum of a drift line at its home: what the home holds and every core's partial. -/
def driftSum (s : State) (line : Nat) : Store Acc :=
  let d := s.dirAt line
  (s.copiesOf line).foldl (fun a e => if e.2.state = .D then addAccs d.tag a e.2.accs else a) d.accs

/-- A message of this device to another party of the pod directory. -/
def toPod (s : State) (dst : BitVec 13) (line : Nat) (m : Msg) : State := s.send (s.fromPod dst line) m
/-- A pod line in drift leaves this device (13 R246): its pod home gets one DrPart with the exact sum of the cores' partials, without
rounding, or an error where a partial is lost (13 R247). n is the reply count. -/
def proxyMerge (s : State) (line n : Nat) : State :=
  let d := s.dirAt line
  (((s.outCopies line).freeDir line .I).setProxy line CacheLine.none).toPod (s.podHome line) line
    (if d.lostHolder then .err false else .drPart d.tag (s.driftSum line) n)
/-- A line is poisoned (13 R233): its entry enters P, and a write to it is seen (14 R264). Of another device's line the pod home is told,
with an error response: it is the line's home that enters P (11 R188). -/
def enterP (s : State) (line : Nat) : State :=
  if isPod line then (((s.dropCopies line).freeDir line .I).setProxy line CacheLine.none).trigger line |>.toPod (s.podHome line) line (.err false)
  else ((s.dropCopies line).freeDir line .P).trigger line

/-- This device's own drift period of a line of its own joins that of its peers, which then holds the base and every partial (13 R246). -/
def joinPod (s : State) (line : Nat) : State :=
  let d := s.dirAt line
  let p := s.podAt line
  ((s.outCopies line).freeDir line .I).setPod line
    { p with accs := addAccs d.tag p.accs (s.driftSum line), lostHolder := p.lostHolder || d.lostHolder }

/-- Merge a drift line (13 R243) for the paddock pk, if an instruction asked: every core's partial is added exactly, each element
takes its value, the 128 bytes are written, the home enters I; with a lost holder the line is poisoned (13 R247), which
triggers monitors as a write does (14 R264). A pod line's sum goes to its pod home, and where peers hold the line in drift as well the sum
joins theirs. Values that a cinv.discard drops are written nowhere (11 R203). -/
def mergeHome (s : State) (line : Nat) (pk : Option Nat) : State :=
  let d := s.dirAt line
  if isPod line then s.proxyMerge line 0
  else if (s.podAt line).state = .D ∨ (s.podAt line).state = .BMrg then s.joinPod line
  else if d.drop then (s.outCopies line).freeDir line .I
  else if d.lostHolder then
    let gone := (members d).find? (fun p => s.isLost p)
    (((s.outCopies line).freeDir line .P).trigger line).logLine line (gone.getD 0) (if gone.isSome then 3 else 1) pk
  else (((s.outCopies line).setMemLine line (accsLine d.tag (s.driftSum line))).freeDir line .I).trigger line

/-- This device's copy of a pod line is dirty once it has been changed (13 R231). -/
def soil (s : State) (line : Nat) : State :=
  if isPod line then s.setProxy line { s.proxyAt line with state := .M } else s

/-- Copies out (13 R239): the owner's dirty data return to the home, every copy goes, a drift line is merged. Only cores
hold the line. -/
def copiesOut (s : State) (line : Nat) (pk : Option Nat) : State :=
  let d := s.dirAt line
  if d.state = .D then s.mergeHome line pk
  else
    let s1 := match s.ownerOf line with
      | some (_, c) => if c.state = CacheState.E ∨ c.state = CacheState.EI then s else (s.setMemLine line c.data).soil line
      | none => s
    (s1.outCopies line).freeDir line .I
/-- A line is taken back from this device's own parties, for nobody of them (13 R239: copies out): its owner is recalled, sharers are
invalidated, a drift line is merged. With the last reply the entry is idle. -/
def takeIn (s : State) (line : Nat) : State :=
  let d := s.dirAt line
  let own := d.state = .X ∨ d.state = .O
  let ps := (members d).filter (fun p => !s.isLost p)
  let d' : DirEntry := { d with state := if d.state = .D then .BMrg else .BInv, acks := ps.length + (if own then 1 else 0), serving := none
                                requester := 0, fwdTo := if own then some d.owner else none, replied := [], before := d.state
                                lostHolder := d.lostHolder || (d.state == .D && (members d).any s.isLost) }
  if d.state.busy ∨ d.state = .I ∨ d.state = .P then s
  else if ps = [] ∧ ¬own then (if d.state = .D then (s.setDir line d').mergeHome line none else s.freeDir line .I)
  else
    let s1 := ps.foldl (fun a p => a.send (a.fromHome p line) (if d.state = .D then .merge else .inv)) (s.setDir line d')
    if own then s1.send (s1.fromHome d.owner line) .recall else s1

/-! ## The pod directory (13 R230, R232, R246) -/

/-- Does this device hold a line as an access needs it: a pod line through its proxy, a line of its own against its peers. -/
def podOk (s : State) (line : Nat) (n : Need) : Bool :=
  let c := s.proxyAt line
  let d := s.podAt line
  if isPod line then
    match n with
    | .read => c.state.readable
    | .write | .home => c.state == .E || c.state == .M
    | .drift t => c.state == .D && c.tag == t
  else
    match n with
    | .read => d.state == .I || d.state == .S
    | .write | .home => d.state == .I
    | .drift t => d.state == .I || (d.state == .D && d.tag == t)

/-- The members of a pod entry (13 R235): the pointed slots, or the 32 slots of every set group. -/
def podMembers (d : DirEntry) : List (BitVec 13) :=
  if d.coarse then ((List.range 1024).filter (fun n => d.vec.getLsbD (n / 32))).map (BitVec.ofNat 13) else d.ptrs
/-- Is a slot of the pod recorded as lost (13 R247). -/
def slotLost (s : State) (p : BitVec 13) : Bool := s.lost.any (fun q => decide (q = .device p.toNat))
/-- Record one more sharer or drift holder in a pod entry (13 R232, R234). -/
def addSlot (d : DirEntry) (p : BitVec 13) : DirEntry :=
  let bit (q : BitVec 13) : BitVec 65 := BitVec.twoPow 65 (q.toNat / 32)
  if d.coarse then { d with vec := d.vec ||| bit p }
  else if d.ptrs.contains p then d
  else if d.ptrs.length < 4 then { d with ptrs := d.ptrs ++ [p] }
  else { d with coarse := true, ptrs := [], vec := (d.ptrs ++ [p]).foldl (fun v q => v ||| bit q) 0 }

/-- Is a line reserved at its home for a party whose access the home has made room for: every copy is out, and the party's
access is the next one (13 R245). -/
def reservedFor (s : State) (p : BitVec 13) (line : Nat) : Bool :=
  let d := s.dirAt line
  d.state == .BInv && d.acks == 0 && (match d.serving with
    | some (h, .recall) => h.src == p
    | _ => false)
/-- Is a message a request that its home has not taken yet. -/
def isRequest (h : Hdr) (m : Msg) : Bool :=
  match m with
  | .getS | .getX | .upg | .drGet _ | .amo _ | .wrLine _ | .redOp _ _ => true
  | .recall => h.dst == 0x1FFF#13
  | _ => false
/-- Can this device's cores give a line up at once toward the pod: nothing but requests travels for it, and no agent holds it. -/
def localReady (s : State) (line : Nat) : Bool :=
  !(s.dirAt line).state.busy && (outsideHolders (s.dirAt line)).isEmpty && (s.dirAt line).held.isEmpty &&
    s.msgs.all (fun m => m.1.line != line || m.1.pod || isRequest m.1 m.2) &&
    (s.copiesOf line).all (fun e => e.2.state != .MI && e.2.state != .EI && e.2.state != .II)
/-- Has a party a request for room at the line's home under way. -/
def asking (s : State) (p : BitVec 13) (line : Nat) : Bool :=
  s.msgs.any (fun m => m.1.src == p && m.1.line == line && m.2 == .recall) ||
    ((s.dirAt line).queue ++ ((s.dirAt line).serving.map (fun x => [x])).getD []).any (fun e => e.1.src == p && e.2 == .recall)
/-- Ask a line's home for room for an access that changes its bytes there: for a core, or for the machine itself (0x1FFF). -/
def askRoom (s : State) (p : BitVec 13) (line : Nat) : State :=
  if s.asking p line then s
  else s.send (if p = 0x1FFF#13 then s.fromHome 0x1FFF line else s.fromCore p.toNat 0x1FFF line) .recall

/-- This device's proxy leaves a pod line (13 R240): silently from S, with a notice from E, M and O, with the exact sum of its cores'
partials from D (13 R246). The copies of its cores go first, once they can; n is the reply count of a DrPart. -/
def leaveProxy (s : State) (line n : Nat) : State :=
  let c := s.proxyAt line
  let home := s.podHome line
  let put (a : State) (st : CacheState) (m : Msg) : State := (a.setProxy line { c with state := st }).toPod home line m
  if !s.localReady line then s.takeIn line else
  match c.state with
  | .D => s.proxyMerge line n
  | .S => (s.copiesOut line none).setProxy line CacheLine.none
  | .E =>
    let a := s.copiesOut line none
    if (a.proxyAt line).state = .M then put a .MI (.putM (a.memLine line)) else put a .EI .putE
  | .M => let a := s.copiesOut line none; put a .MI (.putM (a.memLine line))
  | .O => let a := s.copiesOut line none; put a .MI (.putO (a.memLine line))
  | _ => s

/-- Is the line in drift at its home: among this device's parties, or among its peers (13 R244). -/
def inDrift (s : State) (line : Nat) : Bool := (s.dirAt line).state == .D || (s.podAt line).state == .D

/-- A merge of the pod directory is complete (13 R243, R246): the peers' sum joins this device's own drift period, or becomes the line's
data; with a lost holder the line is poisoned (13 R247), and values that are to be dropped are written nowhere (11 R203). -/
def podMerge (s : State) (line : Nat) (pk : Option Nat) : State :=
  let d := s.podAt line
  let own := s.dirAt line
  let s1 := s.setPod line DirEntry.idle
  if d.lostHolder then
    let gone := (podMembers d).find? (fun p => s.slotLost p)
    (((s1.outCopies line).freeDir line .P).trigger line).logLine line (gone.getD 0) (if gone.isSome then 3 else 1) pk
  else if d.drop then s1
  else if own.state = .D ∨ own.state = .BMrg then s1.setDir line { own with accs := addAccs d.tag own.accs d.accs }
  else (s1.setMemLine line (accsLine d.tag d.accs)).trigger line

/-- The number by which a unit of an operation knows the request for a line that it has sent. -/
def sentTag (req line : Nat) : Nat := 2 ^ 62 + req * 2 ^ 53 + line
/-- Has a core of this device, or any for a line of another device, a request for a line under way that the home performs: no copy is asked
for before its answer has come, so that none outlives it. -/
def sentOut (s : State) (core line : Nat) : Bool :=
  s.wg.any (fun e => (isPod line || e.2.core == core) && e.2.span.any (fun q => q.2.memWait.any (fun w =>
    w.sent.any (fun x => x.line == line && x.req != 0 && x.resp.isNone)))) ||
  s.async.any (fun a => (isPod line || a.core == core) && a.units.any (fun u => u.st == .pending && (u.sent.any (fun t =>
    decide (2 ^ 62 ≤ t) && t % 2 ^ 53 == line))))

/-- What this device asks of the pod so that an access may be performed: its proxy asks the pod home of a pod line (13 R240); as
the pod home of its own line it takes the line back from the peers that hold it, itself an implicit party (log 65). -/
def podAsk (s : State) (line : Nat) (n : Need) : State :=
  let c := s.proxyAt line
  let d := s.podAt line
  let ask (st : CacheState) (m : Msg) : State :=
    if s.sentOut 0 line then s else (s.setProxy line { c with state := st, tag := match n with
      | .drift t => t
      | _ => c.tag }).toPod (s.podHome line) line m
  if isPod line then
    match c.state, n with
    | .I, .read => ask .IS .getS
    | .I, .drift t => ask .ID (.drGet t)
    | .I, _ => ask .IM .getX
    | .S, .drift _ => s.leaveProxy line 0
    | .S, _ => ask .SM .upg
    | .O, .drift _ => s.leaveProxy line 0
    | .O, _ => ask .OM .upg
    | .E, .drift _ => s.leaveProxy line 0
    | .M, .drift _ => s.leaveProxy line 0
    | .D, _ => s.leaveProxy line 0
    | _, _ => s
  else if d.state.busy then s
  else
    let own := d.state = .X ∨ d.state = .O
    let ps := (podMembers d).filter (fun p => !(s.slotLost p) && (d.state == .D || p != s.mySlot))
    let d' : DirEntry := { d with state := if d.state = .D then .BMrg else .BInv, acks := ps.length + (if own then 1 else 0)
                                  serving := none, fwdTo := if own then some d.owner else none, replied := [], before := d.state
                                  lostHolder := d.lostHolder || (d.state == .D && (podMembers d).any s.slotLost) }
    if ps = [] ∧ ¬own then (if d.state = .D then (s.setPod line d').podMerge line none else s.setPod line DirEntry.idle)
    else
      let s1 := ps.foldl (fun a p => a.toPod p line (if d.state = .D then .merge else .inv)) (s.setPod line d')
      if own then s1.toPod d.owner line .recall else s1

/-! ## The home as an access meets it (13 R239) -/

/-- The home slice alone as a request meets it: poisoned, busy or with requests waiting, held by agents, on the way, or quiet. -/
def quietHere (s : State) (line : Nat) : HomeAns :=
  let d := s.dirAt line
  match d.state with
  | .P => .err
  | .BInv => .wait s
  | .BFwd => .wait s
  | .BMrg => .wait s
  | _ => if outsideHolders d ≠ [] ∨ d.queue ≠ [] ∨ d.held ≠ [] ∨ (s.copiesOf line).any (fun e => e.2.state.moving) ∨
            s.msgs.any (fun m => m.1.line == line && !m.1.pod)
         then .wait s else .ok s
/-- Has the pod home of a line answered this device's request with an error that no access has met yet (13 R239). -/
def podFailed (s : State) (line : Nat) : Bool := isPod line && (s.proxyAt line).failed.isSome
/-- The home as an access with a need meets it: in this device, and toward the pod. -/
def quietFor (s : State) (line : Nat) (n : Need) : HomeAns :=
  match s.quietHere line with
  | .ok _ => if s.podFailed line then .err else if s.podOk line n then .ok s else .wait s
  | x => x
/-- The home is quiet for any access. -/
def quiet (s : State) (line : Nat) : HomeAns := s.quietFor line .write
/-- The home is quiet for the bytes of a line to change there, or reserved for the party p whose access changes them. -/
def quietHome (s : State) (line : Nat) (p : BitVec 13) : HomeAns :=
  if s.reservedFor p line then (if s.podFailed line then .err else if s.podOk line .home then .ok s else .wait s)
  else s.quietFor line .home

/-- A core's drift partials of a line leave for its home with a reply count (13 R243). -/
def sendParts (s : State) (core line n : Nat) : State :=
  let c := s.cacheAt core line
  if c.state = .D then (s.setCache core line CacheLine.none).toHome core line (.drPart c.tag c.accs n)
  else s.toHome core line (.drPart c.tag [] n)

/-- A core's cache gives up a line (13 R231, R240): silently from S, with a notice from E, M and O, with its partials from D. -/
def evictLine (s : State) (core line : Nat) : State :=
  let c := s.cacheAt core line
  let a := s.count core 25 1
  match c.state with
  | .S => a.setCache core line CacheLine.none
  | .E => (a.setCache core line { c with state := .EI }).toHome core line .putE
  | .M => ((a.count core 26 1).setCache core line { c with state := .MI }).toHome core line (.putM c.data)
  | .O => ((a.count core 26 1).setCache core line { c with state := .MI }).toHome core line (.putO c.data)
  | .D => s.sendParts core line 0
  | _ => s

/-- What an access that is performed at a line's home for a party, and must wait, asks for. -/
def askHome (s : State) (p : BitVec 13) (line : Nat) (n : Need) : State :=
  match s.quietHere line with
  | .err => s
  | .ok _ => if s.podOk line n then s else s.podAsk line n
  | .wait _ => if !s.reservedFor p line then s.askRoom p line else if s.podOk line n then s else s.podAsk line n

/-- Lines of a core's L1 and of its drift buffer (01 R9, 13 R242). -/
def l1Lines (s : State) (core : Nat) : Nat :=
  (s.cache.filter (fun e => e.1 / 2 ^ 53 == core && !(e.2.state == .D || e.2.state == .ID))).length
def driftHeld (s : State) (core : Nat) : Nat :=
  (s.cache.filter (fun e => e.1 / 2 ^ 53 == core && (e.2.state == .D || e.2.state == .ID))).length
/-- Has the core room for one more line: an access that finds none waits for an eviction. -/
def l1Full (s : State) (core : Nat) : Bool := decide (Config.l1Lines ≤ s.l1Lines core)
def driftFull (s : State) (core : Nat) : Bool := decide (Config.driftPerCore ≤ s.driftHeld core)

/-- Lines homed in this device that are in D, or will be when the request that is served there has been (13 R242). -/
def driftLines (s : State) : Nat :=
  let d (e : DirEntry) : Bool := e.state == .D || e.state == .BMrg || (e.state == .BInv && (match e.serving with
    | some (_, .drGet _) => true
    | _ => false))
  (s.dir.filter (fun e => !isPod e.1 && d e.2)).length + (s.pod.filter (fun e => d e.2 && !d (s.dirAt e.1))).length
/-- Lines in a slice's home drift buffer: those in drift that have no image in the spill area (13 R242). -/
def driftIn (s : State) (slice : Nat) : List Nat :=
  s.driftOrder.filter (fun n => homeSlice n == slice && !s.spilled.any (fun e => e.1 == n))
/-- Lines that will enter a slice's drift buffer when the request that is served there has been. -/
def driftComing (s : State) (slice : Nat) : Nat :=
  ((s.dir ++ s.pod).filter (fun e => homeSlice e.1 == slice && e.2.state == .BInv && (match e.2.serving with
    | some (_, .drGet _) => true
    | _ => false))).length
/-- Can one line more enter D (13 R242): the home drift buffers and the spill area together hold it, and its slice's buffer has a line
free, which a spill makes. -/
def driftRoom (s : State) (line : Nat) : Bool :=
  (isPod line || decide (s.driftLines < 256 * Config.driftPerSlice + Config.driftSpill)) &&
    decide ((s.driftIn (homeSlice line)).length + s.driftComing (homeSlice line) < Config.driftPerSlice)

/-- Ask the pod for a line for the load of issue set q, if it is a load. -/
def podAskFor (s : State) (line : Nat) (n : Need) (q : Option SpanRef) : State :=
  let a := s.podAsk line n
  if isPod line ∧ (s.proxyAt line).state = .I ∧ (a.proxyAt line).state = .IS then a.setProxy line { a.proxyAt line with asker := q } else a
/-- What a core's access that must wait asks for (13 R239, R240): the request for its line, which the home takes in its turn, once the
core has room for the line; a line held in drift, or held while it is to enter drift, goes back first. q is the issue set that asks. -/
def ask (s : State) (core line : Nat) (n : Need) (q : Option SpanRef) : State :=
  let c := s.cacheAt core line
  let full : Bool := c.state == .I && (match n with
    | .drift _ => s.driftFull core
    | _ => s.l1Full core)
  let req (st : CacheState) (m : Msg) : State :=
    if full || s.sentOut core line then s
    else (s.setCache core line { c with state := st, asker := q, failed := none, tag := match n with
      | .drift t => t
      | _ => c.tag }).send (s.fromCoreFor core line q) m
  match s.quietHere line with
  | .err => s
  | .ok _ =>
    if !s.podOk line n then s.podAskFor line n q
    else
      match c.state, n with
      | .I, .drift t => if (s.dirAt line).state ≠ .D ∧ !s.driftRoom line then req .ID (.drGet t) else s
      | .S, .drift _ | .E, .drift _ | .M, .drift _ | .O, .drift _ => if s.driftRoom line then s else s.evictLine core line
      | _, _ => s
  | .wait _ =>
    match c.state, n with
    | .I, .read => req .IS .getS
    | .I, .write => req .IM .getX
    | .I, .drift t => req .ID (.drGet t)
    | .S, .write => req .SM .upg
    | .O, .write => req .OM .upg
    | .S, .drift _ | .E, .drift _ | .M, .drift _ | .O, .drift _ => s.evictLine core line
    | .D, .drift _ | .D, .read | .D, .write => s.sendParts core line 0
    | _, .home => s.askHome (BitVec.ofNat 13 core) line .home
    | _, _ => s

/-- Add virtual tags to a copy (10 R178). -/
def CacheLine.addTags (c : CacheLine) (ts : List L1Tag) : CacheLine :=
  { c with tags := c.tags ++ ts.filter (fun t => !c.tags.contains t) }

/-- A fill that was invalidated on the way and has come: it serves the one load that requested it, of issue set q (12 R225). -/
def fillServes (c : CacheLine) (q : SpanRef) : Bool := c.state == .IS && c.fillDead && c.haveData && c.asker == some q

/-- A core's load of a line for issue set q (13 R239, R240 GetS): afterwards the core holds it in S, E, O or M, or, where its fill was
invalidated on the way, in its own L1 or at this device's proxy, the data of its one load are there (12 R225). -/
def loadLine (s : State) (core line : Nat) (tags : List L1Tag) (pk : Option Nat) (q : SpanRef) : HomeAns :=
  let c := s.cacheAt core line
  if c.state.readable then .ok (s.setCache core line (CacheLine.addTags c tags))
  else if fillServes c q ∨ (isPod line ∧ c.state = .I ∧ fillServes (s.proxyAt line) q) then .ok s
  else
    match s.quietFor line .read with
    | .err => .err
    | .wait s' => .wait s'
    | .ok _ =>
      if s.l1Full core then .wait s else
      let d := s.dirAt line
      let me := BitVec.ofNat 13 core
      let fill (st : CacheState) (x : LineData) : CacheLine := { CacheLine.none with state := st, data := x, tags := tags }
      match d.state with
      | .S => .ok (((s.setDir line (addParty d me)).setCache core line (fill .S (s.memLine line))).answered core line none)
      | .X =>
        match s.ownerOf line with
        | some (o, oc) =>
          let x := oc.data
          if oc.state = .M then
            .ok (((((s.setCache o line { oc with state := .O }).setDir line
              (addParty { d with state := .O } me)).setCache core line (fill .S x))).answered core line (some o))
          else
            .ok (((((s.setCache o line { oc with state := .S }).setDir line
              (addParty (addParty { DirEntry.idle with state := .S } (BitVec.ofNat 13 o)) me)).setCache core line (fill .S x))).answered
              core line (some o))
        | none => .ok (((s.setDir line { DirEntry.idle with state := .X, owner := me }).setCache core line
            (fill .E (s.memLine line))).answered core line none)
      | .O => .ok (((s.setDir line (addParty d me)).setCache core line (fill .S (s.lineView line))).answered core line
          ((s.ownerOf line).map Prod.fst))
      | .D =>
        let s1 := s.mergeHome line pk
        if (s1.dirAt line).state = .P then .err
        else .ok (((s1.setDir line { DirEntry.idle with state := .X, owner := me }).setCache core line
          (fill .E (s1.memLine line))).answered core line none)
      | _ =>
        if s.podOk line .write then
          .ok (((s.setDir line { DirEntry.idle with state := .X, owner := me }).setCache core line (fill .E (s.memLine line))).answered
            core line none)
        else
          .ok (((s.setDir line (addParty { DirEntry.idle with state := .S } me)).setCache core line (fill .S (s.memLine line))).answered
            core line none)

/-- A core's store to a line (13 R239, R240 GetX and Upg): afterwards the core holds it in M with the bytes changed by f. -/
def storeLine (s : State) (core line : Nat) (tags : List L1Tag) (pk : Option Nat) (f : LineData → LineData) : HomeAns :=
  let c := s.cacheAt core line
  if c.state = .M ∨ c.state = .E then
    .ok ((s.setCache core line { CacheLine.addTags c tags with state := .M, data := f c.data }).trigger line)
  else
    match s.quietFor line .write with
    | .err => .err
    | .wait s' => .wait s'
    | .ok _ =>
      if c.state = .I ∧ s.l1Full core then .wait s else
      let s1 := if (s.dirAt line).state = .D then s.mergeHome line pk else s
      if (s1.dirAt line).state = .P then .err else
      let x := s1.lineView line
      let me := BitVec.ofNat 13 core
      .ok (((((s1.dropCopies line).setDir line { DirEntry.idle with state := .X, owner := me }).setCache core line
        { CacheLine.none with state := .M, data := f x, tags := c.tags.filter (fun t => !tags.contains t) ++ tags }).trigger line).answered
          core line ((s.ownerOf line).map Prod.fst))

/-- The home is a line's alone: every copy is out, the entry is idle; requests that wait at a reserved line stay. -/
def roomAt (s : State) (line : Nat) (p : BitVec 13) (pk : Option Nat) : State :=
  if s.reservedFor p line then s.freeDir line .I else s.copiesOut line pk
/-- An access performed at the home on the line's bytes for a party (13 R239: Amo, RedOp, a store with .l2only): copies out first. -/
def homeLine (s : State) (p : BitVec 13) (line : Nat) (pk : Option Nat) (f : LineData → LineData) : HomeAns :=
  match s.quietHome line p with
  | .err => .err
  | .wait s' => .wait s'
  | .ok _ =>
    let s1 := s.roomAt line p pk
    if (s1.dirAt line).state = .P then .err
    else .ok ((((s1.setMemLine line (f (s1.memLine line))).soil line).trigger line).answeredTo p line)

/-- A whole-line write (11 R189, 13 R239 WrLine): performed in any quiet state, and it clears poison. For a line of another device it
goes to the pod home, as a message. -/
def wrLineHome (s : State) (p : BitVec 13) (line : Nat) (pk : Option Nat) (d : LineData) : HomeAns :=
  if isPod line then .wait s
  else if (s.dirAt line).state = .P then
    .ok (((((s.dropCopies line).setMemLine line d).freeDir line .I).trigger line).answeredTo p line)
  else s.homeLine p line pk (fun _ => d)

/-- The accumulators with which a line enters D at its home: its base; nothing at a proxy, or where the peers' drift period holds the
base already (13 R241, R246). -/
def entryAccs (s : State) (line : Nat) (t : DTag) : Store Acc :=
  if isPod line ∨ (s.podAt line).state = .D then [] else baseAccs t (s.memLine line)

/-- A core's drift reduction (13 R239 DrGet, R240, R241): contributions are added to the core's accumulators under the
tag; a line under another tag or in another state is made the home's first. -/
def dredLine (s : State) (core line : Nat) (t : DTag) (pk : Option Nat) (xs : List (Nat × Dword)) : HomeAns :=
  let add (m : Store Acc) : Store Acc :=
    xs.foldl (fun a e => Store.set 0 a e.1 (accAdd t (Store.get 0 a e.1) (accOf t e.2))) m
  let c := s.cacheAt core line
  if c.state = .D ∧ c.tag = t then .ok (s.setCache core line { c with accs := add c.accs })
  else
    match s.quietFor line (.drift t) with
    | .err => .err
    | .wait s' => .wait s'
    | .ok _ =>
      if c.state ≠ .D ∧ s.driftFull core then .wait s else
      let d := s.dirAt line
      let me := BitVec.ofNat 13 core
      let mine : CacheLine := { CacheLine.none with state := .D, tag := t, accs := add [] }
      if d.state = .D ∧ d.tag = t then .ok (((s.setDir line (addParty d me)).setCache core line mine).answered core line none)
      else if d.state ≠ .D ∧ !s.driftRoom line then .wait s
      else
        let s1 := s.copiesOut line pk
        if (s1.dirAt line).state = .P then .err
        else .ok (((s1.setDir line (addParty { DirEntry.idle with state := .D, tag := t, accs := s1.entryAccs line t } me)).setCache
          core line mine).answered core line ((s.ownerOf line).map Prod.fst))

/-- The bytes of a line after a write of the machine itself. -/
def lateOnto (w : LateWrite) (d : LineData) : LineData :=
  setLineBytes d (w.pa % 128) w.n (lineBytes d (w.pa % 128) w.n &&& w.keep ||| w.val)
/-- The same as the home makes it. A poisoned line takes none, but a ring line of a sink is written as WrLine does (13 R239, 17 R307): its
poison ends. DESIGN CHOICE (log 6): its other bytes are those of memory. Unsafe. -/
def lateHome (s : State) (w : LateWrite) : HomeAns :=
  match s.homeLine 0x1FFF (w.pa / 128) none (lateOnto w) with
  | .err => if w.ring && (s.dirAt (w.pa / 128)).state == .P then s.wrLineHome 0x1FFF (w.pa / 128) none (lateOnto w (s.memLine (w.pa / 128)))
      else .err
  | a => a
/-- A write of the machine itself, within one line (10 R176, 14 R252, 17 R307). A quiet home performs it; a line that someone holds
otherwise is asked for, and takes the write in its turn: these writes take effect in the order in which they were made. HBM that is not
ready refuses it (01 R20). -/
def homeWrite (s : State) (w : LateWrite) : State :=
  if s.hbmDown (w.pa / 128) then s else
  match (if !s.late.isEmpty then .wait s else s.lateHome w : HomeAns) with
  | .ok s' => s'
  | .wait _ => { s.askHome 0x1FFF (w.pa / 128) .home with late := s.late ++ [w] }
  | .err => s
/-- n bytes become (old and keep) or val: page-table bits, status words, samples. -/
def homeUpd (s : State) (pa n keep val : Nat) : State := s.homeWrite ⟨pa, n, keep, val, false⟩

/-! ## Translation (10 R175-R179) -/

/-- Kinds of access that a walk distinguishes (10 R177). -/
inductive Access where
  | read | write | fetch
  deriving DecidableEq, Repr

/-- What looking something up for an access gives: an answer, the code of a fault, an error response of a kind of 15 R281 at a line, or a
line that must be waited for. -/
inductive Look (α : Type) where
  | ok (x : α)
  | error (c : Byte)
  | fail (kind line : Nat)
  | wait (line : Nat)
  deriving DecidableEq, Repr

/-- Is the coherent value of a line at hand in this device: no agent owns it or adds to it, nothing travels for it, no peer owns it. -/
def atHand (s : State) (line : Nat) : Bool :=
  !s.late.any (fun w => w.pa / 128 == line) && ((s.reservedFor 0x1FFF line && s.podOk line .read) || (match s.quietFor line .read with
    | .wait _ => false
    | _ => true))
/-- The coherent value of a line at hand; a drift line reads as its merge would (11 R190). -/
def handView (s : State) (line : Nat) : LineData :=
  if (s.dirAt line).state = .D then accsLine (s.dirAt line).tag (s.driftSum line) else s.lineView line

/-- A coherent read of a page-table entry (22 R355); a line in P, and HBM that is not ready, answer with an error (01 R18, R20; log 68). -/
def readEntry (s : State) (pa : Nat) : Look Dword :=
  if s.hbmDown (pa / 128) then .fail 4 (pa / 128)
  else if (s.dirAt (pa / 128)).state = .P then .fail 1 (pa / 128)
  else if s.podFailed (pa / 128) then .fail (((s.proxyAt (pa / 128)).failed).getD 1) (pa / 128)
  else if s.atHand (pa / 128) then .ok (BitVec.ofNat 64 (lineBytes (s.handView (pa / 128)) (pa % 128) 8))
  else .wait (pa / 128)

/-- An access has met the pod home's error: the next one asks anew. -/
def clearFail (s : State) (line : Nat) : State :=
  if s.podFailed line then s.setProxy line { s.proxyAt line with failed := none } else s

/-- The page-table root of an ASID (15 R279). -/
def rootOf (s : State) (asid : Nat) : Option Nat :=
  (s.paddock.findSome? (fun e => if e.2.cfg.valid then (e.2.cfg.asids.find? (fun x => x.1 == asid)).map Prod.snd else none))
/-- The paddock that an ASID belongs to (15 R279). -/
def pkOfAsid (s : State) (asid : Nat) : Nat :=
  ((s.paddock.find? (fun e => e.2.cfg.valid && e.2.cfg.asids.any (fun x => x.1 == asid))).map Prod.fst).getD 0

/-- Reserved bits of an entry are zero (10 R176). -/
def entryOk (e : Dword) : Bool := e.getLsbD 0 && bits e 63 60 == 0 && bits e 11 9 == 0

/-- May an entry with these bits serve the access (10 R177). -/
def leafAllows (leaf : Dword) (acc : Access) (priv : Bool) : Bool :=
  (acc ≠ .write || leaf.getLsbD 2) && (acc ≠ .fetch || leaf.getLsbD 3) && (priv || leaf.getLsbD 6)

/-- The physical address under a leaf of 2^log2 bytes; this device's own slot of the pod is its own memory (log 64). -/
def leafPa (s : State) (leaf : Dword) (log2 va : Nat) : Nat :=
  let pa := (bits leaf 59 12 * 4096) / 2 ^ log2 * 2 ^ log2 + va % 2 ^ log2
  if pa / 2 ^ 56 = 1 ∧ pa / 2 ^ 46 % 1024 = 32 * s.groupId + s.slotId then pa % 2 ^ 46 else pa

/-- Is a frame's kind reserved, or an address of this device beyond its 2 TiB (10 R179, log 63). -/
def badFrame (leaf : Dword) : Bool := decide (2 < bits leaf 59 56) || (bits leaf 59 56 == 0 && bits leaf 55 41 != 0)

/-- The walk's entries (10 R175): the addresses of the entries read, and the leaf with its address and page size. The level-1
index is of 17 bits: an extent that runs past 2^48 goes on at the table's start (log 69). -/
def walkEntries (s : State) (root va : Nat) : List Nat × Look (Nat × Dword × Nat) :=
  let step (read : List Nat) (pa log2 : Nat) (next : Dword → List Nat × Look (Nat × Dword × Nat)) : List Nat × Look (Nat × Dword × Nat) :=
    match s.readEntry pa with
    | .error c => (read, .error c)
    | .fail k n => (read, .fail k n)
    | .wait n => (read, .wait n)
    | .ok e =>
      if !entryOk e || badFrame e then (read ++ [pa], .error 0x05)
      else if e.getLsbD 1 then (read ++ [pa], .ok (pa, e, log2))
      else next e
  let a1 := root + 8 * (va / 2 ^ 31 % 2 ^ 17)
  step [] a1 31 (fun e1 =>
    let a2 := bits e1 59 12 * 4096 + 8 * (va / 2 ^ 25 % 64)
    step [a1] a2 25 (fun e2 =>
      let a3 := bits e2 59 12 * 4096 + 8 * (va / 2 ^ 19 % 64)
      step [a1, a2] a3 19 (fun _ => ([a1, a2, a3], .error 0x05))))

/-- Set bits of a page-table entry with an atomic OR at its home, when they are not set yet (10 R176). -/
def orEntry (s : State) (pa : Nat) (m : Dword) : State :=
  match s.readEntry pa with
  | .ok e => if e &&& m = m then s else s.homeUpd pa 8 (2 ^ 64 - 1) m.toNat
  | _ => s

/-- A cached translation enters its die's cache of 8,192 entries (15_tables.md, before R273); which one a full cache replaces is free (log 66). -/
def tcAdd (s : State) (e : TcEntry) : List TcEntry :=
  let keep := s.tc.filter (fun x => !(x.die == e.die && x.asid == e.asid && x.vpage == e.vpage && x.log2 == e.log2))
  let mine := keep.filter (fun x => x.die == e.die)
  if mine.length < Config.tcEntries then keep ++ [e]
  else keep.filter (fun x => decide (mine[Config.tcVictim s.steps % mine.length]? ≠ some x)) ++ [e]

/-- Walk the tables (10 R175-R177, R179): A is set in every entry read, A and M together in a leaf written through, and the leaf enters
the die's translation cache. -/
def walk (s : State) (die asid va : Nat) (acc : Access) (priv : Bool) : State × Look Xlat :=
  match s.rootOf asid with
  | none => (s, .error 0x05)
  | some root =>
    let (read, leaf?) := s.walkEntries root va
    let seen (ps : List Nat) : State := ps.foldl (fun a pa => a.orEntry pa 0x80#64) s
    if badFrame (BitVec.ofNat 64 root) then (s, .error 0x05) else
    match leaf? with
    | .wait n => (s.askHome 0x1FFF n .read, .wait n)
    | .error c => (seen read, .error c)
    | .fail k n => ((seen read).clearFail n, .fail k n)
    | .ok (la, leaf, log2) =>
      if bits leaf 59 12 * 4096 % 2 ^ log2 ≠ 0 then (seen read, .error 0x05)
      else if !leafAllows leaf acc priv then (seen read, .error 0x06)
      else
        let m : Dword := if acc = .write then 0x180#64 else 0x80#64
        let s2 := (seen (read.filter (fun pa => pa != la))).orEntry la m
        ({ s2 with tc := s2.tcAdd ⟨die, asid, va / 2 ^ log2, log2, leaf ||| m, la⟩ },
          .ok ⟨s2.leafPa leaf log2 va, leaf.getLsbD 2, leaf.getLsbD 6, leaf.getLsbD 5⟩)

/-- The L1 line of a core under a virtual tag that may serve the access (10 R177, R178): a write is served from E and M alone. A
store to a line in S or O leaves L1 for its home, and is translated (log 52). -/
def l1Hit (s : State) (core asid va : Nat) (acc : Access) (priv : Bool) : Option Xlat :=
  let serves (t : L1Tag) : Bool := t.asid == asid && t.vline == va / 128 && (acc ≠ .write || t.w) && (priv || t.u)
  (s.cache.find? (fun e => e.1 / 2 ^ 53 == core && e.2.state.readable && (acc ≠ .write || e.2.state == .E || e.2.state == .M) &&
      e.2.tags.any serves)).bind
    (fun e => (e.2.tags.find? serves).map (fun t => ⟨128 * (e.1 % 2 ^ 53) + va % 128, t.w, t.u, false⟩))

/-- The translation cached for a die that allows an access (10 R177). -/
def tcHit (s : State) (die asid va : Nat) (acc : Access) (priv : Bool) : Option TcEntry :=
  s.tc.find? (fun e => e.die == die && e.asid == asid && e.vpage == va / 2 ^ e.log2 &&
    leafAllows e.leaf acc priv && (acc ≠ .write || e.leaf.getLsbD 8))
/-- Translate at the L2 boundary: by a cached translation, or a walk (10 R177). -/
def translateL2 (s : State) (die asid va : Nat) (acc : Access) (priv : Bool) : State × Look Xlat :=
  match s.tcHit die asid va acc priv with
  | some e => (s, .ok ⟨s.leafPa e.leaf e.log2 va, e.leaf.getLsbD 2, e.leaf.getLsbD 6, e.leaf.getLsbD 5⟩)
  | none => s.walk die asid va acc priv
/-- A translation that its die's cache does not hold is a miss of the core (16 R296). -/
def countMiss (s : State) (core asid va : Nat) (acc : Access) (priv : Bool) : State :=
  if (s.tcHit (dieOf core) asid va acc priv).isSome then s else s.count core 29 1
/-- Translate a local virtual address of a core's access: an L1 hit, or at the L2 boundary (10 R177). page asks for the leaf's own
bits, and is not served by L1. -/
def translate (s : State) (core asid va : Nat) (acc : Access) (priv page : Bool) : State × Look Xlat :=
  match (if page then none else s.l1Hit core asid va acc priv) with
  | some x => (s, .ok x)
  | none => (s.countMiss core asid va acc priv).translateL2 (dieOf core) asid va acc priv

/-! ## Ranks and windows (15 R273-R277, 10 R180) -/

/-- Where a rank lies (15 R273). -/
structure Place where
  pod : Nat
  group : Nat
  slot : Nat
  deriving DecidableEq, Repr

/-- Resolve a rank through the paddock's tables: exceptions, then ranges with the pod's maps (15 R273). -/
def resolveRank (s : State) (pkn r : Nat) : Option Place :=
  let p := s.pk pkn
  if p.cfg.job = 0 then none
  else
    match p.rankExc.find? (fun e => e.2.getLsbD 63 && bits e.2 21 0 == r) with
    | some (_, e) => some ⟨bits e 33 22, bits e 38 34, bits e 43 39⟩
    | none =>
      match p.rankRange.find? (fun e => e.2.getLsbD 127 && decide (bits e.2 21 0 ≤ r) &&
          decide (r < bits e.2 21 0 + bits e.2 44 22)) with
      | none => none
      | some (_, e) =>
        let rpp := bits e 66 57 + 1
        let pod := bits e 56 45 + (r - bits e 21 0) / rpp
        let q := (r - bits e 21 0) % rpp
        let m := Store.get 0 p.rankMap pod
        some ⟨pod, bits m (5 * (q / 32) + 4) (5 * (q / 32)), bits m (160 + 5 * (q % 32) + 4) (160 + 5 * (q % 32))⟩

/-- A cached resolution as a word: valid, pod, group, slot. -/
def Place.word (x : Place) : Dword := BitVec.ofNat 64 (2 ^ 63 + x.pod * 2 ^ 10 + x.group * 2 ^ 5 + x.slot)

/-- Resolve a rank for a core: by its die's cached resolution, which stands until tlbinv drops it (15 R272), or by the
tables, and the die keeps the answer. A miss fills nothing (15 R284). -/
def resolve (s : State) (core pkn r : Nat) : State × Option Place :=
  let k := dieOf core * 2 ^ 22 + r
  let w := Store.get 0 (s.pk pkn).rankCache k
  if (s.pk pkn).cfg.job = 0 then (s, none)
  else if w.getLsbD 63 then (s, some ⟨bits w 21 10, bits w 9 5, bits w 4 0⟩)
  else
    match s.resolveRank pkn r with
    | none => (s, none)
    | some x => (s.updPk pkn (fun p => { p with rankCache := Store.set 0 p.rankCache k (Place.word x) }), some x)

/-- The scope of a place (15 R273): 0 local, 1 pod, 2 remote. -/
def scopeOf (s : State) (x : Place) : Nat :=
  if x.pod = s.podId then (if x.group = s.groupId ∧ x.slot = s.slotId then 0 else 1) else 2

/-- The admitted launch of this device that owns (job, rank) (15 R275). -/
def ownerLaunch (s : State) (job : BitVec 16) (r : Nat) : Option Launch :=
  (s.launch.find? (fun e => e.2.live && e.2.admitted && (s.pk e.2.paddock).cfg.job == job &&
    (e.2.record.getD 0 0).getLsbD 63 && bits (e.2.record.getD 0 0) 53 32 == r)).map Prod.snd

/-- The window of a launch for a region, with its index (15 R277). -/
def windowOf (s : State) (pkn : Nat) (serial : Word) (region : Nat) : Option (Nat × Window) :=
  (s.pk pkn).window.find? (fun e => e.2.valid && e.2.serial == serial && e.2.region.toNat == region)

/-- What an address names once its checks have passed: a physical address under a leaf, with the window it was reached
through, or memory of a device of another pod. -/
inductive Target where
  | phys (x : Xlat) (win : Option (Nat × Nat))
  | far (scope : Nat)
  deriving DecidableEq, Repr

/-- The window check and walk of a global address at this device (10 R180): refusals give the code given. The walk is the target's:
no L1 serves it. -/
def windowTarget (s : State) (core : Nat) (job : BitVec 16) (r region off size : Nat) (acc : Access)
    (priv : Bool) (refuse : Byte) : State × Look Target :=
  match s.ownerLaunch job r with
  | none => (s, .error refuse)
  | some l =>
    match s.windowOf l.paddock l.serial region with
    | none => (s, .error refuse)
    | some (wi, w) =>
      if w.size < off + size then (s, .error refuse)
      else
        match (s.countMiss core l.asid (w.base.toNat + off) acc priv).translateL2 (dieOf core) l.asid (w.base.toNat + off) acc priv with
        | (s', .ok x) => (s', .ok (.phys x (some (l.paddock, wi))))
        | (s', .wait n) => (s', .wait n)
        | (s', .fail k n) => (s', .fail k n)
        | (s', .error _) => (s', .error refuse)

/-- The line of a pod peer that a global address names (10 R180): the peer walks its window; where the page lies is free, and
changes when the peer changes it (log 67). The address's place within the page is the window's. -/
def podTarget (s : State) (job : BitVec 16) (a : Dword) (p : Place) : Xlat :=
  let page := Config.podLine s.podMap job.toNat (bits a 62 41) (bits a 40 36) (bits a 35 0 / 4096) % 2 ^ 34
  ⟨2 ^ 56 + (32 * p.group + p.slot) * 2 ^ 46 + page * 4096 + bits a 35 0 % 4096, true, true, false⟩
/-- Does a pod peer refuse a global address (10 R180): free, as its windows are (log 67). -/
def podRefuses (s : State) (job : BitVec 16) (a : Dword) : Bool :=
  Config.podLine (s.podMap + 1) job.toNat (bits a 62 41) (bits a 40 36) (2 ^ 36 + bits a 35 0 / 4096) % 2 == 1

/-- The checks of one address of a core's access in the order of 11 R186, up to page and protection: misaligned,
non-canonical, rank miss, page not present or protection; a pod peer's refusal is a remote error (10 R180). -/
def checkAddr (s : State) (core pkn asid : Nat) (a : Dword) (size align : Nat) (acc : Access) (priv page : Bool) :
    State × Look Target :=
  if a.toNat % align ≠ 0 then (s, .error 0x03)
  else if !a.getLsbD 63 && bits a 62 48 ≠ 0 then (s, .error 0x04)
  else if a.getLsbD 63 then
    match s.resolve core pkn (bits a 62 41) with
    | (s, none) => (s, .error 0x0C)
    | (s, some pl) =>
      let sc := s.scopeOf pl
      if sc = 0 then s.windowTarget core (s.pk pkn).cfg.job (bits a 62 41) (bits a 40 36) (bits a 35 0) size acc priv 0x06
      else if sc = 1 then
        if s.podRefuses (s.pk pkn).cfg.job a then (s, .error 0x0A) else (s, .ok (.phys (s.podTarget (s.pk pkn).cfg.job a pl) none))
      else (s, .ok (.far sc))
  else
    match s.translate core asid (bits a 47 0) acc priv page with
    | (s', .ok x) => (s', .ok (.phys x none))
    | (s', .wait n) => (s', .wait n)
    | (s', .fail k n) => (s', .fail k n)
    | (s', .error c) => (s', .error c)

/-! ## Paths of the pod (19 R336, R337) -/

/-- The group that global link L of group a leads to: links 0 to 309 by their number, a spare by the offset onto which the provider has
moved it. -/
def linkGroup (s : State) (a L : Nat) : Option Nat :=
  let o := if L < 310 then L % 31 + 1 else Store.get 0 s.spareLink (320 * a + L)
  if o = 0 then none else some ((a + o) % 32)
/-- Global links of a group that lead to another group, in increasing order. -/
def linksTo (s : State) (a b : Nat) : List Nat := (List.range 320).filter (fun L => s.linkGroup a L == some b)
/-- Is a global link of a group usable: its bit of the path-quality bitmap (15 R276). -/
def linkUsable (s : State) (a L : Nat) : Bool := (Store.get 0 s.pathBits a).getLsbD L
/-- The link at the far end of link L from group a to group b: the k-th is cabled to the k-th. -/
def farLink (s : State) (a b L : Nat) : Option Nat := (s.linksTo b a)[(s.linksTo a b).idxOf L]?
/-- Is port n up (17 R306). -/
def portUp (s : State) (n : Nat) : Bool := (Store.get Port.reset s.port n).link == 2
/-- Can port n be used: up, and ready (15 R282). -/
def portOk (s : State) (n : Nat) : Bool := s.portUp n && s.ready (0x30 + n)
/-- Can a slot of the own group be reached by one local hop; the own slot takes none. -/
def localHop (s : State) (m : Nat) : Bool :=
  let i := if m < s.slotId then m else m - 1
  m == s.slotId || s.portOk (2 * i) || s.portOk (2 * i + 1)
/-- Can a path begin with global link L of the own group: the slot that holds it is reached, or its port is this device's own, and the
link is usable. -/
def firstLink (s : State) (L : Nat) : Bool :=
  s.linkUsable s.groupId L && s.localHop (L / 10) && (L / 10 != s.slotId || s.portOk (62 + L % 10))
/-- Does a path of at most 3 hops lead from this device to slot m of another group: over a usable direct link, or, with one of the two
local hops to spare, through the device of another group at whose end a usable link leads on. -/
def groupPath (s : State) (b m : Nat) : Bool :=
  let a := s.groupId
  (s.linksTo a b).any (fun L => s.firstLink L && (s.farLink a b L).isSome) ||
    (List.range 32).any (fun c => c != a && c != b && (s.linksTo a c).any (fun L => s.firstLink L && (s.farLink a c L).any (fun F =>
      (s.linksTo c b).any (fun M => M / 10 == F / 10 && s.linkUsable c M && (s.farLink c b M).any (fun G =>
        L / 10 == s.slotId || G / 10 == m)))))
/-- Is a slot of the pod reachable: not marked as lost, and this device, a slot of the group with a usable link, or one with a path. -/
def slotReachable (s : State) (n : Nat) : Bool :=
  !s.slotDown.contains n &&
    (n == 32 * s.groupId + s.slotId || (if n / 32 = s.groupId then s.localHop (n % 32) else s.groupPath (n / 32) (n % 32)))

/-- A physical address whose unit cannot serve it now (10 R179, 01 R20): an unreachable pod slot, or HBM or a home die that is not
ready. DESIGN CHOICE (log 78): the spec does not say how kind 2, memory of the Sahnan die, is served; here its lines stand in this device's
memory, are homed as HBM is, and are always reachable. Unsafe. -/
def unreachable (s : State) (pa : Nat) : Bool :=
  (pa / 2 ^ 56 == 1 && !s.slotReachable (pa / 2 ^ 46 % 1024)) || (pa / 2 ^ 56 == 0 && !s.hbmReady (pa / 128))
/-- Is the scale-out port by which a die reaches another pod not ready (01 R20). -/
def portDown (s : State) (die scope : Nat) : Bool := scope == 2 && !s.ready (0x78 + die)

/-- The line tags under which L1 keeps the bits of a leaf (10 R177): those of a local virtual address; a global address is no
virtual address of the requester, and leaves none. -/
def tagsFor (asid : Nat) (a : Dword) (x : Xlat) : List L1Tag :=
  if a.getLsbD 63 then [] else [⟨asid, bits a 47 0 / 128, x.w, x.u⟩]

end State
end Sys2Proof.Machine
end

