-- ==== Sys2Proof/Machine/Ops.lean ====
section
/-!
DEFINITION. Machine/Ops.lean: operations that many meanings share: ends of workgroups and launches (03 R38, R59),
timelines (16 R288), barriers (14 R259), taking an exception and returning from one (18 R318-R325).
-/

namespace Sys2Proof.Machine

/-! ## Launch records (14 R252) -/

namespace Launch

/-- Double word n of the record. -/
def dw (l : Launch) (n : Nat) : Dword := l.record.getD n 0
/-- Declared stages; an unstaged launch counts as one (14 R254). -/
def stages (l : Launch) : Nat := max 1 (bits (l.dw 1) 53 50)
/-- Is the launch staged. -/
def staged (l : Launch) : Bool := bits (l.dw 1) 53 50 != 0
/-- Grid-barrier flag. -/
def gridBar (l : Launch) : Bool := (l.dw 1).getLsbD 49
/-- Fail-fast flag. -/
def failFast (l : Launch) : Bool := (l.dw 1).getLsbD 48
/-- Priority. -/
def prio (l : Launch) : Nat := bits (l.dw 1) 45 40
/-- Pen width. -/
def pw (l : Launch) : Nat := 2 ^ bits (l.dw 1) 35 32
/-- Pen height. -/
def ph (l : Launch) : Nat := 2 ^ bits (l.dw 1) 39 36
/-- Rectangle width. -/
def rectW (l : Launch) : Nat := bits (l.dw 1) 22 16
/-- Rectangle height. -/
def rectH (l : Launch) : Nat := bits (l.dw 1) 30 24
/-- Origin x. -/
def orgX (l : Launch) : Nat := bits (l.dw 1) 5 0
/-- Origin y. -/
def orgY (l : Launch) : Nat := bits (l.dw 1) 13 8
/-- ASID field. -/
def asidField (l : Launch) : Nat := bits (l.dw 2) 63 48
/-- Grid sizes. -/
def gx (l : Launch) : Nat := bits (l.dw 2) 15 0
def gy (l : Launch) : Nat := bits (l.dw 2) 31 16
def gz (l : Launch) : Nat := bits (l.dw 2) 47 32
/-- User handler. -/
def handler (l : Launch) : Dword := l.dw 3
/-- Entry of stage st. -/
def entryPc (l : Launch) (st : Nat) : Dword := l.dw (4 + 2 * st)
/-- Level-0 maximum of stage st, in bytes (03 R49). -/
def level0Max (l : Launch) (st : Nat) : Nat := 16 * bits (l.dw (5 + 2 * st)) 32 16
/-- Tile registers of stage st. -/
def tregs (l : Launch) (st : Nat) : Nat := bits (l.dw (5 + 2 * st)) 8 4
/-- Spans per workgroup of stage st. -/
def nspans (l : Launch) (st : Nat) : Nat := bits (l.dw (5 + 2 * st)) 3 0
/-- Declaration i. -/
def decl (l : Launch) (i : Nat) : Dword := l.dw (20 + i)
/-- Job rank the launch owns, if its record carries one. -/
def rank (l : Launch) : Option (BitVec 22) :=
  if (l.dw 0).getLsbD 63 then some (BitVec.ofNat 22 (bits (l.dw 0) 53 32)) else Option.none
/-- How many stage-workgroups the launch has (03 R44). -/
def total (l : Launch) : Nat := l.stages * (l.gx * l.gy * l.gz)
/-- The core at the rectangle's origin, by which the yard's records of the launch are named. -/
def home (l : Launch) : Nat := l.orgX + 64 * l.orgY
/-- The launch's key in State.launch. -/
def key (l : Launch) : Nat := 2 ^ 32 * l.paddock + l.serial.toNat

end Launch

/-- Pen number of a workgroup within its launch and stage (03 R41): stage, then pen coordinates and wz. -/
def penKey (l : Launch) (stage wx wy wz : Nat) : Nat :=
  ((stage * 65536 + wz) * 65536 + wy / l.ph) * 65536 + wx / l.pw

/-- The pen of a workgroup. -/
def Wg.pen (w : Wg) (l : Launch) : Nat := penKey l w.stage w.wx w.wy w.wz
/-- Pen offset number of a workgroup (10 R174): dx + Pw · dy. -/
def Wg.member (w : Wg) (l : Launch) : Nat := w.wx % l.pw + l.pw * (w.wy % l.ph)

namespace State

/-- The yard writes the status word of a launch's record (14 R252). -/
def putStatus (s : State) (k : Nat) : State :=
  let l := s.launchAt k
  if l.record = [] then s
  else s.homeUpd l.statusPa 8 0xFFFFFFFF000000E0
      (min l.killed 65535 * 65536 + l.reason % 256 * 256 + (if l.timing then 16 else 0) + l.state % 16)

/-! ## Timelines (16 R288) -/

/-- Raise the prefix count over operations that are complete; as many rounds as there are complete operations. -/
def advance : Nat → Timeline → Timeline
  | 0, t => t
  | n + 1, t => if t.done.contains (t.c + 1) then advance n { t with c := t.c + 1, done := t.done.erase (t.c + 1) } else t

/-- Which stage-workgroup a workgroup is. -/
def wgId (w : Wg) : WgId := ⟨w.paddock, w.serial, w.stage, w.lin⟩

/-- Is the workgroup that issued an operation still there: its timelines live until it ends (11 R213). -/
def issuerLives (s : State) (g : Nat) (id : WgId) : Bool :=
  let w := s.wgAt g
  wgId w == id && w.res != .ended && w.res != .none

/-- Operation num of timeline tl of workgroup g is complete, in error when a mark is given (11 R205, R206). -/
def completeOp (s : State) (g : Nat) (id : WgId) (tl num : Nat) (err : Option Mark) : State :=
  if !s.issuerLives g id then s
  else
    s.updWg g (fun w => w.updTl tl (fun t =>
      let t1 := { t with done := num :: t.done }
      let t2 := match err with
        | none => t1
        | some m => match t1.mark with
          | none => { t1 with mark := some m }
          | some _ => { t1 with errors := t1.errors ++ [m] }
      advance t2.done.length t2))

/-! ## Chutes (14 R255, R260) and class 4 operations (11 R205, R206) -/

/-- Granules of one row of a chute (14 R255, 10 R173). -/
def chuteRow (c : Chute) : Nat := ((c.colsM1 + 1) * c.width + 15) / 16
/-- Set or clear the full bits of the row of a slot. -/
def setRow (c : Chute) (slot : Nat) (full : Bool) : Chute :=
  { c with granule := (List.range (chuteRow c)).foldl (fun m i =>
      Store.upd Granule.empty m (slot * chuteRow c + i) (fun g => { g with full := full })) c.granule }
/-- Publish a slot (14 R260): full, and the full bits of its row set. -/
def publishSlot (c : Chute) (slot : Nat) : Chute :=
  { setRow c slot true with full := c.full ||| BitVec.twoPow 64 slot }

/-- The opcode of a class 4 operation (04 R69). -/
def kindNum : AsyncKind → Nat
  | .cp => 0 | .cpm => 1 | .cpr _ => 2 | .gth => 3 | .sct => 4 | .put => 5 | .get => 6 | .cpchute _ _ => 7 | .launch _ _ => 8
/-- The engine's unit class in Rime records (17 R305). -/
def kindUnit : AsyncKind → Nat
  | .cpm => 5 | .cpr _ => 5 | .gth => 4 | .sct => 4
  | _ => 3

/-- A record of a class 4 operation (17 R306), which an instruction of its core caused or a unit of it. -/
def emitAsync (s : State) (a : AsyncOp) (typ low : Nat) : State :=
  s.emit typ (kindUnit a.kind) a.core (dieOf a.core) (some a.id.paddock) a.ordinal false
    (a.id.serial ++ (BitVec.ofNat 3 a.sp ++ BitVec.ofNat 3 a.id.stage ++ BitVec.ofNat 26 a.id.lin))
    (BitVec.ofNat 64 (low + 2 ^ 8 * a.tl + 2 ^ 16 * a.num)) (s.coreStamp a.core)

/-- The operation with number uid. -/
def asyncAt (s : State) (uid : Nat) : Option AsyncOp := s.async.find? (fun a => a.uid == uid)
/-- Change the operation with number uid. -/
def updAsync (s : State) (uid : Nat) (f : AsyncOp → AsyncOp) : State :=
  { s with async := s.async.map (fun a => if a.uid == uid then f a else a) }

/-- An operation is complete: its timeline learns it, and a cpchute publishes its slot (11 R205, R212). DESIGN CHOICE (log 78): the spec
does not say whether a cpchute that ended in error publishes its slot; here it does. Unsafe. -/
def finishOp (s : State) (a : AsyncOp) : State :=
  let s1 := { (s.emitAsync a 0x39 (kindNum a.kind)) with async := s.async.filter (fun x => x.uid != a.uid) }
  let s2 := match a.kind with
    | .cpchute key (some slot) =>
      let s2 := s1.updChute key (fun c => if c.live then publishSlot c slot else c)
      if s2.issuerLives a.g a.id then s2.updWg a.g (fun w => { w with progChute := w.progChute + 1 }) else s2
    | _ => s1
  s2.completeOp a.g a.id a.tl a.num a.err

/-- An error response to a class 4 operation: its log entry, and its record from the unit that gave it. -/
def logAsync (s : State) (a : AsyncOp) (addr : Dword) (code kind : Nat) (src : Option Source) : State :=
  let s1 := s.logError a.id.paddock addr (s.launchAt (2 ^ 32 * a.id.paddock + a.id.serial.toNat)).rank a.core code kind a.ordinal
  src.elim s1 (fun q => s1.emit 0x4B q.1 q.2.1 q.2.2 (some a.id.paddock) a.ordinal false addr (BitVec.ofNat 64 (code + 256 * kind)) (s.coreStamp a.core))

/-- An error of an operation: the first one is recorded, logged when its code is an error response's, and becomes its mark
(11 R206). -/
def failOp (s : State) (uid : Nat) (code : Byte) (addr : Dword) (kind : Nat) (src : Option Source) : State :=
  match s.asyncAt uid with
  | none => s
  | some a =>
    if a.err.isSome then s
    else
      let s1 := if code = 0x09#8 ∨ code = 0x0A#8 then s.logAsync a addr code.toNat kind src else s
      (s1.emitAsync a 0x3A code.toNat).updAsync uid (fun a => { a with err := some ⟨a.num, code, addr⟩ })

/-- The operation that placed a launch is complete when the launch has ended or was refused (11 R212). -/
def finishLaunchOp (s : State) (uid : Nat) (bad : Bool) (serial : Word) : State :=
  let s1 := if bad then s.failOp uid 0xFF (serial.setWidth 64) 0 none else s
  match s1.asyncAt uid with
  | none => s1
  | some a => (s1.finishOp a).hearClock a.core (s1.launchAt (2 ^ 32 * a.id.paddock + serial.toNat)).clock

/-- The same, once the status word has been written: a write that waits for its line goes first. -/
def finishLater (s : State) (uid : Nat) (bad : Bool) (serial : Word) : State :=
  if s.late.isEmpty then s.finishLaunchOp uid bad serial
  else { s with late := s.late ++ [⟨uid, 0, if bad then 1 else 0, serial.toNat, false⟩] }

/-! ## Barriers (14 R259) -/

/-- A span has arrived at a barrier kind: every thread that has not ended is held there outside a trap handler, or all have
ended. -/
def spanArrived (sp : Span) (k : BarKind) : Bool :=
  (List.range 32).all (fun l => (sp.laneAt l).ended ||
    (decide ((sp.laneAt l).hold = .barrier k) && (sp.laneAt l).level == 0))
/-- A workgroup has arrived: each of its spans has, or the workgroup has ended. -/
def wgArrived (w : Wg) (k : BarKind) : Bool :=
  w.res == .ended || ((w.res == .resident || w.res == .parked) && w.spanNums.all (fun n => spanArrived (w.spanAt n) k))

/-- Release the threads of a span held at a barrier kind: their clauses go on after the barrier's word. -/
def releaseSpan (k : BarKind) (sp : Span) : Span :=
  let H := lanesWhere (fun l => decide ((sp.laneAt l).hold = .barrier k))
  if H = 0 then sp else
  let sp1 := sp.updLanes H (fun _ la => { la with hold := .free })
  { sp1 with
    clauses := sp1.clauses.map (fun c =>
      if !c.suspended && c.waiting && c.lanes &&& H == c.lanes then { c with pos := c.pos + 1, waiting := false } else c)
    wait := .none }

/-- Release every span of a workgroup. -/
def releaseWg (k : BarKind) (w : Wg) : Wg := { w with span := Store.mapVals Span.fresh (fun _ sp => releaseSpan k sp) w.span }

/-- The workgroups, by key, that are parties of workgroup g's barrier of kind k. -/
def parties (s : State) (g : Nat) (k : BarKind) : List (Nat × Wg) :=
  let w := s.wgAt g
  let l := s.launchAt w.launchKey
  s.wg.filter (fun e => match k with
    | .wg => e.1 == g
    | .pen => e.2.launchKey == w.launchKey && e.2.stage == w.stage && e.2.pen l == w.pen l && e.2.res != .none
    | .launch => e.2.launchKey == w.launchKey && e.2.res != .none)

/-- Is the barrier instance of workgroup g complete: every party has arrived or has ended. bar.launch also waits for the
workgroups that are not admitted yet. -/
def barrierComplete (s : State) (g : Nat) (k : BarKind) : Bool :=
  let w := s.wgAt g
  let l := s.launchAt w.launchKey
  match k with
  | .wg => w.spanNums.all (fun n => spanArrived (w.spanAt n) .wg)
  | .pen => (s.parties g .pen).all (fun e => wgArrived e.2 .pen)
  | .launch =>
    let ps := (s.parties g .launch).filter (fun e => e.2.res != .ended)
    ps.all (fun e => wgArrived e.2 .launch) && decide (ps.length + l.ended = l.total)

/-- Parties on several cores synchronise: the clock of each is raised to the greatest among them (12 R223). -/
def joinClocks (s : State) (cores : List Nat) : State :=
  let top := cores.foldl (fun a c => if precedes a (Store.get 0 s.lamport c) then Store.get 0 s.lamport c else a)
    (Store.get 0 s.lamport (cores.headD 0))
  cores.foldl (fun a c => a.hearClock c top) s

/-- Complete the barrier instance if every party has arrived: generations rise and held threads go on. -/
def barrierCheck (s : State) (g : Nat) (k : BarKind) : State :=
  if s.barrierComplete g k then
    let w := s.wgAt g
    let l := s.launchAt w.launchKey
    let s1 := ((s.parties g k).foldl (fun a e => a.updWg e.1 (releaseWg k)) s).joinClocks ((s.parties g k).map (fun e => e.2.core))
    match k with
    | .wg => s1.updWg g (fun w => { w with wgGen := w.wgGen + 1 })
    | .pen => s1.updLaunch l.key (fun l => { l with penGen := Store.upd 0 l.penGen (w.pen l) (fun n => n + 1) })
    | .launch => s1.updLaunch l.key (fun l => { l with launchGen := l.launchGen + 1 })
  else s

/-- Has anything of the workgroup's party set arrived, so that the end of a party may complete the instance. -/
def barrierRecheck (s : State) (g : Nat) : State :=
  let held (k : BarKind) : Bool := (s.parties g k).any (fun e => (e.2.spanNums.any (fun n =>
    (List.range 32).any (fun l => decide (((e.2.spanAt n).laneAt l).hold = .barrier k)))))
  let s1 := if held .wg then s.barrierCheck g .wg else s
  let s2 := if held .pen then s1.barrierCheck g .pen else s1
  if held .launch then s2.barrierCheck g .launch else s2

/-! ## Ends (03 R38, R59) -/

/-- End a launch: outcome in its record, windows, chutes and workgroups freed, its launch operation complete. -/
def endLaunch (s : State) (k : Nat) : State :=
  let l := s.launchAt k
  let bad := l.inError
  let s1 := (s.updLaunch k (fun l => { l with state := if bad then 5 else 4, live := false })).putStatus k
  let s2 := s1.updPk l.paddock (fun p =>
    { p with window := Store.mapVals Window.none (fun _ w => if w.valid && w.serial == l.serial then Window.none else w) p.window })
  let s3 := { s2 with
    chute := s2.chute.filter (fun e => !(e.2.live && e.2.paddock == l.paddock && e.2.serial == l.serial))
    wg := s2.wg.filter (fun e => !(e.2.paddock == l.paddock && e.2.serial == l.serial)) }
  let s4 := s3.emit 0x19 0x01 l.home (dieOf l.home) (some l.paddock) 0xFFFFF false (l.serial.setWidth 64)
    (BitVec.ofNat 64 ((if bad then 5 else 4) + 256 * l.reason + 65536 * min l.killed 65535)) 0
  match l.issuer with
  | none => s4
  | some uid => s4.finishLater uid bad l.serial

/-- A drained launch: every workgroup that was resident is parked, or has ended (18 R328, step 3a). -/
def drainCheck (s : State) (k : Nat) : State :=
  let l := s.launchAt k
  if l.live && l.preempt == .draining && !(s.wg.any (fun e => e.2.launchKey == k && e.2.res == .resident)) then
    (s.updLaunch k (fun l => { l with preempt := .drained })).emit 0x53 0x01 l.home (dieOf l.home) (some l.paddock) 0xFFFFF false
      (l.serial.setWidth 64) 1 0
  else s

/-- After a workgroup has ended: the launch ends when every stage-workgroup has, killed ones that never started counted (03 R59); one that
is being drained may be so now. -/
def launchCheck (s : State) (k : Nat) : State :=
  let l := s.launchAt k
  if l.live && l.admitted && decide (l.total ≤ l.ended) then s.endLaunch k else s.drainCheck k

/-- What remains of a workgroup that has ended: its place and its timelines, which in-flight operations still name. -/
def Wg.closed (w : Wg) (killed : Bool) : Wg :=
  { w with res := .ended, killed := killed, parkWanted := none, handle := [], granule := [], t := [],
           tcfg := [], span := Store.mapVals Span.fresh (fun _ sp =>
             { (sp.updLanes allLanes (fun _ la => { la with ended := true, hold := .free, level := 0 })) with
               clauses := [], pending := [], traps := [], deferred := [], wait := .none, tileWait := [], memWait := [],
               mon := none, node := none, j := [] }) w.span }

/-- Requests of a workgroup that stand in the waiter queue of a pod peer's word are withdrawn there (14 R262; log 31). -/
def withdraw (s : State) (g : Nat) : State :=
  let tags := (s.wgAt g).span.flatMap (fun q => q.2.clauses.filterMap (fun c => c.arg.bind (fun a =>
    if a.2.getLsbD 62 && !a.2.getLsbD 63 then some (bits a.2 61 0) else none)))
  let mine := s.remote.filter (fun r => tags.contains r.tag && (match r.packet.kind with
    | .waitq _ => true
    | _ => false))
  { s with outbox := s.outbox ++ mine.map (fun r => OutMsg.packet { r.packet with kind := .unwait r.tag })
           remote := s.remote.filter (fun r => !mine.contains r) }

/-- Take the workgroup's waiter nodes and chute waits away (14 R262, R267); a node of another device's request stays. -/
def dropWaits (s0 : State) (g : Nat) : State :=
  let s := s0.withdraw g
  { s with
    waitq := (s.waitq.map (fun q => { q with nodes := q.nodes.filter (fun n => n.1 != g || (nodePeer n).isSome) })).filter
      (fun q => q.nodes ≠ [])
    chute := Store.mapVals Chute.none (fun _ c =>
      { c with prodWait := c.prodWait.filter (fun n => n.1 != g), consWait := c.consWait.filter (fun n => n.1 != g) }) s.chute }

/-- End one workgroup: freed, counted, its siblings' barriers looked at (03 R38, 14 R259). tret tells that a tret.kill, or what acts as
one, ended it (17 R306). -/
def endWg (s : State) (g : Nat) (killed tret : Bool) : State :=
  let w := s.wgAt g
  if w.res = .ended ∨ w.res = .none then s else
  let s1 := (s.emitWg 0x1D 0x01 g 0 (if tret then 1 else 0)).dropWaits g
  let s2 := s1.updWg g (fun w => Wg.closed w killed)
  let s3 := s2.updLaunch w.launchKey (fun l =>
    { l with clock := if precedes l.clock (Store.get 0 s.lamport w.core) then Store.get 0 s.lamport w.core else l.clock
             ended := l.ended + 1, killed := if killed then l.killed + 1 else l.killed, inError := l.inError || killed })
  s3.barrierRecheck g

/-- Kill every workgroup of a launch, those not admitted or started counted (03 R59, 18 R328). -/
def killAll (s : State) (k : Nat) : State :=
  let l := s.launchAt k
  let s1 := (s.wg.filter (fun e => e.2.launchKey == k && e.2.res != .ended && e.2.res != .none)).foldl
    (fun a e => a.endWg e.1 true false) s
  s1.updLaunch k (fun m => { m with killed := m.killed + (l.total - m.ended), ended := l.total, inError := true,
                                    unstartedKilled := true })

/-- Kill a workgroup as tret.kill does (18 R323): counted, the launch in error, all of it when fail-fast is set. -/
def killWg (s : State) (g : Nat) : State :=
  let k := (s.wgAt g).launchKey
  let s1 := s.endWg g true true
  let s2 := if (s1.launchAt k).failFast then s1.killAll k else s1
  (s2.putStatus k).launchCheck k

/-- Has a unit been begun: its packet or request has left, or its data have come. -/
def unitBegun (u : AUnit) : Bool := u.sent.isSome || (match u.src with
  | .data _ => true
  | _ => false)
/-- A forced reset of a launch (18 R328): every workgroup ends at once; no further unit of its operations is begun, and those that have been
begun land. -/
def forceReset (s : State) (k : Nat) : State :=
  let s1 := { s with async := s.async.filterMap (fun (a : AsyncOp) =>
    if 2 ^ 32 * a.id.paddock + a.id.serial.toNat == k then
      let us := a.units.map (fun (u : AUnit) => if u.st = UnitSt.pending ∧ !unitBegun u then { u with st := .failed } else u)
      if us.all (fun (u : AUnit) => u.st != UnitSt.pending) && (match a.kind with
        | .launch _ true => false
        | _ => true) then none else some { a with noBegin := true, units := us }
    else some a) }
  let l := s1.launchAt k
  if !l.live then s else
  let s2 := s1.emit 0x53 0x01 l.home (dieOf l.home) (some l.paddock) 0xFFFFF false (l.serial.setWidth 64) 2 0
  ((s2.killAll k).putStatus k).launchCheck k

/-! ## The trap frame (18 R320) -/

/-- The address of a span's trap frame. -/
def frameAddr (s : State) (g sp : Nat) : Nat :=
  let w := s.wgAt g
  (s.pk w.paddock).cfg.trapFrame.toNat + 524288 * w.core + 8192 * w.entry + 1024 * sp

/-- An error response that an access for span sp of workgroup g meets, from a unit: its log entry and record (01 R18). -/
def errWg (s : State) (g sp : Nat) (addr : Dword) (code kind : Nat) (src : Source) : State :=
  let w := s.wgAt g
  let o := (w.spanAt sp).lastStop
  (s.logError w.paddock addr (s.launchAt w.launchKey).rank w.core code kind o).emit 0x4B src.1 src.2.1 src.2.2 (some w.paddock) o false addr
    (BitVec.ofNat 64 (code + 256 * kind)) (s.coreStamp w.core)
/-- The code of an error response of a line's home: 0A when that is another device, else 09 (01 R18). -/
def errCode (line : Nat) : Nat := if isPod line then 10 else 9
/-- The kind of an unreachable address's entry: a lost slot of the pod, or memory that is not ready. -/
def downKind (pa : Nat) : Nat := if pa / 2 ^ 56 = 1 then 3 else 4

/-- A privileged access to supervisor memory by the machine itself for span sp, at a local virtual address: its physical address once its
line is at hand, none when it fails. -/
def privPa (s : State) (g sp va : Nat) (acc : Access) : State × Look (Option Nat) :=
  let w := s.wgAt g
  let a := BitVec.ofNat 64 va
  if va / 2 ^ 48 ≠ 0 then (s, .ok none) else
  match s.translate w.core (s.launchAt w.launchKey).asid va acc true false with
  | (s', .error _) => (s', .ok none)
  | (s', .fail k n) => (s'.errWg g sp a (errCode n) k (errSource s'.steps k n), .ok none)
  | (s', .wait n) => (s', .wait n)
  | (s', .ok x) =>
    let line := x.pa / 128
    if s'.unreachable x.pa then (s'.errWg g sp a 9 (downKind x.pa) (errSource s'.steps (downKind x.pa) line), .ok none)
    else if (s'.dirAt line).state = .P then (s'.errWg g sp a 9 1 (errSource s'.steps 1 line), .ok none)
    else if s'.podFailed line then ((s'.errWg g sp a 10 1 (errSource s'.steps 1 line)).clearFail line, .ok none)
    else if acc = .read then (if s'.atHand line then (s', .ok (some x.pa)) else (s'.askHome 0x1FFF line .read, .wait line))
    else match s'.quietHome line 0x1FFF with
      | .ok _ => if s'.late.isEmpty then (s', .ok (some x.pa)) else (s', .wait line)
      | _ => (s'.askHome 0x1FFF line .home, .wait line)

/-- What an access to a trap frame gives: what was read with the state, a wait, or a failure. -/
inductive FrameAns (α : Type) where
  | ok (s : State) (x : α)
  | wait (s : State)
  | bad (s : State)
  deriving DecidableEq, Repr

/-- Go on with the answer of an access to a trap frame. -/
def FrameAns.then' {α β : Type} (a : FrameAns α) (f : State → α → FrameAns β) : FrameAns β :=
  match a with
  | .ok s x => f s x
  | .wait s => .wait s
  | .bad s => .bad s

/-- Store values of n bytes each from va on. -/
def frameStore (g sp n : Nat) : State → Nat → List Nat → FrameAns Unit
  | s, _, [] => .ok s ()
  | s, va, x :: xs =>
    match s.privPa g sp va .write with
    | (s', .ok (some pa)) => frameStore g sp n (s'.homeUpd pa n 0 x) (va + n) xs
    | (s', .wait _) => .wait s'
    | (s', _) => .bad s'

/-- Load count values of n bytes each from va on. -/
def frameLoad (g sp n : Nat) : State → Nat → Nat → FrameAns (List Nat)
  | s, _, 0 => .ok s []
  | s, va, k + 1 =>
    match s.privPa g sp va .read with
    | (s', .ok (some pa)) => (frameLoad g sp n s' (va + n) k).then' (fun s2 xs => .ok s2 (lineBytes (s'.handView (pa / 128)) (pa % 128) n :: xs))
    | (s', .wait _) => .wait s'
    | (s', _) => .bad s'

/-- Store the outer trap state of a nested entry at f + 0x080 … f + 0x387. -/
def storeOuter (s : State) (g n f : Nat) : FrameAns Unit :=
  let sp := s.spanAt g n
  let lane (h : Lane → Nat) : List Nat := (List.range 32).map (fun l => h (sp.laneAt l))
  (((frameStore g n 8 s (f + 0x80) [sp.tmask.toNat + (if sp.trapMask then 2 ^ 32 else 0)]).then'
    (fun a _ => frameStore g n 8 a (f + 0x88) (lane (fun x => x.tcode.toNat)))).then'
    (fun a _ => frameStore g n 8 a (f + 0x188) (lane (fun x => x.tpc.toNat)))).then'
    (fun a _ => frameStore g n 8 a (f + 0x288) (lane (fun x => x.tvaddr.toNat)))

/-- Store s56–s62 and p0–p6 at the start of the frame. -/
def storeFrame (s : State) (g n f : Nat) : FrameAns Unit :=
  let sp := s.spanAt g n
  (frameStore g n 8 s f ((List.range 7).map (fun i => (sp.sr (BitVec.ofNat 6 (56 + i))).toNat))).then'
    (fun a _ => frameStore g n 4 a (f + 0x38) ((List.range 7).map (fun i => (sp.pr (BitVec.ofNat 3 i)).toNat)))

/-! ## Taking an exception (18 R316-R319) -/

/-- The lowest lane of a set. -/
def lowest (S : Lanes) : Nat := (lanesOf S).headD 0

/-- The code by which a fault is delivered and recorded: that of its lowest lane. The codes of one fault that differ by
lane are all among 01 to 0D, which are delivered alike (11 R186, 18 R319). -/
def trapCode (t : PendingTrap) : Byte := Store.get 0 t.codes (lowest t.lanes)

/-- Set the trap registers, level and pc of the lanes that enter a handler (18 R319). -/
def enterLanes (s : State) (g n : Nat) (t : PendingTrap) (level : Nat) (handler : Dword) : State :=
  s.updSpanAt g n (fun sp =>
    { (sp.updLanes t.lanes (fun l la =>
        { la with tcode := Store.get 0 t.codes l, tpc := t.tpc, tvaddr := Store.get 0 t.tvaddr l, level := level,
                  pc := handler, hold := .free })) with
      tmask := t.lanes, trapMask := true, wait := .none })

/-- A kill by an undeliverable exception writes the trap-entry record and ends the workgroup (18 R319, R316). -/
def trapKill (s : State) (g n : Nat) (t : PendingTrap) : State :=
  (s.emitWg 0x48 0x00 g n (BitVec.ofNat 64 (t.lanes.toNat + 2 ^ 32 * (trapCode t).toNat))).killWg g

/-- TAKE an exception on the lanes of t in span n of workgroup g (18 R319): the level by the table of R319, the frame
stored at level 2, s62 set to it, %tmask, %tcode, %tpc, %tvaddr, the level and pc of each lane, the mask set. While a line of
the frame is not at hand the exception stays raised. -/
def takeTrap (s : State) (g n : Nat) (t : PendingTrap) : State :=
  let sp := s.spanAt g n
  let w := s.wgAt g
  let lv := (sp.laneAt (lowest t.lanes)).level
  let user := (s.launchAt w.launchKey).handler
  let priv := (s.pk w.paddock).cfg.handler
  let rec' (a : State) : State := a.emitWg 0x48 0x00 g n (BitVec.ofNat 64 (t.lanes.toNat + 2 ^ 32 * (trapCode t).toNat))
  if trapCode t = 0x10#8 ∧ (lv = 2 ∨ (lv = 1 ∧ sp.trapMask)) then
    s.updSpanAt g n (fun sp => { sp with deferred := sp.deferred ++ [t] })
  else if lv = 2 ∨ (lv = 1 ∧ trapCode t = 0x11#8 ∧ sp.trapMask) then s.trapKill g n t
  else if trapCode t = 0x10#8 ∨ trapCode t = 0x11#8 then
    if user = 0 then s.trapKill g n t
    else rec' (s.enterLanes g n t 1 user)
  else if priv = 0 then s.trapKill g n t
  else
    let f := s.frameAddr g n
    let s1? : FrameAns Unit := if lv = 1 then s.storeOuter g n f else .ok s ()
    match s1?.then' (fun a _ => a.storeFrame g n f) with
    | .bad s1 => s1.trapKill g n t
    | .wait s1 => s1.updSpanAt g n (fun sp => { sp with traps := t :: sp.traps })
    | .ok s1 _ =>
      rec' ((s1.updSpanAt g n (fun sp => { sp.setS 62#6 (BitVec.ofNat 64 f) with nested := decide (lv = 1) })).enterLanes
        g n t 2 priv)

/-- Is it a raised exception's turn: the lanes are at the innermost open level (18 R318), and for a timeout no issue set of that level is
inside a clause. -/
def trapDue (sp : Span) (t : PendingTrap) : Bool :=
  (sp.laneAt (lowest t.lanes)).level == sp.openLevel &&
    (trapCode t != 0x10#8 || sp.clauses.all (fun c => c.suspended || c.waiting ||
      (sp.laneAt (lowest c.lanes)).level != sp.openLevel))

/-- May a raised exception be taken now: its turn has come, and every result of the span is written (18 R319). -/
def trapReady (sp : Span) (t : PendingTrap) : Bool := sp.pending.isEmpty && trapDue sp t

/-- Take the first raised exception of a span that may be taken. -/
def takeNext (s : State) (g n : Nat) : State :=
  let sp := s.spanAt g n
  match sp.traps.find? (fun t => trapReady sp t) with
  | none => s
  | some t => (s.updSpanAt g n (fun sp => { sp with traps := sp.traps.erase t })).takeTrap g n t

/-- Per-lane values as a sparse map. -/
def laneMap {α : Type} [DecidableEq α] (d : α) (F : Lanes) (f : Nat → α) : Store α :=
  (lanesOf F).foldl (fun m l => Store.set d m l (f l)) []

/-- An exception on lanes F of the issue set S with a code and an address per lane (04 R74): F leaves the clause, which
is kept for its return; the other lanes of S have completed the instruction and go on. It is taken at once when it may
be, else when the span's results are written. -/
def raiseL (s : State) (F : Lanes) (codes : Nat → Byte) (tv : Nat → Dword) : State :=
  if F = 0 then s.retire else
  let t : PendingTrap := ⟨F, laneMap 0 F codes, s.instrPc, laneMap 0 F tv⟩
  let s1 := s.updSpan (fun sp =>
    { sp with
      clauses := Span.updFirst (Span.openFor s.lanes) (fun cl =>
        [{ cl with lanes := F, pos := s.focus.pos, suspended := true, waiting := false }] ++
          (if s.lanes &&& ~~~F = 0 then [] else
            [{ cl with lanes := s.lanes &&& ~~~F, pos := s.focus.next, waiting := false }])) sp.clauses
      traps := sp.traps ++ [t], wait := .none })
  s1.takeNext s.focus.g s.focus.sp

/-- An exception with one code on lanes F of S. -/
def raise (s : State) (F : Lanes) (c : Byte) (tv : Nat → Dword) : State := s.raiseL F (fun _ => c) tv

/-- An exception on every lane of S, with one %tvaddr. -/
def raiseAll (s : State) (c : Byte) (tv : Dword) : State := s.raise s.lanes c (fun _ => tv)

/-! ## Leaving a handler (18 R322, R324) -/

/-- The last lane of the innermost activation, at level lv, has left it (18 R324); where a nested one leaves no lane at level 1, the outer
activation has ended with it. -/
def endActivation (s : State) (g n lv : Nat) : State :=
  let sp := s.spanAt g n
  let free (a : State) : State := a.updSpanAt g n (fun sp =>
    { sp with trapMask := false, traps := sp.traps ++ sp.deferred, deferred := [] })
  if sp.alive = 0 then s
  else if lv = 2 then
    let f := s.frameAddr g n
    match (frameLoad g n 8 s f 7).then' (fun s1 ss => (frameLoad g n 4 s1 (f + 0x38) 7).then' (fun s2 ps => .ok s2 (ss, ps))) with
    | .bad s1 => s1.killWg g
    | .wait s1 => s1
    | .ok s2 (ss, ps) =>
      let reload (a : State) : State := a.updSpanAt g n (fun sp =>
        (List.range 7).foldl (fun q i => (q.setS (BitVec.ofNat 6 (56 + i)) (BitVec.ofNat 64 (ss.getD i 0))).setP
          (BitVec.ofNat 3 i) allLanes (BitVec.ofNat 32 (ps.getD i 0))) sp)
      if sp.nested then
        match frameLoad g n 8 s2 (f + 0x80) 97 with
        | .bad s1 => s1.killWg g
        | .wait s1 => s1
        | .ok s3 xs =>
          let m := xs.getD 0 0
          let s4 := (reload s3).updSpanAt g n (fun sp =>
            let sp1 := sp.updLanes allLanes (fun l la =>
              { la with tcode := BitVec.ofNat 8 (xs.getD (1 + l) 0), tpc := BitVec.ofNat 64 (xs.getD (33 + l) 0),
                        tvaddr := BitVec.ofNat 64 (xs.getD (65 + l) 0) })
            let open' : Bool := decide (m / 2 ^ 32 % 2 = 1)
            { sp1 with tmask := BitVec.ofNat 32 m, trapMask := open', nested := false,
                       traps := if open' then sp1.traps else sp1.traps ++ sp1.deferred,
                       deferred := if open' then sp1.deferred else [] })
          if (s4.spanAt g n).atLevel 1 = 0 then free s4 else s4
      else free (reload s2)
  else free s

/-- Would lanes S of a span at level 2 be the last of their activation to leave it, and does a line of the frame have to be waited
for first: then the state in which it has been asked for. -/
def frameWaits (s : State) (g n : Nat) (S : Lanes) : Option State :=
  let sp := s.spanAt g n
  if (sp.laneAt (lowest S)).level ≠ 2 ∨ sp.atLevel 2 &&& ~~~S ≠ 0 then none
  else
    let f := s.frameAddr g n
    match ((frameLoad g n 8 s f 7).then' (fun a _ => frameLoad g n 4 a (f + 0x38) 7)).then'
        (fun a xs => if sp.nested then frameLoad g n 8 a (f + 0x80) 97 else .ok a xs) with
    | .wait s1 => some s1
    | _ => none

/-- After lanes have left level lv, by return or by ending, the activation ends with its last lane (18 R324). -/
def leaveCheck (s : State) (g n lv : Nat) : State :=
  if lv ≠ 0 ∧ (s.spanAt g n).atLevel lv = 0 then s.endActivation g n lv else s

/-- The header at a clause address, read for a tret.skip (18 R322): code 0 stands for one that cannot be read. -/
def readHeader (s : State) (g : Nat) (a : Dword) : State × Look Word :=
  let w := s.wgAt g
  if a.toNat % 4 ≠ 0 ∨ a.toNat / 2 ^ 48 ≠ 0 then (s, .error 0) else
  match (s.translate w.core (s.launchAt w.launchKey).asid a.toNat .fetch false false) with
  | (s', .error _) => (s', .error 0)
  | (s', .fail _ _) => (s', .error 0)
  | (s', .wait n) => (s', .wait n)
  | (s', .ok x) =>
    if s'.unreachable x.pa || (s'.dirAt (x.pa / 128)).state = .P || s'.podFailed (x.pa / 128) then (s', .error 0)
    else if s'.atHand (x.pa / 128) then (s', .ok (BitVec.ofNat 32 (lineBytes (s'.handView (x.pa / 128)) (x.pa % 128) 4)))
    else (s'.askHome 0x1FFF (x.pa / 128) .read, .wait (x.pa / 128))

/-- The address after the clause whose header stands at a, or a when the header cannot be read (18 R322). -/
def afterClause (s : State) (g : Nat) (a : Dword) : Dword :=
  match (s.readHeader g a).2 with
  | .ok h => a + BitVec.ofNat 64 (4 * (bits h 3 0 + 1))
  | _ => a

/-- The suspended clause in which lane l faulted: the innermost. -/
def suspendedOf (sp : Span) (l : Nat) : Option Clause :=
  (sp.clauses.filter (fun c => c.suspended && laneIn c.lanes l)).getLast?

/-- Where lane l resumes (18 R322): the address that its pc takes, and the word position when it resumes within the
suspended clause. The value of %tpc at entry is the address of the word at which that clause stands. -/
def resumePoint (s : State) (skip : Bool) (l : Nat) : Dword × Option Nat :=
  let la := s.span.laneAt l
  match suspendedOf s.span l with
  | none => (la.tpc, none)
  | some c =>
    if la.tpc ≠ c.hdrPc + BitVec.ofNat 64 (4 * c.pos) then (la.tpc, none)
    else if c.pos = 0 then (if skip then s.afterClause s.focus.g la.tpc else la.tpc, none)
    else
      if !skip then (c.hdrPc, some c.pos)
      else
        let p := c.pos + 1 + ((extraWords (bits c.hdr 6 4) (c.words.getD (c.pos - 1) 0)).getD 0)
        if p ≤ bits c.hdr 3 0 then (c.hdrPc, some p) else (s.afterClause s.focus.g c.hdrPc, none)

/-- Take lane l out of the suspended clause it faulted in. -/
def unsuspend (sp : Span) (l : Nat) : Span :=
  match suspendedOf sp l with
  | none => sp
  | some c =>
    { sp with clauses := (sp.clauses.map (fun x =>
        if x = c then { x with lanes := x.lanes &&& ~~~(BitVec.twoPow 32 l) } else x)).filter (fun x => x.lanes ≠ 0) }

/-- Put lane l into the resumed clause of its kind, next to the lanes that resume with it (04 R74). DESIGN CHOICE (log 78): lanes of F that
return to one word by different trets stay separate issue sets until their pc next meets; R74 calls the lanes of F one issue set there.
Unsafe. -/
def resumeIn (sp : Span) (l : Nat) (c : Clause) (p : Nat) (mates : Lanes) : Span :=
  if sp.clauses.any (fun x => !x.suspended && x.hdrPc == c.hdrPc && x.pos == p && x.words == c.words && x.lanes &&& mates ≠ 0) then
    { sp with clauses := sp.clauses.map (fun x =>
        if !x.suspended && x.hdrPc == c.hdrPc && x.pos == p && x.words == c.words && x.lanes &&& mates ≠ 0
        then { x with lanes := x.lanes ||| BitVec.twoPow 32 l } else x) }
  else { sp with clauses := sp.clauses ++ [{ c with lanes := BitVec.twoPow 32 l, pos := p, suspended := false, waiting := false }] }

/-- Must a tret wait for memory: for a header that it skips over, or for the frame of an activation that it ends. -/
def returnWaits (s : State) (skip : Bool) : Option State :=
  let at' (l : Nat) : Option State := match suspendedOf s.span l with
    | none => none
    | some c => match s.readHeader s.focus.g (if c.pos = 0 then (s.span.laneAt l).tpc else c.hdrPc) with
      | (s1, .wait _) => some s1
      | _ => none
  match (if skip then (lanesOf s.lanes).findSome? at' else none) with
  | some s1 => some s1
  | none => s.frameWaits s.focus.g s.focus.sp s.lanes

/-- tret.retry and tret.skip (18 R322): every lane of S leaves its level and resumes as resumePoint says; the activation
ends with its last lane. -/
def trapReturn (s : State) (skip : Bool) : State :=
  let lv := (s.span.laneAt s.lowLane).level
  let up := if s.span.nested ∧ lv = 2 then 1 else 0
  let s1 := s.emitWg 0x49 0x00 s.focus.g s.focus.sp
    (BitVec.ofNat 64 (s.lanes.toNat + (if skip then 2 ^ 32 else 0)))
  let plan := (lanesOf s.lanes).map (fun l => (l, s.resumePoint skip l, suspendedOf s.span l))
  let s2 := plan.foldl (fun a e =>
    a.updSpan (fun sp =>
      let sp1 := (unsuspend sp e.1).updLane e.1 (fun la => { la with level := up })
      match e.2.1.2, e.2.2 with
      | some p, some c => resumeIn sp1 e.1 c p (s.lanes &&& ~~~(BitVec.twoPow 32 e.1))
      | _, _ => sp1)) s1
  let s3 := s2.setTargets s.lanes (fun l => ((plan.find? (fun e => e.1 == l)).map (fun e => e.2.1.1)).getD 0)
  (s3.leaveCheck s.focus.g s.focus.sp lv).retire

end State

/-- Outcome of a meaning that raises an exception on every lane of S. -/
def fault (c : Byte) (tv : Dword) (s : State) : Res := .next (s.raiseAll c tv)

end Sys2Proof.Machine
end

