-- ==== Sys2Proof/Machine/Operands.lean ====
section
/-!
DEFINITION. Machine/Operands.lean: which registers the fields of an instruction name, for rule 6 of 04 R70 and for the
interlock of 04 R72, and the operand forms that several families share.
-/

namespace Sys2Proof.Machine

/-- A scalar register; s63 takes no part (04 R70). -/
def sR (r : BitVec 6) : List RegName := if r = 63#6 then [] else [.s r.toNat]
/-- A predicate; p7 takes no part (04 R70). -/
def pR (r : BitVec 3) : List RegName := if r = 7#3 then [] else [.p r.toNat]
/-- n vector registers from r. -/
def vN (n : Nat) (r : BitVec 7) : List RegName := (List.range n).map (fun i => .v (r.toNat + i))
/-- One vector register. -/
def vW (r : BitVec 7) : List RegName := vN 1 r
/-- The pair of an even vector register (05 R77). -/
def vP (r : BitVec 7) : List RegName := vN 2 r
/-- The group of four from a vector register (05 R77). -/
def vG (r : BitVec 7) : List RegName := vN 4 r
/-- A tile register. -/
def tR (n : BitVec 4) : List RegName := [.t n.toNat]

end Sys2Proof.Machine

namespace Sys2Proof

open Machine

/-- The scalar register of an operand b. -/
def SOp.regs : SOp → List RegName
  | .reg r => sR r
  | .imm _ => []
/-- One row or column of a coordinate: kind 1 names a scalar register, kind 2 a vector register (04 R68). -/
def coordPartRegs (k : BitVec 2) (v : BitVec 12) : List RegName :=
  match k.toNat with
  | 1 => sR (v.extractLsb' 0 6)
  | 2 => vW (v.extractLsb' 0 7)
  | _ => []
/-- The registers of a coordinate word. -/
def Coord.regs (c : Coord) : List RegName := coordPartRegs c.rk c.rv ++ coordPartRegs c.ck c.cv
/-- The registers of one side of a class 4 instruction. -/
def ASide.regs : ASide → List RegName
  | .addr r => vP r
  | .tile _ _ c => c.regs

/-- The registers that an instruction reads by its fields and implicitly (04 R70; each instruction's description). -/
def Instr.regReads : Instr → List RegName
  | .clauseIssue _ => []
  | .clauseEnd _ => []
  | .countedResultWrite _ _ _ => []
  | .trapEntry _ _ => []
  | .park _ => []
  | .makeResident _ => []
  | .workgroupStart _ => []
  | .penAdmission _ _ => []
  | .launchAdmission _ => []
  | .asyncUnitLand _ _ => []
  | .gets _ => []
  | .pute _ => []
  | .putm _ _ => []
  | .puto _ _ => []
  | .inv _ => []
  | .fwds _ _ => []
  | .fwdx _ _ => []
  | .recall _ => []
  | .merge _ => []
  | .data _ _ _ => []
  | .invack _ _ => []
  | .fwdack _ _ => []
  | .putack _ => []
  | .drpart _ _ _ _ => []
  | .sadd _ a b => sR a ++ b.regs
  | .ssub _ a b => sR a ++ b.regs
  | .smul _ a b => sR a ++ b.regs
  | .smulh _ a b => sR a ++ b.regs
  | .smulhn _ a b => sR a ++ b.regs
  | .sand _ a b => sR a ++ b.regs
  | .sor _ a b => sR a ++ b.regs
  | .sxor _ a b => sR a ++ b.regs
  | .sshl _ a b => sR a ++ b.regs
  | .sshr _ a b => sR a ++ b.regs
  | .ssar _ a b => sR a ++ b.regs
  | .smin _ a b => sR a ++ b.regs
  | .smax _ a b => sR a ++ b.regs
  | .sminn _ a b => sR a ++ b.regs
  | .smaxn _ a b => sR a ++ b.regs
  | .smov _ b => b.regs
  | .smovk _ _ _ => []
  | .smovkh d _ => sR d
  | .scmp _ _ _ a b => sR a ++ b.regs
  | .scmpP _ _ _ a b => sR a ++ b.regs
  | .ssel _ q _ a b => sR a ++ b.regs ++ pR q
  | .sfromv w64 hi lo _ b => (if w64 = 1#1 then vP (hi ++ lo) else vW (hi ++ lo)) ++ b.regs
  | .sballot _ q => pR q
  | .spopc _ b => b.regs
  | .sclz _ b => b.regs
  | .br _ => []
  | .bz a _ => sR a
  | .bnz a _ => sR a
  | .bp _ q _ => pR q
  | .call _ _ => []
  | .ret a => sR a
  | .bi a => sR a
  | .mset _ _ => []
  | .mstrike _ => []
  | .mget _ => [.mr]
  | .mput a => vP (a ++ 0#1)
  | .jread _ j => [.j j.toNat]
  | .jreadAddr _ j => [.j j.toNat]
  | .vmov p _ a => pR p ++ vW a
  | .vmovk p _ _ => pR p
  | .vaddI32 p _ a b => pR p ++ vW a ++ vW b
  | .vaddI64 p _ a b => pR p ++ vP a ++ vP b
  | .vsubI32 p _ a b => pR p ++ vW a ++ vW b
  | .vsubI64 p _ a b => pR p ++ vP a ++ vP b
  | .vmulI32 p _ a b => pR p ++ vW a ++ vW b
  | .vmulhI32 p _ a b => pR p ++ vW a ++ vW b
  | .vmulhN32 p _ a b => pR p ++ vW a ++ vW b
  | .vmadI32 p d a b => pR p ++ vW a ++ vW b ++ vW d
  | .vand p _ a b => pR p ++ vW a ++ vW b
  | .vor p _ a b => pR p ++ vW a ++ vW b
  | .vxor p _ a b => pR p ++ vW a ++ vW b
  | .vnot p _ a => pR p ++ vW a
  | .vshl p _ a b => pR p ++ vW a ++ vW b
  | .vshr p _ a b => pR p ++ vW a ++ vW b
  | .vsar p _ a b => pR p ++ vW a ++ vW b
  | .vminI32 p _ a b => pR p ++ vW a ++ vW b
  | .vmaxI32 p _ a b => pR p ++ vW a ++ vW b
  | .vminN32 p _ a b => pR p ++ vW a ++ vW b
  | .vmaxN32 p _ a b => pR p ++ vW a ++ vW b
  | .vabsI32 p _ a => pR p ++ vW a
  | .vclz p _ a => pR p ++ vW a
  | .vpopc p _ a => pR p ++ vW a
  | .vbrev p _ a => pR p ++ vW a
  | .vbfx p _ a b => pR p ++ vW a ++ vW b
  | .vbfi p d a b => pR p ++ vW a ++ vW b ++ vW d
  | .vsel p _ a b => pR p ++ vW a ++ vW b
  | .vcmpI32 p _ _ a b => pR p ++ vW a ++ vW b
  | .vcmpN32 p _ _ a b => pR p ++ vW a ++ vW b
  | .vcmpI64 p _ _ a b => pR p ++ vP a ++ vP b
  | .vaddsI32 p _ a b => pR p ++ vW a ++ vW b
  | .vshflIdx p _ a b => pR p ++ vW a ++ vW b
  | .vshflXor p _ a _ => pR p ++ vW a
  | .vshflUp p _ a _ => pR p ++ vW a
  | .vshflDown p _ a _ => pR p ++ vW a
  | .vbcast p _ a _ => pR p ++ vW a
  | .vlaneid p _ => pR p
  | .vprefixI32 p _ a => pR p ++ vW a
  | .vaddF32 p _ a b => pR p ++ vW a ++ vW b
  | .vsubF32 p _ a b => pR p ++ vW a ++ vW b
  | .vmulF32 p _ a b => pR p ++ vW a ++ vW b
  | .vfmaF32 p d a b => pR p ++ vW a ++ vW b ++ vW d
  | .vminF32 p _ a b => pR p ++ vW a ++ vW b
  | .vmaxF32 p _ a b => pR p ++ vW a ++ vW b
  | .vcmpF32 p _ _ a b => pR p ++ vW a ++ vW b
  | .vrcpF32 p _ a _ => pR p ++ vW a
  | .vrsqrtF32 p _ a _ => pR p ++ vW a
  | .vsqrtF32 p _ a _ => pR p ++ vW a
  | .vexp2F32 p _ a _ => pR p ++ vW a
  | .vlog2F32 p _ a _ => pR p ++ vW a
  | .vclassF32 p _ a => pR p ++ vW a
  | .vaddF64 p _ a b => pR p ++ vP a ++ vP b
  | .vsubF64 p _ a b => pR p ++ vP a ++ vP b
  | .vmulF64 p _ a b => pR p ++ vP a ++ vP b
  | .vfmaF64 p d a b => pR p ++ vP a ++ vP b ++ vP d
  | .vminF64 p _ a b => pR p ++ vP a ++ vP b
  | .vmaxF64 p _ a b => pR p ++ vP a ++ vP b
  | .vcmpF64 p _ _ a b => pR p ++ vP a ++ vP b
  | .vaddF16x2 p _ a b => pR p ++ vW a ++ vW b
  | .vmulF16x2 p _ a b => pR p ++ vW a ++ vW b
  | .vfmaF16x2 p d a b => pR p ++ vW a ++ vW b ++ vW d
  | .vcvt p _ a _ _ _ sf => pR p ++ (if code64 sf then vP a else vW a)
  | .vpack8 p _ a _ _ => pR p ++ vG a
  | .vunpack8 p _ a _ => pR p ++ vW a
  | .vscaleF32 p _ a b => pR p ++ vW a ++ vW b
  | .vperm p d a b => pR p ++ vW a ++ vW b ++ vW d
  | .vdot4 p d a b => pR p ++ vP a ++ vW b ++ vW d
  | .vmodadd p _ a b => pR p ++ vP a ++ vP b
  | .vmodsub p _ a b => pR p ++ vP a ++ vP b
  | .vmodmul p _ a b => pR p ++ vP a ++ vP b
  | .vmodred p _ a => pR p ++ vG a
  | .vnttCt p _ a b => pR p ++ vG a ++ vP b
  | .vnttGs p _ a b => pR p ++ vG a ++ vP b
  | .tcfgw _ a => sR a
  | .tcfgr _ n => tR n
  | .tzero _ => []
  | .tld _ _ _ _ _ _ _ c => c.regs
  | .tldPerm _ _ tT _ _ _ c => tR tT ++ c.regs
  | .tst _ _ _ n _ _ c => tR n ++ c.regs
  | .tmov _ s => tR s
  | .tmovTr _ s => tR s
  | .mmaB8 _ _ tB tA v => tR tA ++ tR tB ++ vN 8 v
  | .mmaB8Scl _ _ tB tA v vA vB => tR tA ++ tR tB ++ vW vA ++ vW vB ++ vN 8 v
  | .mmaB8Sp _ _ tM tB tA v => tR tA ++ tR tB ++ tR tM ++ vN 8 v
  | .mmaB8SclSp _ _ tM tB tA v vA vB => tR tA ++ tR tB ++ tR tM ++ vW vA ++ vW vB ++ vN 8 v
  | .mmaBf16 _ _ tB tA v => tR tA ++ tR tB ++ vN 8 v
  | .mmaF16 _ _ tB tA v => tR tA ++ tR tB ++ vN 8 v
  | .mmaF32 _ _ tB tA v => tR tA ++ tR tB ++ vN 8 v
  | .mmaF64 _ _ tB tA v => tR tA ++ tR tB ++ vN 16 v
  | .mmaI8 _ _ tB tA v => tR tA ++ tR tB ++ vN 8 v
  | .mmaMod _ _ tB tA v => tR tA ++ tR tB ++ vN 16 v
  | .ldN8 _ i b _ _ => sR b ++ vW i
  | .ldI8 _ i b _ _ => sR b ++ vW i
  | .ldN16 _ i b _ _ => sR b ++ vW i
  | .ldI16 _ i b _ _ => sR b ++ vW i
  | .ld32 _ i b _ _ => sR b ++ vW i
  | .ld64 _ i b _ _ => sR b ++ vW i
  | .ld128 _ i b _ _ => sR b ++ vW i
  | .st8 i b d _ => sR b ++ vW i ++ vW d
  | .st16 i b d _ => sR b ++ vW i ++ vW d
  | .st32 i b d _ => sR b ++ vW i ++ vW d
  | .st64 i b d _ => sR b ++ vW i ++ vP d
  | .st128 i b d _ => sR b ++ vW i ++ vG d
  | .ldt32 _ p _ _ _ c => pR p ++ c.regs
  | .ldt64 _ p _ _ _ c => pR p ++ c.regs
  | .ldt128 _ p _ _ _ c => pR p ++ c.regs
  | .stt32 p _ d _ c => pR p ++ c.regs ++ vW d
  | .stt64 p _ d _ c => pR p ++ c.regs ++ vP d
  | .stt128 p _ d _ c => pR p ++ c.regs ++ vG d
  | .sld64 _ b _ _ => sR b
  | .sst64 b a _ => sR b ++ sR a
  | .amoAddI32 _ i b d _ => sR b ++ vW i ++ vW d
  | .amoAddI64 _ i b d _ => sR b ++ vW i ++ vP d
  | .amoMinI32 _ i b d _ => sR b ++ vW i ++ vW d
  | .amoMinN32 _ i b d _ => sR b ++ vW i ++ vW d
  | .amoMinI64 _ i b d _ => sR b ++ vW i ++ vP d
  | .amoMaxI32 _ i b d _ => sR b ++ vW i ++ vW d
  | .amoMaxN32 _ i b d _ => sR b ++ vW i ++ vW d
  | .amoMaxI64 _ i b d _ => sR b ++ vW i ++ vP d
  | .amoAnd _ i b d _ => sR b ++ vW i ++ vW d
  | .amoOr _ i b d _ => sR b ++ vW i ++ vW d
  | .amoXor _ i b d _ => sR b ++ vW i ++ vW d
  | .amoSwap _ i b d _ => sR b ++ vW i ++ vW d
  | .amoCas32 _ i b d _ => sR b ++ vW i ++ vP d
  | .amoCas64 _ i b d _ => sR b ++ vW i ++ vG d
  | .amoFaddF32 _ i b d _ => sR b ++ vW i ++ vW d
  | .redAddI32 i b d _ => sR b ++ vW i ++ vW d
  | .redAddI64 i b d _ => sR b ++ vW i ++ vP d
  | .redMin i b d _ => sR b ++ vW i ++ vW d
  | .redMax i b d _ => sR b ++ vW i ++ vW d
  | .redAnd i b d _ => sR b ++ vW i ++ vW d
  | .redOr i b d _ => sR b ++ vW i ++ vW d
  | .redXor i b d _ => sR b ++ vW i ++ vW d
  | .dredAddI64 i b d _ => sR b ++ vW i ++ vP d
  | .dredFaddF32 i b d _ => sR b ++ vW i ++ vW d
  | .dredFaddB8 i b d _ => sR b ++ vW i ++ vW d
  | .dredModadd i b d _ => sR b ++ vW i ++ vP d
  | .dredMinF32 i b d _ => sR b ++ vW i ++ vW d
  | .dredMaxF32 i b d _ => sR b ++ vW i ++ vW d
  | .dredOr i b d _ => sR b ++ vW i ++ vW d
  | .fence _ => []
  | .fenceRo _ => []
  | .cflush i b _ => sR b ++ vW i
  | .cinv i b _ => sR b ++ vW i
  | .cinvDiscard i b _ => sR b ++ vW i
  | .pref i b _ => sR b ++ vW i
  | .cp p _ _ dst src _ => pR p ++ src.regs ++ dst.regs
  | .cpm p _ _ dst src _ => pR p ++ src.regs ++ dst.regs
  | .cpr p _ _ dst src _ => pR p ++ src.regs ++ dst.regs
  | .gth p _ _ dst src _ => pR p ++ src.regs ++ dst.regs
  | .sct p _ _ dst src _ => pR p ++ src.regs ++ dst.regs
  | .put p _ _ dst src _ => pR p ++ src.regs ++ dst.regs
  | .get p _ _ dst src _ => pR p ++ src.regs ++ dst.regs
  | .cpchute p _ _ dst src _ => pR p ++ src.regs ++ dst.regs
  | .launch p _ src _ => pR p ++ vP src
  | .tlwait _ b => b.regs
  | .tlread _ _ _ => []
  | .wcwait _ _ b => b.regs
  | .wcread _ _ _ => []
  | .chqClaim _ _ => []
  | .chqPub _ b => b.regs
  | .chqWait _ _ => []
  | .chqRel _ b => b.regs
  | .waitq _ a b => sR a ++ b.regs
  | .wake _ a b => sR a ++ b.regs
  | .mon a => sR a
  | .mwait _ b => b.regs
  | .talloc _ _ b => sR b
  | .tfree _ => []
  | .tquery _ _ => []
  | .winreg _ a b => sR a ++ sR b
  | .winfree _ b => b.regs
  | .rankq _ a => sR a
  | .sprd _ _ => []
  | .spwr a _ => sR a
  | .evt a _ => sR a
  | .tlbinvPage a b => sR a ++ b.regs
  | .tlbinvAsid a b => sR a ++ b.regs
  | .tlbinvPaddock a b => sR a ++ b.regs
  | .tlbinvRank a => sR a
  | .tlbinvRankall a => sR a
  | .launchPlacement => []
  | .cpchuteClaim => []
  | .icehouseExchange => []
  | .rimeRecord => []
  | .ptpLockLoss => []
  | .beacon => []
  | .perfLatch => []
  | .progressSample => []
  | .thermalTrip => []
  | .snop => []
  | .exit => []
  | .yield => []
  | .barWg => []
  | .barPen => []
  | .barLaunch => []
  | .trap => []
  | .tretRetry => []
  | .tretSkip => []
  | .tretKill => []
  | .tmask => []
  | .tunmask => []
  | .brk => []
  | .halt => []
  | .debuggerResume _ => []
  | .watchdogExpiry _ => []
  | .mwaitTimeout _ => []
  | .quantumExpiry _ => []
  | .launchWindowPlace _ _ => []
  | .preemptionRequest _ _ => []
  | .preemptionResume _ _ => []
  | .preemptionDeadline _ _ => []
  | .paddockSwap _ _ => []
  | .getx _ => []
  | .upg _ => []
  | .drget _ _ => []
  | .amoMsg _ _ => []
  | .wrline _ _ => []
  | .grant _ => []
  | .grantd _ _ => []
  | .redack _ _ => []
  | .err _ _ => []
  | .redop _ _ _ => []
  | .cacheEviction _ _ => []
  | .requestRetry _ _ => []
  | .linkDown _ => []
  | .heartbeatMiss _ => []
  | .extentRevoke _ _ _ => []
  | .revocationTimeout _ _ _ => []
  | .windowKeyReplace _ _ _ => []
  | .oldKeyTimeout _ _ => []
  | .remotePacket _ => []
  | .remoteAck _ => []
  | .paddockTableWrite _ _ => []
  | .errorLogTailWrite _ _ => []
  | .sinkDescriptorWrite _ _ => []
  | .sinkTailWrite _ _ => []
  | .readback _ => []
  | .registerWrite _ => []
  | .stallLimit _ => []
  | .ptpLock _ => []
  | .ptpCorrection _ => []
  | .floorWindow _ _ => []
  | .powerGood _ => []
  | .readinessReport _ _ => []
  | .powerCapSet _ => []
  | .thermalThrottle _ => []
  | .trayWindowDouble _ => []
  | .getVersion _ => []
  | .getCapabilities _ => []
  | .negotiateAlgorithms _ _ _ => []
  | .getDigests _ => []
  | .getCertificate _ _ _ _ => []
  | .challenge _ _ => []
  | .getMeasurements _ _ _ => []
  | .keyExchange _ _ _ => []
  | .finish _ _ => []
  | .keyUpdate _ _ => []
  | .endSession _ _ => []
  | .linkUp _ => []
  | .hopKeyChange _ => []
  | .retransmission _ _ => []
  | .firmwareReportsLost _ => []

/-- The registers that an instruction writes by its fields and implicitly (04 R70). -/
def Instr.regWrites : Instr → List RegName
  | .clauseIssue _ => []
  | .clauseEnd _ => []
  | .countedResultWrite _ _ _ => []
  | .trapEntry _ _ => []
  | .park _ => []
  | .makeResident _ => []
  | .workgroupStart _ => []
  | .penAdmission _ _ => []
  | .launchAdmission _ => []
  | .asyncUnitLand _ _ => []
  | .gets _ => []
  | .pute _ => []
  | .putm _ _ => []
  | .puto _ _ => []
  | .inv _ => []
  | .fwds _ _ => []
  | .fwdx _ _ => []
  | .recall _ => []
  | .merge _ => []
  | .data _ _ _ => []
  | .invack _ _ => []
  | .fwdack _ _ => []
  | .putack _ => []
  | .drpart _ _ _ _ => []
  | .sadd d _ _ => sR d
  | .ssub d _ _ => sR d
  | .smul d _ _ => sR d
  | .smulh d _ _ => sR d
  | .smulhn d _ _ => sR d
  | .sand d _ _ => sR d
  | .sor d _ _ => sR d
  | .sxor d _ _ => sR d
  | .sshl d _ _ => sR d
  | .sshr d _ _ => sR d
  | .ssar d _ _ => sR d
  | .smin d _ _ => sR d
  | .smax d _ _ => sR d
  | .sminn d _ _ => sR d
  | .smaxn d _ _ => sR d
  | .smov d _ => sR d
  | .smovk d _ _ => sR d
  | .smovkh d _ => sR d
  | .scmp _ _ d _ _ => sR d
  | .scmpP _ _ q _ _ => pR q
  | .ssel _ _ d _ _ => sR d
  | .sfromv _ _ _ d _ => sR d
  | .sballot d _ => sR d
  | .spopc d _ => sR d
  | .sclz d _ => sR d
  | .br _ => []
  | .bz _ _ => []
  | .bnz _ _ => []
  | .bp _ _ _ => []
  | .call d _ => sR d
  | .ret _ => []
  | .bi _ => []
  | .mset j _ => [.j j.toNat, .mr]
  | .mstrike j => [.j j.toNat, .mr]
  | .mget d => vP (d ++ 0#1)
  | .mput _ => [.mr]
  | .jread d _ => sR d
  | .jreadAddr d _ => sR d
  | .vmov _ d _ => vW d
  | .vmovk _ d _ => vW d
  | .vaddI32 _ d _ _ => vW d
  | .vaddI64 _ d _ _ => vP d
  | .vsubI32 _ d _ _ => vW d
  | .vsubI64 _ d _ _ => vP d
  | .vmulI32 _ d _ _ => vW d
  | .vmulhI32 _ d _ _ => vW d
  | .vmulhN32 _ d _ _ => vW d
  | .vmadI32 _ d _ _ => vW d
  | .vand _ d _ _ => vW d
  | .vor _ d _ _ => vW d
  | .vxor _ d _ _ => vW d
  | .vnot _ d _ => vW d
  | .vshl _ d _ _ => vW d
  | .vshr _ d _ _ => vW d
  | .vsar _ d _ _ => vW d
  | .vminI32 _ d _ _ => vW d
  | .vmaxI32 _ d _ _ => vW d
  | .vminN32 _ d _ _ => vW d
  | .vmaxN32 _ d _ _ => vW d
  | .vabsI32 _ d _ => vW d
  | .vclz _ d _ => vW d
  | .vpopc _ d _ => vW d
  | .vbrev _ d _ => vW d
  | .vbfx _ d _ _ => vW d
  | .vbfi _ d _ _ => vW d
  | .vsel _ d _ _ => vW d
  | .vcmpI32 _ _ q _ _ => pR q
  | .vcmpN32 _ _ q _ _ => pR q
  | .vcmpI64 _ _ q _ _ => pR q
  | .vaddsI32 _ d _ _ => vW d
  | .vshflIdx _ d _ _ => vW d
  | .vshflXor _ d _ _ => vW d
  | .vshflUp _ d _ _ => vW d
  | .vshflDown _ d _ _ => vW d
  | .vbcast _ d _ _ => vW d
  | .vlaneid _ d => vW d
  | .vprefixI32 _ d _ => vW d
  | .vaddF32 _ d _ _ => vW d
  | .vsubF32 _ d _ _ => vW d
  | .vmulF32 _ d _ _ => vW d
  | .vfmaF32 _ d _ _ => vW d
  | .vminF32 _ d _ _ => vW d
  | .vmaxF32 _ d _ _ => vW d
  | .vcmpF32 _ _ q _ _ => pR q
  | .vrcpF32 _ d _ _ => vW d
  | .vrsqrtF32 _ d _ _ => vW d
  | .vsqrtF32 _ d _ _ => vW d
  | .vexp2F32 _ d _ _ => vW d
  | .vlog2F32 _ d _ _ => vW d
  | .vclassF32 _ d _ => vW d
  | .vaddF64 _ d _ _ => vP d
  | .vsubF64 _ d _ _ => vP d
  | .vmulF64 _ d _ _ => vP d
  | .vfmaF64 _ d _ _ => vP d
  | .vminF64 _ d _ _ => vP d
  | .vmaxF64 _ d _ _ => vP d
  | .vcmpF64 _ _ q _ _ => pR q
  | .vaddF16x2 _ d _ _ => vW d
  | .vmulF16x2 _ d _ _ => vW d
  | .vfmaF16x2 _ d _ _ => vW d
  | .vcvt _ d _ _ _ df _ => (if code64 df then vP d else vW d)
  | .vpack8 _ d _ _ _ => vW d
  | .vunpack8 _ d _ _ => vG d
  | .vscaleF32 _ d _ _ => vW d
  | .vperm _ d _ _ => vW d
  | .vdot4 _ d _ _ => vW d
  | .vmodadd _ d _ _ => vP d
  | .vmodsub _ d _ _ => vP d
  | .vmodmul _ d _ _ => vP d
  | .vmodred _ d _ => vP d
  | .vnttCt _ d _ _ => vG d
  | .vnttGs _ d _ _ => vG d
  | .tcfgw n _ => tR n
  | .tcfgr d _ => vP d
  | .tzero n => tR n
  | .tld _ _ _ _ n _ _ _ => tR n
  | .tldPerm _ _ _ _ n _ _ => tR n
  | .tst _ _ _ _ _ _ _ => []
  | .tmov d _ => tR d
  | .tmovTr d _ => tR d
  | .mmaB8 _ _ _ _ v => vN 8 v
  | .mmaB8Scl _ _ _ _ v _ _ => vN 8 v
  | .mmaB8Sp _ _ _ _ _ v => vN 8 v
  | .mmaB8SclSp _ _ _ _ _ v _ _ => vN 8 v
  | .mmaBf16 _ _ _ _ v => vN 8 v
  | .mmaF16 _ _ _ _ v => vN 8 v
  | .mmaF32 _ _ _ _ v => vN 8 v
  | .mmaF64 _ _ _ _ v => vN 16 v
  | .mmaI8 _ _ _ _ v => vN 8 v
  | .mmaMod _ _ _ _ v => vN 16 v
  | .ldN8 _ _ _ d _ => vW d
  | .ldI8 _ _ _ d _ => vW d
  | .ldN16 _ _ _ d _ => vW d
  | .ldI16 _ _ _ d _ => vW d
  | .ld32 _ _ _ d _ => vW d
  | .ld64 _ _ _ d _ => vP d
  | .ld128 _ _ _ d _ => vG d
  | .st8 _ _ _ _ => []
  | .st16 _ _ _ _ => []
  | .st32 _ _ _ _ => []
  | .st64 _ _ _ _ => []
  | .st128 _ _ _ _ => []
  | .ldt32 _ _ _ d _ _ => vW d
  | .ldt64 _ _ _ d _ _ => vP d
  | .ldt128 _ _ _ d _ _ => vG d
  | .stt32 _ _ _ _ _ => []
  | .stt64 _ _ _ _ _ => []
  | .stt128 _ _ _ _ _ => []
  | .sld64 _ _ d _ => sR d
  | .sst64 _ _ _ => []
  | .amoAddI32 _ _ _ d _ => vW d
  | .amoAddI64 _ _ _ d _ => vP d
  | .amoMinI32 _ _ _ d _ => vW d
  | .amoMinN32 _ _ _ d _ => vW d
  | .amoMinI64 _ _ _ d _ => vP d
  | .amoMaxI32 _ _ _ d _ => vW d
  | .amoMaxN32 _ _ _ d _ => vW d
  | .amoMaxI64 _ _ _ d _ => vP d
  | .amoAnd _ _ _ d _ => vW d
  | .amoOr _ _ _ d _ => vW d
  | .amoXor _ _ _ d _ => vW d
  | .amoSwap _ _ _ d _ => vW d
  | .amoCas32 _ _ _ d _ => vW d
  | .amoCas64 _ _ _ d _ => vP d
  | .amoFaddF32 _ _ _ d _ => vW d
  | .redAddI32 _ _ _ _ => []
  | .redAddI64 _ _ _ _ => []
  | .redMin _ _ _ _ => []
  | .redMax _ _ _ _ => []
  | .redAnd _ _ _ _ => []
  | .redOr _ _ _ _ => []
  | .redXor _ _ _ _ => []
  | .dredAddI64 _ _ _ _ => []
  | .dredFaddF32 _ _ _ _ => []
  | .dredFaddB8 _ _ _ _ => []
  | .dredModadd _ _ _ _ => []
  | .dredMinF32 _ _ _ _ => []
  | .dredMaxF32 _ _ _ _ => []
  | .dredOr _ _ _ _ => []
  | .fence _ => []
  | .fenceRo _ => []
  | .cflush _ _ _ => []
  | .cinv _ _ _ => []
  | .cinvDiscard _ _ _ => []
  | .pref _ _ _ => []
  | .cp _ _ _ _ _ _ => []
  | .cpm _ _ _ _ _ _ => []
  | .cpr _ _ _ _ _ _ => []
  | .gth _ _ _ _ _ _ => []
  | .sct _ _ _ _ _ _ => []
  | .put _ _ _ _ _ _ => []
  | .get _ _ _ _ _ _ => []
  | .cpchute _ _ _ _ _ _ => []
  | .launch _ _ _ _ => []
  | .tlwait _ _ => []
  | .tlread d _ _ => sR d
  | .wcwait _ _ _ => []
  | .wcread d _ _ => sR d
  | .chqClaim d _ => sR d
  | .chqPub _ _ => []
  | .chqWait d _ => sR d
  | .chqRel _ _ => []
  | .waitq d _ _ => sR d
  | .wake d _ _ => sR d
  | .mon _ => []
  | .mwait d _ => sR d
  | .talloc d _ _ => sR d
  | .tfree _ => []
  | .tquery d _ => sR d
  | .winreg d _ _ => sR d
  | .winfree d _ => sR d
  | .rankq d _ => sR d
  | .sprd d _ => sR d
  | .spwr _ _ => []
  | .evt _ _ => []
  | .tlbinvPage _ _ => []
  | .tlbinvAsid _ _ => []
  | .tlbinvPaddock _ _ => []
  | .tlbinvRank _ => []
  | .tlbinvRankall _ => []
  | .launchPlacement => []
  | .cpchuteClaim => []
  | .icehouseExchange => []
  | .rimeRecord => []
  | .ptpLockLoss => []
  | .beacon => []
  | .perfLatch => []
  | .progressSample => []
  | .thermalTrip => []
  | .snop => []
  | .exit => []
  | .yield => []
  | .barWg => []
  | .barPen => []
  | .barLaunch => []
  | .trap => []
  | .tretRetry => []
  | .tretSkip => []
  | .tretKill => []
  | .tmask => []
  | .tunmask => []
  | .brk => []
  | .halt => []
  | .debuggerResume _ => []
  | .watchdogExpiry _ => []
  | .mwaitTimeout _ => []
  | .quantumExpiry _ => []
  | .launchWindowPlace _ _ => []
  | .preemptionRequest _ _ => []
  | .preemptionResume _ _ => []
  | .preemptionDeadline _ _ => []
  | .paddockSwap _ _ => []
  | .getx _ => []
  | .upg _ => []
  | .drget _ _ => []
  | .amoMsg _ _ => []
  | .wrline _ _ => []
  | .grant _ => []
  | .grantd _ _ => []
  | .redack _ _ => []
  | .err _ _ => []
  | .redop _ _ _ => []
  | .cacheEviction _ _ => []
  | .requestRetry _ _ => []
  | .linkDown _ => []
  | .heartbeatMiss _ => []
  | .extentRevoke _ _ _ => []
  | .revocationTimeout _ _ _ => []
  | .windowKeyReplace _ _ _ => []
  | .oldKeyTimeout _ _ => []
  | .remotePacket _ => []
  | .remoteAck _ => []
  | .paddockTableWrite _ _ => []
  | .errorLogTailWrite _ _ => []
  | .sinkDescriptorWrite _ _ => []
  | .sinkTailWrite _ _ => []
  | .readback _ => []
  | .registerWrite _ => []
  | .stallLimit _ => []
  | .ptpLock _ => []
  | .ptpCorrection _ => []
  | .floorWindow _ _ => []
  | .powerGood _ => []
  | .readinessReport _ _ => []
  | .powerCapSet _ => []
  | .thermalThrottle _ => []
  | .trayWindowDouble _ => []
  | .getVersion _ => []
  | .getCapabilities _ => []
  | .negotiateAlgorithms _ _ _ => []
  | .getDigests _ => []
  | .getCertificate _ _ _ _ => []
  | .challenge _ _ => []
  | .getMeasurements _ _ _ => []
  | .keyExchange _ _ _ => []
  | .finish _ _ => []
  | .keyUpdate _ _ => []
  | .endSession _ _ => []
  | .linkUp _ => []
  | .hopKeyChange _ => []
  | .retransmission _ _ => []
  | .firmwareReportsLost _ => []

/-- The pending counter that an instruction names; 7 names none (04 R66, R67). -/
def Instr.counter : Instr → BitVec 3
  | .clauseIssue .. => 7#3
  | .clauseEnd .. => 7#3
  | .countedResultWrite .. => 7#3
  | .trapEntry .. => 7#3
  | .park .. => 7#3
  | .makeResident .. => 7#3
  | .workgroupStart .. => 7#3
  | .penAdmission .. => 7#3
  | .launchAdmission .. => 7#3
  | .asyncUnitLand .. => 7#3
  | .gets .. => 7#3
  | .pute .. => 7#3
  | .putm .. => 7#3
  | .puto .. => 7#3
  | .inv .. => 7#3
  | .fwds .. => 7#3
  | .fwdx .. => 7#3
  | .recall .. => 7#3
  | .merge .. => 7#3
  | .data .. => 7#3
  | .invack .. => 7#3
  | .fwdack .. => 7#3
  | .putack .. => 7#3
  | .drpart .. => 7#3
  | .sadd .. => 7#3
  | .ssub .. => 7#3
  | .smul .. => 7#3
  | .smulh .. => 7#3
  | .smulhn .. => 7#3
  | .sand .. => 7#3
  | .sor .. => 7#3
  | .sxor .. => 7#3
  | .sshl .. => 7#3
  | .sshr .. => 7#3
  | .ssar .. => 7#3
  | .smin .. => 7#3
  | .smax .. => 7#3
  | .sminn .. => 7#3
  | .smaxn .. => 7#3
  | .smov .. => 7#3
  | .smovk .. => 7#3
  | .smovkh .. => 7#3
  | .scmp .. => 7#3
  | .scmpP .. => 7#3
  | .ssel .. => 7#3
  | .sfromv .. => 7#3
  | .sballot .. => 7#3
  | .spopc .. => 7#3
  | .sclz .. => 7#3
  | .br .. => 7#3
  | .bz .. => 7#3
  | .bnz .. => 7#3
  | .bp .. => 7#3
  | .call .. => 7#3
  | .ret .. => 7#3
  | .bi .. => 7#3
  | .mset .. => 7#3
  | .mstrike .. => 7#3
  | .mget .. => 7#3
  | .mput .. => 7#3
  | .jread .. => 7#3
  | .jreadAddr .. => 7#3
  | .vmov .. => 7#3
  | .vmovk .. => 7#3
  | .vaddI32 .. => 7#3
  | .vaddI64 .. => 7#3
  | .vsubI32 .. => 7#3
  | .vsubI64 .. => 7#3
  | .vmulI32 .. => 7#3
  | .vmulhI32 .. => 7#3
  | .vmulhN32 .. => 7#3
  | .vmadI32 .. => 7#3
  | .vand .. => 7#3
  | .vor .. => 7#3
  | .vxor .. => 7#3
  | .vnot .. => 7#3
  | .vshl .. => 7#3
  | .vshr .. => 7#3
  | .vsar .. => 7#3
  | .vminI32 .. => 7#3
  | .vmaxI32 .. => 7#3
  | .vminN32 .. => 7#3
  | .vmaxN32 .. => 7#3
  | .vabsI32 .. => 7#3
  | .vclz .. => 7#3
  | .vpopc .. => 7#3
  | .vbrev .. => 7#3
  | .vbfx .. => 7#3
  | .vbfi .. => 7#3
  | .vsel .. => 7#3
  | .vcmpI32 .. => 7#3
  | .vcmpN32 .. => 7#3
  | .vcmpI64 .. => 7#3
  | .vaddsI32 .. => 7#3
  | .vshflIdx .. => 7#3
  | .vshflXor .. => 7#3
  | .vshflUp .. => 7#3
  | .vshflDown .. => 7#3
  | .vbcast .. => 7#3
  | .vlaneid .. => 7#3
  | .vprefixI32 .. => 7#3
  | .vaddF32 .. => 7#3
  | .vsubF32 .. => 7#3
  | .vmulF32 .. => 7#3
  | .vfmaF32 .. => 7#3
  | .vminF32 .. => 7#3
  | .vmaxF32 .. => 7#3
  | .vcmpF32 .. => 7#3
  | .vrcpF32 _ _ _ k => k
  | .vrsqrtF32 _ _ _ k => k
  | .vsqrtF32 _ _ _ k => k
  | .vexp2F32 _ _ _ k => k
  | .vlog2F32 _ _ _ k => k
  | .vclassF32 .. => 7#3
  | .vaddF64 .. => 7#3
  | .vsubF64 .. => 7#3
  | .vmulF64 .. => 7#3
  | .vfmaF64 .. => 7#3
  | .vminF64 .. => 7#3
  | .vmaxF64 .. => 7#3
  | .vcmpF64 .. => 7#3
  | .vaddF16x2 .. => 7#3
  | .vmulF16x2 .. => 7#3
  | .vfmaF16x2 .. => 7#3
  | .vcvt .. => 7#3
  | .vpack8 .. => 7#3
  | .vunpack8 .. => 7#3
  | .vscaleF32 .. => 7#3
  | .vperm .. => 7#3
  | .vdot4 .. => 7#3
  | .vmodadd .. => 7#3
  | .vmodsub .. => 7#3
  | .vmodmul .. => 7#3
  | .vmodred .. => 7#3
  | .vnttCt .. => 7#3
  | .vnttGs .. => 7#3
  | .tcfgw .. => 7#3
  | .tcfgr .. => 7#3
  | .tzero .. => 7#3
  | .tld k _ _ _ _ _ _ _ => k
  | .tldPerm k _ _ _ _ _ _ => k
  | .tst .. => 7#3
  | .tmov .. => 7#3
  | .tmovTr .. => 7#3
  | .mmaB8 k _ _ _ _ => k
  | .mmaB8Scl k _ _ _ _ _ _ => k
  | .mmaB8Sp k _ _ _ _ _ => k
  | .mmaB8SclSp k _ _ _ _ _ _ _ => k
  | .mmaBf16 k _ _ _ _ => k
  | .mmaF16 k _ _ _ _ => k
  | .mmaF32 k _ _ _ _ => k
  | .mmaF64 k _ _ _ _ => k
  | .mmaI8 k _ _ _ _ => k
  | .mmaMod k _ _ _ _ => k
  | .ldN8 k _ _ _ _ => k
  | .ldI8 k _ _ _ _ => k
  | .ldN16 k _ _ _ _ => k
  | .ldI16 k _ _ _ _ => k
  | .ld32 k _ _ _ _ => k
  | .ld64 k _ _ _ _ => k
  | .ld128 k _ _ _ _ => k
  | .st8 .. => 7#3
  | .st16 .. => 7#3
  | .st32 .. => 7#3
  | .st64 .. => 7#3
  | .st128 .. => 7#3
  | .ldt32 k _ _ _ _ _ => k
  | .ldt64 k _ _ _ _ _ => k
  | .ldt128 k _ _ _ _ _ => k
  | .stt32 .. => 7#3
  | .stt64 .. => 7#3
  | .stt128 .. => 7#3
  | .sld64 k _ _ _ => k
  | .sst64 .. => 7#3
  | .amoAddI32 k _ _ _ _ => k
  | .amoAddI64 k _ _ _ _ => k
  | .amoMinI32 k _ _ _ _ => k
  | .amoMinN32 k _ _ _ _ => k
  | .amoMinI64 k _ _ _ _ => k
  | .amoMaxI32 k _ _ _ _ => k
  | .amoMaxN32 k _ _ _ _ => k
  | .amoMaxI64 k _ _ _ _ => k
  | .amoAnd k _ _ _ _ => k
  | .amoOr k _ _ _ _ => k
  | .amoXor k _ _ _ _ => k
  | .amoSwap k _ _ _ _ => k
  | .amoCas32 k _ _ _ _ => k
  | .amoCas64 k _ _ _ _ => k
  | .amoFaddF32 k _ _ _ _ => k
  | .redAddI32 .. => 7#3
  | .redAddI64 .. => 7#3
  | .redMin .. => 7#3
  | .redMax .. => 7#3
  | .redAnd .. => 7#3
  | .redOr .. => 7#3
  | .redXor .. => 7#3
  | .dredAddI64 .. => 7#3
  | .dredFaddF32 .. => 7#3
  | .dredFaddB8 .. => 7#3
  | .dredModadd .. => 7#3
  | .dredMinF32 .. => 7#3
  | .dredMaxF32 .. => 7#3
  | .dredOr .. => 7#3
  | .fence .. => 7#3
  | .fenceRo .. => 7#3
  | .cflush .. => 7#3
  | .cinv .. => 7#3
  | .cinvDiscard .. => 7#3
  | .pref .. => 7#3
  | .cp .. => 7#3
  | .cpm .. => 7#3
  | .cpr .. => 7#3
  | .gth .. => 7#3
  | .sct .. => 7#3
  | .put .. => 7#3
  | .get .. => 7#3
  | .cpchute .. => 7#3
  | .launch .. => 7#3
  | .tlwait .. => 7#3
  | .tlread .. => 7#3
  | .wcwait .. => 7#3
  | .wcread .. => 7#3
  | .chqClaim .. => 7#3
  | .chqPub .. => 7#3
  | .chqWait .. => 7#3
  | .chqRel .. => 7#3
  | .waitq .. => 7#3
  | .wake .. => 7#3
  | .mon .. => 7#3
  | .mwait .. => 7#3
  | .talloc .. => 7#3
  | .tfree .. => 7#3
  | .tquery .. => 7#3
  | .winreg .. => 7#3
  | .winfree .. => 7#3
  | .rankq .. => 7#3
  | .sprd .. => 7#3
  | .spwr .. => 7#3
  | .evt .. => 7#3
  | .tlbinvPage .. => 7#3
  | .tlbinvAsid .. => 7#3
  | .tlbinvPaddock .. => 7#3
  | .tlbinvRank .. => 7#3
  | .tlbinvRankall .. => 7#3
  | .launchPlacement => 7#3
  | .cpchuteClaim => 7#3
  | .icehouseExchange => 7#3
  | .rimeRecord => 7#3
  | .ptpLockLoss => 7#3
  | .beacon => 7#3
  | .perfLatch => 7#3
  | .progressSample => 7#3
  | .thermalTrip => 7#3
  | .snop => 7#3
  | .exit => 7#3
  | .yield => 7#3
  | .barWg => 7#3
  | .barPen => 7#3
  | .barLaunch => 7#3
  | .trap => 7#3
  | .tretRetry => 7#3
  | .tretSkip => 7#3
  | .tretKill => 7#3
  | .tmask => 7#3
  | .tunmask => 7#3
  | .brk => 7#3
  | .halt => 7#3
  | .debuggerResume .. => 7#3
  | .watchdogExpiry .. => 7#3
  | .mwaitTimeout .. => 7#3
  | .quantumExpiry .. => 7#3
  | .launchWindowPlace .. => 7#3
  | .preemptionRequest .. => 7#3
  | .preemptionResume .. => 7#3
  | .preemptionDeadline .. => 7#3
  | .paddockSwap .. => 7#3
  | .getx .. => 7#3
  | .upg .. => 7#3
  | .drget .. => 7#3
  | .amoMsg .. => 7#3
  | .wrline .. => 7#3
  | .grant .. => 7#3
  | .grantd .. => 7#3
  | .redack .. => 7#3
  | .err .. => 7#3
  | .redop .. => 7#3
  | .cacheEviction .. => 7#3
  | .requestRetry .. => 7#3
  | .linkDown .. => 7#3
  | .heartbeatMiss .. => 7#3
  | .extentRevoke .. => 7#3
  | .revocationTimeout .. => 7#3
  | .windowKeyReplace .. => 7#3
  | .oldKeyTimeout .. => 7#3
  | .remotePacket .. => 7#3
  | .remoteAck .. => 7#3
  | .paddockTableWrite .. => 7#3
  | .errorLogTailWrite .. => 7#3
  | .sinkDescriptorWrite .. => 7#3
  | .sinkTailWrite .. => 7#3
  | .readback .. => 7#3
  | .registerWrite .. => 7#3
  | .stallLimit .. => 7#3
  | .ptpLock .. => 7#3
  | .ptpCorrection .. => 7#3
  | .floorWindow .. => 7#3
  | .powerGood .. => 7#3
  | .readinessReport .. => 7#3
  | .powerCapSet .. => 7#3
  | .thermalThrottle .. => 7#3
  | .trayWindowDouble .. => 7#3
  | .getVersion .. => 7#3
  | .getCapabilities .. => 7#3
  | .negotiateAlgorithms .. => 7#3
  | .getDigests .. => 7#3
  | .getCertificate .. => 7#3
  | .challenge .. => 7#3
  | .getMeasurements .. => 7#3
  | .keyExchange .. => 7#3
  | .finish .. => 7#3
  | .keyUpdate .. => 7#3
  | .endSession .. => 7#3
  | .linkUp .. => 7#3
  | .hopKeyChange .. => 7#3
  | .retransmission .. => 7#3
  | .firmwareReportsLost .. => 7#3

/-! ## Operand forms -/

/-- The value of one row or column of a coordinate for lane l (04 R68): a constant, a scalar register, a vector lane. -/
def coordVal (sp : Span) (k : BitVec 2) (v : BitVec 12) (l : Nat) : Nat :=
  match k.toNat with
  | 0 => v.toNat
  | 1 => (sp.sr (v.extractLsb' 0 6)).toNat
  | _ => (sp.vr (v.extractLsb' 0 7).toNat l).toNat
/-- The row of a coordinate for lane l. -/
def Coord.row (c : Coord) (sp : Span) (l : Nat) : Nat := coordVal sp c.rk c.rv l
/-- The column of a coordinate for lane l. -/
def Coord.col (c : Coord) (sp : Span) (l : Nat) : Nat := coordVal sp c.ck c.cv l

/-- Perform one register write of a result in span n of workgroup g; one for a thread that has ended is discarded
(07 R114). -/
def Machine.State.writeReg (s : State) (g n : Nat) (w : RegWrite) : State :=
  match w with
  | .t r off x => s.updWg g (fun a => a.setTByte r off x)
  | w => s.updSpanAt g n (fun sp => sp.write1 w)
/-- Perform the register writes of a result. -/
def Machine.State.writeRegs (s : State) (g n : Nat) (ws : List RegWrite) : State := ws.foldl (fun a w => a.writeReg g n w) s

/-- The span after a register-targeting operation has issued under counter k (05 R77, 04 R72): the counter rises, the
result is outstanding. -/
def Machine.Span.addPending (sp : Span) (k : Nat) (S : Lanes) (dests : List RegName) (ws : List RegWrite) : Span :=
  { sp with
    k := if k < 6 then Store.upd 0 sp.k k (fun n => n + 1) else sp.k
    pending := sp.pending ++ [⟨k, (sp.laneAt (State.lowest S)).lastIssue, S, dests, ws⟩] }

/-- A result with an optional counter: without one (7) it is written before a later clause issues (08 R138, 11 R193).
While the counter stands at 63 the issue waits (05 R77). -/
def Machine.State.counted (s : State) (k : BitVec 3) (S : Lanes) (dests : List RegName) (ws : List RegWrite) : Res :=
  if k = 7#3 then done (s.writeRegs s.focus.g s.focus.sp ws)
  else if 63 ≤ s.span.kc k.toNat then .next s
  else done (s.updSpan (fun sp => sp.addPending k.toNat S dests ws))

/-- Does a coordinate name a vector register. -/
def Coord.isVec (c : Coord) : Bool := c.rk == 2#2 || c.ck == 2#2

end Sys2Proof
end

