-- ==== Sys2Proof/Machine/Tile.lean ====
section
/-!
DEFINITION. Machine/Tile.lean: tile handles, their granules and the accesses that wait for full/empty bits
(10 R170-R174, 09 R154-R158, 11 R193, 15 R269).
-/

namespace Sys2Proof.Machine

/-! ## Tile-table entries (15 R269) -/

/-- Is the handle bound. -/
def eAlloc (e : BitVec 128) : Bool := e.getLsbD 0
/-- Is the handle bound by .chute. -/
def eChute (e : BitVec 128) : Bool := e.getLsbD 2
/-- Level of a handle. -/
def eLevel (e : BitVec 128) : Nat := bits e 63 62
/-- Element width in bytes. -/
def eWidth (e : BitVec 128) : Nat := 2 ^ bits e 61 59
/-- Rows of a handle. -/
def eRows (e : BitVec 128) : Nat := bits e 58 47 + 1
/-- Columns of a handle. -/
def eCols (e : BitVec 128) : Nat := bits e 46 35 + 1
/-- Row pitch in bytes (10 R173). -/
def ePitch (e : BitVec 128) : Nat := (eCols e * eWidth e + 15) / 16 * 16
/-- Bytes that a handle occupies (10 R173). -/
def eBytes (e : BitVec 128) : Nat := eRows e * ePitch e
/-- Byte offset of an element in its handle (10 R173). -/
def eOff (e : BitVec 128) (row col : Nat) : Nat := row * ePitch e + col * eWidth e

/-! ## Places: the storage of a handle is the owner's, or a chute's on its core -/

/-- The place of handle h of workgroup g. -/
def handlePlace (g h : Nat) : Nat := 2 * (64 * g + h)
/-- The place of a chute. -/
def chutePlace (key : Nat) : Nat := 2 * key + 1
/-- The key of the chute on handle h of a launch on a core with a producing stage: chutes of disjoint stages may share a handle (14 R255). -/
def chuteKey (pk : Nat) (serial : Word) (core h stage : Nat) : Nat := (((pk * 2 ^ 32 + serial.toNat) * 4096 + core) * 64 + h) * 8 + stage
/-- The shape of a chute as a tile-table entry's (14 R255). -/
def chuteEntry (c : Chute) : BitVec 128 :=
  BitVec.ofNat 128 (Nat.log2 c.width * 2 ^ 59 + c.slotsM1.toNat * 2 ^ 47 + c.colsM1 * 2 ^ 35 + 5)

namespace State

/-- A granule of a place. -/
def gran (s : State) (place i : Nat) : Granule :=
  if place % 2 = 0 then (s.wgAt (place / 128)).granuleAt (place / 2 % 64) i
  else Store.get Granule.empty (s.chuteAt (place / 2)).granule i
/-- Write a granule of a place. -/
def setGran (s : State) (place i : Nat) (x : Granule) : State :=
  if place % 2 = 0 then s.updWg (place / 128) (fun w => w.setGranule (place / 2 % 64) i x)
  else s.updChute (place / 2) (fun c => { c with granule := Store.set Granule.empty c.granule i x })
/-- Set or clear the full bit of a granule. -/
def setFull (s : State) (place : Nat) (full : Bool) (i : Nat) : State :=
  s.setGran place i { s.gran place i with full := full }
/-- A byte of a place. -/
def placeByte (s : State) (place off : Nat) : Byte := (s.gran place (off / 16)).data.extractLsb' (8 * (off % 16)) 8
/-- n bytes of a place, little-endian. -/
def placeBytes (s : State) (place off : Nat) : Nat → Nat
  | 0 => 0
  | n + 1 => (s.placeByte place off).toNat + 256 * placeBytes s place (off + 1) n

/-- Bytes of a granule replaced where the mask is set. A whole write clears poison (11 R188). -/
def mergeGran (x : Granule) (mask : BitVec 16) (data : BitVec 128) : Granule :=
  let m : BitVec 128 := (List.range 16).foldl (fun a b => if mask.getLsbD b then a ||| (0xFF#128 <<< (8 * b)) else a) 0
  { x with data := (x.data &&& ~~~m) ||| (data &&& m), poison := x.poison && mask != 0xFFFF#16 }

/-- Write n bytes at an offset of a place, within one granule. -/
def writePlace (s : State) (place off n x : Nat) : State :=
  let mask : BitVec 16 := BitVec.ofNat 16 ((2 ^ n - 1) <<< (off % 16))
  let data : BitVec 128 := BitVec.ofNat 128 ((x % 256 ^ n) <<< (8 * (off % 16)))
  s.setGran place (off / 16) (mergeGran (s.gran place (off / 16)) mask data)

/-- Could a write of part of a granule not be performed, because the granule is poisoned (11 R188). -/
def granRefuses (s : State) (place i : Nat) (mask : BitVec 16) : Bool := (s.gran place i).poison && mask != 0xFFFF#16

/-! ## Naming a handle -/

/-- What a handle operand names (09 R154, checks 2 and 3): a place with its entry, a sibling to wait for, or code 07. -/
inductive TileAns where
  | ok (place : Nat) (e : BitVec 128)
  | wait
  | bad
  deriving DecidableEq, Repr

/-- The workgroup at pen offset (dx, dy) of workgroup g's pen (03 R41, R42). -/
def penMember (s : State) (g dx dy : Nat) : Option (Nat × Wg) :=
  let w := s.wgAt g
  let l := s.launchAt w.launchKey
  s.wg.find? (fun e => e.2.launchKey == w.launchKey && e.2.stage == w.stage && e.2.wz == w.wz &&
    e.2.wx == w.wx / l.pw * l.pw + dx && e.2.wy == w.wy / l.ph * l.ph + dy && e.2.res != .none)

/-- The chute that handle h names for a stage of a launch on a core: the one of which the stage is the producer or the consumer (14 R260). -/
def chuteFor (s : State) (pk : Nat) (serial : Word) (core h stage : Nat) : Nat :=
  (((List.range 8).map (chuteKey pk serial core h)).find? (fun k =>
    let c := s.chuteAt k
    c.live && (c.fromStage == stage || c.toStage == stage))).getD (chuteKey pk serial core h stage)
/-- The place of handle h of workgroup g. -/
def placeOf (s : State) (g h : Nat) : Nat :=
  let w := s.wgAt g
  if eChute (w.entryOf h) then chutePlace (s.chuteFor w.paddock w.serial w.core h w.stage) else handlePlace g h

/-- Resolve a handle operand of workgroup g. -/
def tileRef (s : State) (g h : Nat) (r : TileRef) : TileAns :=
  let w := s.wgAt g
  let l := s.launchAt w.launchKey
  if r.sib = 0#1 then
    if eAlloc (w.entryOf h) then .ok (s.placeOf g h) (w.entryOf h) else .bad
  else if l.pw ≤ r.dx.toNat ∨ l.ph ≤ r.dy.toNat then .bad
  else
    match s.penMember g r.dx.toNat r.dy.toNat with
    | none => .bad
    | some (k, m) =>
      if m.res = .ended then .bad
      else if eAlloc (m.entryOf h) then .ok (s.placeOf k h) (m.entryOf h) else .wait

/-! ## Tile sides of class 4 units (11 R204, R206, R213) -/

/-- What a tile side names now: a place with its entry, a sibling to wait for, a freed handle, a pen member that has
ended (11 R206, R213, 15 R271). -/
inductive TileNow where
  | ok (place : Nat) (e : BitVec 128)
  | wait
  | freed
  | gone
  deriving DecidableEq, Repr

/-- A key that no workgroup has. -/
def noWg : Nat := 2 ^ 60

/-- The handle of a tile side as it stands. -/
def tileNow (s : State) (g : Nat) (i : WgId) (h : Nat) (sib : Bool) : TileNow :=
  let w := s.wgAt g
  if !s.issuerLives g i then (if sib then .gone else .freed)
  else if eAlloc (w.entryOf h) then .ok (s.placeOf g h) (w.entryOf h)
  else if sib then .wait else .freed

/-- The granule of a tile side, when its handle is bound. -/
def sideGran (s : State) : UnitSide → Option (Nat × Nat)
  | .tile g i h r c sib =>
    match s.tileNow g i h sib with
    | .ok place e => some (place, eOff e r c / 16)
    | _ => none
  | .chute key r c => if (s.chuteAt key).live then some (chutePlace key, eOff (chuteEntry (s.chuteAt key)) r c / 16) else none
  | _ => none

/-- A handle is unbound under the class 4 operations that name it (15 R271): what they have still to read or write there stays
with the old binding, which is gone. -/
def unbindSides (s : State) (g h : Nat) : State :=
  let side : UnitSide → UnitSide
    | .tile g' i h' r c sib => if g' = g ∧ h' = h then .tile noWg i h r c false else .tile g' i h' r c sib
    | x => x
  { s with async := s.async.map (fun (a : AsyncOp) =>
      { a with units := a.units.map (fun u => { u with src := side u.src, dst := side u.dst }) }) }

/-- The workgroup whose storage a place is: its owner, or one of the workgroups that share a chute. -/
def placeWg (s : State) (place : Nat) : Wg :=
  if place % 2 = 0 then s.wgAt (place / 128)
  else
    let c := s.chuteAt (place / 2)
    ((s.wg.find? (fun e => e.2.core == c.core && e.2.paddock == c.paddock && e.2.serial == c.serial &&
      eChute (e.2.entryOf c.handle))).map Prod.snd).getD { Wg.none with core := c.core, paddock := c.paddock, serial := c.serial }
/-! ## Waiting tile accesses -/

/-- The granules that a unit writes: that of its element, or all that its row may reach. -/
def unitGrans (s : State) (u : AUnit) : List (Nat × Nat) :=
  match u.dst with
  | .tile g i h r c sib =>
    match s.tileNow g i h sib with
    | .ok place e => (List.range (if u.row then ePitch e / 16 else 1)).map (fun n => (place, eOff e r c / 16 + n))
    | _ => []
  | x => ((s.sideGran x).map (fun g => [g])).getD []
/-- Has an operation among those that f chooses one of these granules still to write. -/
def writesTo (s : State) (f : AsyncOp → Bool) (gs : List (Nat × Nat)) : Bool :=
  s.async.any (fun a => f a && (match a.kind with
    | .cpchute _ none => false
    | _ => a.units.any (fun u => u.st == .pending && (s.unitGrans u).any gs.contains)))
/-- Has a waiting tile instruction one of these granules still to access; of a handle that is not bound yet, any. -/
def waitsAt (s : State) (t : TileWait) (gs : List (Nat × Nat)) : Bool :=
  match t.on with
  | .handle key h => gs.any (fun x => x.1 == s.placeOf key h)
  | _ => t.grans.any gs.contains
/-- Accesses of one span to one granule take effect in issue order (09 R158): has an operation that the issuing span issued
earlier one of these granules still to write, or a tile instruction of another of its issue sets that waits since before one still to
access. -/
def tileBusy (s : State) (gs : List (Nat × Nat)) : Bool :=
  s.writesTo (fun a => a.g == s.focus.g && a.id == wgId s.here && a.sp == s.focus.sp &&
    s.span.tileWait.all (fun t => t.own != s.lanes || decide (a.uid < t.seq))) gs ||
    (s.span.tileWait.takeWhile (fun t => t.own != s.lanes)).any (fun t => s.waitsAt t gs)
/-- Must an engine's write for a span go after a tile instruction of the span that was issued before the operation (09 R158). -/
def tileFirst (s : State) (a : AsyncOp) (gs : List (Nat × Nat)) : Bool :=
  s.issuerLives a.g a.id && (s.spanAt a.g a.sp).tileWait.any (fun t => decide (t.seq ≤ a.uid) && s.waitsAt t gs)

/-- Has the tile instruction of the issuing set begun to wait. -/
def tileBegun (s : State) : Bool := s.span.tileWait.any (fun t => t.own == s.lanes)
/-- How far the tile instruction of the issuing set has come: what is kept of it, else its start. -/
def tileProg (s : State) (t : TileWait) : TileWait := (s.span.tileWait.find? (fun t => t.own == s.lanes)).getD t
/-- A tile instruction of the issuing set at its start, with the operands that it reads. -/
def tileStart (s : State) (active : Lanes) (cfg : Dword) (elems : List (Nat × Nat × Nat)) (vals : List (Nat × Nat)) (dests : List RegName)
    (k : Nat) : TileWait :=
  { own := s.lanes, on := .none, lanes := 0, served := 0, wrote := [], failed := [], active := active, cfg := cfg, elems := elems,
    vals := vals, dests := dests, ctr := k, seq := s.opSeq }
/-- The lanes that will fault. -/
def failsOf (t : TileWait) : Lanes := lanesWhere (fun l => t.failed.any (fun e => e.1 == l))

/-- The tile instruction waits at its word and is taken up again: nothing later of its issue set issues (04 R74; log 70). Its counter has
risen at its issue (09 R155, 11 R193). -/
def tileWaits (s : State) (t : TileWait) : State :=
  s.updSpan (fun sp => { sp with
    wait := t.on
    tileWait := if s.tileBegun then sp.tileWait.map (fun x => if x.own == s.lanes then t else x) else sp.tileWait ++ [t]
    k := if !s.tileBegun && decide (t.ctr < 6) then Store.upd 0 sp.k t.ctr (fun n => n + 1) else sp.k })
/-- The tile instruction waits no more: the counter that it raised falls, or stays up for the result that is outstanding; where it has
waited for a full/empty bit, one such wait is over (16 R293). -/
def tileOver (s : State) : State :=
  match s.span.tileWait.find? (fun x => x.own == s.lanes) with
  | some t =>
    (s.updSpan (fun sp => { sp with tileWait := sp.tileWait.filter (fun x => x.own != s.lanes),
                                    k := if t.ctr < 6 then Store.upd 0 sp.k t.ctr (fun n => n - 1) else sp.k })).updHere
      (fun w => { w with progFe := match t.on with
        | .granule _ _ => w.progFe + 1
        | _ => w.progFe })
  | none => s
/-- A core that writes a granule brings its clock to the core whose tile memory holds it: setting a full bit is a release (12 R223, 09 R158). -/
def tileTell (s : State) (place : Nat) : State := s.hearClock (s.placeWg place).core (Store.get 0 s.lamport s.here.core)
/-- A core that has observed a full bit hears the clock of the core whose tile memory holds it (12 R223, 09 R158). -/
def tileHear (s : State) (place : Nat) : State := s.hearClock s.here.core (Store.get 0 s.lamport (s.placeWg place).core)
/-- A sibling's handle that is waited for (01 R21). -/
def handleWait (s : State) (r : TileRef) (h : Nat) : WaitKind :=
  .handle (((s.penMember s.focus.g r.dx.toNat r.dy.toNat).map Prod.fst).getD noWg) h

/-- The issuing span with one more result outstanding. -/
def addPend (s : State) (k : BitVec 3) (S : Lanes) (dests : List RegName) (ws : List RegWrite) : State :=
  s.updSpan (fun sp => sp.addPending k.toNat S dests ws)

/-! ## Error entries of the issuing set (01 R18, 15 R281) -/

/-- The address by which an error entry names granule i of a handle with entry e of a workgroup (15 R281): core and byte
offset at levels 0 and 1; the pinned line at level 2 and in a park image. -/
def granAddr (s : State) (w : Wg) (e : BitVec 128) (i : Nat) : Dword :=
  let l := s.launchAt w.launchKey
  let place := bits e 127 64
  let n := l.pw * l.ph
  let named (core off : Nat) : Dword := BitVec.ofNat 64 (0xF * 2 ^ 60 + core * 2 ^ 48 + off % 2 ^ 48)
  if eLevel e = 2 ∨ (eLevel e = 0 ∧ w.res = .parked) then BitVec.ofNat 64 ((place + 16 * i) / 128 * 128)
  else if eLevel e = 1 then
    let m := i % n
    named (w.core - w.member l % l.pw - 64 * (w.member l / l.pw) + m % l.pw + 64 * (m / l.pw)) (16 * (place + i / n))
  else named w.core (16 * (place + i))

/-- The name of granule i of a place in an error entry. -/
def granName (s : State) (place i : Nat) : Dword :=
  let w := s.placeWg place
  s.granAddr w (w.entryOf (if place % 2 = 0 then place / 2 % 64 else (s.chuteAt (place / 2)).handle)) i

/-- An error-log entry of the issuing workgroup. -/
def logHere (s : State) (addr : Dword) (code kind : Nat) : State :=
  let w := s.here
  s.logError w.paddock addr s.launchHere.rank w.core code kind s.span.lastStop
/-- The issuing workgroup's access has met the poison of a granule. -/
def logGran (s : State) (place i : Nat) : State := s.logHere (s.granName place i) 9 1

/-- Register writes of one lane's element of size bytes. -/
def elemWrites (size d l x : Nat) : List RegWrite :=
  (List.range (size / 4)).map (fun i => .v (d + i) l (BitVec.ofNat 32 (x >>> (32 * i))))

end State
end Sys2Proof.Machine
end

