-- ==== Sys2Proof/Machine/Access.lean ====
section
/-!
DEFINITION. Machine/Access.lean: one access of an issue set to memory named by address: the checks of 11 R186 on every lane, then
the transaction of each line, for loads, stores, atomics, reductions and drift reductions (11 R187-R198), with Lamport
stamps (12 R223), window counters (16 R291) and Rime records (17 R306). Each line is a request of its own: a line that must be
waited for is asked for, and the others are performed.
-/

namespace Sys2Proof.Machine

/-! ## Homes -/

/-- Codes of requests in Rime records, in the order of 13 R236 (log 24). -/
inductive ReqCode where
  | getS | getX | upg | drGet | amo | wrLine | putE | putM | putO | redOp
  deriving DecidableEq, Repr
/-- The number of a request code. -/
def ReqCode.num : ReqCode → Nat
  | .getS => 0 | .getX => 1 | .upg => 2 | .drGet => 3 | .amo => 4 | .wrLine => 5 | .putE => 6 | .putM => 7 | .putO => 8
  | .redOp => 9

namespace State

/-- A record of a line's home (17 R306): unit 0x07 home slice, 0x08 drift merge. -/
def emitHome (s : State) (typ unit line : Nat) (pk : Option Nat) (ord : BitVec 20) (timing : Bool) (w3 : Dword)
    (carried : Dword) : State :=
  let h := homeSlice line
  s.emit typ unit (h % 16) (h / 16) pk (if pk.isSome then ord else 0xFFFFF) timing (BitVec.ofNat 64 (128 * line)) w3 carried

/-- The paddock that a merge is attributed to (17 R309): the request's, unless its partials come from two paddocks. -/
def mergePk (s : State) (d : DirEntry) (pk : Option Nat) : Option Nat :=
  let ps := (s.paddock.filter (fun e => e.2.resident && (members d).any (fun p =>
    decide (p.toNat < 4096) && decide (e.2.cfg.ox ≤ p.toNat % 64) && decide (p.toNat % 64 < e.2.cfg.ox + e.2.cfg.w) &&
      decide (e.2.cfg.oy ≤ p.toNat / 64) && decide (p.toNat / 64 < e.2.cfg.oy + e.2.cfg.h)))).map Prod.fst
  if 2 ≤ ps.length then none else pk

/-- The greatest stamp among the messages of a drift line's merge (17 R302): the request's, and those of the holders' partials. -/
def mergeStamp (s : State) (line : Nat) (c0 : Dword) : Dword :=
  (s.copiesOf line).foldl (fun a e => if e.2.state = .D then maxD a (s.coreStamp e.1) else a) c0

/-- The records that drift leaves (17 R306), by the entry before and after: merged, switched, entered. c0 is the request's stamp. -/
def traceDriftBy (s0 s2 : State) (line : Nat) (pk : Option Nat) (ord : BitVec 20) (c0 : Dword) : State :=
  let a := s0.dirAt line
  let b := s2.dirAt line
  let c := s0.mergeStamp line c0
  let sw := a.state = .D ∧ b.state = .D ∧ a.tag ≠ b.tag
  let q := s0.mergePk a pk
  let s3 := if a.state = .D ∧ (b.state ≠ .D ∨ sw) then
      (s2.emitHome 0x31 0x08 line q ord false (BitVec.ofNat 64 (members a).length) c0).emitHome 0x32 0x08 line q ord false
        (BitVec.ofNat 64 (a.tag.op.toNat + if b.state = .P then 8 else 0)) c
    else s2
  let s4 := if sw then s3.emitHome 0x33 0x08 line q ord false (BitVec.ofNat 64 (a.tag.op.toNat + 16 * b.tag.op.toNat)) c else s3
  if b.state = .D ∧ (a.state ≠ .D ∨ sw) then s4.emitHome 0x30 0x08 line pk ord false (BitVec.ofNat 64 b.tag.op.toNat) c else s4

/-- The same for an instruction of a core, whose merges it counts (16 R296). -/
def traceDrift (s0 s2 : State) (line core : Nat) (pk : Option Nat) (ord : BitVec 20) : State :=
  let merged := (s0.dirAt line).state = .D ∧ ((s2.dirAt line).state ≠ .D ∨ (s0.dirAt line).tag ≠ (s2.dirAt line).tag)
  traceDriftBy s0 (if merged then s2.count core 28 1 else s2) line pk ord (s0.coreStamp core)

/-- The record of a request served for a party (17 R306), under the request's attribution, and that of a sharer set gone coarse. -/
def traceServed (s0 s1 : State) (line who : Nat) (pk : Option Nat) (ord : BitVec 20) (r : ReqCode) (c : Dword) (drift : State → State) : State :=
  let a := s0.dirAt line
  let b := s1.dirAt line
  let s2 := drift (s1.emitHome 0x28 0x07 line pk ord false
    (BitVec.ofNat 64 (r.num + 2 ^ 4 * a.state.code.toNat + 2 ^ 8 * b.state.code.toNat + 2 ^ 12 * who)) c)
  if b.coarse && !a.coarse then s2.emitHome 0x29 0x07 line pk ord false (BitVec.ofNat 64 who) c else s2
/-- The records of a core's request that its home serves. -/
def traceHome (s0 s1 : State) (line core : Nat) (pk : Option Nat) (ord : BitVec 20) (r : ReqCode) : State :=
  traceServed s0 s1 line core pk ord r (s0.coreStamp core) (fun s2 => traceDrift s0 s2 line core pk ord)
/-- Those of a request that another device's packet makes: of none of this device's paddocks (log 22). -/
def tracePeer (s0 s1 : State) (line who : Nat) (r : ReqCode) (c : Dword) : State :=
  traceServed s0 s1 line who none 0xFFFFF r c (fun s2 => traceDriftBy s0 s2 line none 0xFFFFF c)

/-! ## Errors -/

/-- An access of the issuing set meets an error response from a unit: log entry and record (01 R18). -/
def errHere (s : State) (addr : Dword) (code kind : Nat) (src : Source) : State :=
  (s.logHere addr code kind).emit 0x4B src.1 src.2.1 src.2.2 (some s.here.paddock) s.span.lastStop false addr
    (BitVec.ofNat 64 (code + 256 * kind)) (s.coreStamp s.here.core)
/-- An error response of a line's home to the issuing set, with its code. -/
def errLine (s : State) (addr : Dword) (line code kind : Nat) : State := s.errHere addr code kind (errSource s.steps kind line)
/-- A refusal that reaches the issuing set from another device. -/
def errFar (s : State) (addr : Dword) (scope : Nat) : State := s.errHere addr 10 5 (portSrc s.steps (dieOf s.here.core) scope)

/-! ## Window counters (16 R291) -/

/-- Bytes have landed in a window. -/
def landed (s : State) (pk wi n : Nat) : State :=
  s.updPk pk (fun p => { p with window := Store.upd Window.none p.window wi (fun w => { w with landed := w.landed + BitVec.ofNat 64 n }) })
/-- Bytes of a launch have been acknowledged: counted in its own window of the region, if it has one. -/
def acked (s : State) (pk : Nat) (serial : Word) (region n : Nat) : State :=
  match s.windowOf pk serial region with
  | none => s
  | some (wi, _) => s.updPk pk (fun p =>
      { p with window := Store.upd Window.none p.window wi (fun w => { w with acked := w.acked + BitVec.ofNat 64 n }) })
/-- A plain store or put unit of n bytes of a launch to address a has been placed through a window (16 R291). -/
def countStore (s : State) (pkn : Nat) (serial : Word) (a : Dword) (win : Option (Nat × Nat)) (n : Nat) : State :=
  match win with
  | none => s
  | some (pk, wi) => (s.landed pk wi n).acked pkn serial (bits a 40 36) n

/-! ## Packets to other devices -/

/-- The key number under which a launch's packets for a region travel in page mode: its window's (19 R341). -/
def keyOf (s : State) (pkn : Nat) (serial : Word) (region : Nat) : BitVec 16 :=
  match s.windowOf pkn serial region with
  | some (_, x) => x.key
  | none => 0
/-- Is the pod one trust domain, as every paddock's entry marks it: then its links are in hop mode (19 R341). -/
def hopOn (s : State) : Bool :=
  s.paddock.any (fun e => e.2.cfg.valid) && s.paddock.all (fun e => !e.2.cfg.valid || e.2.cfg.trustDomain)
/-- How a packet for a global address is encrypted (19 R341): in page mode at the remote scope, and in the pod when the target's page has C
set, which only the target knows and which is free (log 67). -/
def cryptFor (s : State) (pkn scope : Nat) (a : Dword) : Crypt :=
  if scope = 2 then .page
  else if Config.podLine s.podMap (s.pk pkn).cfg.job.toNat (bits a 62 41) (bits a 40 36) (2 ^ 37 + bits a 35 0 / 4096) % 2 = 1 then .page
  else if s.hopOn then .hop else .clear
/-- A packet of a launch for a global address, from a core; only one of the pod carries a Rime stamp (17 R302). -/
def packetFor (s : State) (pkn : Nat) (serial : Word) (core scope : Nat) (a : Dword) (kind : PacketKind) : Packet :=
  let key := s.keyOf pkn serial (bits a 40 36)
  let mode := s.cryptFor pkn scope a
  { job := (s.pk pkn).cfg.job, rank := BitVec.ofNat 22 (bits a 62 41), region := BitVec.ofNat 5 (bits a 40 36), off := bits a 35 0
    key := key, peer := s.slotId, tag := s.remoteTag, kind := kind, stamp := if scope = 2 then 0 else s.coreStamp core
    far := decide (scope = 2), mode := mode, seq := if mode = .page then Store.get 0 s.pktCount key.toNat else 0
    codes := match kind with
      | .write bs => carriageCodes a bs
      | _ => [] }
/-- Has the packet counter reached its end under the key of a page-mode packet: no packet leaves until the key is replaced (19 R341). -/
def keySpent (s : State) (pkn : Nat) (serial : Word) (scope : Nat) (a : Dword) : Bool :=
  s.cryptFor pkn scope a == .page && decide (2 ^ 64 - 1 ≤ Store.get 0 s.pktCount (s.keyOf pkn serial (bits a 40 36)).toNat)

/-- The next packet of a paddock leaves; its tag and its number under the key are used up, and its destination is among the 1,024 hot ones
(15 R276). -/
def sendPacket (s : State) (pkn : Nat) (p : Packet) : State :=
  let dst := pkn * 2 ^ 22 + p.rank.toNat
  { s with outbox := s.outbox ++ [.packet p], remoteTag := s.remoteTag + 1,
           pktCount := if p.mode = .page then Store.set 0 s.pktCount p.key.toNat (p.seq + 1) else s.pktCount
           hotDest := (dst :: s.hotDest.filter (fun x => x != dst)).take 1024 }

/-- A packet that is kept until it is acknowledged (15 R276). -/
def sendKept (s : State) (pkn : Nat) (serial : Word) (core : Nat) (ordinal : BitVec 20) (scope : Nat) (a : Dword) (n : Nat)
    (counts : Bool) (kind : PacketKind) : State :=
  let p := s.packetFor pkn serial core scope a kind
  let r : RemoteReq := ⟨s.remoteTag, dieOf core, decide (scope = 2), pkn, serial, core, ordinal, a, n, counts, p⟩
  { (s.sendPacket pkn p) with remote := s.remote ++ [r] }
/-- A kept packet of the issuing set. -/
def sendHere (s : State) (scope : Nat) (a : Dword) (n : Nat) (counts : Bool) (kind : PacketKind) : State :=
  s.sendKept s.here.paddock s.here.serial s.here.core s.span.lastStop scope a n counts kind

/-- The packet of the issuing launch for a global address of another pod leaves. -/
def sendFor (s : State) (a : Dword) (kind : PacketKind) : State :=
  s.sendPacket s.here.paddock (s.packetFor s.here.paddock s.here.serial s.here.core 2 a kind)

/-- Has the die room for n more outstanding packets of the scale-out port (15 R276). -/
def portFree (s : State) (die scope n : Nat) : Bool :=
  scope != 2 || decide ((s.remote.filter (fun r => r.scaleOut && r.die == die)).length + n ≤ Config.outstandingPackets)

/-! ## Lamport stamps (12 R223, 16 R295) -/

/-- Take the next stamp of a core for an sc event at a line: one more than its clock, after any greater stamp that the
home has performed; a home that has performed none has no key. None while the lead limit holds it back. -/
def scStamp (s : State) (core : Nat) (line : Option Nat) : Option State :=
  let c : BitVec 48 := Store.get 0 s.lamport core + 1
  let t := match line with
    | none => c
    | some n =>
      let k := Store.get 0 s.homeKey n
      let ks : BitVec 48 := k.extractLsb' 13 48
      if k ≠ 0 ∧ (precedes c ks ∨ (c = ks ∧ core < (k.extractLsb' 0 13).toNat)) then ks + 1 else c
  if !precedes t s.beacon && t != s.beacon && decide (2 ^ 44 < (t - s.beacon).toNat) then none
  else
    let s1 := { s with lamport := Store.set 0 s.lamport core t }
    match line with
    | none => some s1
    | some n =>
      some ({ (s1.hearSlice n t) with homeKey := Store.set 0 s1.homeKey n (t ++ BitVec.ofNat 13 core) }.emitHome 0x2B 0x07 n
        (some s.here.paddock) s.span.lastStop false (BitVec.ofNat 64 (t.toNat + 2 ^ 48 * core)) (s.coreStamp core))
/-- Is an access stamped: order sc at device scope or wider (12 R223; log 25). -/
def stamped (m : MemMod) : Bool := m.order == 4#3 && decide (3 ≤ m.scope.toNat)
/-- Take the stamp of one line of an sc instruction of the issuing core; pod scope waits for the first PTP lock. A lane at the remote
scope is performed as relaxed and takes none (11 R191). -/
def scLine (s : State) (m : MemMod) (line : Nat) : Option State :=
  if !stamped m then some s
  else if decide (4 ≤ m.scope.toNat) && !s.ptpEver then none
  else s.scStamp s.here.core (some line)

/-! ## Checks of every lane (11 R186) -/

/-- The address of lane l (11 R183). -/
def laneAddr (s : State) (b : BitVec 6) (i : BitVec 7) (off : BitVec 20) (l : Nat) : Dword :=
  s.span.sr b + (s.span.vr i.toNat l).signExtend 64 + off.signExtend 64

/-- The lanes whose address names a line of this device or its pod, with their translation and window. -/
abbrev Phys := List (Nat × Xlat × Option (Nat × Nat))

/-- Check the addresses of the lanes of S in lane order. -/
def checkLanes (s : State) (S : Lanes) (addr : Nat → Dword) (size align : Nat) (acc : Access) (page : Bool) :
    State × List (Nat × Look Target) :=
  (lanesOf S).foldl (fun (a : State × List (Nat × Look Target)) l =>
    let (s', t) := a.1.checkAddr s.here.core s.here.paddock s.asid (addr l) size align acc s.privileged page
    (s', a.2 ++ [(l, t)])) (s, [])

/-- The lanes whose address lies in another pod. -/
def farLanes (ts : List (Nat × Look Target)) : List (Nat × Nat) :=
  ts.filterMap (fun t => match t.2 with
    | .ok (.far sc) => some (t.1, sc)
    | _ => none)
/-- The lanes whose address names a line. -/
def physLanes (ts : List (Nat × Look Target)) : Phys :=
  ts.filterMap (fun t => match t.2 with
    | .ok (.phys x w) => some (t.1, x, w)
    | _ => none)
/-- The lanes that failed a check, with their codes. -/
def badLanes (ts : List (Nat × Look Target)) : List (Nat × Byte) :=
  ts.filterMap (fun t => match t.2 with
    | .error c => some (t.1, c)
    | _ => none)
/-- Does a lane's walk wait for a line. -/
def walkWaits (ts : List (Nat × Look Target)) : Bool := ts.any (fun t => match t.2 with
  | .wait _ => true
  | _ => false)
/-- The distinct lines among physical addresses, in order. -/
def linesOf (ps : Phys) : List Nat :=
  (ps.map (fun p => p.2.1.pa / 128)).foldl (fun a n => if a.contains n then a else a ++ [n]) []

/-! ## Progress of one instruction over its lines -/

/-- What has been done so far: the state, faulting lanes with codes, values of lanes, lines that must be waited for, the span-wide operand
and the addresses read at issue, the requests that are under way. -/
structure Acc' where
  s : State
  bad : List (Nat × Byte)
  vals : List (Nat × Nat)
  waits : List Nat
  arg : Dword
  addrs : List (Nat × Dword)
  sent : List Sent

/-- The faulting lanes. -/
def faultSet (bad : List (Nat × Byte)) : Lanes := lanesWhere (fun l => bad.any (fun b => b.1 == l))
/-- The code of a faulting lane: its first. -/
def faultCode (bad : List (Nat × Byte)) (l : Nat) : Byte := ((bad.find? (fun b => b.1 == l)).map Prod.snd).getD 0
/-- No line: the instruction waits before its checks are over. -/
def noLine : Nat := 2 ^ 60

/-- How far the memory instruction of the issuing set has come, when it has begun and waits. -/
def memProg (s : State) : Option MemWait := s.span.memWait.find? (fun w => w.own == s.lanes)
/-- The address of a lane: the one read at issue, of an instruction that has begun and waits. -/
def addrOr (s : State) (addr : Nat → Dword) (l : Nat) : Dword :=
  match s.memProg with
  | some w => ((w.addrs.find? (fun e => e.1 == l)).map Prod.snd).getD (addr l)
  | none => addr l
/-- The memory instruction waits no more: the counter that it raised falls, or stays up for the result that is outstanding. -/
def memOver (s : State) : State :=
  match s.memProg with
  | some w => s.updSpan (fun sp => { sp with memWait := sp.memWait.filter (fun w => w.own != s.lanes),
                                             k := if w.ctr < 6 then Store.upd 0 sp.k w.ctr (fun n => n - 1) else sp.k })
  | none => s
/-- The instruction, whose result is counted by counter k (7 for none), waits: what it has done is kept, unless it has not passed its
checks; the counter has risen at its issue (11 R187). -/
def memWaits (k : Nat) (a : Acc') (ps : Phys) : State :=
  if a.waits.contains noLine then a.s
  else a.s.updSpan (fun sp => { sp with
    memWait := sp.memWait.filter (fun w => w.own != a.s.lanes) ++ [⟨a.s.lanes, a.bad, a.vals, ps, a.waits, a.arg, a.addrs, a.sent, k⟩]
    k := if a.s.memProg.isNone ∧ k < 6 then Store.upd 0 sp.k k (fun n => n + 1) else sp.k })
/-- Must a counted instruction wait to issue: its counter stands at 63 (05 R77), and it has not begun. -/
def counterFull (s : State) (k : BitVec 3) : Bool := k != 7#3 && decide (63 ≤ s.span.kc k.toNat) && s.memProg.isNone
/-- The address of a lane as the instruction read it at issue. -/
def laneAt' (a : Acc') (addr : Nat → Dword) (l : Nat) : Dword := ((a.addrs.find? (fun e => e.1 == l)).map Prod.snd).getD (addr l)
/-- Does an instruction of a core wait for a copy of a line, which the core then holds until it has been performed (13 R240). -/
def awaited (s : State) (core line : Nat) : Bool :=
  s.wg.any (fun e => e.2.core == core && e.2.res == .resident && (s.pk e.2.paddock).resident && e.2.span.any (fun q =>
    q.2.memWait.any (fun w => w.left.contains line && !w.sent.any (fun x => x.line == line))))

/-- The issuing set. -/
def me (s : State) : SpanRef := ⟨s.focus.g, s.focus.sp, s.lanes⟩
/-- Lanes of a line meet an error response with a code. -/
def lineError (a : Acc') (addr : Nat → Dword) (line : Nat) (ls : List Nat) (code kind : Nat) : Acc' :=
  { a with s := ls.foldl (fun s l => s.errLine (addr l) line code kind) a.s, bad := a.bad ++ ls.map (fun l => (l, BitVec.ofNat 8 code)) }
/-- Has the line's home answered the issuing set's request with an error (13 R239): of which kind. -/
def failedFor (s : State) (line : Nat) : Option Nat :=
  let c := s.cacheAt s.here.core line
  if c.asker = some s.me then c.failed else none
/-- Lanes of a line meet the error with which its home, or the pod home, has answered. A poisoned line's is of kind 1. -/
def lineFails (a : Acc') (addr : Nat → Dword) (line : Nat) (ls : List Nat) : Acc' :=
  let kind := (a.s.failedFor line).getD (((a.s.proxyAt line).failed).getD 1)
  let b := lineError a addr line ls (errCode line) kind
  let c := b.s.cacheAt b.s.here.core line
  { b with s := ((if c.failed.isSome && c.state == .I then b.s.setCache b.s.here.core line CacheLine.none else b.s)).clearFail line }
/-- A line that must be waited for is asked for, with what the access needs of it. -/
def lineWaits (a : Acc') (line : Nat) (n : Need) : Acc' :=
  { a with s := a.s.ask a.s.here.core line n (some a.s.me), waits := a.waits ++ [line] }
/-- The request that the instruction has sent for a line. -/
def sentFor (a : Acc') (line : Nat) : Option Sent := a.sent.find? (fun x => x.line == line)
/-- The instruction has its answer for a line. -/
def answerTaken (a : Acc') (line : Nat) : Acc' := { a with sent := a.sent.filter (fun x => x.line != line) }

/-- A request that a line's home performs, Amo, RedOp or WrLine, leaves for it (13 R236): for the home slice, or, of another device's line,
for its pod home. The core's own copy goes first, silently from S, with its partials from D (13 R240); what this device holds of a pod
line in S or D goes back first. An sc request carries its stamp, the core's next one (12 R223), unless the lead limit or the PTP lock
holds it back. -/
def sendReq (m : MemMod) (a : Acc') (line : Nat) (msg : Msg) : Acc' :=
  let s := a.s
  let core := s.here.core
  let c := s.cacheAt core line
  let x := s.proxyAt line
  let n := s.steps + 1
  let out : Acc' := { a with waits := a.waits ++ [line] }
  if c.state.moving || (isPod line && x.state.moving) then out
  else if isPod line && (x.state == .S || x.state == .D) then { out with s := s.leaveProxy line 0 }
  else
    let s1 := if isPod line then s else match c.state with
      | .S => s.setCache core line CacheLine.none
      | .D => s.sendParts core line 0
      | _ => s
    match (if !stamped m then some s1 else if decide (4 ≤ m.scope.toNat) && !s.ptpEver then none else s1.scStamp core none) with
    | none => out
    | some s2 =>
      let own := s2.fromCoreFor core line (some s.me)
      let h : Hdr := if isPod line then { own with src := s2.mySlot, dst := s2.podHome line, pod := true } else own
      { out with s := s2.send { h with req := n, sc := stamped m } msg, sent := out.sent ++ [⟨line, n, none⟩] }

/-- What a lane's address names that its check has found: another device, or a line. -/
def targetLine (ts : List (Nat × Look Target)) (l : Nat) : Option Nat :=
  ts.findSome? (fun t => match t.2 with
    | .ok (.phys x _) => if t.1 = l then some (x.pa / 128) else none
    | _ => none)
/-- Lanes whose data fail their carriage check at acceptance (11 R188, 19 R340): code 09 from the line's home, 0A where that is another
device or the target lies in another pod. -/
def carriageHit (ts : List (Nat × Look Target)) (addr : Nat → Dword) (s : State) (l : Nat) : State :=
  match targetLine ts l with
  | some n => s.errLine (addr l) n (errCode n) 0
  | none => s.errHere (addr l) 10 0 (portSrc s.steps (dieOf s.here.core) 2)
/-- The lanes whose walk has met an error response, with its kind and the line that gave it (01 R18). -/
def failLanes (ts : List (Nat × Look Target)) : List (Nat × Nat × Nat) :=
  ts.filterMap (fun t => match t.2 with
    | .fail k n => some (t.1, k, n)
    | _ => none)

/-- An access of the issuing set begins, or goes on: its checks are made once (11 R186), a pod peer's refusals and the errors that walks
met are logged, lanes whose data fail the carriage check at acceptance fault and write nothing (11 R188), lanes of another pod are
served by far once the port has room for all their packets (15 R276), those under a key whose packet counter is at its end are refused (19
R341), and the lines to be performed follow. arg is the span-wide operand. -/
def start (s : State) (S : Lanes) (addr : Nat → Dword) (arg : Dword) (size : Nat) (acc : Access)
    (far : List (Nat × Nat) → Acc' → Nat × Nat → Acc') : Acc' × Phys × List Nat :=
  match s.memProg with
  | some w => (⟨s, w.bad, w.vals, [], w.arg, w.addrs, w.sent⟩, w.phys, w.left)
  | none =>
    let mine := (lanesOf S).map (fun l => (l, addr l))
    let (s1, ts) := s.checkLanes S addr size size acc false
    let hit := if acc = .write then (ts.filterMap (fun t => match t.2 with
      | .ok _ => some t.1
      | _ => none)).filter (fun l => laneIn s.carriage l) else []
    let fs := (farLanes ts).filter (fun f => !hit.contains f.1)
    let ps := (physLanes ts).filter (fun p => !hit.contains p.1)
    if walkWaits ts ∨ fs.any (fun t => !s.portFree (dieOf s.here.core) t.2 fs.length) then (⟨s1, [], [], [noLine], arg, mine, []⟩, [], [])
    else
      let s2 := ((badLanes ts).filter (fun b => b.2 == 0x0A#8)).foldl (fun a b => a.errFar (addr b.1) 1) s1
      let s3 := (failLanes ts).foldl (fun a f => a.errLine (addr f.1) f.2.2 (errCode f.2.2) f.2.1) s2
      let s4 := hit.foldl (carriageHit ts addr) s3
      let down := fs.filter (fun f => s.portDown (dieOf s.here.core) f.2)
      let spent := fs.filter (fun f => !s.portDown (dieOf s.here.core) f.2 && s.keySpent s.here.paddock s.here.serial f.2 (addr f.1))
      let s5 := spent.foldl (fun a f => a.errFar (addr f.1) f.2) s4
      let a0 : Acc' := ⟨down.foldl (fun a f => a.errHere (addr f.1) 9 4 (portSrc s.steps (dieOf s.here.core) f.2)) s5,
        badLanes ts ++ (failLanes ts).map (fun f => (f.1, BitVec.ofNat 8 (errCode f.2.2))) ++
          hit.map (fun l => (l, match targetLine ts l with
            | some n => BitVec.ofNat 8 (errCode n)
            | none => 0x0A#8)) ++ down.map (fun f => (f.1, 0x09#8)) ++ spent.map (fun f => (f.1, 0x0A#8)), [], [], arg, mine, []⟩
      ((fs.filter (fun f => !down.contains f && !spent.contains f)).foldl (far fs) a0, ps, linesOf ps)

/-- End of an instruction without register results: it waits, or it is complete on the lanes that did not fault. -/
def finish (a : Acc' × Phys) (addr : Nat → Dword) : Res :=
  if a.1.waits ≠ [] then .next (memWaits 7 a.1 a.2)
  else .next (a.1.s.memOver.raiseL (faultSet a.1.bad) (faultCode a.1.bad) (laneAt' a.1 addr))

/-- End of an instruction with register results, counted or not, on the lanes that did not fault. -/
def finishCounted (a : Acc' × Phys) (addr : Nat → Dword) (k : BitVec 3) (dests : List RegName) (wr : Nat → Nat → List RegWrite) : Res :=
  if a.1.waits ≠ [] then .next (memWaits k.toNat a.1 a.2)
  else
    let s := a.1.s.memOver
    let ws := a.1.vals.flatMap (fun v => wr v.1 v.2)
    let ok := s.lanes &&& ~~~(faultSet a.1.bad)
    let s1 := if k = 7#3 then s.writeRegs s.focus.g s.focus.sp ws
      else if ok = 0 then s
      else s.updSpan (fun sp => sp.addPending k.toNat ok dests ws)
    .next (s1.raiseL (faultSet a.1.bad) (faultCode a.1.bad) (laneAt' a.1 addr))

/-! ## Loads -/

/-- A load on the read-only path: the core's copy for this launch, or a new one (11 R190; log 26). -/
def loadRo (s : State) (line : Nat) : HomeAns :=
  let core := s.here.core
  if s.ro.any (fun c => c.core == core && c.line == line && c.launch == s.here.launchKey) then .ok s
  else if (s.dirAt line).state = .P ∨ s.podFailed line then .err
  else if !s.atHand line then .wait s
  else .ok { s with ro := s.ro ++ [⟨core, line, s.here.launchKey, s.handView line⟩] }
/-- The read-only copy of a line. -/
def roCopy (s : State) (line : Nat) : LineData :=
  ((s.ro.find? (fun c => c.core == s.here.core && c.line == line && c.launch == s.here.launchKey)).map (·.data)).getD 0

/-- A read that is not allocated in L1 (.l2only, 11 R185; class 4 sources), for a party: served from L2. -/
def loadHome (s : State) (p : BitVec 13) (line : Nat) (pk : Option Nat) : HomeAns :=
  match (if s.reservedFor p line then (if s.podFailed line then .err else if s.podOk line .read then .ok (s.roomAt line p pk) else .wait s)
    else match s.quietFor line .read with
      | .ok s' => .ok (if (s'.dirAt line).state = .D then s'.mergeHome line pk else s')
      | x => x : HomeAns) with
  | .ok s' => .ok (s'.answeredTo p line)
  | x => x

/-- Does the core hold the line readable. -/
def holds (s : State) (core line : Nat) : Bool := (s.cacheAt core line).state.readable
/-- A core's request as the pointer that names it. -/
def corePtr (core : Nat) : BitVec 13 := BitVec.ofNat 13 core
/-- Ask for a line for a load that is served from L2, of issue set q: a fill of the proxy that is invalidated on the way serves it (12 R225). -/
def askL2 (s : State) (core line : Nat) (q : SpanRef) : State :=
  let a := s.askHome (corePtr core) line .read
  if isPod line && (s.proxyAt line).state == .I && (a.proxyAt line).state == .IS then a.setProxy line { a.proxyAt line with asker := some q } else a

/-- One line of a load: its transaction, then the values of its lanes (11 R187). -/
def loadStep (m : MemMod) (size : Nat) (addr : Nat → Dword) (ps : Phys) (a : Acc') (line : Nat) : Acc' :=
  let mine := ps.filter (fun p => p.2.1.pa / 128 == line)
  let core := a.s.here.core
  let pk := some a.s.here.paddock
  match mine with
  | [] => a
  | p :: _ =>
    let ro := m.order == 5#3
    let hit := !ro && a.s.holds core line
    let l2 := m.hint == 3#3 && !hit && !ro
    if (a.s.failedFor line).isSome then lineFails a addr line (mine.map (·.1))
    else if !hit && a.s.unreachable p.2.1.pa then lineError a addr line (mine.map (·.1)) 9 (downKind p.2.1.pa)
    else
      let dead := !ro && fillServes (a.s.cacheAt core line) a.s.me
      let deadPod := !ro && !hit && !dead && isPod line && (a.s.cacheAt core line).state == .I && fillServes (a.s.proxyAt line) a.s.me
      let ans := if ro then a.s.loadRo line
        else if deadPod then .ok a.s
        else if l2 && !dead then a.s.loadHome (corePtr core) line pk
        else a.s.loadLine core line (tagsFor a.s.asid (addr p.1) p.2.1) pk a.s.me
      match ans, a.s.scLine m line with
      | .err, _ => lineFails a addr line (mine.map (·.1))
      | .wait _, _ =>
        if ro then { a with s := a.s.askHome 0x1FFF line .read, waits := a.waits ++ [line] }
        else if l2 then { a with s := a.s.askL2 core line a.s.me, waits := a.waits ++ [line] }
        else lineWaits a line .read
      | .ok _, none => { a with waits := a.waits ++ [line] }
      | .ok s', some _ =>
        if !hit && !dead && (s'.dirAt line).state = .P then lineFails { a with s := s' } addr line (mine.map (·.1))
        else
          let s2 := if ro || hit || dead || deadPod then s' else traceHome a.s s' line core pk a.s.span.lastStop .getS
          let d := if ro then s2.roCopy line else if deadPod then s2.memLine line else if l2 && !dead then s2.lineView line
            else (s2.cacheAt core line).data
          let s3 := if dead then s2.setCache core line CacheLine.none else if deadPod then s2.setProxy line CacheLine.none else s2
          let s4 := if ro then s3 else s3.count core (if hit then 23 else 24) 1
          { a with s := (s4.scLine m line).getD s4, vals := a.vals ++ mine.map (fun q => (q.1, lineBytes d (q.2.1.pa % 128) size)) }

/-- The number under which an instruction keeps the request of lane l to another pod. -/
def farKey (l : Nat) : Nat := 2 ^ 58 + l
/-- A request to another pod leaves for lane l, which waits for its answer; the packet is kept until then (15 R276, 19 R339). -/
def farAsk (a : Acc') (scope l : Nat) (at' : Dword) (n : Nat) (kind : PacketKind) : Acc' :=
  { a with s := a.s.sendHere scope at' n false kind, waits := a.waits ++ [farKey l], sent := a.sent ++ [⟨farKey l, a.s.remoteTag, none⟩] }
/-- The answer to the request of lane l reaches the lanes ls that it is for: the values that its bytes give them, or an error response (01
R18). -/
def farTake (a : Acc') (line : Nat) (ls : List Nat) (addr : Nat → Dword) (vals : List Byte → List (Nat × Nat)) : Acc' :=
  match (sentFor a line).bind (·.resp) with
  | none => { a with waits := a.waits ++ [line] }
  | some (.bytes bs) => { (answerTaken a line) with vals := a.vals ++ vals bs }
  | some r =>
    let kind := match r with
      | .err k => k
      | _ => 5
    let b := answerTaken a line
    { b with s := ls.foldl (fun s l => s.errHere (addr l) 10 kind (portSrc s.steps (dieOf s.here.core) 2)) b.s
             bad := b.bad ++ ls.map (fun l => (l, 0x0A#8)) }
/-- The lanes of an instruction that a lane's request to another pod serves: those whose addresses agree in units of k bytes, and that have not
failed. -/
def farMates (a : Acc') (addr : Nat → Dword) (k l : Nat) : List Nat :=
  (a.addrs.filter (fun e => e.2.toNat / k == (addr l).toNat / k && !a.bad.any (fun b => b.1 == e.1))).map Prod.fst

/-- A lane's load from another pod (11 R191): lanes of one instruction that name one address receive one value (11 R187), by the request of
the first. -/
def farLoad (size : Nat) (addr : Nat → Dword) (fs : List (Nat × Nat)) (a : Acc') (t : Nat × Nat) : Acc' :=
  if (fs.filter (fun f => addr f.1 == addr t.1)).head? ≠ some t then a else farAsk a t.2 t.1 (addr t.1) size (.read size)
/-- The values of a load from another pod. -/
def farLoaded (addr : Nat → Dword) (a : Acc') (line : Nat) : Acc' :=
  let ls := farMates a addr 1 (line - farKey 0)
  farTake a line ls addr (fun bs => ls.map (fun l => (l, bytesNat bs)))

/-- A write of lanes ls to another pod leaves as one packet: it is kept until it is acknowledged, or its refusal reaches every one of
them as code 0A (11 R186; log 22). -/
def farSend (a : Acc') (scope : Nat) (ls : List Nat) (addr : Nat → Dword) (at' : Dword) (n : Nat) (counts : Bool) (kind : PacketKind) : Acc' :=
  if Config.remoteOk a.s.remoteTag then { a with s := a.s.sendHere scope at' n counts kind }
  else { a with s := ls.foldl (fun s l => s.errFar (addr l) scope) (a.s.sendFor at' kind), bad := a.bad ++ ls.map (fun l => (l, 0x0A#8)) }

/-- A load of the lanes of S (11 R187): checks, lanes of other pods, lines. -/
def doLoad (s : State) (S : Lanes) (m : MemMod) (size : Nat) (addr : Nat → Dword) : Acc' × Phys :=
  let at' := s.addrOr addr
  let (a, ps, ls) := s.start S at' 0 size .read (farLoad size at')
  (ls.foldl (fun a n => if farKey 0 ≤ n then farLoaded at' a n else loadStep m size at' ps a n) a, ps)

/-! ## Stores -/

/-- Write the lanes of a line in lane order: at one address the highest lane stands (11 R187). -/
def storeData (size : Nat) (mine : Phys) (val : Nat → Nat) (d : LineData) : LineData :=
  mine.foldl (fun d p => setLineBytes d (p.2.1.pa % 128) size (val p.1)) d
/-- Do the lanes cover all 128 bytes of the line (11 R189). -/
def coversLine (size : Nat) (mine : Phys) : Bool :=
  (List.range 128).all (fun b => mine.any (fun p => decide (p.2.1.pa % 128 ≤ b) && decide (b < p.2.1.pa % 128 + size)))

/-- A plain store or put unit of a launch to a line of a pod peer through a global address: its bytes count as acknowledged here, and
the peer is told to count them as landed (16 R291; log 74). -/
def countPod (s : State) (pkn : Nat) (serial : Word) (core : Nat) (a : Dword) (line n : Nat) : State :=
  if a.getLsbD 63 && isPod line then
    ({ s with outbox := s.outbox ++ [OutMsg.packet (s.packetFor pkn serial core 1 a (.landed n))] }).acked pkn serial (bits a 40 36) n
  else s

/-- Count the stored bytes of a line in window counters, one store an address. -/
def countLine (s : State) (size line : Nat) (addr : Nat → Dword) (mine : Phys) : State :=
  (mine.filter (fun p => !mine.any (fun q => decide (p.1 < q.1) && addr q.1 == addr p.1))).foldl
    (fun a p => (a.countStore s.here.paddock s.here.serial (addr p.1) p.2.2 size).countPod s.here.paddock s.here.serial
      s.here.core (addr p.1) line size) s

/-- One line of a store: whole lines as WrLine, .l2only at the home, others in the core's L1 (11 R188, R189, R185). -/
def storeStep (m : MemMod) (size : Nat) (addr : Nat → Dword) (val : Nat → Nat) (ps : Phys) (a : Acc') (line : Nat) : Acc' :=
  let mine := ps.filter (fun p => p.2.1.pa / 128 == line)
  let core := a.s.here.core
  let pk := some a.s.here.paddock
  match mine with
  | [] => a
  | p :: _ =>
    let whole := coversLine size mine
    let c := (a.s.cacheAt core line).state
    let hit := (c = .M ∨ c = .E) ∧ !whole
    let home := m.hint = 3#3 ∧ ¬hit
    let f := storeData size mine val
    match sentFor a line with
    | some x =>
      (match x.resp with
      | none => { a with waits := a.waits ++ [line] }
      | some (.err k) => lineError (answerTaken a line) addr line (mine.map (·.1)) (errCode line) k
      | some _ => let b := answerTaken a line
        { b with s := (b.s.countLine size line addr mine).count core 24 1 })
    | none =>
      if (a.s.failedFor line).isSome then lineFails a addr line (mine.map (·.1))
      else if ¬hit ∧ a.s.unreachable p.2.1.pa then lineError a addr line (mine.map (·.1)) 9 (downKind p.2.1.pa)
      else
        let ans := if whole then a.s.wrLineHome (corePtr core) line pk (f 0)
          else if home then a.s.homeLine (corePtr core) line pk f
          else a.s.storeLine core line (tagsFor a.s.asid (addr p.1) p.2.1) pk f
        match ans, a.s.scLine m line with
        | .err, _ => lineFails a addr line (mine.map (·.1))
        | .wait _, _ => if whole then sendReq m a line (.wrLine (f 0)) else lineWaits a line (if home then .home else .write)
        | .ok _, none => { a with waits := a.waits ++ [line] }
        | .ok s', some _ =>
          let r : ReqCode := if whole then .wrLine else if c = .S ∨ c = .O then .upg else .getX
          let s2 := if hit then s' else traceHome a.s s' line core pk a.s.span.lastStop r
          let s3 := (s2.countLine size line addr mine).count core (if hit then 23 else 24) 1
          { a with s := (s3.scLine m line).getD s3 }

/-- Lanes that store to another pod (11 R188, R191). At one address the highest lane stands; a refusal reaches every lane that names it. -/
def farStore (size : Nat) (addr : Nat → Dword) (val : Nat → Nat) (fs : List (Nat × Nat)) (a : Acc') (t : Nat × Nat) : Acc' :=
  if fs.any (fun q => decide (t.1 < q.1) && addr q.1 == addr t.1) then a
  else
    let bytes := (List.range size).map (fun i => BitVec.ofNat 8 (val t.1 / 256 ^ i % 256))
    farSend a t.2 ((fs.filter (fun q => addr q.1 == addr t.1)).map Prod.fst) addr (addr t.1) size true (.write bytes)

/-- A store of the lanes of S; val gives a lane's data from the span-wide operand. -/
def doStore (s : State) (S : Lanes) (m : MemMod) (size : Nat) (addr : Nat → Dword) (arg : Dword) (val : Dword → Nat → Nat) : Acc' × Phys :=
  let at' := s.addrOr addr
  let (a, ps, ls) := s.start S at' arg size .write (farStore size at' (val arg))
  (ls.foldl (storeStep m size at' (val a.arg) ps) a, ps)

/-! ## Atomics and reductions (11 R195, R197) -/

/-- The new value of a memory word under an atomic (11 R195): m old, x operand, c compare value. -/
def amoResult (op : AmoOp) (m x c : Dword) : Dword :=
  let m32 : Word := m.setWidth 32
  let x32 : Word := x.setWidth 32
  match op with
  | .add32 => (m32 + x32).setWidth 64
  | .add64 => m + x
  | .min32 => (sMinMax false m32 x32).setWidth 64
  | .minn32 => (uMinMax false m32 x32).setWidth 64
  | .min64 => sMinMax false m x
  | .max32 => (sMinMax true m32 x32).setWidth 64
  | .maxn32 => (uMinMax true m32 x32).setWidth 64
  | .max64 => sMinMax true m x
  | .and32 => (m32 &&& x32).setWidth 64
  | .or32 => (m32 ||| x32).setWidth 64
  | .xor32 => (m32 ^^^ x32).setWidth 64
  | .swap32 => x32.setWidth 64
  | .cas32 => (if m32 = c.setWidth 32 then x32 else m32).setWidth 64
  | .cas64 => if m = c then x else m
  | .fadd32 => (toF32 ((f32Of m32).add (f32Of x32))).setWidth 64

/-- Bytes of an atomic's word. -/
def amoSize : AmoOp → Nat
  | .add64 => 8 | .min64 => 8 | .max64 => 8 | .cas64 => 8
  | _ => 4

/-- Perform requests on a line's data one after the other: the data and the old values (11 R195). -/
def amoLine (rs : List AmoReq) (d : LineData) : LineData × List Nat :=
  rs.foldl (fun (a : LineData × List Nat) r =>
    let n := amoSize r.op
    let old := lineBytes a.1 r.off n
    (setLineBytes a.1 r.off n (amoResult r.op (BitVec.ofNat 64 old) r.x r.c).toNat, a.2 ++ [old])) (d, [])

/-- Perform requests at a quiet home of this device for a party (13 R239): copies out first. The old values come with the state. A pod
line's requests are performed at its pod home, to which they go as a message. -/
def amoHome (s : State) (p : BitVec 13) (line : Nat) (pk : Option Nat) (rs : List AmoReq) : HomeAns × List Nat :=
  if isPod line then (.wait s, [])
  else
    match s.quietHome line p with
    | .err => (.err, [])
    | .wait s' => (.wait s', [])
    | .ok _ =>
      let s1 := s.roomAt line p pk
      if (s1.dirAt line).state = .P then (.err, [])
      else
        let r := amoLine rs (s1.memLine line)
        (.ok (((s1.setMemLine line r.1).trigger line).answeredTo p line), r.2)

/-- One line of an atomic or reduction: its lanes in increasing order as one sequence. -/
def amoStep (red : Bool) (m : MemMod) (addr : Nat → Dword) (req : Nat → Nat → AmoReq) (ps : Phys) (a : Acc') (line : Nat) : Acc' :=
  let mine := ps.filter (fun p => p.2.1.pa / 128 == line)
  let core := a.s.here.core
  let pk := some a.s.here.paddock
  let rs := mine.map (fun q => req q.1 (q.2.1.pa % 128))
  match mine with
  | [] => a
  | p :: _ =>
    match sentFor a line with
    | some x =>
      (match x.resp with
      | none => { a with waits := a.waits ++ [line] }
      | some (.err k) => lineError (answerTaken a line) addr line (mine.map (·.1)) (errCode line) k
      | some .ack | some (.bytes _) => answerTaken a line
      | some (.data d) => { (answerTaken a line) with vals := a.vals ++ (mine.map (·.1)).zip (amoLine rs d).2 })
    | none =>
    if a.s.unreachable p.2.1.pa then lineError a addr line (mine.map (·.1)) 9 (downKind p.2.1.pa)
    else
      match a.s.amoHome (corePtr core) line pk rs, a.s.scLine m line with
      | (.err, _), _ => lineFails a addr line (mine.map (·.1))
      | (.wait _, _), _ => sendReq m a line (if red then .redOp rs 1 else .amo rs)
      | (.ok _, _), none => { a with waits := a.waits ++ [line] }
      | (.ok s', olds), some _ =>
        let s2 := traceHome a.s s' line core pk a.s.span.lastStop (if red then .redOp else .amo)
        { a with s := (s2.scLine m line).getD s2, vals := a.vals ++ (mine.map (·.1)).zip olds }

/-- The atomics of the lanes that name one line of another pod leave as one packet for the lowest address among them, and are one sequence
there (11 R183, R195); a returning one waits for the values that the words held. -/
def farAmo (red : Bool) (size : Nat) (addr : Nat → Dword) (req : Nat → Nat → AmoReq) (fs : List (Nat × Nat)) (a : Acc') (t : Nat × Nat) :
    Acc' :=
  let x := (addr t.1).toNat
  let mine := fs.filter (fun f => (addr f.1).toNat / 128 == x / 128)
  if (mine.map Prod.fst).head? ≠ some t.1 then a
  else
    let ls := mine.map Prod.fst
    let rs := ls.map (fun l => req l ((addr l).toNat % 128))
    let low := ls.foldl (fun n l => min n (addr l).toNat) x
    if red then farSend a t.2 ls addr (BitVec.ofNat 64 low) size false (.amo rs)
    else farAsk a t.2 t.1 (BitVec.ofNat 64 low) size (.amo rs)
/-- The old values of the atomics on a line of another pod, one after the other in the answer. -/
def farAmoed (size : Nat) (addr : Nat → Dword) (a : Acc') (line : Nat) : Acc' :=
  let ls := farMates a addr 128 (line - farKey 0)
  farTake a line ls addr (fun bs => ls.zipIdx.map (fun e => (e.1, bytesNat ((bs.drop (size * e.2)).take size))))

/-- An atomic or reduction of the lanes of S. -/
def doAmo (s : State) (S : Lanes) (m : MemMod) (red : Bool) (size : Nat) (addr : Nat → Dword) (req : Nat → Nat → AmoReq) : Acc' × Phys :=
  let at' := s.addrOr addr
  let (a, ps, ls) := s.start S at' 0 size .write (farAmo red size at' req)
  (ls.foldl (fun a n => if farKey 0 ≤ n then farAmoed size at' a n else amoStep red m at' req ps a n) a, ps)

/-! ## Drift reductions (11 R198) -/

/-- One line of a drift reduction: every lane contributes to its element. -/
def dredStep (t : DTag) (addr : Nat → Dword) (val : Nat → Dword) (ps : Phys) (a : Acc') (line : Nat) : Acc' :=
  let mine := ps.filter (fun p => p.2.1.pa / 128 == line)
  let core := a.s.here.core
  let pk := some a.s.here.paddock
  match mine with
  | [] => a
  | p :: _ =>
    let c := a.s.cacheAt core line
    if (a.s.failedFor line).isSome then lineFails a addr line (mine.map (·.1))
    else if ¬(c.state = .D ∧ c.tag = t) ∧ a.s.unreachable p.2.1.pa then lineError a addr line (mine.map (·.1)) 9 (downKind p.2.1.pa)
    else
      match a.s.dredLine core line t pk (mine.map (fun q => (q.2.1.pa % 128 / dtagWidth t, val q.1))) with
      | .err => lineFails a addr line (mine.map (·.1))
      | .wait _ => lineWaits a line (.drift t)
      | .ok s' =>
        let s2 := if c.state = .D ∧ c.tag = t then s' else traceHome a.s s' line core pk a.s.span.lastStop .drGet
        { a with s := s2.count core 27 1 }

/-- A lane's drift reduction on another pod is code 0A (11 R191). -/
def farDred (addr : Nat → Dword) (_fs : List (Nat × Nat)) (a : Acc') (f : Nat × Nat) : Acc' :=
  { a with s := a.s.errFar (addr f.1) f.2, bad := a.bad ++ [(f.1, 0x0A#8)] }

/-- A drift reduction of the lanes of S under the operator op, with the modulus that is read at issue (0 but for modadd). -/
def doDred (s : State) (S : Lanes) (op : BitVec 3) (q : Dword) (addr : Nat → Dword) (val : Nat → Dword) : Acc' × Phys :=
  let at' := s.addrOr addr
  let (a, ps, ls) := s.start S at' q (dtagWidth ⟨op, q⟩) .write (farDred at')
  (ls.foldl (dredStep ⟨op, a.arg⟩ at' val ps) a, ps)

end State
end Sys2Proof.Machine
end

