-- ==== Sys2Proof/Machine/Async.lean ====
section
/-!
DEFINITION. Machine/Async.lean: class 4: the asynchronous operations, their issue, the landing of their units, the claim
of a cpchute and the placement of a launch (11 R204-R213).
-/

namespace Sys2Proof.Machine

/-- Does a unit of size bytes at an element fail to fit the handle (11 R204). -/
def unitBad (e : BitVec 128) (size row col : Nat) : Bool :=
  decide (size < eWidth e) || col * eWidth e % size != 0 || decide (eRows e ≤ row) ||
    decide (eCols e * eWidth e < col * eWidth e + size)
/-- Does a row from an element on fail to be a whole number of granules of size bytes of the handle (11 R211). -/
def rowBad (e : BitVec 128) (size row col : Nat) : Bool :=
  unitBad e size row col || (eCols e - col) * eWidth e % size != 0
/-- How many bytes a row has from column col on. -/
def rowBytes (e : BitVec 128) (col : Nat) : Nat := (eCols e - col) * eWidth e

/-- What the checks of a lane give: the units, a code with %tvaddr, or that a walk must be waited for. -/
inductive LaneUnits where
  | ok (us : List AUnit)
  | bad (c : Byte) (tv : Dword)
  | wait
  deriving DecidableEq, Repr

namespace State

/-- A side of an operation as lane l names it (11 R204). -/
def sideAt (s : State) (a : ASide) (l : Nat) : UnitSide :=
  match a with
  | .addr r => .mem (s.span.pair r.toNat l)
  | .tile h ref c =>
    let g := if ref.sib = 0#1 then s.focus.g
      else ((s.penMember s.focus.g ref.dx.toNat ref.dy.toNat).map Prod.fst).getD noWg
    .tile g (wgId (s.wgAt g)) h.toNat (c.row s.span l) (c.col s.span l) (ref.sib == 1#1)

/-- Does a side's tile reference lie outside the pen (09 R154 check 2). -/
def penBad (s : State) (a : ASide) : Bool :=
  match a with
  | .addr _ => false
  | .tile _ ref _ => ref.sib == 1#1 && (decide (s.launchHere.pw ≤ ref.dx.toNat) || decide (s.launchHere.ph ≤ ref.dy.toNat))

/-! ## Checks at issue (11 R206) -/

/-- Check n bytes at an address of a lane, in steps of size: first and last byte under the checks 1 to 4 of 11 R186. A refusal of
the target comes with the unit (11 R206). -/
def checkSpan (s : State) (a : Dword) (n size : Nat) (acc : Access) : State × Look Unit :=
  let one (s : State) (b : Dword) (n size : Nat) : State × Look Unit :=
    match s.checkAddr s.here.core s.here.paddock s.asid b n size acc s.privileged false with
    | (s1, .error c) => (s1, if c = 0x0A#8 then .ok () else .error c)
    | (s1, .wait n) => (s1, .wait n)
    | (s1, .fail k n) => (s1, .fail k n)
    | (s1, .ok _) => (s1, .ok ())
  match one s a n size with
  | (s1, .ok _) => one s1 (a + BitVec.ofNat 64 (n - 1)) 1 1
  | r => r

/-- Check the tile sides of a unit that are the workgroup's own handles. -/
def ownBad (s : State) (size : Nat) (row : Bool) : UnitSide → Bool
  | .tile g i h r c false =>
    match s.tileNow g i h false with
    | .ok _ e => if row then rowBad e size r c else unitBad e size r c
    | _ => true
  | .chute key r c => unitBad (chuteEntry (s.chuteAt key)) size r c
  | _ => false

/-- Check an address side of n bytes. -/
def addrBad (s : State) (n size : Nat) (acc : Access) : UnitSide → State × Look Unit
  | .mem a => s.checkSpan a n size acc
  | _ => (s, .ok ())
/-- The address of a memory side. -/
def sideAddr : UnitSide → Dword
  | .mem a => a
  | _ => 0

/-- A unit that has not landed. -/
def newUnit (src dst : UnitSide) (size : Nat) : AUnit := ⟨src, dst, size, false, .pending, none⟩

/-- Check both sides of a lane, tile handles first; n is the length of its memory sides. -/
def checkSides (s : State) (src dst : UnitSide) (n size : Nat) (row : Bool) (us : List AUnit) : State × LaneUnits :=
  if s.ownBad size row src || s.ownBad size row dst then (s, .bad 0x07 0)
  else
    match s.addrBad n size .read src with
    | (s1, .error c) => (s1, .bad c (sideAddr src))
    | (s1, .fail k n) => (s1.errLine (sideAddr src) n (errCode n) k, .bad (BitVec.ofNat 8 (errCode n)) (sideAddr src))
    | (s1, .wait _) => (s1, .wait)
    | (s1, .ok _) =>
      match s1.addrBad n size .write dst with
      | (s2, .error c) => (s2, .bad c (sideAddr dst))
      | (s2, .fail k n) => (s2.errLine (sideAddr dst) n (errCode n) k, .bad (BitVec.ofNat 8 (errCode n)) (sideAddr dst))
      | (s2, .wait _) => (s2, .wait)
      | (s2, .ok _) => (s2, .ok us)

/-- The units of a row of n bytes in steps of size: the memory side advances by size, the tile side by size / w columns
(11 R211). -/
def rowUnits (src dst : UnitSide) (n size w : Nat) : List AUnit :=
  let adv (k : Nat) : UnitSide → UnitSide
    | .mem a => .mem (a + BitVec.ofNat 64 (k * size))
    | .tile g i h r c sib => .tile g i h r (c + k * (size / w)) sib
    | x => x
  (List.range (n / size)).map (fun k => newUnit (adv k src) (adv k dst) size)

/-- The tile side of a gth or sct row. -/
def rowEntry (s : State) (src dst : UnitSide) : TileNow × Nat × Nat :=
  match src, dst with
  | .tile g i h r c sib, _ => (s.tileNow g i h sib, r, c)
  | _, .tile g i h r c sib => (s.tileNow g i h sib, r, c)
  | _, _ => (.freed, 0, 0)

/-- The members of the issuing pen, the issuer included (11 R209). -/
def penKeys (s : State) : List Nat :=
  (List.range s.launchHere.ph).flatMap (fun dy => (List.range s.launchHere.pw).map (fun dx =>
    ((s.penMember s.focus.g dx dy).map Prod.fst).getD noWg))

/-- A lane's units for an operation, checked (11 R206, R209-R212). -/
def laneUnits (s : State) (kind : AsyncKind) (size : Nat) (dst src : ASide) (l : Nat) : State × LaneUnits :=
  let a := s.sideAt src l
  let b := s.sideAt dst l
  let down (x : UnitSide) : UnitSide := match x with
    | .tile g i h r c sib => .tile g i h (r + l) c sib
    | x => x
  match kind with
  | .cpm =>
    let us := s.penKeys.map (fun g => match b with
      | .tile _ _ h r c _ => newUnit a (.tile g (wgId (s.wgAt g)) h r c (g != s.focus.g)) size
      | x => newUnit a x size)
    s.checkSides a b size size false us
  | .gth | .sct =>
    let a := down a
    let b := down b
    match s.rowEntry a b with
    | (.ok _ e, r, c) =>
      if rowBad e size r c then s.checkSides a b size size true [{ newUnit a b size with row := true }]
      else s.checkSides a b (rowBytes e c) size true (rowUnits a b (rowBytes e c) size (eWidth e))
    | _ => s.checkSides a b size size true [{ newUnit a b size with row := true }]
  | .cpchute key _ =>
    let b := match b with
      | .tile _ _ _ r c _ => UnitSide.chute key r c
      | x => x
    s.checkSides a b size size false [newUnit a b size]
  | _ => s.checkSides a b size size false [newUnit a b size]

/-! ## Issue (11 R205) -/

/-- The next operation of the issuing workgroup on timeline tl. -/
def newOp (s : State) (kind : AsyncKind) (tl : Nat) (m : AMod) (us : List AUnit) : AsyncOp :=
  { uid := s.opSeq, g := s.focus.g, id := wgId s.here, sp := s.focus.sp, core := s.here.core, asid := s.asid,
    priv := s.privileged, ordinal := s.span.lastStop, tl := tl, num := (s.here.tlAt tl).i + 1, kind := kind,
    wf := m.fe == 1#2, we := m.fe == 3#2, units := us, err := none, suspended := false, noBegin := false }

/-- Issue an operation: it takes its number; a cpchute joins the waiters of its chute; one with nothing to do is complete. -/
def startOp (s : State) (a : AsyncOp) : State :=
  let s1 := (({ s with async := s.async ++ [a], opSeq := s.opSeq + 1 }.updWg a.g (fun w =>
    w.updTl a.tl (fun t => { t with i := t.i + 1 }))).emitAsync a 0x38 (kindNum a.kind)).count a.core 30
      (((a.units.map AUnit.size).sum + 63) / 64)
  match a.kind with
  | .launch _ _ => s1
  | .cpchute key _ =>
    if a.units = [] then s1.finishOp { a with kind := .cpchute key none }
    else s1.updChute key (fun c => { c with prodWait := c.prodWait ++ [(2 ^ 50 + a.uid, 0, 0)] })
  | _ => if a.units = [] then s1.finishOp a else s1

/-- Is there room on a timeline for one more operation that is not complete (11 R205). -/
def tlFree (s : State) (tl : Nat) : Bool :=
  let t := s.here.tlAt tl
  decide (t.i - (t.c + t.done.length) < Config.timelineLimit)

/-- Check the active lanes in lane order. -/
def lanesUnits (s : State) (S : Lanes) (f : State → Nat → State × LaneUnits) : State × List (Nat × LaneUnits) :=
  (lanesOf S).foldl (fun (a : State × List (Nat × LaneUnits)) l => let r := f a.1 l; (r.1, a.2 ++ [(l, r.2)])) (s, [])

/-- Units of the lanes that passed. -/
def goodUnits (ls : List (Nat × LaneUnits)) : List AUnit :=
  ls.flatMap (fun x => match x.2 with
    | .ok us => us
    | _ => [])
/-- The fault of a lane, if it failed. -/
def laneErr (ls : List (Nat × LaneUnits)) (l : Nat) : Option (Byte × Dword) :=
  (ls.find? (fun x => x.1 == l)).bind (fun x => match x.2 with
    | .bad c tv => some (c, tv)
    | _ => none)

end State

/-- Issue of a class 4 operation other than launch: lanes that fail a check fault, and the others are one operation, which
exists when a lane of S does not fault (11 R206, 04 R74; log 27). It waits while its timeline is full, or for a walk. -/
def asyncIssue (kind : AsyncKind) (chuteOk : Bool) (p : BitVec 3) (sz : BitVec 2) (tl : BitVec 3) (dst src : ASide) (m : AMod)
    (s : State) : Res :=
  let size := 4 * 2 ^ sz.toNat
  let S := s.active p
  if !s.tlFree tl.toNat then .next s
  else
    let (s1, ls) :=
      if s.penBad src || s.penBad dst || !chuteOk then
        (s, (lanesOf S).map (fun l => (l, LaneUnits.bad 0x07 0)))
      else s.lanesUnits S (fun a l => a.laneUnits kind size dst src l)
    if ls.any (fun x => x.2 == .wait) then .next s1 else
    let F := lanesWhere (fun l => (State.laneErr ls l).isSome)
    let s2 := if s.lanes &&& ~~~F = 0 then s1 else s1.startOp (s1.newOp kind tl.toNat m (State.goodUnits ls))
    .next (s2.raiseL F (fun l => ((State.laneErr ls l).map Prod.fst).getD 0) (fun l => ((State.laneErr ls l).map Prod.snd).getD 0))

/-- cp (11 R209). -/
def execCp (p : BitVec 3) (sz : BitVec 2) (tl : BitVec 3) (dst src : ASide) (m : AMod) (s : State) : Res :=
  asyncIssue .cp true p sz tl dst src m s
/-- cpm (11 R209). -/
def execCpm (p : BitVec 3) (sz : BitVec 2) (tl : BitVec 3) (dst src : ASide) (m : AMod) (s : State) : Res :=
  asyncIssue .cpm true p sz tl dst src m s
/-- cpr, its operator in the hint field (11 R210). -/
def execCpr (p : BitVec 3) (sz : BitVec 2) (tl : BitVec 3) (dst src : ASide) (m : AMod) (s : State) : Res :=
  asyncIssue (.cpr m.hint.toNat) true p sz tl dst src m s
/-- gth (11 R211). -/
def execGth (p : BitVec 3) (sz : BitVec 2) (tl : BitVec 3) (dst src : ASide) (m : AMod) (s : State) : Res :=
  asyncIssue .gth true p sz tl dst src m s
/-- sct (11 R211). -/
def execSct (p : BitVec 3) (sz : BitVec 2) (tl : BitVec 3) (dst src : ASide) (m : AMod) (s : State) : Res :=
  asyncIssue .sct true p sz tl dst src m s
/-- put (11 R212). A far side that is a local virtual address is written like any memory of the workgroup (log 34). -/
def execPut (p : BitVec 3) (sz : BitVec 2) (tl : BitVec 3) (dst src : ASide) (m : AMod) (s : State) : Res :=
  asyncIssue .put true p sz tl dst src m s
/-- get (11 R212). A far side that is a local virtual address is read like any memory of the workgroup (log 34). -/
def execGet (p : BitVec 3) (sz : BitVec 2) (tl : BitVec 3) (dst src : ASide) (m : AMod) (s : State) : Res :=
  asyncIssue .get true p sz tl dst src m s
/-- cpchute: the handle, the workgroup's own, names a chute of the launch on this core whose producer is the issuing stage, else code 07
(11 R212, 14 R260). -/
def execCpchute (p : BitVec 3) (sz : BitVec 2) (tl : BitVec 3) (dst src : ASide) (m : AMod) (s : State) : Res :=
  let (own, h) := match dst with
    | .tile h ref _ => (ref.sib == 0#1, h.toNat)
    | .addr _ => (false, 0)
  let key := s.chuteFor s.here.paddock s.here.serial s.here.core h s.here.stage
  let c := s.chuteAt key
  asyncIssue (.cpchute key none) (own && c.live && c.fromStage == s.here.stage) p sz tl dst src m s

/-- Check a launch record's address (11 R212): code 04 for a global or non-canonical one, 03 off a multiple of 64, and the
walk of every page of the 384 bytes for a write. -/
def State.recordCheck (s : State) (core asid : Nat) (priv : Bool) (a : Dword) : State × Look Unit :=
  if bits a 63 48 ≠ 0 then (s, .error 0x04)
  else if a.toNat % 64 ≠ 0 then (s, .error 0x03)
  else
    let look (s : State) (off : Nat) : State × Look Unit :=
      if a.toNat + off ≥ 2 ^ 48 then (s, .error 0x04)
      else match s.translate core asid (a.toNat + off) .write priv false with
        | (s', .ok _) => (s', .ok ())
        | (s', .wait n) => (s', .wait n)
        | (s', .fail k n) => (s', .fail k n)
        | (s', .error c) => (s', .error c)
    match look s 0 with
    | (s1, .ok _) => look s1 383
    | r => r

/-- launch: the record at the address of the lowest active lane is to be placed; a failed check faults every active lane
(11 R212). -/
def execLaunch (p tl : BitVec 3) (src : BitVec 7) (m : AMod) (s : State) : Res :=
  let S := s.active p
  if !s.tlFree tl.toNat then .next s
  else if S = 0 then
    let a := s.newOp (.launch 0 true) tl.toNat m []
    done ((s.startOp a).finishOp a)
  else
    let a := s.span.pair src.toNat (State.lowest S)
    match s.recordCheck s.here.core s.asid s.privileged a with
    | (s1, .error c) => .next (s1.raise S c (fun _ => a))
    | (s1, .fail k n) => .next ((s1.errLine a n (State.errCode n) k).raise S (BitVec.ofNat 8 (State.errCode n)) (fun _ => a))
    | (s1, .wait _) => .next s1
    | (s1, .ok _) => done (s1.startOp (s1.newOp (.launch a false) tl.toNat m []))

/-! ## Landing (11 R205-R212) -/

/-- What one side of a unit answers: a value (or nothing more to do), another device's memory, a request that the line's home must perform,
a wait, a failure with its code, address and log kind, and the unit of an error response. -/
inductive SideAns where
  | ok (s : State) (x : Nat)
  | far (scope : Nat) (addr : Dword)
  | ask (s : State) (line : Nat) (m : Msg)
  | wait (s : State)
  | bad (s : State) (code : Byte) (addr : Dword) (kind : Nat) (src : Option Source)
  deriving DecidableEq, Repr

namespace State

/-- A unit's access to a line meets an error response of its home (01 R18): poison of this device's line, or the pod home's answer. -/
def sideFails (s : State) (addr : Dword) (line : Nat) : SideAns :=
  let kind := ((s.proxyAt line).failed).getD 1
  .bad (s.clearFail line) (BitVec.ofNat 8 (errCode line)) addr kind (some (errSource s.steps kind line))
/-- A unit's address does not pass its checks when it lands (11 R206). -/
def sideRefused (s : State) (a : AsyncOp) (c : Byte) (addr : Dword) : SideAns :=
  .bad s c addr 5 (if c = 0x0A#8 then some (portSrc s.steps (dieOf a.core) 1) else none)
/-- A unit's walk meets an error response. -/
def walkFails (s : State) (addr : Dword) (kind line : Nat) : SideAns :=
  .bad s (BitVec.ofNat 8 (errCode line)) addr kind (some (errSource s.steps kind line))
/-- A unit's address lies in memory that cannot be reached now. -/
def sideDown (s : State) (addr : Dword) (pa : Nat) : SideAns :=
  .bad s 0x09 addr (downKind pa) (some (errSource s.steps (downKind pa) (pa / 128)))

/-- Read a unit's source (11 R207). -/
def readSide (s : State) (a : AsyncOp) (size : Nat) : UnitSide → SideAns
  | .data x => .ok s x
  | .mem addr =>
    match s.checkAddr a.core a.id.paddock a.asid addr size size .read a.priv false with
    | (s1, .error c) => s1.sideRefused a c addr
    | (s1, .fail k n) => s1.walkFails addr k n
    | (s1, .wait _) => .wait s1
    | (_, .ok (.far sc)) => .far sc addr
    | (s1, .ok (.phys x _)) =>
      if s1.unreachable x.pa then s1.sideDown addr x.pa
      else
        match s1.loadHome (corePtr a.core) (x.pa / 128) (some a.id.paddock) with
        | .err => s1.sideFails addr (x.pa / 128)
        | .wait _ => .wait (s1.askHome (corePtr a.core) (x.pa / 128) .read)
        | .ok s2 => if (s2.dirAt (x.pa / 128)).state = .P then s2.sideFails addr (x.pa / 128)
          else .ok s2 (s2.viewBytes x.pa size)
  | .chute _ _ _ => .bad s 0x07 0 0 none
  | .tile g i h r c sib =>
    match s.tileNow g i h sib with
    | .wait => .wait s
    | .freed => .bad s 0x07 0 0 none
    | .gone => .bad s 0x07 0 0 none
    | .ok place e =>
      if unitBad e size r c then .bad s 0x07 0 0 none
      else
        let off := eOff e r c
        if a.wf && !(s.gran place (off / 16)).full then .wait s
        else if (s.gran place (off / 16)).poison then .bad s 0x09 (s.granName place (off / 16)) 1 none
        else .ok (if a.wf then s.hearClock a.core (Store.get 0 s.lamport (s.placeWg place).core) else s) (s.placeBytes place off size)

/-- Element size and operation of a cpr operator (11 R210); the last is a drift sum. -/
def cprOp (n : Nat) : Nat × AmoOp :=
  match n with
  | 0 => (4, .add32) | 1 => (8, .add64) | 2 => (4, .min32) | 3 => (4, .max32) | 4 => (4, .minn32) | 5 => (4, .maxn32)
  | _ => (4, .or32)

/-- The elements of a unit of a cpr. -/
def cprElems (n size x : Nat) : List (Nat × Dword) :=
  let w := (cprOp n).1
  (List.range (size / w)).map (fun i => (w * i, BitVec.ofNat 64 (x / 256 ^ (w * i) % 256 ^ w)))

/-- Combine a unit into old bytes element by element (11 R210). -/
def combine (n size old x : Nat) : Nat :=
  let (w, op) := cprOp n
  (cprElems n size x).foldl (fun y e =>
    y + (amoResult op (BitVec.ofNat 64 (old / 256 ^ e.1 % 256 ^ w)) e.2 0).toNat % 256 ^ w * 256 ^ e.1) 0

/-- Write a unit's bytes to memory at their home, or combine them there as a red or dred of the engine (11 R210). -/
def writeHome (s : State) (a : AsyncOp) (pa size x : Nat) : HomeAns :=
  let line := pa / 128
  let pk := some a.id.paddock
  match a.kind with
  | .cpr 7 => s.dredLine a.core line ⟨1, 0⟩ pk ((cprElems 7 size x).map (fun e => ((pa % 128 + e.1) / 4, e.2)))
  | .cpr n => (s.amoHome (corePtr a.core) line pk ((cprElems n size x).map (fun e => ⟨(cprOp n).2, pa % 128 + e.1, e.2, 0⟩))).1
  | _ => s.homeLine (corePtr a.core) line pk (fun d => setLineBytes d (pa % 128) size x)
/-- A write at a home that must wait: a reduction goes to the home as a message (13 R236), other writes ask for the line. -/
def askWrite (s : State) (a : AsyncOp) (pa size x : Nat) : SideAns :=
  let line := pa / 128
  match a.kind with
  | .cpr 7 => .wait (s.ask a.core line (.drift ⟨1, 0⟩) none)
  | .cpr n => .ask s line (.redOp ((cprElems n size x).map (fun e => ⟨(cprOp n).2, pa % 128 + e.1, e.2, 0⟩)) 1)
  | _ => .wait (s.askHome (corePtr a.core) line .home)

/-- Write a unit's bytes to an element of a place, or combine them there (11 R205, R210): after the span's earlier accesses to its granule (09
R158), and with .we when it is empty. -/
def writeTile (s : State) (a : AsyncOp) (size x place : Nat) (e : BitVec 128) (r c : Nat) : SideAns :=
  if unitBad e size r c then .bad s 0x07 0 0 none
  else
    let off := eOff e r c
    let gr := s.gran place (off / 16)
    let mine (b : AsyncOp) : Bool := b.g == a.g && b.id == a.id && b.sp == a.sp && decide (b.uid < a.uid)
    if s.writesTo mine [(place, off / 16)] || s.tileFirst a [(place, off / 16)] then .wait s
    else if a.we && gr.full then .wait s
    else if gr.poison && size != 16 then .bad s 0x09 (s.granName place (off / 16)) 1 none
    else
      match a.kind with
      | .cpr n =>
        if gr.poison then .bad s 0x09 (s.granName place (off / 16)) 1 none
        else .ok (s.writePlace place off size (combine n size (s.placeBytes place off size) x)) 0
      | _ => .ok (s.writePlace place off size x) 0

/-- Write a unit's bytes to its destination. -/
def writeSide (s : State) (a : AsyncOp) (size x : Nat) : UnitSide → SideAns
  | .data _ => .ok s 0
  | .mem addr =>
    match s.checkAddr a.core a.id.paddock a.asid addr size size .write a.priv false with
    | (s1, .error c) => s1.sideRefused a c addr
    | (s1, .fail k n) => s1.walkFails addr k n
    | (s1, .wait _) => .wait s1
    | (_, .ok (.far sc)) => .far sc addr
    | (s1, .ok (.phys t _)) =>
      let line := t.pa / 128
      if s1.unreachable t.pa then s1.sideDown addr t.pa
      else
        match s1.writeHome a t.pa size x with
        | .err => s1.sideFails addr line
        | .wait s2 => s2.askWrite a t.pa size x
        | .ok s2 =>
          .ok (traceHome s1 s2 line a.core (some a.id.paddock) a.ordinal (match a.kind with
            | .cpr 7 => .drGet
            | .cpr _ => .redOp
            | _ => .wrLine)) (line + 1)
  | .chute key r c =>
    if (s.chuteAt key).live then s.writeTile a size x (chutePlace key) (chuteEntry (s.chuteAt key)) r c else .ok s 0
  | .tile g i h r c sib =>
    match s.tileNow g i h sib with
    | .wait => .wait s
    | .freed => .ok s 0
    | .gone => .bad s 0x07 0 0 none
    | .ok place e => s.writeTile a size x place e r c

/-- The destination of a unit whose data have failed the carriage check is poisoned: the line, or the granule (11 R207). -/
def spoilSide (s : State) (x : AUnit) (line : Nat) : State :=
  match x.dst with
  | .mem _ => if line = 0 then s else s.enterP (line - 1)
  | _ => (s.sideGran x.dst).elim s (fun gr => s.setGran gr.1 gr.2 { s.gran gr.1 gr.2 with poison := true })
/-- The address that names a unit's destination in an error entry. -/
def dstName (s : State) (x : AUnit) : Dword :=
  match x.dst with
  | .mem a => a
  | _ => ((s.sideGran x.dst).map (fun gr => s.granName gr.1 gr.2)).getD 0

/-- A unit of an operation has landed or failed: its progress; the full bit of its granule once every unit that lands in it
has been written (11 R205); the operation's end with its last unit. -/
def settle (s : State) (uid u : Nat) (st : UnitSt) : State :=
  let s1 := s.updAsync uid (fun a => { a with units := a.units.modify u (fun x => { x with st := st, sent := none }) })
  match s1.asyncAt uid with
  | none => s1
  | some a =>
    let full (s : State) (gr : Nat × Nat) : State :=
      let mine := a.units.filter (fun x => s.sideGran x.dst == some gr)
      if mine.any (fun x => x.st == .landed) && mine.all (fun x => x.st != .pending) then
        (s.setFull gr.1 true gr.2).hearClock (s.placeWg gr.1).core (Store.get 0 s.lamport a.core) else s
    let s2 := match a.units[u]? with
      | some x => match a.kind, s1.sideGran x.dst with
        | .cpchute _ _, _ => s1
        | _, some gr => full s1 gr
        | _, none => s1
      | none => s1
    if a.units.all (fun x => x.st != .pending) then
      (if a.noBegin then { s2 with async := s2.async.filter (fun x => x.uid != uid) } else s2.finishOp a)
    else s2

/-- A unit fails (11 R206). -/
def failUnit (s : State) (uid u : Nat) (code : Byte) (addr : Dword) (kind : Nat) (src : Option Source) : State :=
  (s.failOp uid code addr kind src).settle uid u .failed

/-- An engine's wait for a full/empty bit has ended (16 R293). -/
def countFe (s : State) (a : AsyncOp) : State :=
  if (a.wf || a.we) && s.issuerLives a.g a.id then s.updWg a.g (fun w => { w with progFe := w.progFe + 1 }) else s

/-- A packet to another device for a unit, which waits for its acknowledgement (11 R212): never for an operation whose memory
side may not lie at the remote scope. -/
def sendUnit (s : State) (a : AsyncOp) (u sc : Nat) (addr : Dword) (size : Nat) (kind : PacketKind) : State :=
  let port := portSrc s.steps (dieOf a.core) sc
  if sc = 2 ∧ a.kind ≠ .put ∧ a.kind ≠ .get then s.failUnit a.uid u 0x0A addr 5 (some port)
  else if s.portDown (dieOf a.core) sc then s.failUnit a.uid u 0x09 addr 4 (some port)
  else if s.keySpent a.id.paddock a.id.serial sc addr then s.failUnit a.uid u 0x0A addr 5 (some port)
  else if a.kind = .put ∧ laneIn s.carriage (u % 32) then s.failUnit a.uid u 0x0A addr 0 (some port)
  else if !s.portFree (dieOf a.core) sc 1 then s
  else
    let s1 := s.sendKept a.id.paddock a.id.serial a.core a.ordinal sc addr size (decide (a.kind = .put)) kind
    s1.updAsync a.uid (fun x => { x with units := x.units.modify u (fun y => { y with sent := some (s1.remoteTag - 1) }) })

/-- The packet that carries a unit's bytes. -/
def unitPacket (size x : Nat) : PacketKind := .write ((List.range size).map (fun i => BitVec.ofNat 8 (x / 256 ^ i % 256)))

/-- The physical address of a unit's destination in memory of this device or its pod, with its window. -/
def unitPa (s : State) (a : AsyncOp) (x : AUnit) : Option (Nat × Option (Nat × Nat)) :=
  match x.dst with
  | .mem addr =>
    match s.checkAddr a.core a.id.paddock a.asid addr x.size x.size .write a.priv false with
    | (_, .ok (.phys t w)) => some (t.pa, w)
    | _ => none
  | _ => none

/-- A unit has landed: a put's bytes are counted in the windows (16 R291). -/
def unitLanded (s : State) (a : AsyncOp) (u : Nat) (x : AUnit) : State :=
  (match (if a.kind = AsyncKind.put then s.unitPa a x else none) with
  | some (pa, win) => (s.countStore a.id.paddock a.id.serial (sideAddr x.dst) win x.size).countPod a.id.paddock a.id.serial a.core
      (sideAddr x.dst) (pa / 128) x.size
  | none => s).settle a.uid u .landed
/-- A unit has been written: its engine's wait is over, and it has landed; or it has spoilt its destination (11 R207), with code 0A where
that is another device (01 R18). line is one more than the physical line it was written to. -/
def unitDone (s : State) (a : AsyncOp) (u : Nat) (x : AUnit) (line : Nat) : State :=
  let s1 := s.countFe a
  if laneIn s.carriage (u % 32) then (s1.spoilSide x line).failUnit a.uid u (if line = 0 then 0x09 else BitVec.ofNat 8 (errCode (line - 1))) (s.dstName x) 0
    (if line = 0 then none else some (errSource s.steps 0 (line - 1)))
  else s1.unitLanded a u x

/-- Units of an operation ask a line's home for what it alone performs, RedOp or WrLine (13 R236): they wait for the answer. The core's own
copy goes first, as an instruction's does. -/
def sendUnits (s : State) (a : AsyncOp) (us : List Nat) (line : Nat) (m : Msg) : State :=
  let c := s.cacheAt a.core line
  let x := s.proxyAt line
  let n := s.steps + 1
  if c.state.moving || (isPod line && x.state.moving) then s
  else if isPod line && (x.state == .S || x.state == .D) then s.leaveProxy line 0
  else
    let s1 := if isPod line then s else match c.state with
      | .S => s.setCache a.core line CacheLine.none
      | .D => s.sendParts a.core line 0
      | _ => s
    let own := { (s1.fromCore a.core 0x1FFF line) with pk := some a.id.paddock, ord := a.ordinal, req := n }
    let h : Hdr := if isPod line then { own with src := s1.mySlot, dst := s1.podHome line, pod := true } else own
    (s1.send h m).updAsync a.uid (fun y => { y with units := y.units.mapIdx (fun i u =>
      if us.contains i then { u with sent := some (sentTag n line) } else u) })

/-- Has a unit's destination gone: a pen member that has ended (11 R206). -/
def dstGone (s : State) : UnitSide → Bool
  | .tile g i h _ _ sib => s.tileNow g i h sib == .gone
  | _ => false
/-- Land one unit. -/
def landUnit (s : State) (a : AsyncOp) (u : Nat) (x : AUnit) : State :=
  if s.dstGone x.dst then s.failUnit a.uid u 0x07 0 0 none else
  match s.readSide a x.size x.src with
  | .wait s1 => s1
  | .ask s1 _ _ => s1
  | .bad s1 c addr k q => s1.failUnit a.uid u c addr k q
  | .far sc addr => s.sendUnit a u sc addr x.size (.read x.size)
  | .ok s1 v =>
    match s1.writeSide a x.size v x.dst with
    | .wait s2 => s2
    | .ask s2 line m => s2.sendUnits a [u] line m
    | .bad s2 c addr k q => s2.failUnit a.uid u c addr k q
    | .far sc addr => (if s1.portFree (dieOf a.core) sc 1 then s1.countFe a else s1).sendUnit a u sc addr x.size (unitPacket x.size v)
    | .ok s2 line => s2.unitDone a u x line

/-- Read the sources of a list of units: their values when every one can be read now, else the state after what the first that cannot
be read gives: it waits, fails, or is asked of another device. -/
def readAll (a : AsyncOp) : State → List (Nat × AUnit) → State × Option (List (Nat × AUnit × Nat))
  | s, [] => (s, some [])
  | s, (u, x) :: xs =>
    match s.readSide a x.size x.src with
    | .ok s1 v =>
      match readAll a s1 xs with
      | (s2, r) => (s2, r.map (fun ys => (u, x, v) :: ys))
    | .wait s1 => (s1, none)
    | .ask s1 _ _ => (s1, none)
    | .bad s1 c addr k q => (s1.failUnit a.uid u c addr k q, none)
    | .far sc addr => (if x.sent.isSome then s else s.sendUnit a u sc addr x.size (.read x.size), none)

/-- Units of a cp, sct or put that together cover a line land in it as one whole-line write, whatever the home's state (11 R189); units
that together cover a poisoned granule land in it together (11 R188). None where no such write is due. -/
def landWhole (s : State) (a : AsyncOp) (x : AUnit) : Option State :=
  let all := (a.units.zipIdx.map (fun e => (e.2, e.1))).filter (fun e => e.2.st == .pending && !e.2.row)
  match x.dst with
  | .mem _ =>
    if a.kind ≠ .cp ∧ a.kind ≠ .sct ∧ a.kind ≠ .put then none
    else
      (s.unitPa a x).bind (fun pa =>
        let line := pa.1 / 128
        let mine := all.filter (fun e => (s.unitPa a e.2).map (fun p => p.1 / 128) == some line)
        let at' (e : AUnit) : Nat := ((s.unitPa a e).map Prod.fst).getD 0 % 128
        if s.unreachable pa.1 ∨ !(List.range 128).all (fun b => mine.any (fun e =>
            decide (at' e.2 ≤ b) && decide (b < at' e.2 + e.2.size))) then none
        else
          match readAll a s mine with
          | (s1, none) => some s1
          | (s1, some r) =>
            let d := r.foldl (fun d e => setLineBytes d (at' e.2.1) e.2.1.size e.2.2) (0 : LineData)
            match s1.wrLineHome (corePtr a.core) line (some a.id.paddock) d with
            | .ok s2 =>
              some (r.foldl (fun y e => y.unitDone a e.1 e.2.1 (line + 1))
                (traceHome s1 s2 line a.core (some a.id.paddock) a.ordinal .wrLine))
            | .wait _ => some (s1.sendUnits a (r.map Prod.fst) line (.wrLine d))
            | .err => none)
  | .tile _ _ _ _ _ _ =>
    match a.kind with
    | .cpr _ => none
    | _ =>
      (s.sideGran x.dst).bind (fun gr =>
        let mine := all.filter (fun e => s.sideGran e.2.dst == some gr)
        let off (e : AUnit) : Nat := match e.dst with
          | .tile g _ h r c _ => eOff ((s.wgAt g).entryOf h) r c % 16
          | _ => 0
        if !(s.gran gr.1 gr.2).poison ∨ (a.we && (s.gran gr.1 gr.2).full) ∨ !(List.range 16).all (fun b => mine.any (fun e =>
            decide (off e.2 ≤ b) && decide (b < off e.2 + e.2.size))) then none
        else
          match readAll a s mine with
          | (s1, none) => some s1
          | (s1, some r) =>
            let s2 := s1.setGran gr.1 gr.2 { s1.gran gr.1 gr.2 with poison := false }
            let s3 := r.foldl (fun y e => y.writePlace gr.1 (16 * gr.2 + off e.2.1) e.2.1.size e.2.2) s2
            some (r.foldl (fun y e => y.unitDone a e.1 e.2.1 0) s3))
  | _ => none

/-- A row whose sibling handle was not bound at issue becomes its units once the handle is bound; a row of the wrong shape
fails (11 R211). A handle that has been freed meanwhile discards what was to be written to it (15 R271). -/
def expandRow (s : State) (a : AsyncOp) (u : Nat) (x : AUnit) : State :=
  match s.rowEntry x.src x.dst with
  | (.wait, _, _) => s
  | (.freed, _, _) => (match x.src with
    | .tile _ _ _ _ _ _ => s.failUnit a.uid u 0x07 0 0 none
    | _ => s.settle a.uid u .landed)
  | (.gone, _, _) => s.failUnit a.uid u 0x07 0 0 none
  | (.ok _ e, r, c) =>
    if rowBad e x.size r c then s.failUnit a.uid u 0x07 0 0 none
    else
      let us := rowUnits x.src x.dst (rowBytes e c) x.size (eWidth e)
      s.updAsync a.uid (fun y => { y with units := y.units.set u (us.headD { x with row := false }) ++ us.tail })

end State

/-- ASYNC_UNIT_LAND (11 R205): unit u of operation n lands, fails, waits, or leaves for another device. An operation of a
launch that was reset begins no further unit: those not begun have been taken away (18 R328). -/
def execAsyncUnitLand (n u : Nat) (s : State) : Res :=
  match s.asyncAt n with
  | none => .next s
  | some a =>
    if a.suspended then .next s
    else
      match a.units[u]? with
      | none => .next s
      | some x =>
        if x.st ≠ .pending ∨ x.sent ≠ none then .next s
        else if x.row then .next (s.expandRow a u x)
        else
          match a.kind with
          | .cpchute _ none => .next s
          | _ => .next ((s.landWhole a x).getD (s.landUnit a u x))

/-! ## cpchute and launch -/

/-- What reading a launch record gives: its double words with the status word's physical address, a failure with the kind and the unit of an
error response, or a wait. -/
inductive RecAns where
  | ok (ds : List Dword) (st : Nat)
  | bad (c : Byte) (kind : Nat) (src : Option Source)
  | wait
  deriving DecidableEq, Repr

/-- The next slot of a chute is free (14 R260). -/
def chuteFree (c : Chute) : Bool := !c.claimed.getLsbD c.wptr.toNat
/-- The chute after a claim of its next slot, by an engine or not (14 R260). -/
def chuteClaimed (c : Chute) (eng : Bool) : Chute :=
  let bit : BitVec 64 := BitVec.twoPow 64 c.wptr.toNat
  { c with claimed := c.claimed ||| bit, engine := if eng then c.engine ||| bit else c.engine &&& ~~~bit,
           wptr := BitVec.ofNat 6 ((c.wptr.toNat + 1) % (c.slotsM1.toNat + 1)), prodWait := c.prodWait.tail }

/-- The first chute whose first waiting producer is an engine and whose next slot is free. -/
def State.engineClaim (s : State) : Option (Nat × Chute) :=
  s.chute.find? (fun e => chuteFree e.2 && decide (2 ^ 50 ≤ (e.2.prodWait.headD (0, 0, 0)).1) &&
    (s.asyncAt ((e.2.prodWait.headD (0, 0, 0)).1 - 2 ^ 50)).all (fun a => !a.suspended && !s.leaving a.id.paddock))

/-- CPCHUTE_CLAIM (11 R212): the engine that waits first takes the slot; its units' rows become the slot's. -/
def execCpchuteClaim (s : State) : Res :=
  match s.engineClaim with
  | none => .next s
  | some (key, c) =>
    let uid := (c.prodWait.headD (0, 0, 0)).1 - 2 ^ 50
    let slot := c.wptr.toNat
    let toSlot (x : AUnit) : AUnit := match x.dst with
      | .chute k _ col => { x with dst := .chute k slot col }
      | _ => x
    .next ((s.updChute key (fun c => chuteClaimed c true)).updAsync uid (fun a =>
      { a with kind := .cpchute key (some slot), units := a.units.map toSlot }))

namespace State

/-- Read 384 bytes of a launch record in pieces of 64 (14 R252): the double words and the physical address of the status word; a
failure; or a line that must be waited for. -/
def readRecord (s : State) (core asid : Nat) (priv : Bool) (a : Nat) : State × RecAns :=
  (List.range 6).foldl (fun (r : State × RecAns) i =>
    match r with
    | (s, .ok ds st) =>
      if 2 ^ 48 ≤ a + 64 * i then (s, .bad 0x04 1 none)
      else
        match s.translate core asid (a + 64 * i) .write priv false with
        | (s1, .error c) => (s1, .bad c 1 none)
        | (s1, .fail k n) => (s1, .bad (BitVec.ofNat 8 (errCode n)) k (some (errSource s1.steps k n)))
        | (s1, .wait _) => (s1, .wait)
        | (s1, .ok x) =>
          let line := x.pa / 128
          if s1.unreachable x.pa then (s1, .bad 0x09 (downKind x.pa) (some (errSource s1.steps (downKind x.pa) line)))
          else if (s1.dirAt line).state = .P || s1.podFailed line then
            (s1.clearFail line, .bad (BitVec.ofNat 8 (errCode line)) (((s1.proxyAt line).failed).getD 1) (some (lineSrc s1.steps line)))
          else if !s1.atHand line then (s1.askHome 0x1FFF line .read, .wait)
          else
            (s1, .ok (ds ++ (List.range 8).map (fun j => BitVec.ofNat 64 (lineBytes (s1.handView line) (x.pa % 128 + 8 * j) 8)))
              (if i = 0 then x.pa else st))
    | r => r) (s, .ok [] 0)

/-- Records that wait in a paddock's queues (14 R253). -/
def queuesFree (s : State) (pkn : Nat) : Bool := decide ((s.pk pkn).queue.length < Config.queueRecords)

/-- A record enters its paddock's queue: state 1 and the next serial (14 R253). -/
def placeRecord (s : State) (pkn asid : Nat) (ds : List Dword) (statusPa : Nat) (issuer : Option Nat) : State :=
  let serial := (s.pk pkn).nextSerial
  let from' := issuer.bind s.asyncAt
  let l : Launch := { Launch.none with live := true, paddock := pkn, serial := serial, record := ds, statusPa := statusPa,
                                       asid := asid, state := 1, issuer := issuer
                                       clock := (from'.map (fun a => Store.get 0 s.lamport a.core)).getD 0 }
  ((s.updLaunch l.key (fun _ => l)).updPk pkn (fun p =>
    { p with nextSerial := p.nextSerial + 1, queue := p.queue ++ [⟨l.prio, serial⟩] })).putStatus l.key

/-- The first launch operation whose record can be placed. -/
def launchReady (s : State) : Option AsyncOp :=
  s.async.find? (fun a => !a.suspended && (match a.kind with
    | .launch _ false => a.noBegin || s.queuesFree a.id.paddock
    | _ => false))

end State

/-- LAUNCH_PLACEMENT (14 R253, 11 R212): a record that cannot be read ends its operation in error. -/
def execLaunchPlacement (s : State) : Res :=
  match s.launchReady with
  | none => .next s
  | some a =>
    if a.noBegin then .next { s with async := s.async.filter (fun x => x.uid != a.uid) }
    else
      match a.kind with
      | .launch addr _ =>
        match s.readRecord a.core a.asid a.priv addr.toNat with
        | (s1, .bad c k q) =>
          let s2 := s1.failOp a.uid c addr k q
          .next ((s2.asyncAt a.uid).elim s2 s2.finishOp)
        | (s1, .wait) => .next s1
        | (s1, .ok ds pa) =>
          let f := bits (ds.getD 2 0) 63 48
          .next ((s1.placeRecord a.id.paddock (if f = 0 then a.asid else f) ds pa (some a.uid)).updAsync a.uid
            (fun x => { x with kind := .launch addr true }))
      | _ => .next s

end Sys2Proof.Machine
end

