-- ==== Sys2Proof/Machine/Sync.lean ====
section
/-!
DEFINITION. Machine/Sync.lean: class 5: barriers, timelines, window counters, chutes, waiter queues and monitors
(14 R250-R265, 16 R289-R292). An instruction that waits leaves its issue set at its word and is taken up again.
-/

namespace Sys2Proof.Machine

/-! ## Barriers (14 R259) -/

/-- Hold the threads of S at a barrier: one arrival more; the instance completes when this was the last party. -/
def barrier (k : BarKind) (s : State) : Res :=
  let s1 := s.waitOn (.barrier k)
  let s2 := s1.updSpan (fun sp => sp.updLanes s.lanes (fun _ la => { la with hold := .barrier k }))
  let s3 := s2.updHere (fun w => { w with progBar := w.progBar + 1 })
  .next (s3.barrierCheck s.focus.g k)

/-- bar.wg. -/
def execBarWg (s : State) : Res := barrier .wg s
/-- bar.pen. -/
def execBarPen (s : State) : Res := barrier .pen s
/-- bar.launch: code 02 in a staged launch or without the grid-barrier flag (03 R54). -/
def execBarLaunch (s : State) : Res :=
  if s.launchHere.staged || !s.launchHere.gridBar then fault 0x02 0 s else barrier .launch s

/-! ## Timelines (16 R289, R290) -/

/-- The lowest-numbered of a list of marks. -/
def lowestMark : List Mark → Option Mark
  | [] => none
  | m :: ms =>
    match lowestMark ms with
    | none => some m
    | some x => if m.op ≤ x.op then some m else some x

/-- The mark is reported: the next unreported error takes its place (16 R288). -/
def nextMark (t : Timeline) : Timeline :=
  let m := lowestMark t.errors
  { t with mark := m, errors := m.elim t.errors (fun x => t.errors.erase x) }

/-- Clear the marks of launch outcomes that operations 1 to n cover, one round for each unreported error. -/
def clearOutcomes (n : Nat) : Nat → Timeline → Timeline
  | 0, t => t
  | k + 1, t =>
    match t.mark with
    | some m => if m.op ≤ n ∧ m.code = 0xFF#8 then clearOutcomes n k (nextMark t) else t
    | none => t

/-- tlwait: waits for c ≥ n; a covered mark other than a launch's outcome is a fault on S, once. -/
def execTlwait (n : BitVec 3) (b : SOp) (s : State) : Res :=
  let k := (s.argOr (s.span.opB b)).toNat
  let t := s.here.tlAt n.toNat
  if t.c < k then .next (s.waitWith (.timeline n.toNat k) (BitVec.ofNat 64 k))
  else
    let t1 := clearOutcomes k (t.errors.length + 1) t
    let put (x : Timeline) : State := s.updHere (fun w => w.updTl n.toNat (fun _ => x))
    match t1.mark with
    | some m => if m.op ≤ k then .next ((put (nextMark t1)).dropArg.raiseAll m.code m.addr) else done (put t1)
    | none => done (put t1)

/-- The view of a timeline that sel names. -/
def tlView (t : Timeline) (sel : Nat) : Dword :=
  match sel with
  | 0 => BitVec.ofNat 64 t.c
  | 1 => BitVec.ofNat 64 t.i
  | 2 => match t.mark with
    | some m => 1#1 ++ (0#7 ++ (m.code ++ BitVec.ofNat 48 m.op))
    | none => 0
  | _ => match t.mark with
    | some m => m.addr
    | none => 0

/-- tlread. -/
def execTlread (d : BitVec 6) (n : BitVec 3) (sel : BitVec 2) (s : State) : Res :=
  done (s.updSpan (fun sp => sp.setS d (tlView (s.here.tlAt n.toNat) sel.toNat)))

/-! ## Window counters (16 R292) -/

/-- The window of the issuing launch for a region. -/
def State.windowHere (s : State) (r : BitVec 5) : Option (Nat × Window) := s.windowOf s.here.paddock s.here.serial r.toNat
/-- The counter that k names: 0 landed, 1 acked. -/
def windowCount (w : Window) (k : BitVec 1) : Dword := if k = 1#1 then w.acked else w.landed

/-- Has the window on which the issuing set waits at this instruction been freed. -/
def State.staleHere (s : State) : Bool := (s.span.clauseOf s.lanes).bind (·.stale) == some s.focus.pos

/-- wcwait: code 06 when the region is not held, or has been freed since the wait began. -/
def execWcwait (k : BitVec 1) (r : BitVec 5) (b : SOp) (s : State) : Res :=
  match (if s.staleHere then none else s.windowHere r) with
  | none => fault 0x06 0 s.dropArg
  | some (_, w) =>
    let n := (s.argOr (s.span.opB b)).toNat
    if (windowCount w k).toNat < n then .next (s.waitWith (.window r.toNat n) (BitVec.ofNat 64 n)) else done s

/-- wcread. -/
def execWcread (d : BitVec 6) (r : BitVec 5) (k : BitVec 1) (s : State) : Res :=
  match s.windowHere r with
  | none => fault 0x06 0 s
  | some (_, w) => done (s.updSpan (fun sp => sp.setS d (windowCount w k)))

/-! ## Chutes (14 R260) -/

namespace State

/-- The chute of the issuing launch on handle h of the issuing core whose stages the issuing member's is one of. -/
def chuteHere (s : State) (h : BitVec 6) : Nat := s.chuteFor s.here.paddock s.here.serial s.here.core h.toNat s.here.stage

/-- Does an entry of a wait list stand for the issuing set. -/
def mineIn (s : State) (x : Nat × Nat × Nat) : Bool :=
  x.1 == s.focus.g && x.2.1 == s.focus.sp && (BitVec.ofNat 32 x.2.2 &&& s.lanes != 0)
/-- The wait list with the issuing set in it, at its end when it is new. -/
def joined (s : State) (q : List (Nat × Nat × Nat)) : List (Nat × Nat × Nat) :=
  if q.any s.mineIn then q else q ++ [(s.focus.g, s.focus.sp, s.lanes.toNat)]
/-- Is the issuing set first in a wait list. -/
def firstIn (s : State) (q : List (Nat × Nat × Nat)) : Bool := (q.head?.map s.mineIn).getD false
/-- One chute instruction more is complete (16 R293). -/
def countChute (s : State) : State := s.updHere (fun w => { w with progChute := w.progChute + 1 })

end State

/-- chq.claim. -/
def execChqClaim (d h : BitVec 6) (s : State) : Res :=
  let key := s.chuteHere h
  let c := s.chuteAt key
  if !(c.live && c.fromStage == s.here.stage) then fault 0x07 0 s
  else
    let c1 := { c with prodWait := s.joined c.prodWait }
    if s.firstIn c1.prodWait && chuteFree c1 then
      done (((s.updChute key (fun _ => chuteClaimed c1 false)).countChute).updSpan (fun sp => sp.setS d (c.wptr.setWidth 64)))
    else .next ((s.updChute key (fun _ => c1)).waitOn (.chute key true))

/-- chq.wait. -/
def execChqWait (d h : BitVec 6) (s : State) : Res :=
  let key := s.chuteHere h
  let c := s.chuteAt key
  if !(c.live && c.toStage == s.here.stage) then fault 0x07 0 s
  else
    let q := s.joined c.consWait
    let r := c.rptr.toNat
    if s.firstIn q && c.full.getLsbD r && !c.taken.getLsbD r then
      let next : BitVec 6 := BitVec.ofNat 6 ((r + 1) % (c.slotsM1.toNat + 1))
      done (((s.updChute key (fun c =>
        { c with taken := c.taken ||| BitVec.twoPow 64 r, consWait := q.tail, rptr := next })).countChute).updSpan (fun sp => sp.setS d (c.rptr.setWidth 64)))
    else .next ((s.updChute key (fun c => { c with consWait := q })).waitOn (.chute key false))

/-- chq.pub: the slot must be filling, and claimed by no engine. -/
def execChqPub (h : BitVec 6) (b : SOp) (s : State) : Res :=
  let key := s.chuteHere h
  let c := s.chuteAt key
  let k := (s.span.opB b).toNat
  if !(c.live && c.fromStage == s.here.stage) || decide (c.slotsM1.toNat < k) || !c.claimed.getLsbD k || c.full.getLsbD k ||
      c.engine.getLsbD k then fault 0x07 0 s
  else done ((s.updChute key (fun c => State.publishSlot c k)).countChute)

/-- chq.rel: the slot must be in use. -/
def execChqRel (h : BitVec 6) (b : SOp) (s : State) : Res :=
  let key := s.chuteHere h
  let c := s.chuteAt key
  let k := (s.span.opB b).toNat
  if !(c.live && c.toStage == s.here.stage) || decide (c.slotsM1.toNat < k) || !c.taken.getLsbD k then fault 0x07 0 s
  else
    let m : BitVec 64 := ~~~(BitVec.twoPow 64 k)
    done ((s.updChute key (fun c =>
      { State.setRow c k false with taken := c.taken &&& m, full := c.full &&& m, claimed := c.claimed &&& m,
                                    engine := c.engine &&& m })).countChute)

/-! ## Waiter queues (14 R262) -/

namespace State

/-- The job that a request of the issuing paddock carries, as a queue's name: a paddock without a job has its own. -/
def jobHere (s : State) : Nat :=
  let j := (s.pk s.here.paddock).cfg.job
  if j = 0 then 65536 + s.here.paddock else j.toNat
/-- The key of a word's queue of a job. -/
def waiterKey (pa job : Nat) : Nat := pa * 2 ^ 17 + job
/-- The queue with a key. -/
def queueAt (s : State) (key : Nat) : Option WaitQueue := s.waitq.find? (fun q => q.key == key)
/-- Is a physical address on a memory tray: a slot of the pod that has a tray window (19 R342). -/
def onTray (s : State) (pa : Nat) : Bool :=
  pa / 2 ^ 56 == 1 && decide (Store.get TrayWindow.reset s.tray (pa / 2 ^ 46 % 1024) ≠ TrayWindow.reset)

/-- The physical address of a waiter word (14 R262): checked as a 4-byte read; code 0A at the remote scope, on a tray, or where the
peer refuses it. -/
def waiterWord (s : State) (a : Dword) : State × Look Nat :=
  match s.checkAddr s.here.core s.here.paddock s.asid a 4 4 .read s.privileged false with
  | (s1, .error c) => (if c = 0x0A#8 then s1.errFar a 1 else s1, .error c)
  | (s1, .wait n) => (s1, .wait n)
  | (s1, .fail k n) => (s1.errLine a n (errCode n) k, .error (BitVec.ofNat 8 (errCode n)))
  | (s1, .ok (.far sc)) => (s1.errFar a sc, .error 0x0A)
  | (s1, .ok (.phys x _)) =>
    if s1.onTray x.pa then (s1.errFar a 1, .error 0x0A)
    else if s1.unreachable x.pa then (s1.errLine a (x.pa / 128) 9 (downKind x.pa), .error 0x09)
    else (s1, .ok x.pa)

/-- The request of a waitq or wake for a word of a pod peer leaves: the issue set waits for its answer, which carries the packet's
tag. -/
def askWaiter (s : State) (a : Dword) (w : WaitKind) (k : PacketKind) : State :=
  (s.sendHere 1 a 0 false k).waitWith w (BitVec.ofNat 64 (2 ^ 62 + s.remoteTag % 2 ^ 62))
/-- What has become of that request: none was made, it is under way, or its answer, a code and a value. -/
def waiterAnswer (s : State) : Option (Option (Byte × Nat)) :=
  let x := s.argOr 0
  if x.getLsbD 63 then some (some (BitVec.ofNat 8 (bits x 47 40), bits x 31 0)) else if x.getLsbD 62 then some none else none
/-- An answer to the request with a tag reaches the clause that waits for it. -/
def answerWaiter (s : State) (tag : Nat) (code : Byte) (v : Nat) : State :=
  let got (c : Clause) : Clause :=
    match c.arg with
    | some (p, x) => if x = BitVec.ofNat 64 (2 ^ 62 + tag % 2 ^ 62) then
        { c with arg := some (p, BitVec.ofNat 64 (2 ^ 63 + 2 ^ 40 * code.toNat + v % 2 ^ 32)) } else c
    | none => c
  { s with wg := Store.mapVals Wg.none (fun _ w =>
      { w with span := Store.mapVals Span.fresh (fun _ sp => { sp with clauses := sp.clauses.map got }) w.span }) s.wg }

/-- A pod peer's word is not served: the peer has refused it, or is lost (13 R247). -/
def errPeer (s : State) (addr : Dword) (c : Byte) : State :=
  if c = 0x09#8 then s.errHere addr 9 3 (portSrc s.steps (dieOf s.here.core) 1) else s.errFar addr 1
/-- One return from waitq (16 R293). -/
def countWaiter (s : State) (n : Nat) : State := s.updHere (fun w => { w with progWaiter := w.progWaiter + BitVec.ofNat 32 n })

/-- The check of waitq at the word's home: 0 when the word differs, 2 when no header is free, else a node. -/
def waitCheck (s : State) (d : BitVec 6) (pa : Nat) (x : Word) (a : Dword) : Res :=
  let line := pa / 128
  let me := corePtr s.here.core
  match s.loadHome me line (some s.here.paddock) with
  | .err => .next ((s.errLine a line 9 1).raiseAll 0x09 a)
  | .wait _ => .next (s.askHome me line .read)
  | .ok s1 =>
    if (s1.dirAt line).state = .P then .next ((s1.errLine a line 9 1).raiseAll 0x09 a)
    else if s1.viewBytes pa 4 ≠ x.toNat then done ((s1.countWaiter 1).updSpan (fun sp => sp.setS d 0))
    else
      let key := waiterKey pa s.jobHere
      match s1.queueAt key with
      | none =>
        if Config.waiterHeaders ≤ (s1.waitq.filter (fun q => q.paddock == s.here.paddock)).length then
          done ((s1.countWaiter 1).updSpan (fun sp => sp.setS d 2))
        else
          .next (({ s1 with waitq := s1.waitq ++ [(⟨key, pa, s.jobHere, s.here.paddock, [(s.focus.g, s.focus.sp)]⟩ : WaitQueue)] }.updSpan
            (fun sp => { sp with node := some ⟨key, s.lanes, false⟩ })).waitOn (.waiter key))
      | some _ =>
        .next (({ s1 with waitq := s1.waitq.map (fun (q : WaitQueue) =>
          if q.key = key then { q with nodes := q.nodes ++ [(s.focus.g, s.focus.sp)] } else q) }.updSpan
            (fun sp => { sp with node := some ⟨key, s.lanes, false⟩ })).waitOn (.waiter key))

/-- Release the node of span n of workgroup g, which hears a clock (12 R223). The node of another device's request is answered. -/
def releaseNode (clock : BitVec 48) (s : State) (e : Nat × Nat) : State :=
  if nodePeer e ≠ none then { s with outbox := s.outbox ++ [OutMsg.ack ((nodePeer e).getD 0) (e.2 / 2 ^ 31) 0 0 s.deviceStamp [1]] }
  else if (s.wgAt e.1).res = .none then s
  else (s.updSpanAt e.1 e.2 (fun sp => { sp with node := sp.node.map (fun n => { n with released := true }) })).hearClock
    (s.wgAt e.1).core clock
/-- Release the first n nodes of a queue: how many they were (14 R262). -/
def wakeQueue (s : State) (key n : Nat) (clock : BitVec 48) : State × Nat :=
  let nodes := ((s.queueAt key).map (·.nodes)).getD []
  let k := min n nodes.length
  let s2 := (nodes.take k).foldl (releaseNode clock) s
  ({ s2 with waitq := (s2.waitq.map (fun (q : WaitQueue) =>
    if q.key = key then { q with nodes := q.nodes.drop k } else q)).filter (fun q => q.nodes ≠ []) }, k)

end State

/-- waitq. A word homed on a peer of the pod is checked there (log 22). DESIGN CHOICE (log 78): an issue set that waits while another of its
span holds the span's node reads its operands anew when the node is free; the spec does not say whether it does. Unsafe. -/
def execWaitq (d a : BitVec 6) (b : SOp) (s : State) : Res :=
  let addr := s.span.sr a
  let free (x : State) : State := x.updSpan (fun sp => { sp with node := none })
  match s.waiterAnswer with
  | some none => .next (s.waitOn (.waiter ((s.span.node.map (·.key)).getD (2 ^ 60))))
  | some (some (c, v)) =>
    if c = 0 then done (free ((s.countWaiter 1).updSpan (fun sp => sp.setS d (BitVec.ofNat 64 v))))
    else .next ((free (s.errPeer addr c)).dropArg.raiseAll c addr)
  | none =>
    match s.span.node with
    | some n =>
      if n.lanes &&& s.lanes = 0 then .next (s.waitOn (.waiter n.key))
      else if n.released then done ((s.countWaiter 1).updSpan (fun sp => { sp.setS d 1 with node := none }))
      else .next (s.waitOn (.waiter n.key))
    | none =>
      let x : Word := (s.span.opB b).setWidth 32
      match s.waiterWord addr with
      | (s1, .error c) => .next (s1.raiseAll c addr)
      | (s1, .wait _) => .next s1
      | (s1, .fail _ _) => .next s1
      | (s1, .ok pa) =>
        if isPod (pa / 128) then
          .next ((s1.updSpan (fun sp => { sp with node := some ⟨2 ^ 60 + pa, s.lanes, false⟩ })).askWaiter addr (.waiter (2 ^ 60 + pa)) (.waitq x))
        else s1.waitCheck d pa x addr

/-- wake. -/
def execWake (d a : BitVec 6) (b : SOp) (s : State) : Res :=
  let addr := s.span.sr a
  let n := (s.span.opB b).toNat % 2 ^ 32
  let give (x : State) (k : Nat) : Res := done ((x.countWaiter k).updSpan (fun sp => sp.setS d (BitVec.ofNat 64 k)))
  match s.waiterAnswer with
  | some none => .next (s.waitOn .none)
  | some (some (c, v)) => if c = 0 then give s v else .next ((s.errPeer addr c).dropArg.raiseAll c addr)
  | none =>
    match s.waiterWord addr with
    | (s1, .error c) => .next (s1.raiseAll c addr)
    | (s1, .wait _) => .next s1
    | (s1, .fail _ _) => .next s1
    | (s1, .ok pa) =>
      if isPod (pa / 128) then .next (s1.askWaiter addr .none (.wake n))
      else
        let r := s1.wakeQueue (State.waiterKey pa s.jobHere) n (Store.get 0 s.lamport s.here.core)
        give r.1 r.2

/-! ## Monitors (14 R264, R265) -/

/-- mon: armed on the line of the address, in place of any armed one, once every check of 11 R186 has passed; code 0A at the remote scope,
or where a pod peer refuses it. -/
def execMon (a : BitVec 6) (s : State) : Res :=
  let addr := s.span.sr a
  match s.checkAddr s.here.core s.here.paddock s.asid addr 1 1 .read s.privileged false with
  | (s1, .error c) => .next ((if c = 0x0A#8 then s1.errFar addr 1 else s1).raiseAll c addr)
  | (s1, .wait _) => .next s1
  | (s1, .fail k n) => .next ((s1.errLine addr n (State.errCode n) k).raiseAll (BitVec.ofNat 8 (State.errCode n)) addr)
  | (s1, .ok (.far sc)) => .next ((s1.errFar addr sc).raiseAll 0x0A addr)
  | (s1, .ok (.phys x _)) =>
    if s1.unreachable x.pa then .next ((s1.errLine addr (x.pa / 128) 9 (State.downKind x.pa)).raiseAll 0x09 addr)
    else done (s1.updSpan (fun sp => { sp with mon := some ⟨x.pa / 128, false⟩ }))

/-- mwait. Its timeout is an event (MWAIT_TIMEOUT). DESIGN CHOICE (log 78): of two issue sets of a span that wait on its one monitor, the spec
does not say what the second gets when the first disarms it; here it gets 0. Unsafe. -/
def execMwait (d : BitVec 6) (b : SOp) (s : State) : Res :=
  let t := s.argOr (s.span.opB b)
  match s.span.mon with
  | none => done (s.updSpan (fun sp => sp.setS d 0))
  | some m =>
    if m.triggered then done (s.updSpan (fun sp => { sp.setS d 1 with mon := none }))
    else if t = 0 then done (s.updSpan (fun sp => sp.setS d 0))
    else .next (s.waitWith .mwait t)

end Sys2Proof.Machine
end

