-- ==== Sys2Proof/Machine/Coherence.lean ====
section
/-!
DEFINITION. Machine/Coherence.lean: the messages of 13 R236 one by one, as they reach a home (13 R239, R243) or a cache (13 R240):
in this device's own directory, whose parties are cores and Sahnan agents, and in the pod directory, whose parties are devices
and trays (13 R230, R232, R246); evictions; combined messages (13 R238); the loss of a party and the revocation of an extent (13
R247, R248). Messages to another device or an agent leave the device, and theirs come from outside. A message that the network
already holds is taken out of it when it is delivered. The requests of both directories for a line wait in one queue, in the order in
which they arrived (13 R245).
-/

namespace Sys2Proof.Machine

/-- Is a message a reduction: it waits in the CMB queue (13 R237). -/
def Msg.isRed : Msg → Bool
  | .redOp _ _ => true
  | _ => false
/-- Sum of the queued requests of a class at one slice: a place kept for an access of this device itself is none of them (log 6). -/
def queuedAt (s : State) (slice : Nat) (cmb : Bool) : Nat :=
  ((s.dir.filter (fun e => homeSlice e.1 == slice)).map (fun e => (e.2.queue.filter (fun q => match q.2 with
    | .redOp _ _ => cmb
    | .recall => false
    | _ => !cmb)).length)).sum

/-- The number of a request in Rime records (log 24). -/
def Msg.req : Msg → Nat
  | .getS => 0 | .getX => 1 | .upg => 2 | .drGet _ => 3 | .amo _ => 4 | .wrLine _ => 5 | .putE => 6 | .putM _ => 7 | .putO _ => 8
  | .redOp _ _ => 9
  | _ => 15
/-- What a request needs of its line toward the pod; nothing for one that only asks for room. -/
def Msg.need : Msg → Option Need
  | .getS => some .read
  | .getX | .upg => some .write
  | .drGet t => some (.drift t)
  | .recall => none
  | _ => some .home
/-- Does a message carry data whose carriage check the home tests (11 R188). -/
def Msg.loaded : Msg → Bool
  | .amo _ | .wrLine _ | .redOp _ _ | .putM _ | .putO _ => true
  | _ => false
/-- Is a message one of the forwards that a cache answers with FwdAck (13 R240). -/
def Msg.isFwd : Msg → Bool
  | .fwdS _ | .fwdX _ | .recall => true
  | _ => false

namespace State

/-! ## The two directories -/

/-- Take a message out of the network when it is there. -/
def take (s : State) (h : Hdr) (m : Msg) : State := { s with msgs := s.msgs.erase (h, m) }
/-- Leave a message in the network: its receiver does not sink it yet (13 R237, R240). It stays ahead of the later ones. -/
def leave (s : State) (h : Hdr) (m : Msg) : State := { s with msgs := (h, m) :: s.msgs }
/-- The entry of a line in this device's directory, or in the pod's. -/
def entAt (s : State) (pod : Bool) (line : Nat) : DirEntry := if pod then s.podAt line else s.dirAt line
/-- Write that entry. -/
def setEnt (s : State) (pod : Bool) (line : Nat) (d : DirEntry) : State := if pod then s.setPod line d else s.setDir line d
/-- The state of that entry; a poisoned line is poisoned in both. -/
def stateAt (s : State) (pod : Bool) (line : Nat) : HomeState :=
  if (s.dirAt line).state = .P then .P else (s.entAt pod line).state
/-- Is a line in a busy state in either directory: its requests wait. -/
def lineBusy (s : State) (line : Nat) : Bool := (s.dirAt line).state.busy || (s.podAt line).state.busy
/-- A message of a line's home to a party. -/
def reply (s : State) (pod : Bool) (dst : BitVec 13) (line : Nat) (m : Msg) : State :=
  if pod then s.toPod dst line m else s.send (s.fromHome dst line) m
/-- The header of the home's answer to a request: it carries the request's number back. -/
def backHdr (s : State) (h : Hdr) : Hdr := { (if h.pod then s.fromPod h.src h.line else s.fromHome h.src h.line) with req := h.req }
/-- The home's answer to a request. -/
def answer (s : State) (h : Hdr) (m : Msg) : State := s.send (s.backHdr h) m
/-- The members of an entry's sharer set (13 R235). -/
def partiesOf (pod : Bool) (d : DirEntry) : List (BitVec 13) := if pod then podMembers d else members d
/-- Is a party recorded as lost (13 R247). -/
def isOut (s : State) (pod : Bool) (p : BitVec 13) : Bool := if pod then s.slotLost p else s.isLost p
/-- The entry with one more sharer or holder. -/
def addTo (pod : Bool) (d : DirEntry) (p : BitVec 13) : DirEntry := if pod then addSlot d p else addParty d p
/-- The recipients of an invalidation or a merge; a lost party has replied nil. -/
def recipients (s : State) (pod : Bool) (d : DirEntry) (except : Option (BitVec 13)) : List (BitVec 13) :=
  (partiesOf pod d).filter (fun p => decide (some p ≠ except) && !s.isOut pod p)
/-- The same message to several parties. -/
def replyAll (s : State) (pod : Bool) (ps : List (BitVec 13)) (line : Nat) (m : Msg) : State :=
  ps.foldl (fun a p => a.reply pod p line m) s

/-! ## Contributors of combined messages (13 R238) -/

/-- The reply count of a message. -/
def cmbCount : Msg → Nat
  | .redOp _ n => n
  | .drPart _ _ n => n
  | _ => 0
/-- The contributors of a message with their counts: those of a combined one, or its sender. -/
def contributors (s : State) (x : Hdr × Msg) : List (Hdr × Nat) :=
  ((s.combined.find? (fun c => c.1 == x)).map Prod.snd).getD [(x.1, cmbCount x.2)]
/-- Forget the contributors of a message. -/
def dropRecord (s : State) (x : Hdr × Msg) : State := { s with combined := s.combined.filter (fun c => c.1 != x) }
/-- The contributors of a combined message pass to the acknowledgement that answers it (13 R238). -/
def passRecord (s : State) (old new : Hdr × Msg) : State :=
  { s with combined := s.combined.map (fun c => if c.1 = old then (new, c.2) else c) }

/-! ## Requests at the home (13 R239) -/

/-- Does a revocation refuse a host at a line (13 R248, 01 R21): a new request at once, one that was there already when 20 µs have
passed. A host is an agent of this device or a slot of the pod. -/
def revokedFor (s : State) (pod : Bool) (p : BitVec 13) (line : Nat) (old : Bool) : Bool :=
  (pod || isAgent p) && s.revoked.any (fun r => BitVec.ofNat 13 r.host == p && decide (r.first ≤ line) &&
    decide (line < r.first + r.count) && (!old || r.lapsed))

/-- The record of a request taken at the home (17 R306), under the request's attribution (17 R309). -/
def served (s : State) (h : Hdr) (m : Msg) (before : HomeState) : State :=
  if m = .recall then s else
  s.emitHome 0x28 0x07 h.line h.pk h.ord false
    (BitVec.ofNat 64 (m.req + 16 * before.code.toNat + 256 * (s.stateAt h.pod h.line).code.toNat + 4096 * h.src.toNat)) h.stamp

/-- Add a sharer or holder; the record of an overflow (17 R306). -/
def join (s : State) (h : Hdr) (p : BitVec 13) : State :=
  let d := s.entAt h.pod h.line
  let d' := addTo h.pod d p
  let s1 := s.setEnt h.pod h.line d'
  if d'.coarse && !d.coarse then s1.emitHome 0x29 0x07 h.line h.pk h.ord false (BitVec.ofNat 64 p.toNat) h.stamp else s1

/-- A request meets an error response of a kind (13 R239, 15 R281), which reaches every contributor of a combined one; a pseudo-request for
room has nobody to answer. -/
def errTo (s : State) (h : Hdr) (m : Msg) (kind : Nat) : State :=
  if m = .recall then s
  else (s.contributors (h, m)).foldl (fun a c => a.send { (a.backHdr c.1) with kind := kind } (.err false)) (s.dropRecord (h, m))

/-- An sc event reaches its line's home (12 R223): none when the home has performed one with a greater key; else it is the greatest. -/
def scHome (s : State) (h : Hdr) : Option State :=
  if !h.sc then some s
  else
    let k := Store.get 0 s.homeKey h.line
    let t : BitVec 48 := k.extractLsb' 13 48
    if k ≠ 0 ∧ (precedes h.clock t ∨ (h.clock = t ∧ h.src.toNat < (k.extractLsb' 0 13).toNat)) then none
    else some (({ (s.hearSlice h.line h.clock) with homeKey := Store.set 0 s.homeKey h.line (h.clock ++ h.src) }).emitHome 0x2B 0x07 h.line
      h.pk h.ord false (BitVec.ofNat 64 (h.clock.toNat + 2 ^ 48 * h.src.toNat)) h.stamp)

/-- The record of an amo.fadd.f32 that a home performs for an agent or another device (11 R196; log 22). -/
def faddMark (s : State) (h : Hdr) (rs : List AmoReq) : State :=
  if h.pk.isNone && rs.any (fun r => r.op == .fadd32) then
    s.emitHome 0x4A 0x07 h.line none 0xFFFFF true (BitVec.ofNat 64 h.src.toNat) h.stamp else s

/-- Perform an atomic, reduction or whole-line write at the home, whose data are current (13 R239; log 29); an sc event behind a greater
key is turned away, to be performed again with a later stamp (12 R223). -/
def performHome (s0 : State) (h : Hdr) (m : Msg) : State :=
  match s0.scHome h with
  | none => s0.send (s0.backHdr h) (.err true)
  | some s =>
    let write (d : LineData) : State := (s.setMemLine h.line d).trigger h.line
    let old := s.memLine h.line
    match m with
    | .amo rs => ((write (amoLine rs old).1).answer h (.data old false)).faddMark h rs
    | .redOp rs n =>
      let a := write (amoLine rs old).1
      (a.answer h (.redAck n)).passRecord (h, m) (a.backHdr h, .redAck n)
    | .wrLine d => (write d).answer h .putAck
    | _ => s

/-- The entry that reserves a line for the party whose access has been made room for. -/
def reserve (s : State) (h : Hdr) : State :=
  let d := s.dirAt h.line
  s.setDir h.line { DirEntry.idle with state := .BInv, serving := some (h, .recall), queue := d.queue, held := d.held
                                       requester := if h.src = 0x1FFF#13 then 0 else h.src }

/-- Serve a request from I (13 R239), as it is also served after copies out or a merge. -/
def serveI (s : State) (h : Hdr) (m : Msg) : State :=
  let d := s.entAt h.pod h.line
  let idle : DirEntry := { DirEntry.idle with queue := d.queue, held := d.held }
  let own : DirEntry := { idle with state := .X, owner := h.src }
  match m with
  | .getS =>
    if h.pod || s.podOk h.line .write then (s.setEnt h.pod h.line own).answer h (.data (s.memLine h.line) true)
    else ((s.setEnt h.pod h.line { idle with state := .S }).join h h.src).answer h (.data (s.memLine h.line) false)
  | .getX | .upg => ((s.setEnt h.pod h.line own).answer h (.data (s.memLine h.line) true)).answer h .grant
  | .drGet t =>
    let base := if h.pod then (if (s.dirAt h.line).state = .D then [] else baseAccs t (s.memLine h.line)) else s.entryAccs h.line t
    let s1 := s.setEnt h.pod h.line { idle with state := .D, tag := t, accs := base }
    ((s1.join h h.src).answer h (.grantD t)).emitHome 0x30 0x08 h.line h.pk h.ord false (BitVec.ofNat 64 t.op.toNat) h.stamp
  | .recall => s.reserve h
  | m => (s.setEnt h.pod h.line idle).performHome h m

/-- The request has its line to itself: ownership is granted, or it is served as from I. data says whether the home's
data go with the grant. -/
def conclude (s : State) (h : Hdr) (m : Msg) (data : Bool) : State :=
  match m with
  | .getX | .upg =>
    let d := s.entAt h.pod h.line
    let s1 := s.setEnt h.pod h.line { DirEntry.idle with state := .X, owner := h.src, queue := d.queue, held := d.held }
    (if data then s1.answer h (.data (s.memLine h.line) true) else s1).answer h .grant
  | _ => (if h.pod then s else s.outCopies h.line).serveI h m

/-- A merge is complete (13 R243 step 4), with its records, stamped after every message of the merge (17 R302) and attributed as 17 R309
says; a lost holder poisons the line (13 R247). What waits in the entry's queue stays there. -/
def endMerge (s : State) (h : Hdr) (m : Msg) : State :=
  let d := s.entAt h.pod h.line
  let c := maxD h.stamp d.stamp
  let pk := if h.pod then h.pk else s.mergePk d h.pk
  let s0 := if h.pod then s.podMerge h.line h.pk else s.mergeHome h.line h.pk
  let x := s0.entAt h.pod h.line
  let s1 := ((s0.setEnt h.pod h.line { x with queue := d.queue, held := d.held }).emitHome 0x32 0x08 h.line pk h.ord false
    (BitVec.ofNat 64 (d.tag.op.toNat + if d.lostHolder then 8 else 0)) c)
  match m with
  | .drGet t => if d.tag = t then s1 else
      s1.emitHome 0x33 0x08 h.line pk h.ord false (BitVec.ofNat 64 (d.tag.op.toNat + 16 * t.op.toNat)) c
  | _ => s1

/-- The record of a merge that begins (17 R306), for a number of holders. -/
def mergeBegins (s : State) (h : Hdr) (d : DirEntry) (n : Nat) : State :=
  s.emitHome 0x31 0x08 h.line (if h.pod then h.pk else s.mergePk d h.pk) h.ord false (BitVec.ofNat 64 n) h.stamp

/-- Serve a request at a line that is not busy (13 R239). -/
def serve (s : State) (h : Hdr) (m : Msg) : State :=
  let line := h.line
  let pod := h.pod
  let d := s.entAt pod line
  let q := h.src
  let put (a : State) (e : DirEntry) : State := a.setEnt pod line e
  let busy (st : HomeState) (acks : Nat) (f : Option (BitVec 13)) (m : Msg) : DirEntry :=
    { d with state := st, acks := acks, requester := if q = 0x1FFF#13 then 0 else q, replied := [], fwdTo := f, serving := some (h, m)
             before := d.state, stamp := h.stamp }
  let s1 :=
    match s.stateAt pod line with
    | .I => s.serveI h m
    | .S =>
      (match m with
      | .getS => (s.join h q).answer h (.data (s.memLine line) false)
      | _ =>
        let ps := s.recipients pod d (some q)
        let data := !(decide (m = Msg.upg) && (partiesOf pod d).contains q)
        if ps = [] then s.conclude h m data
        else (put s (busy .BInv ps.length none (if data && decide (m = Msg.upg) then .getX else m))).replyAll pod ps line .inv)
    | .X =>
      (match m with
      | .getS | .getX | .upg =>
        (put s (busy .BFwd 0 (some d.owner) m)).reply pod d.owner line (if m = Msg.getS then .fwdS q else .fwdX q)
      | _ => (put s (busy .BInv 1 (some d.owner) m)).reply pod d.owner line .recall)
    | .O =>
      (match m with
      | .getS => (s.join h q).reply pod d.owner line (.fwdS q)
      | .getX | .upg =>
        let ps := s.recipients pod d (some q)
        let f := decide (d.owner ≠ q)
        if ps = [] && !f then s.conclude h m false
        else
          let s2 := (put s (busy .BInv (ps.length + (if f then 1 else 0)) (if f then some d.owner else none) .upg)).replyAll pod ps line .inv
          if f then s2.reply pod d.owner line (.fwdX q) else s2
      | _ =>
        let ps := s.recipients pod d (some q)
        ((put s (busy .BInv (ps.length + 1) (some d.owner) m)).replyAll pod ps line .inv).reply pod d.owner line .recall)
    | .D =>
      if m = Msg.drGet d.tag then (s.join h q).answer h (.grantD d.tag)
      else
        let ps := s.recipients pod d none
        let lost := d.lostHolder || (partiesOf pod d).any (s.isOut pod)
        let s2 := (put s { busy .BMrg ps.length none m with lostHolder := lost }).mergeBegins h d ps.length
        if ps = [] then
          let s3 := s2.endMerge h m
          if s3.stateAt pod line = HomeState.P then s3.errTo h m 1 else s3.serveI h m
        else s2.replyAll pod ps line .merge
    | .P =>
      (match m with
      | .wrLine _ => (s.freeDir line .I).performHome h m
      | _ => s.errTo h m 1)
    | _ => s
  s1.served h m (s.stateAt pod line)

/-- Would a request put one line too many into D (13 R242). -/
def driftWaits (s : State) (h : Hdr) (m : Msg) : Bool :=
  match m with
  | .drGet _ => s.stateAt h.pod h.line != .D && s.stateAt h.pod h.line != .P && !s.driftRoom h.line
  | _ => false

/-- Can a request to a busy line be taken into its queue now: the queue of reductions has 256 places a slice, and one that
finds it full stays in the network (13 R237). -/
def canQueue (s : State) (h : Hdr) (m : Msg) : Bool := !m.isRed || decide (queuedAt s (homeSlice h.line) true < 256)

/-- A request of a peer may be served beside what this device's cores do with the line: a read of a shared line, one more holder of a
drift period. -/
def beside (s : State) (h : Hdr) (m : Msg) : Bool :=
  match m with
  | .getS => (s.podAt h.line).state == .S
  | .drGet t => ((s.podAt h.line).state == .D && (s.podAt h.line).tag == t) ||
      ((s.podAt h.line).state == .I && (s.dirAt h.line).state == .D && (s.dirAt h.line).tag == t)
  | _ => false
/-- This device's own copies of a line go, once they can, for a peer's request. -/
def localOut (s : State) (line : Nat) : Option State :=
  if (s.dirAt line).state = .I then some s
  else if s.localReady line then
    let d := s.dirAt line
    let a := s.copiesOut line none
    some (a.setDir line { (a.dirAt line) with queue := d.queue, held := d.held })
  else none

/-- A request waits at its home, behind those that wait already: it is turned away with Err-retry by a full queue, a reduction stays in the
network (13 R237). old: it has waited before. -/
def waitAt (s : State) (h : Hdr) (m : Msg) (old : Bool) : State :=
  let d := s.dirAt h.line
  let q := s.setDir h.line { d with queue := d.queue ++ [(h, m)] }
  if old then q
  else if !s.canQueue h m then s.leave h m
  else if m.isRed || decide (m = .recall) || decide (queuedAt s (homeSlice h.line) false < 1024) then q
  else s.answer h (.err true)

/-- The request of a party of this device for its own access, which the pod home of its line has refused, meets that error. -/
def podErr (s : State) (h : Hdr) (m : Msg) : State :=
  (s.clearFail h.line).errTo h m (((s.proxyAt h.line).failed).getD 1)

/-- A request reaches its home, or comes out of its queue: it is refused, served, or waits (13 R237, R239). It waits while the line is
busy or a put notice is held there, behind the requests of its class that wait already, and for the line to come from the pod or from this
device's own cores; a DrGet waits for room (13 R242). -/
def request (s0 : State) (h : Hdr) (m : Msg) (old : Bool) : State :=
  let line := h.line
  let s := s0.hearSlice line h.clock
  let d := s.dirAt line
  if s.revokedFor h.pod h.src line old then (s.errTo h m 2).logLine line h.src 2 none
  else if s.unreachable (128 * line) then s.errTo h m (downKind (128 * line))
  else if m.loaded && laneIn s.carriage 0 then (if h.pk.isNone then s.logLine line h.src 0 none else s).errTo h m 0
  else if s.stateAt h.pod line = HomeState.P then s.serve h m
  else if s.lineBusy line || d.held != [] || (!old && d.queue.any (fun e => e.2.isRed == m.isRed)) || s.driftWaits h m then s.waitAt h m old
  else if h.pod then
    if s.beside h m then s.serve h m
    else match s.localOut line with
      | some a => if a.stateAt true line = HomeState.P then a.errTo h m 1 else a.serve h m
      | none => (s.takeIn line).waitAt h m old
  else if s.podFailed line then s.podErr h m
  else match m.need with
    | some n => if s.podOk line n then (s.serve h m).gained line else (s.podAsk line n).waitAt h m old
    | none => s.serve h m

/-- The queued requests of a line are taken in arrival order, as far as the line allows: behind one that still waits the others of its
class stay (13 R237). -/
def drain (s : State) (line : Nat) : State :=
  let d := s.dirAt line
  if s.lineBusy line then s
  else d.queue.foldl (fun a e =>
    if (a.dirAt line).queue.any (fun x => x.2.isRed == e.2.isRed) then a.waitAt e.1 e.2 true else a.request e.1 e.2 true)
      (s.setDir line { d with queue := [] })

/-- What travels between a home and its parties for a line goes, at the line's poison: no answer to it is awaited any more. -/
def quash (s : State) (line : Nat) : State :=
  { s with msgs := s.msgs.filter (fun x => x.1.line != line || (match x.2 with
      | .inv | .fwdS _ | .fwdX _ | .merge | .invAck _ | .fwdAck _ | .drPart _ _ _ => false
      | .recall => x.1.dst == 0x1FFF#13
      | _ => true)) }
/-- The line is poisoned: no copy stays, held notices are answered, and every request that waits there is answered with Err. -/
def spoil (s : State) (line : Nat) : State :=
  let d := s.dirAt line
  let q := s.podAt line
  let waiting := d.serving.toList ++ q.serving.toList ++ d.queue
  let s1 := ((s.quash line).setDir line { d with queue := [], held := [], serving := none }).setPod line DirEntry.idle
  let s2 := (d.held ++ q.held).foldl (fun a e => a.answer e.1 .putAck) (s1.enterP line)
  waiting.foldl (fun a e => if a.isOut e.1.pod e.1.src then a else a.request e.1 e.2 true) s2
/-- The same with its log entry: of a party, of a kind. -/
def poison (s : State) (line : Nat) (p : BitVec 13) (kind : Nat) : State := (s.spoil line).logLine line p kind none

/-- Held put notices of a party, or of all, are answered and what follows them is done: dirty data of the cache that has left are the
home's, and the line loses its owner (13 R239). -/
def answerHeld (s : State) (pod : Bool) (line : Nat) (p : Option (BitVec 13)) (dirty : Option LineData) : State :=
  let d := s.entAt pod line
  let mine (e : Hdr × Msg) : Bool := p.all (fun q => e.1.src == q)
  (d.held.filter mine).foldl (fun a e =>
    let b := a.answer e.1 .putAck
    let x := b.entAt pod line
    if x.state = .O ∧ x.owner = e.1.src then
      (match dirty with
      | some v => (b.setMemLine line v).soil line
      | none => b).setEnt pod line { x with state := if x.ptrs = [] ∧ !x.coarse then .I else .S, owner := 0 }
    else b) (s.setEnt pod line { d with held := d.held.filter (fun e => !mine e) })

/-- Every reply that a busy line awaited has come: its request is concluded, held notices are answered, and the queue goes on. A line
that was taken back for nobody is in I. DESIGN CHOICE (log 78): a forward for a requester that has been lost leaves the line with its old
owner, and poisoned where ownership had been forwarded. -/
def release (s : State) (pod : Bool) (line : Nat) (dirty : Option LineData) : State :=
  let d := s.entAt pod line
  let s1 := s.setEnt pod line { d with serving := none, fwdTo := none, replied := [], requester := 0, acks := 0 }
  let idle : DirEntry := { DirEntry.idle with queue := d.queue, held := d.held }
  let h0 : Hdr := (d.serving.map (·.1)).getD { (s.fromHome 0 line) with pod := pod }
  let m0 : Msg := (d.serving.map (·.2)).getD .recall
  let gone := d.serving.isNone || s.isOut pod h0.src
  let s2 := match d.state with
    | .BMrg =>
      let s2 := s1.endMerge h0 m0
      if d.serving = none then s2
      else if s2.stateAt pod line = HomeState.P then s2.errTo h0 m0 1
      else if pod then s2.request h0 m0 true
      else s2.serveI h0 m0
    | .BFwd =>
      if m0 = Msg.getS then
        let a := match dirty with
          | none => s1.setEnt pod line (addTo pod { idle with state := .S } d.owner)
          | some _ => s1.setEnt pod line { idle with state := .O, owner := d.owner }
        if gone then a else a.join h0 h0.src
      else if gone then s1.poison line h0.src 3
      else s1.conclude h0 m0 false
    | _ =>
      if d.serving = none then (if pod then s1 else s1.outCopies line).setEnt pod line idle
      else s1.conclude h0 m0 (decide (m0 ≠ Msg.upg))
  (s2.answerHeld pod line none dirty).drain line

/-- Awaited replies have come: n of them, from the parties of ps (13 R235), under a stamp (17 R302). -/
def ack (s : State) (pod : Bool) (line n : Nat) (ps : List (BitVec 13)) (stamp : Dword) (dirty : Option LineData) : State :=
  let d := s.entAt pod line
  let s1 := s.setEnt pod line { d with acks := d.acks - n, replied := ps ++ d.replied, stamp := maxD d.stamp stamp }
  if d.acks ≤ n then s1.release pod line dirty else s1

/-! ## Put notices at the home (13 R239) -/

/-- Is a forward or a recall of the home still on its way to the party that a message comes from, or deferred there. -/
def fwdTravels (s : State) (h : Hdr) : Bool :=
  s.msgs.any (fun x => x.1.line == h.line && x.1.dst == h.src && x.1.pod == h.pod && x.2.isFwd)

/-- A put notice arrives, with data or none: from the owner of record its data are written, from a cache under forward it is held. Data
that fail their carriage check poison the line (11 R188). -/
def put (s0 : State) (h : Hdr) (m : Msg) (data : Option LineData) : State :=
  let s := s0.hearSlice h.line h.clock
  let d := s.entAt h.pod h.line
  if s.stateAt h.pod h.line = .P ∧ s.revokedFor h.pod h.src h.line false then s.send { (s.backHdr h) with kind := 2 } (.err false)
  else if s.fwdTravels h || decide (d.fwdTo = some h.src) then s.setEnt h.pod h.line { d with held := d.held ++ [(h, m)] }
  else if (d.state = .X ∨ d.state = .O) ∧ d.owner = h.src then
    if m.loaded && laneIn s.carriage 0 then ((s.poison h.line h.src 0).answer h .putAck).served h m d.state
    else
      let s1 := match data with
        | some v => (s.setMemLine h.line v).soil h.line
        | none => s
      let s2 := if (h.pod || isAgent h.src) && data.isSome then s1.trigger h.line else s1
      let alone := decide (d.ptrs = []) && !d.coarse
      ((s2.setEnt h.pod h.line (if d.state = .X ∨ alone then { DirEntry.idle with queue := d.queue, held := d.held }
        else { d with state := .S, owner := 0 })).answer h .putAck).served h m d.state
  else (s.answer h .putAck).served h m d.state

/-! ## Caches (13 R240): a core's, or this device's as a proxy -/

/-- The cache that a message names, as it holds the line. -/
def holdAt (s : State) (h : Hdr) : CacheLine := if h.pod then s.proxyAt h.line else s.cacheAt h.dst.toNat h.line
/-- Write what that cache holds. -/
def setHold (s : State) (h : Hdr) (c : CacheLine) : State := if h.pod then s.setProxy h.line c else s.setCache h.dst.toNat h.line c
/-- The line's data in that cache; a proxy's stand in memory. -/
def holdData (s : State) (h : Hdr) : LineData := if h.pod then s.memLine h.line else (s.cacheAt h.dst.toNat h.line).data
/-- That cache moves to a state, or drops the line in I. -/
def moveTo (s : State) (h : Hdr) (st : CacheState) : State :=
  s.setHold h (if st = .I then CacheLine.none else { s.holdAt h with state := st })
/-- That cache has left the line to a forward while its notice travels; the buffer keeps the data until PutAck, dirty or clean. -/
def toII (s : State) (h : Hdr) (dirty : Bool) : State := s.setHold h { s.holdAt h with state := .II, haveData := dirty }
/-- That cache answers the line's home. -/
def toHomeOf (s : State) (h : Hdr) (m : Msg) : State :=
  if h.pod then s.toPod (BitVec.ofNat 13 (podSlot h.line)) h.line m else s.toHome h.dst.toNat h.line m
/-- That cache supplies data to another. -/
def supply (s : State) (h : Hdr) (rq : BitVec 13) (excl : Bool) : State :=
  if h.pod then s.toPod rq h.line (.data (s.holdData h) excl) else s.send (s.fromCore h.dst.toNat rq h.line) (.data (s.holdData h) excl)

/-- A forward, recall or merge at a cache that does not defer it. -/
def forward (s : State) (h : Hdr) (m : Msg) : State :=
  let c := s.holdAt h
  let d := s.holdData h
  let buffered : Option LineData := if c.state = .MI ∨ (c.state = .II ∧ c.haveData) then some d else none
  match m with
  | .fwdS rq =>
    (match c.state with
    | .E => ((s.supply h rq false).toHomeOf h (.fwdAck none)).moveTo h .S
    | .M => ((s.supply h rq false).toHomeOf h (.fwdAck (some d))).moveTo h .O
    | .O => s.supply h rq false
    | .MI | .EI | .II => ((s.supply h rq false).toHomeOf h (.fwdAck buffered)).toII h buffered.isSome
    | _ => s)
  | .fwdX rq =>
    (match c.state with
    | .E | .M | .O => ((s.supply h rq true).toHomeOf h (.fwdAck none)).moveTo h .I
    | .MI | .EI | .II => ((s.supply h rq true).toHomeOf h (.fwdAck buffered)).toII h buffered.isSome
    | _ => s)
  | .recall =>
    (match c.state with
    | .E => (s.toHomeOf h (.fwdAck none)).moveTo h .I
    | .M | .O => (s.toHomeOf h (.fwdAck (some d))).moveTo h .I
    | .MI | .EI | .II => (s.toHomeOf h (.fwdAck buffered)).toII h buffered.isSome
    | _ => s)
  | .merge =>
    if h.pod then (if c.state = .D then s.proxyMerge h.line 1 else s.toHomeOf h (.drPart c.tag [] 1)) else s.sendParts h.dst.toNat h.line 1
  | _ => s

/-- Does anything in this device await a line of another device that its proxy has: a queued request, an instruction, a write of the
machine. -/
def wantedPod (s : State) (line : Nat) : Bool :=
  (s.dirAt line).queue != [] || s.late.any (fun w => decide (0 < w.n) && w.pa / 128 == line) ||
    s.wg.any (fun e => e.2.span.any (fun q => q.2.memWait.any (fun w => w.left.contains line && !w.sent.any (fun x => x.line == line))))
/-- Does a cache defer a forward for the line (13 R240): while it moves, and until the access that it waited for is performed. A Merge
waits in ID alone: the other transients hold no partial. -/
def defers (s : State) (h : Hdr) (m : Msg) : Bool :=
  let c := s.holdAt h
  (match m with
  | .merge => c.state == .ID
  | _ => [CacheState.IS, .IM, .SM, .OM, .ID].contains c.state) ||
    ((c.state.readable || c.state == .D) && (if h.pod then c.owed && s.wantedPod h.line else s.awaited h.dst.toNat h.line))

/-- A proxy's own cores give the line up before it answers the pod; none while they cannot. Of a line of this device no copy is a
proxy's. -/
def proxyOut (s : State) (h : Hdr) : Option State :=
  if !h.pod ∨ !isPod h.line then some s
  else if (s.proxyAt h.line).state = .D then (if s.localReady h.line then some s else none)
  else s.localOut h.line

/-- A FWD message arrives at a party: one forward for each line is deferred, a second stays in the network (13 R237). -/
def arriveFwd (s : State) (h : Hdr) (m : Msg) : State :=
  if !h.pod && isAgent h.dst then { s with outbox := s.outbox ++ [.coh h m] }
  else
    let c := s.holdAt h
    if s.defers h m then (if c.defer.isSome then s.leave h m else s.setHold h { c with defer := some (h, m) })
    else match s.proxyOut h with
      | some a => a.forward h m
      | none => (s.takeIn h.line).leave h m

/-- Serve the deferred forward from the new state, if there is one and the cache no longer defers it (13 R240). -/
def undefer (s : State) (h : Hdr) : State :=
  let c := s.holdAt h
  match c.defer with
  | some (g, m) => if s.defers h m then s else (s.setHold h { c with defer := none }).arriveFwd g m
  | none => s

/-- A core's clock is raised to the stamp that a response carries (12 R223). -/
def hear (s : State) (core : Nat) (h : Hdr) : State := s.hearClock core h.clock
/-- A response of a tray brings its load (19 R342): from 12 on the window of requests to it is halved, below it counts towards its doubling. -/
def trayHears (s : State) (h : Hdr) : State :=
  if s.onTray (128 * h.line) then
    { s with tray := Store.upd TrayWindow.reset s.tray (h.line / 2 ^ 39 % 1024) (fun t =>
        if 12 ≤ h.load then { t with size := max 1 (t.size / 2), lows := 0 } else { t with lows := t.lows + 1 }) }
  else s
/-- A response for an agent leaves the device; a core's clock is raised by it, a proxy's slice hears it. -/
def arriveRsp (s : State) (h : Hdr) (m : Msg) (f : State → State) : State :=
  if h.pod then f ((s.trayHears h).hearSlice h.line h.clock)
  else if isAgent h.dst then { s with outbox := s.outbox ++ [.coh h m] }
  else f (s.hear h.dst.toNat h)

/-! ## Answers to requests that a line's home performs -/

/-- The memory instructions whose requests are changed by f. -/
def mapSent (s : State) (f : List Sent → List Sent) : State :=
  { s with wg := Store.mapVals Wg.none (fun _ w => { w with span := Store.mapVals Span.fresh (fun _ sp =>
      { sp with memWait := sp.memWait.map (fun (x : MemWait) => { x with sent := f x.sent }) }) w.span }) s.wg }
/-- The units of operations that wait for the answer to a request, with their operations. -/
def unitsFor (s : State) (h : Hdr) : List (AsyncOp × Nat × AUnit) :=
  s.async.flatMap (fun a => (a.units.zipIdx.filter (fun u => u.1.st == .pending && u.1.sent == some (sentTag h.req h.line))).map
    (fun u => (a, u.2, u.1)))
/-- The answer to a request of an instruction or of units reaches whoever sent it (13 R236): the instruction goes on at its next try, the
units have landed or fail; the core's clock is raised (12 R223). -/
def answerReq (s : State) (h : Hdr) (r : Answer) : State :=
  let hit (y : Sent) : Bool := y.line == h.line && y.req == h.req
  let cores := (s.wg.filter (fun e => e.2.span.any (fun q => q.2.memWait.any (fun x => x.sent.any hit)))).map (fun e => e.2.core)
  let us := s.unitsFor h
  let s1 := s.mapSent (fun l => l.map (fun (y : Sent) => if hit y then { y with resp := some r } else y))
  let s2 := (cores ++ us.map (fun u => u.1.core)).foldl (fun a c => a.hearClock c h.clock) s1
  us.foldl (fun a u => match r with
    | .err k => a.failUnit u.1.uid u.2.1 (BitVec.ofNat 8 (errCode h.line)) (a.dstName u.2.2) k (some (errSource a.steps k h.line))
    | _ => a.unitLanded u.1 u.2.1 u.2.2) s2
/-- A request is turned away with Err-retry (13 R237): whoever sent it sends it again. -/
def retryReq (s : State) (h : Hdr) : State :=
  let s1 := s.mapSent (fun l => l.filter (fun y => !(y.line == h.line && y.req == h.req)))
  let cores := (s.wg.filter (fun e => e.2.span.any (fun q => q.2.memWait.any (fun x =>
    x.sent.any (fun y => y.line == h.line && y.req == h.req))))).map (fun e => e.2.core)
  let s2 := cores.foldl (fun a c => a.hearClock c h.clock) s1
  (s.unitsFor h).foldl (fun a u => a.updAsync u.1.uid (fun x =>
    { x with units := x.units.modify u.2.1 (fun y => { y with sent := none }) })) s2

/-! ## Combined messages (13 R238) -/

/-- The operator tag under which routers combine a message: a reduction's, or a drift partial's. -/
def cmbTag : Msg → Option (Bool × AmoOp × DTag)
  | .redOp (r :: _) _ => some (true, r.op, ⟨0, 0⟩)
  | .drPart t _ _ => some (false, .add32, t)
  | _ => none
/-- The exact combination of two messages of one tag: their reply counts add (11 R197, 06 R98, R99). -/
def combineCmb : Msg → Msg → Msg
  | .redOp r n, .redOp q k => .redOp (r ++ q) (n + k)
  | .drPart t xs n, .drPart _ ys k => .drPart t (addAccs t xs ys) (n + k)
  | a, _ => a
/-- The tag of a combined message in its record. -/
def cmbCode : Msg → Nat
  | .redOp (r :: _) _ => (match r.op with
    | .add32 => 0 | .add64 => 1 | .min32 => 2 | .max32 => 3 | .and32 => 4 | .or32 => 5
    | _ => 6)
  | .drPart t _ _ => t.op.toNat
  | _ => 0
/-- Has a source a part in a message. -/
def partOf (s : State) (x : Hdr × Msg) (p : Hdr) : Bool := (s.contributors x).any (fun c => c.1.src == p.src && c.1.pod == p.pod)
/-- Have two messages a source in common. -/
def sharesSource (s : State) (x y : Hdr × Msg) : Bool := (s.contributors y).any (fun c => s.partOf x c.1)

/-- Two places of the network whose messages a router may combine: one line, one tag, no message of a source of the later one to that home
between them; and neither is an sc event, which is performed under its own stamp. -/
def cmbPairs (s : State) : List (Nat × Nat) :=
  (List.range s.msgs.length).flatMap (fun j => (List.range j).filterMap (fun i =>
    match s.msgs[i]?, s.msgs[j]? with
    | some x, some y =>
      if x.1.line = y.1.line ∧ x.1.pod = y.1.pod ∧ x.1.dst = y.1.dst ∧ !x.1.sc ∧ !y.1.sc ∧ (cmbTag x.2).isSome ∧ cmbTag x.2 = cmbTag y.2 ∧
          ((s.msgs.take j).drop (i + 1)).all (fun z => z.1.line != y.1.line || (cmbTag z.2).isNone || !s.sharesSource z y)
      then some (i, j) else none
    | _, _ => none))

/-- A router combines two messages (13 R238): the sum takes the earlier place, and the router keeps the contributors. What follows carries a
stamp after both and after the router's record (17 R302), and belongs to a paddock only if both do (17 R309). Which router of the die it is
is free (log 29). -/
def combineAt (s : State) (i j : Nat) : State :=
  match s.msgs[i]?, s.msgs[j]? with
  | some x, some y =>
    let die := homeSlice x.1.line / 16
    let idx := Config.choose s.steps % 256
    let pk := if x.1.pk = y.1.pk then x.1.pk else none
    let who := s.contributors x ++ s.contributors y
    let m := combineCmb x.2 y.2
    let s1 := s.emit 0x2A 0x06 idx die pk (if pk.isSome ∧ x.1.ord = y.1.ord then x.1.ord else 0xFFFFF) false (BitVec.ofNat 64 (128 * x.1.line))
      (BitVec.ofNat 64 (cmbCode m + 2 ^ 8 * (cmbCount m % 256))) (maxD x.1.stamp y.1.stamp)
    let z : Hdr × Msg := ({ x.1 with stamp := s1.sentStamp die [srcKey 6 die idx], pk := pk
                                     ord := if x.1.ord = y.1.ord then x.1.ord else 0xFFFFF
                                     clock := if precedes x.1.clock y.1.clock then y.1.clock else x.1.clock }, m)
    { s1 with msgs := (s1.msgs.eraseIdx j).set i z
              combined := (s1.combined.filter (fun c => c.1 != x && c.1 != y)) ++ [(z, who)] }
  | _, _ => s

/-! ## Loss of a party (13 R247) and revocation (13 R248) -/

/-- The home drops what a lost party has asked: its queued requests, its held notices. -/
def dropRequests (s : State) (pod : Bool) (line : Nat) (p : BitVec 13) : State :=
  let mine (e : Hdr × Msg) : Bool := e.1.pod == pod && e.1.src == p
  let d := s.dirAt line
  let s1 := s.setDir line { d with queue := d.queue.filter (fun e => !mine e) }
  let x := s1.entAt pod line
  s1.setEnt pod line { x with held := x.held.filter (fun e => !mine e) }

/-- One line at the loss of party p (13 R247): as the owner's it is poisoned, also while its Upg or a recall is under way; a sharer goes, or
has replied nil; a holder of partials poisons the next merge; its request is discarded. A forward that the requester has lost goes on until
the owner's answer (release). -/
def loseLine (pod : Bool) (p : BitVec 13) (s0 : State) (line : Nat) : State :=
  let s := s0.dropRequests pod line p
  let d := s.entAt pod line
  let member := (partiesOf pod d).contains p
  let put (a : State) (e : DirEntry) : State := a.setEnt pod line e
  let asked := d.serving.any (fun e => e.1.src == p && e.1.pod == pod)
  if ((d.state = .X ∨ d.state = .O ∨ d.state = .BFwd) ∧ d.owner = p) ∨ d.fwdTo = some p ∨ (d.state = .BInv ∧ d.before = .O ∧ d.owner = p) then
    s.poison line p 3
  else
    let s1 := if asked ∧ d.state ≠ .BFwd then put s { d with serving := none } else s
    let d1 := s1.entAt pod line
    match d.state with
    | .S =>
      if d.coarse || !member then s1
      else
        let ps := d.ptrs.filter (fun x => x ≠ p)
        put s1 { d1 with ptrs := ps, state := if ps = [] then .I else .S }
    | .O => if d.coarse || !member then s1 else put s1 { d1 with ptrs := d.ptrs.filter (fun x => x ≠ p) }
    | .D => if member then put s1 { d1 with lostHolder := true } else s1
    | .BInv => if member && !asked && !d.replied.contains p then s1.ack pod line 1 [p] 0 none else s1
    | .BMrg => if member && !d.replied.contains p then (put s1 { d1 with lostHolder := true }).ack pod line 1 [p] 0 none else s1
    | _ => s1

/-- The requests for waiter words of a pod peer that is lost are answered with an error. -/
def loseWaiters (s : State) (slot : Nat) : State :=
  let gone := s.remote.filter (fun r => (match r.packet.kind with
    | .waitq _ | .wake _ => true
    | _ => false) && (s.resolveRank r.paddock r.packet.rank.toNat).any (fun x => x.pod == s.podId && 32 * x.group + x.slot == slot))
  gone.foldl (fun a r => { a with remote := a.remote.filter (fun x => x.tag != r.tag) }.answerWaiter r.tag 0x09 0) s
/-- The lines with an entry in either directory. -/
def entryLines (s : State) : List Nat := (Store.keys s.dir ++ Store.keys s.pod).eraseDups
/-- A party is declared lost (13 R247): every line it held or asked for is looked at. A lost device's slot is unreachable, and
its waiter nodes go (log 31). -/
def declareLost (s : State) (q : Party) : State :=
  if s.lost.contains q then s
  else
    let s1 := { s with lost := s.lost ++ [q] }
    match q with
    | .device n =>
      let p := BitVec.ofNat 13 n
      let s2 := { s1 with
        slotDown := if s1.slotDown.contains n then s1.slotDown else s1.slotDown ++ [n]
        waitq := (s1.waitq.map (fun (w : WaitQueue) => { w with nodes := w.nodes.filter (fun x => nodePeer x ≠ some n) })).filter
          (fun w => w.nodes ≠ [])
        msgs := s1.msgs.filter (fun m => !(m.1.pod && m.1.src == p)) }
      s2.entryLines.foldl (loseLine true p) (s2.loseWaiters n)
    | _ =>
      match partyPtr q with
      | none => s1
      | some p => s1.entryLines.foldl (loseLine false p)
          { s1 with msgs := s1.msgs.filter (fun m => m.1.pod || (m.1.src ≠ p && m.1.dst ≠ p)) }

/-- Does an entry record the host as owner, sharer or holder that has not answered yet. -/
def recordsHost (s : State) (pod : Bool) (line : Nat) (p : BitVec 13) : Bool :=
  let d := s.entAt pod line
  ((partiesOf pod d).contains p && !d.replied.contains p) || ((d.state == .X || d.state == .O || d.state == .BFwd) && d.owner == p) ||
    decide (d.fwdTo = some p)

/-- Ask the host for a line of a revoked extent: the owner is recalled, a drift line merged, with its record, sharers invalidated. A line
that is busy is asked for when it is free. -/
def askBack (pod : Bool) (p : BitVec 13) (s : State) (line : Nat) : State :=
  let d := s.entAt pod line
  let h : Hdr := { (s.fromHome 0 line) with pod := pod }
  if !s.recordsHost pod line p || s.lineBusy line then s
  else
    match d.state with
    | .D =>
      let ps := s.recipients pod d none
      let s1 := s.mergeBegins h d ps.length
      if ps = [] then s1.endMerge h .recall
      else (s1.setEnt pod line { d with state := .BMrg, acks := ps.length, serving := none, replied := [], before := .D }).replyAll pod ps line .merge
    | _ =>
      let own := d.state = .X ∨ d.state = .O
      let ps := s.recipients pod d none
      let s1 := (s.setEnt pod line { d with state := .BInv, acks := ps.length + (if own then 1 else 0), serving := none, before := d.state
                                            fwdTo := if own then some d.owner else none, replied := [] }).replyAll pod ps line .inv
      if own then s1.reply pod d.owner line .recall else s1

/-- Is a host's pointer one of the pod directory: a slot. -/
def hostPod (host : Nat) : Bool := decide (host < 1024)
/-- The lines of an extent that have an entry in the host's directory. -/
def extentLines (s : State) (pod : Bool) (first count : Nat) : List Nat :=
  (Store.keys (if pod then s.pod else s.dir)).filter (fun n => decide (first ≤ n) && decide (n < first + count))
/-- Lines of revoked extents that were busy at the revocation and can be asked for now. -/
def laterAsks (s : State) : List (Bool × BitVec 13 × Nat) :=
  s.revoked.flatMap (fun r =>
    let pod := hostPod r.host
    ((s.extentLines pod r.first r.count).filter (fun n => !r.lapsed && !s.lineBusy n &&
      s.recordsHost pod n (BitVec.ofNat 13 r.host))).map (fun n => (pod, BitVec.ofNat 13 r.host, n)))

/-- An error response reaches the home of a line of this device from a party that has lost its data (11 R188): the owner's line is
poisoned, a holder's partials poison the next merge. -/
def errAtHome (s : State) (h : Hdr) : State :=
  let d := s.entAt h.pod h.line
  if ((d.state = .X ∨ d.state = .O ∨ d.state = .BFwd) ∧ d.owner = h.src) ∨ d.fwdTo = some h.src then (s.poison h.line h.src h.kind).drain h.line
  else if (d.state = .D ∨ d.state = .BMrg) ∧ (partiesOf h.pod d).contains h.src then
    let s1 := s.setEnt h.pod h.line { d with lostHolder := true }
    if d.state = .BMrg ∧ !d.replied.contains h.src then s1.ack h.pod h.line 1 [h.src] h.stamp none else s1
  else s

end State

/-! ## Meanings: requests and notices at the home -/

/-- GetS (13 R239). -/
def execGets (h : Hdr) (s : State) : Res := .next ((s.take h .getS).request h .getS false)
/-- GetX (13 R239). -/
def execGetx (h : Hdr) (s : State) : Res := .next ((s.take h .getX).request h .getX false)
/-- Upg (13 R239). -/
def execUpg (h : Hdr) (s : State) : Res := .next ((s.take h .upg).request h .upg false)
/-- DrGet (13 R239, R241). -/
def execDrget (h : Hdr) (t : DTag) (s : State) : Res := .next ((s.take h (.drGet t)).request h (.drGet t) false)
/-- Amo (13 R239). -/
def execAmoMsg (h : Hdr) (r : List AmoReq) (s : State) : Res := .next ((s.take h (.amo r)).request h (.amo r) false)
/-- WrLine (11 R189, 13 R239). -/
def execWrline (h : Hdr) (d : LineData) (s : State) : Res := .next ((s.take h (.wrLine d)).request h (.wrLine d) false)
/-- RedOp (13 R237, R239). -/
def execRedop (h : Hdr) (r : List AmoReq) (n : Nat) (s : State) : Res := .next ((s.take h (.redOp r n)).request h (.redOp r n) false)
/-- PutE (13 R239). -/
def execPute (h : Hdr) (s : State) : Res := .next ((s.take h .putE).put h .putE none)
/-- PutM (13 R239). -/
def execPutm (h : Hdr) (d : LineData) (s : State) : Res := .next ((s.take h (.putM d)).put h (.putM d) (some d))
/-- PutO (13 R239). -/
def execPuto (h : Hdr) (d : LineData) (s : State) : Res := .next ((s.take h (.putO d)).put h (.putO d) (some d))

/-- A late message of a revoked extent's line that has been poisoned receives Err (13 R248). -/
def State.tooLate (s : State) (h : Hdr) : Bool := s.stateAt h.pod h.line == .P && s.revokedFor h.pod h.src h.line false
/-- The error response to a message that comes too late. -/
def State.errLate (s : State) (h : Hdr) : State := s.send { (s.backHdr h) with kind := 2 } (.err false)

/-- InvAck (13 R235): one reply less is awaited; the last concludes the request. -/
def execInvack (h : Hdr) (nil : Bool) (s : State) : Res :=
  let s0 := (s.take h (.invAck nil)).hearSlice h.line h.clock
  .next (if (s0.entAt h.pod h.line).state = .BInv then s0.ack h.pod h.line 1 [h.src] h.stamp none
    else if s0.tooLate h then s0.errLate h else s0)

/-- FwdAck (13 R239): the forward is over and the grant is concluded, or a recall counts as one reply and its data are the
home's. A party that answers while another forward is on its way to it answers that one too; else its held notice is answered. -/
def execFwdack (h : Hdr) (dirty : Option LineData) (s : State) : Res :=
  let s0 := (s.take h (.fwdAck dirty)).hearSlice h.line h.clock
  let d := s0.entAt h.pod h.line
  let back (v : LineData) : State :=
    let a := (s0.setMemLine h.line v).soil h.line
    if h.pod || State.isAgent h.src then a.trigger h.line else a
  .next (if s0.tooLate h then s0.errLate h
    else if s0.fwdTravels h then s0
    else if d.fwdTo ≠ some h.src then s0.answerHeld h.pod h.line (some h.src) dirty
    else
      match d.state with
      | .BFwd => s0.release h.pod h.line dirty
      | .BInv =>
        let s1 := match dirty, d.serving with
          | some v, none => if d.drop then s0 else back v
          | some v, some (_, m) => if m = Msg.getX ∨ m = Msg.upg ∨ d.drop then s0 else back v
          | none, _ => s0
        (s1.setEnt h.pod h.line { (s1.entAt h.pod h.line) with fwdTo := none }).ack h.pod h.line 1 [h.src] h.stamp none
      | _ => s0)

/-- DrPart (13 R243): the partial is added exactly, and acks falls by the reply count. -/
def execDrpart (h : Hdr) (t : DTag) (parts : Store Acc) (n : Nat) (s : State) : Res :=
  let x : Hdr × Msg := (h, .drPart t parts n)
  let who := (s.contributors x).filter (fun c => c.2 ≠ 0)
  let s0 := ((s.take h x.2).dropRecord x).hearSlice h.line h.clock
  let d := s0.entAt h.pod h.line
  .next (if d.state = .D ∨ d.state = .BMrg then
      let s1 := s0.setEnt h.pod h.line { d with accs := addAccs d.tag d.accs parts, stamp := State.maxD d.stamp h.stamp }
      if d.state = .BMrg ∧ 0 < n then s1.ack h.pod h.line n (who.map (fun c => c.1.src)) h.stamp none else s1
    else if s0.tooLate h then s0.errLate h
    else s0)

/-! ## Meanings: messages at a cache -/

/-- Inv (13 R240, R235): the copy goes or is never installed; a cache without the line replies nil. -/
def execInv (h : Hdr) (s : State) : Res :=
  let s0 := s.take h .inv
  (.next : State → Res) (if !h.pod && State.isAgent h.dst then { s0 with outbox := s0.outbox ++ [.coh h .inv] }
    else
      match s0.proxyOut h with
      | none => (s0.takeIn h.line).leave h .inv
      | some a =>
        let c := a.holdAt h
        match c.state with
        | .S => if a.defers h .inv then s0.leave h .inv else (a.moveTo h .I).toHomeOf h (.invAck false)
        | .IS => (a.setHold h { c with fillDead := true }).toHomeOf h (.invAck false)
        | .IM => a.toHomeOf h (.invAck false)
        | .SM => (a.setHold h { c with state := .IM, haveData := false, haveGrant := false }).toHomeOf h (.invAck false)
        | _ => a.toHomeOf h (.invAck true))

/-- FwdS (13 R240). -/
def execFwds (h : Hdr) (rq : BitVec 13) (s : State) : Res := .next ((s.take h (.fwdS rq)).arriveFwd h (.fwdS rq))
/-- FwdX (13 R240). -/
def execFwdx (h : Hdr) (rq : BitVec 13) (s : State) : Res := .next ((s.take h (.fwdX rq)).arriveFwd h (.fwdX rq))
/-- Recall (13 R240). At a home it asks for room there for a party of this device (log 6). -/
def execRecall (h : Hdr) (s : State) : Res :=
  let s0 := s.take h .recall
  .next (if h.dst = 0x1FFF#13 then s0.request h .recall false else s0.arriveFwd h .recall)
/-- Merge (13 R240, R243, R246). -/
def execMerge (h : Hdr) (s : State) : Res := .next ((s.take h .merge).arriveFwd h .merge)

/-- A proxy's fill that was invalidated on the way serves the one load that it was for (12 R225): the instruction that asked for it, or the
first queued load, whose core holds it as such a fill; else nobody. -/
def State.deadFill (s : State) (h : Hdr) (d : LineData) : State :=
  let c := s.proxyAt h.line
  let e := s.dirAt h.line
  if c.asker.isSome then (s.setMemLine h.line d).setProxy h.line { c with haveData := true }
  else match e.queue.find? (fun x => x.2 == .getS) with
    | some x =>
      let a := (s.setDir h.line { e with queue := e.queue.erase x }).setProxy h.line CacheLine.none
      let b := if State.isAgent x.1.src then a else
        a.setCache x.1.src.toNat h.line { a.cacheAt x.1.src.toNat h.line with fillDead := true }
      b.answer x.1 (.data d false)
    | none => s.setProxy h.line CacheLine.none

/-- Data (13 R240): a fill, or the data of a store's line, or the answer of a home to an atomic. A fill that was invalidated on the way
serves its one load (12 R225). -/
def execData (h : Hdr) (d : LineData) (excl : Bool) (s : State) : Res :=
  .next ((s.take h (.data d excl)).arriveRsp h (.data d excl) (fun a =>
    let c := a.holdAt h
    let b := if h.pod then a.setMemLine h.line d else a
    let x : LineData := if h.pod then 0 else d
    if h.req ≠ 0 then a.answerReq h (.data d)
    else match c.state with
    | .IS =>
      if c.fillDead then (if h.pod then a.deadFill h d else a.setHold h { c with haveData := true, data := d })
      else (b.setHold h { c with state := if excl then .E else .S, data := x, fillDead := false, owed := h.pod, refused := false }).undefer h
    | .IM =>
      (b.setHold h { c with state := if c.haveGrant then .M else .IM, data := x, haveData := !c.haveGrant, haveGrant := false
                            owed := h.pod && c.haveGrant, refused := false }).undefer h
    | _ => a))

/-- Grant (13 R240): ownership; with it a line whose data are there is in M. -/
def execGrant (h : Hdr) (s : State) : Res :=
  .next ((s.take h .grant).arriveRsp h .grant (fun a =>
    let c := a.holdAt h
    match c.state with
    | .IM => (a.setHold h { c with state := if c.haveData then .M else .IM, haveGrant := !c.haveData, haveData := false
                                   owed := h.pod && c.haveData, refused := false }).undefer h
    | .SM | .OM => (a.setHold h { c with state := .M, owed := h.pod, refused := false }).undefer h
    | _ => a))

/-- GrantD (13 R240, R241): a drift-buffer line with every accumulator empty. -/
def execGrantd (h : Hdr) (t : DTag) (s : State) : Res :=
  .next ((s.take h (.grantD t)).arriveRsp h (.grantD t) (fun a =>
    let c := a.holdAt h
    if c.state = .ID then (a.setHold h { CacheLine.none with state := .D, tag := t, defer := c.defer, owed := h.pod }).undefer h else a))

/-- PutAck (13 R240): the eviction buffer is free; or a whole-line write is done. -/
def execPutack (h : Hdr) (s : State) : Res :=
  .next ((s.take h .putAck).arriveRsp h .putAck (fun a =>
    if h.req ≠ 0 then a.answerReq h .ack
    else match (a.holdAt h).state with
    | .MI | .EI | .II => a.moveTo h .I
    | _ => a))

/-- RedAck (13 R238): a reduction's acknowledgement; that of a combined one is split to each contributor by the router that combined
them. It carries a clock. -/
def execRedack (h : Hdr) (n : Nat) (s : State) : Res :=
  let x : Hdr × Msg := (h, .redAck n)
  let s0 := s.take h x.2
  .next (match s0.combined.find? (fun c => c.1 == x) with
    | some c => c.2.foldl (fun a p => a.send { h with dst := p.1.src, pod := p.1.pod, req := p.1.req } (.redAck p.2)) (s0.dropRecord x)
    | none => s0.arriveRsp h x.2 (fun a => if h.req ≠ 0 then a.answerReq h .ack else a))

/-- Err (13 R237, R239): Err-retry leaves the request to be repeated; an error response ends it, and the access that asked meets the error
as its precise fault. From a party that has lost a line of this device it reaches the line's home. -/
def execErr (h : Hdr) (retry : Bool) (s : State) : Res :=
  let s0 := s.take h (.err retry)
  .next (if h.dst = 0x1FFF#13 ∨ (h.pod ∧ !isPod h.line) then (if retry then s0 else (s0.hearSlice h.line h.clock).errAtHome h)
    else s0.arriveRsp h (.err retry) (fun a =>
    let c := a.holdAt h
    if h.req ≠ 0 then (if retry then a.retryReq h else a.answerReq h (.err h.kind))
    else match c.state with
    | .IS | .IM | .SM | .OM | .ID =>
      if retry then a.setHold h { c with refused := true }
      else a.setHold h { CacheLine.none with failed := some h.kind, asker := c.asker }
    | _ => a))

/-! ## Meanings: evictions and repetitions -/

/-- A cache evicts a line (13 R231, R240): a core's L1 or drift buffer (core below 4,096), or the L2 slice that the line is homed at,
which is inclusive: it takes the line back first, from this device's parties and from its peers, and never chooses a line in a busy state or
in D; a pod line leaves this device's proxy (13 R230, R246). -/
def execCacheEviction (core line : Nat) (s : State) : Res :=
  .next (if core < 4096 then (if s.awaited core line then s else s.evictLine core line)
    else if s.lineBusy line then s
    else if isPod line then s.leaveProxy line 0
    else if s.inDrift line then s
    else
      let s1 := s.takeIn line
      if [HomeState.S, .X, .O].contains (s.podAt line).state then s1.podAsk line .home else s1)

/-- A request refused with Err-retry is repeated (13 R237): the one that the line's transient state stands for, of a core's cache, or of this
device's proxy (core from 4,096). -/
def execRequestRetry (core line : Nat) (s : State) : Res :=
  let pod := decide (4096 ≤ core)
  let c := if pod then s.proxyAt line else s.cacheAt core line
  let again (m : Msg) : State :=
    if pod then (s.setProxy line { c with refused := false }).toPod (s.podHome line) line m
    else (s.setCache core line { c with refused := false }).send (s.fromCoreFor core line c.asker) m
  .next (if !c.refused then s
    else match c.state with
    | .IS => again .getS
    | .IM => again .getX
    | .SM | .OM => again .upg
    | .ID => again (.drGet c.tag)
    | _ => s)

/-! ## Meanings: losses and revocations -/

/-- A party has missed five heartbeats in a row (13 R247). -/
def execHeartbeatMiss (p : Party) (s : State) : Res := .next (s.declareLost p)
/-- The Sahnan firmware reports a party lost (13 R247). -/
def execFirmwareReportsLost (p : Party) (s : State) : Res := .next (s.declareLost p)

/-- An extent is revoked from a host (13 R248): the lines that its proxy holds are asked back, and its new requests meet Err. -/
def execExtentRevoke (host first count : Nat) (s : State) : Res :=
  let p := BitVec.ofNat 13 host
  let pod := State.hostPod host
  let s1 := { s with revoked := s.revoked ++ [(⟨host, first, count, false⟩ : Revoked)] }
  .next ((s1.extentLines pod first count).foldl (State.askBack pod p) s1)

/-- Twenty microseconds after a revocation (13 R248): each line still unanswered is poisoned and logged. -/
def execRevocationTimeout (host first count : Nat) (s : State) : Res :=
  let p := BitVec.ofNat 13 host
  let pod := State.hostPod host
  let s1 := { s with revoked := s.revoked.map (fun (r : Revoked) =>
    if r.host = host ∧ r.first = first ∧ r.count = count then { r with lapsed := true } else r) }
  .next (if !(s.revoked.any (fun r => r.host == host && r.first == first && r.count == count && !r.lapsed)) then s
    else (s1.extentLines pod first count).foldl (fun a n => if a.recordsHost pod n p then a.poison n p 2 else a) s1)

end Sys2Proof.Machine
end

