-- ==== Sys2Proof/Machine/Rejoin.lean ====
section
/-!
DEFINITION. Machine/Rejoin.lean: meeting and release of threads enrolled in rejoin masks (03 R36, 07 R110-R121).
-/

namespace Sys2Proof.Machine

namespace Span

/-- meet(l) (07 R110): a thread outside a trap handler whose pc equals its mr is held in the mask that enrols it there,
or waits for nothing. -/
def meet (sp : Span) (l : Nat) : Span :=
  let la := sp.laneAt l
  if la.ended || la.level != 0 || la.pc != la.mr then sp
  else
    match (List.range 8).find? (fun n => laneIn (sp.jm n).enrol l && (sp.jm n).addr == la.mr) with
    | some n =>
      (sp.setJ n { sp.jm n with held := (sp.jm n).held ||| BitVec.twoPow 32 l }).updLane l
        (fun la => { la with hold := .meeting })
    | none => sp.updLane l (fun la => { la with mr := allOnes64 })

/-- Release mask jN when every enrolled thread is held (07 R118): saved mr values return, the mask empties, and each
released thread meets again. -/
def release1 (sp : Span) (n : Nat) : Span :=
  let j := sp.jm n
  if j.enrol = 0 ∨ j.held ≠ j.enrol then sp
  else
    let sp1 := sp.updLanes j.enrol (fun l la => { la with mr := Store.get 0 j.save l, hold := .free })
    (lanesOf j.enrol).foldl meet (sp1.setJ n Rejoin.empty)

/-- Take threads out of mask jN, which empties when none is left (07 R114, R120). -/
def leaveMask (sp : Span) (n : Nat) (S : Lanes) : Span :=
  let j := sp.jm n
  let e := j.enrol &&& ~~~S
  if e = 0 then sp.setJ n Rejoin.empty
  else sp.setJ n { j with enrol := e, held := j.held &&& ~~~S, save := j.save.filter (fun x => !laneIn S x.1) }

/-- Threads of S end: they leave every mask, and run no more (07 R114). -/
def endLanes (sp : Span) (S : Lanes) : Span :=
  let sp1 := sp.updLanes S (fun _ la => { la with ended := true, hold := .free, level := 0 })
  (List.range 8).foldl (fun a n => a.leaveMask n S) sp1

/-- mset jN with meeting address a on the threads of S (07 R119): none when it is refused. -/
def enrolIn (sp : Span) (n : Nat) (S : Lanes) (a : Dword) : Option Span :=
  if (List.range 8).any (fun m => m != n && ((sp.jm m).enrol &&& S != 0) && (sp.jm m).addr == a) then none
  else if (sp.jm n).enrol ≠ 0 ∧ (sp.jm n).addr ≠ a then none
  else
    let j := sp.jm n
    let new := S &&& ~~~j.enrol
    let sp1 := sp.setJ n { j with addr := a, enrol := j.enrol ||| S,
                                  save := (lanesOf new).foldl (fun m l => Store.set 0 m l (sp.laneAt l).mr) j.save }
    some (sp1.updLanes S (fun _ la => { la with mr := a }))

/-- mstrike jN on the threads of S (07 R120). -/
def strike (sp : Span) (n : Nat) (S : Lanes) : Span :=
  let j := sp.jm n
  let T := S &&& j.enrol
  let sp1 := sp.updLanes T (fun l la => if la.mr = j.addr then { la with mr := Store.get 0 j.save l } else la)
  sp1.leaveMask n T

end Span

namespace State

/-- Release mask jN of a span if it is due, with its record (17 R306). -/
def releaseAt (s : State) (g sp n : Nat) : State :=
  let j := (s.spanAt g sp).jm n
  if j.enrol = 0 ∨ j.held ≠ j.enrol then s
  else (s.updSpanAt g sp (fun x => x.release1 n)).emitWg 0x11 0x00 g sp (BitVec.ofNat 64 (j.enrol.toNat + 2 ^ 32 * n))

/-- release_check (07 R118). A pass that releases empties a mask, and no release fills one, so eight passes over the eight
masks reach the pass that releases none. -/
def releaseCheck (s : State) (g sp : Nat) : State := (List.range 64).foldl (fun a i => a.releaseAt g sp (i % 8)) s

end State
end Sys2Proof.Machine
end

