-- ==== Sys2Proof/Machine/Issue.lean ====
section
/-!
DEFINITION. Machine/Issue.lean: the events of a span: the issue of a clause with its check (04 R70, R72), the clause end
(07 R110), results written later (04 R72), trap entry (18 R319), the watchdog (18 R317), the mwait timeout (14 R265) and the
debugger's resume (18 R327).
-/

namespace Sys2Proof.Machine

/-- The class of a clause (04 R60). -/
def Clause.cls (c : Clause) : Nat := bits c.hdr 6 4
/-- The number of words after the header of a clause (04 R60). -/
def Clause.n (c : Clause) : Nat := bits c.hdr 3 0
/-- The dependence bit of word position i (04 R60). -/
def depBit (hdr : Word) (i : Nat) : Bool := hdr.getLsbD (13 + i)

/-! ## The check of a clause (04 R70) -/

/-- Is an instruction word a control transfer (04 R69). -/
def isControl (c : Nat) (w : Word) : Bool :=
  let op := (fldOp w).toNat
  (c == 0 && decide (0x20 ≤ op) && decide (op ≤ 0x28)) || (c == 6 && [0x08, 0x09, 0x0C, 0x0F].contains op)

/-- The registers that an instruction reads and writes; none where the word spells no instruction. -/
def wordRegs (c : Nat) (w : Word) (x : List Word) : List RegName × List RegName :=
  match parse c w x with
  | .ok i => (Instr.regReads i, Instr.regWrites i)
  | .error _ => ([], [])

/-- Rules 3 to 6 of 04 R70 from word position pos on: skip counts extra words of an instruction still to come, written
holds what earlier instructions of the clause write, first tells that no instruction has stood yet. -/
def scanClause (c : Nat) (hdr : Word) : List Word → Nat → Nat → List RegName → Bool → Bool
  | [], _, skip, _, _ => skip == 0
  | _ :: ws, pos, skip + 1, written, first => !depBit hdr pos && scanClause c hdr ws (pos + 1) skip written first
  | w :: ws, pos, 0, written, first =>
    match extraWords c w with
    | none => true
    | some e =>
      let r := wordRegs c w (ws.take e)
      let dep := depBit hdr pos
      !(first && dep) && (!isControl c w || decide (ws.length ≤ e)) &&
        (dep || !(r.1 ++ r.2).any (fun x => written.contains x)) &&
        scanClause c hdr ws (pos + 1) e (written ++ r.2) false

/-- Is a clause legal (04 R70); words are the N words after the header. -/
def clauseLegal (hdr : Word) (words : List Word) : Bool :=
  let n := bits hdr 3 0
  let stop := hdr.getLsbD 7
  bits hdr 31 29 == 5 && bits hdr 6 4 != 7 && n != 0 && !(stop && n == 1) &&
    (List.range 15).all (fun i => decide (i + 1 ≤ n) || !depBit hdr (i + 1)) &&
    (if stop then !depBit hdr 1 && scanClause (bits hdr 6 4) hdr (words.drop 1) 2 0 [] true
     else scanClause (bits hdr 6 4) hdr words 1 0 [] true)

/-! ## Issue sets (03 R34) -/

namespace Span

/-- The lanes whose exception is raised and not taken yet. -/
def trapped (sp : Span) : Lanes := (sp.traps ++ sp.deferred).foldl (fun a t => a ||| t.lanes) 0
/-- The lanes inside clauses that are in issue. -/
def issuing (sp : Span) : Lanes := sp.clauses.foldl (fun a c => if c.suspended then a else a ||| c.lanes) 0
/-- The threads that may issue a clause next: running, at the innermost open level (18 R318), inside no clause. -/
def idleLanes (sp : Span) : Lanes :=
  (lanesWhere (fun l => !(sp.laneAt l).ended && decide ((sp.laneAt l).hold = .free) && (sp.laneAt l).level == sp.openLevel)) &&&
    ~~~sp.trapped &&& ~~~sp.issuing
/-- The issue sets of a span that stand at a clause boundary: the idle threads of equal pc (03 R34). -/
def issueSets (sp : Span) : List Lanes :=
  let I := sp.idleLanes
  (lanesOf I).foldl (fun (a : List Lanes) l =>
    if a.any (fun S => laneIn S l) then a
    else a ++ [I &&& lanesWhere (fun m => (sp.laneAt m).pc == (sp.laneAt l).pc)]) []
/-- The last issue of an issue set (03 R35). -/
def lastIssueOf (sp : Span) (S : Lanes) : Nat := (lanesOf S).foldl (fun a l => max a (sp.laneAt l).lastIssue) 0

end Span

/-! ## Fetching a clause -/

/-- What a fetch answers: a value, a wait for a line's home, or a fault's code and address. -/
inductive FetchAns (α : Type) where
  | ok (s : State) (x : α)
  | wait (s : State)
  | bad (s : State) (code : Byte) (addr : Dword)

namespace State

/-- A fill that was to serve one load and has come, but no memory instruction awaits it (12 R225): of a core, or of this device's proxy. -/
def idleFill (s : State) (core line : Nat) (c : CacheLine) : Bool := c.fillDead && c.haveData && !s.awaited core line
/-- A core forgets the fills that were to serve one load each and have served it, or have none to serve (12 R225), and those that its loads
have had from this device's proxy. -/
def dropFills (s : State) (core : Nat) : State :=
  { s with cache := s.cache.filter (fun e => !(e.1 / 2 ^ 53 == core && s.idleFill core (e.1 % 2 ^ 53) e.2))
           proxy := s.proxy.filter (fun e => !(s.idleFill core e.1 e.2 && e.2.asker.all (fun q => (s.wgAt q.g).core == core))) }

/-- Fetch the word at an address for the issuing set (04 R70, R72; 10 R177). -/
def fetchWord (s : State) (a : Dword) : FetchAns Word :=
  if bits a 63 48 ≠ 0 then .bad s 0x04 a
  else
    match s.translate s.here.core s.asid a.toNat .fetch s.privileged false with
    | (s1, .error c) => .bad s1 c a
    | (s1, .wait _) => .wait s1
    | (s1, .fail k n) => .bad (s1.errLine a n (errCode n) k) (BitVec.ofNat 8 (errCode n)) a
    | (s1, .ok x) =>
      let line := x.pa / 128
      let core := s.here.core
      let pk := some s.here.paddock
      let hit := s1.holds core line
      let dead := fillServes (s1.cacheAt core line) s1.me
      let deadPod := !hit && !dead && isPod line && (s1.cacheAt core line).state == .I && fillServes (s1.proxyAt line) s1.me
      let fails (s : State) : FetchAns Word :=
        .bad (lineFails ⟨s, [], [], [], 0, [], []⟩ (fun _ => a) line [0]).s (BitVec.ofNat 8 (errCode line)) a
      if !hit && s1.unreachable x.pa then .bad (s1.errLine a line 9 (downKind x.pa)) 0x09 a
      else if (s1.failedFor line).isSome then fails s1
      else
        match s1.loadLine core line (tagsFor s.asid a x) pk s1.me with
        | .err => fails s1
        | .wait _ => .wait (s1.ask core line .read (some s1.me))
        | .ok s2 =>
          if !hit && !dead && (s2.dirAt line).state = .P then fails s2
          else
            .ok (if hit || dead || deadPod then s2 else traceHome s1 s2 line core pk s.span.lastStop .getS)
              (BitVec.ofNat 32 (lineBytes (if deadPod then s2.memLine line else (s2.cacheAt core line).data) (x.pa % 128) 4))

/-- Fetch n words from an address on. -/
def fetchWords : Nat → State → Dword → FetchAns (List Word)
  | 0, s, _ => .ok s []
  | n + 1, s, a =>
    match s.fetchWord a with
    | .wait s1 => .wait s1
    | .bad s1 c x => .bad s1 c x
    | .ok s1 w =>
      match fetchWords n s1 (a + 4) with
      | .wait s2 => .wait s2
      | .bad s2 c x => .bad s2 c x
      | .ok s2 ws => .ok s2 (w :: ws)

/-- Fetch a clause: its header and its N words. -/
def fetchClause (s : State) (pc : Dword) : FetchAns (Word × List Word) :=
  if pc.toNat % 4 ≠ 0 then .bad s 0x03 pc
  else
    match s.fetchWord pc with
    | .wait s1 => .wait s1
    | .bad s1 c x => .bad s1 c x
    | .ok s1 hdr =>
      match fetchWords (bits hdr 3 0) s1 (pc + 4) with
      | .wait s2 => .wait s2
      | .bad s2 c x => .bad s2 c x
      | .ok s2 ws => .ok (s2.dropFills s.here.core) (hdr, ws)

/-! ## CLAUSE_ISSUE -/

/-- A clause of the issuing set as it opens. -/
def freshClause (s : State) (hdr : Word) (words : List Word) (pos : Nat) : Clause :=
  { lanes := s.lanes, hdrPc := s.focus.hdrPc, hdr := hdr, words := words, pos := pos, targets := [], exiting := false,
    yielded := false, stopped := false, waiting := false, suspended := false }

/-- A fault of a whole clause, before any instruction of it issues: %tpc at the header (04 R61, R70). -/
def headerFault (s : State) (c : Byte) (tv : Dword) : State :=
  (s.updSpan (fun sp => { sp with clauses := sp.clauses ++ [s.freshClause 0 [] 0] })).raiseAll c tv

/-- Does the wait mask of a header hold the issue back (04 R60). -/
def maskHolds (sp : Span) (hdr : Word) : Bool := (List.range 6).any (fun c => hdr.getLsbD (8 + c) && sp.kc c != 0)

/-- The key under which a pipe's window counts the issues of a priority level (14 R258). -/
def floorKey (core pipe level : Nat) : Nat := (core * 8 + pipe) * 64 + level

/-- The clause goes into issue: the set's last issue, the pipe's count, the stop site with its record, and a stop where a
comparator or the stop-next flag asks for one (04 R62, 15 R280, 18 R327). -/
def openClause (s : State) (hdr : Word) (words : List Word) : State :=
  let site := hdr.getLsbD 7
  let ord : BitVec 20 := (words.getD 0 0).extractLsb' 0 20
  let c := s.freshClause hdr words (if site then 2 else 1)
  let cfg := (s.pk s.here.paddock).cfg
  let next := cfg.debugger && s.span.stopNext
  let stops := site && (cfg.stops.contains ord.toNat || next)
  let s1 := s.updSpan (fun sp => { (sp.updLanes s.lanes (fun _ la => { la with lastIssue := s.steps + 1 })) with
    clauses := sp.clauses ++ [{ c with stopped := stops }] })
  let s2 := { (s1.count s.here.core (bits hdr 6 4) 1) with
    floorCnt := Store.upd 0 s1.floorCnt (floorKey s.here.core (bits hdr 6 4) s.launchHere.prio) (fun n => n + 1) }
  if !site then s2
  else
    let s3 := (s2.updSpan (fun sp => { sp with lastStop := ord, stopNext := sp.stopNext && !stops })).emitWg 0x10 0x00
      s.focus.g s.focus.sp (s.lanes.setWidth 64)
    if stops then s3.emitWg 0x12 0x00 s.focus.g s.focus.sp (s.lanes.setWidth 64) else s3

/-- The state in which an issue set is at its clause header. -/
def atHeader (s : State) (q : SpanRef) : State :=
  { s with focus := ⟨q.g, q.sp, q.lanes, ((s.spanAt q.g q.sp).laneAt (lowest q.lanes)).pc, 0, 0⟩ }

end State

/-- CLAUSE_ISSUE (04 R72). A set whose wait mask is not met stays where it is. -/
def execClauseIssue (q : SpanRef) (s : State) : Res :=
  if (s.wgAt q.g).res ≠ .resident ∨ !((s.spanAt q.g q.sp).issueSets.contains q.lanes) then .next s
  else
    let s0 := s.atHeader q
    match s0.fetchClause s0.focus.hdrPc with
    | .wait s1 => .next s1
    | .bad s1 c a => .next (s1.headerFault c a)
    | .ok s1 (hdr, words) =>
      if !clauseLegal hdr words then .next (s1.headerFault 0x01 0)
      else if State.maskHolds s1.span hdr then .next s1
      else .next (s1.openClause hdr words)

/-! ## CLAUSE_END (07 R110, R114, R115) -/

namespace State

/-- The workgroup ends with its last thread; a span that has ended has arrived everywhere (03 R38, 14 R259). -/
def afterEnd (s : State) (g : Nat) : State :=
  let w := s.wgAt g
  if w.res ≠ .ended ∧ w.allEnded then (s.endWg g false false).launchCheck w.launchKey else s.barrierRecheck g

/-- Are results of the clause outstanding that name no pending counter (04 R72). -/
def uncounted (sp : Span) (c : Clause) : Bool :=
  sp.pending.any (fun p => p.ctr == 7 && p.seq == (sp.laneAt (lowest c.lanes)).lastIssue && p.lanes &&& c.lanes != 0)

/-- The lanes of a clause take their targets, or next, and meet (07 R110); a lane that has resumed inside another clause
does not meet. -/
def landTargets (sp : Span) (c : Clause) (now : Nat) : Span :=
  let next := c.hdrPc + BitVec.ofNat 64 (4 * (c.n + 1))
  let go := c.lanes &&& sp.alive
  let sp1 := sp.updLanes go (fun l la =>
    { la with pc := ((c.targets.find? (fun t => t.1 == l)).map (·.2)).getD next
              lastIssue := if c.yielded then now else la.lastIssue })
  (lanesOf (go &&& ~~~sp.issuing)).foldl Span.meet sp1

end State

/-- CLAUSE_END: the clause leaves issue once its uncounted results are written; its lanes take their targets or end. Lanes that end as
the last of a handler wait for the lines of its frame (18 R324). -/
def execClauseEnd (q : SpanRef) (s : State) : Res :=
  let sp := s.spanAt q.g q.sp
  match sp.clauseOf q.lanes with
  | none => .next s
  | some c =>
    if c.pos ≤ c.n ∨ State.uncounted sp c then .next s
    else
      let s1 := s.updSpanAt q.g q.sp (fun sp => { sp with clauses := Span.updFirst (Span.openFor q.lanes) (fun _ => []) sp.clauses })
      if c.exiting then
        match s.frameWaits q.g q.sp q.lanes with
        | some s2 => .next s2
        | none =>
          let lv := (sp.laneAt (State.lowest q.lanes)).level
          let s2 := (s1.updSpanAt q.g q.sp (fun sp => sp.endLanes q.lanes)).releaseCheck q.g q.sp
          .next ((s2.leaveCheck q.g q.sp lv).afterEnd q.g)
      else
        .next ((s1.updSpanAt q.g q.sp (fun sp => State.landTargets sp c (s.steps + 1))).releaseCheck q.g q.sp)

/-! ## COUNTED_RESULT_WRITE (04 R72) -/

namespace State

/-- Outstanding result n of a span is over: it leaves the list, and its counter falls. -/
def dropPending (s : State) (g sp n : Nat) (k : Nat) : State :=
  s.updSpanAt g sp (fun x =>
    { x with pending := x.pending.eraseIdx n, k := if k < 6 then Store.upd 0 x.k k (fun v => v - 1) else x.k })

end State

/-- COUNTED_RESULT_WRITE: outstanding result n of a span is written and its counter falls. -/
def execCountedResultWrite (g sp n : Nat) (s : State) : Res :=
  match (s.spanAt g sp).pending[n]? with
  | none => .next s
  | some p => .next ((s.writeRegs g sp p.ws).dropPending g sp n p.ctr)

/-- TRAP_ENTRY: a raised exception whose turn has come enters its handler (18 R318, R319). -/
def execTrapEntry (g sp : Nat) (s : State) : Res := .next (s.takeNext g sp)

/-- The instruction at which an issue set stands inside its clause. -/
def Clause.instr (c : Clause) : Option Instr := (decode c.cls (c.words.drop (c.pos - 1))).toOption
/-- How many words that instruction has. -/
def Clause.len (c : Clause) : Nat := (c.instr.map (fun i => (encode i).length)).getD 1

/-! ## Watchdog (18 R317) -/

namespace State

/-- The state in which an issue set's instruction issues. -/
def focusOn (s : State) (q : SpanRef) (c : Clause) : State :=
  { s with focus := ⟨q.g, q.sp, q.lanes, c.hdrPc, c.pos, c.pos + c.len⟩ }

/-- Is a workgroup's span held by a debugger's stop (18 R327). -/
def spanStopped (s : State) (g n : Nat) : Bool := (s.spanAt g n).clauses.any (·.stopped)
/-- The watchdog of an issue set expires: code 08 on the lanes that wait for a full/empty bit or for a sibling's handle; lanes that
have failed already have their own codes, the others are complete. Stalls, debugger stops and time in the icehouse do not count, and a set
that waits for a handler to return raises nothing (18 R318). -/
def watchSet (s : State) (q : SpanRef) : State :=
  let sp := s.spanAt q.g q.sp
  match sp.clauseOf q.lanes, sp.tileWait.find? (fun t => t.own == q.lanes) with
  | some c, some t =>
    if s.timersHeld (s.wgAt q.g).paddock ∨ s.spanStopped q.g q.sp ∨ (sp.laneAt (lowest q.lanes)).level ≠ sp.openLevel then s
    else (s.focusOn q c).tileOver.raiseL (t.lanes ||| failsOf t)
      (fun l => if laneIn t.lanes l then 0x08 else Store.get 0 t.failed l) (fun _ => 0)
  | _, _ => s

/-- Does a unit of an operation wait for a full/empty bit or for a sibling's handle. -/
def unitWaitsFe (s : State) (a : AsyncOp) (x : AUnit) : Bool :=
  let side (src : Bool) : UnitSide → Bool
    | .tile g i h r c sib => match s.tileNow g i h sib with
      | .wait => true
      | .ok place e => if src then a.wf && !(s.gran place (eOff e r c / 16)).full else a.we && (s.gran place (eOff e r c / 16)).full
      | _ => false
    | _ => false
  x.st == .pending && x.sent == none && (side true x.src || side false x.dst)

/-- The watchdog of an engine expires at an operation: its waiting units fail with code 08 (11 R206). Stalls, debugger stops and time in the
icehouse do not count. -/
def watchEngine (s : State) (n : Nat) : State :=
  match s.asyncAt n with
  | none => s
  | some a => if a.suspended ∨ s.timersHeld a.id.paddock ∨ (s.issuerLives a.g a.id ∧ s.spanStopped a.g a.sp) then s else (a.units.zipIdx.filter (fun e => s.unitWaitsFe a e.1)).foldl (fun x e => x.failUnit n e.2 0x08 0 0 none) s

end State

/-- WATCHDOG_EXPIRY. -/
def execWatchdogExpiry (who : Waiter) (s : State) : Res :=
  match who with
  | .set q => .next (s.watchSet q)
  | .engine n => .next (s.watchEngine n)

/-! ## mwait timeout and debugger (14 R265, 18 R327) -/

/-- MWAIT_TIMEOUT: the monitor is disarmed and code 10 is raised on every lane of the waiting set, with the time that it read when it
first issued; an endless wait has no timeout, and time in the icehouse, in a stall or at a debugger's stop of the span does not count (18
R331, R327, 17 R313). -/
def execMwaitTimeout (q : SpanRef) (s : State) : Res :=
  let sp := s.spanAt q.g q.sp
  match sp.clauseOf q.lanes with
  | none => .next s
  | some c =>
    match c.waiting, c.instr with
    | true, some (.mwait _ b) =>
      let f := s.focusOn q c
      if f.argOr (sp.opB b) = allOnes64 ∨ (sp.mon.map (·.triggered)).getD true ∨ s.timersHeld (s.wgAt q.g).paddock ∨
          s.spanStopped q.g q.sp then .next s
      else .next ((f.updSpan (fun sp => { sp with mon := none })).dropArg.raiseAll 0x10 0)
    | _, _ => .next s

/-- DEBUGGER_RESUME: the stopped set issues on from its saved word position. -/
def execDebuggerResume (q : SpanRef) (s : State) : Res :=
  .next (s.updSpanAt q.g q.sp (fun sp => sp.updClause q.lanes (fun c => { c with stopped := false })))

end Sys2Proof.Machine
end

