-- ==== Sys2Proof/Machine/Matrix.lean ====
section
/-!
DEFINITION. Machine/Matrix.lean: class 2, tile registers and matrix instructions (09 R147-R169).
-/

namespace Sys2Proof.Machine

/-! ## tcfg (09 R148, R149) -/

/-- Element width in bytes of a format code; none for a reserved code (06 R82, 09 R149). -/
def fmtBytes (f : Nat) : Option Nat :=
  if f = 0x00 ∨ f = 0x04 ∨ f = 0x0D ∨ (0x20 ≤ f ∧ f ≤ 0x3B) then some 1
  else if f = 0x01 ∨ f = 0x05 ∨ f = 0x08 ∨ f = 0x09 then some 2
  else if f = 0x02 ∨ f = 0x06 ∨ f = 0x0A ∨ f = 0x0C then some 4
  else if f = 0x03 ∨ f = 0x07 ∨ f = 0x0B ∨ f = 0x0E then some 8
  else none

/-- V: configured. -/
def tcV (x : Dword) : Bool := x.getLsbD 7
/-- PR: occupies a pair of tile registers. -/
def tcPR (x : Dword) : Bool := x.getLsbD 6
/-- Rows. -/
def tcRows (x : Dword) : Nat := bits x 15 8 + 1
/-- Columns. -/
def tcCols (x : Dword) : Nat := bits x 23 16 + 1
/-- Format code. -/
def tcFmt (x : Dword) : Nat := bits x 5 0
/-- Element width; zero only for a reserved format, which no written tcfg holds. -/
def tcW (x : Dword) : Nat := (fmtBytes (tcFmt x)).getD 0

/-- Is a tcfg value with V = 1 legal for register n of count registers (09 R149). -/
def tcfgLegal (count n : Nat) (x : Dword) : Bool :=
  bits x 63 48 == 0 && bits x 31 24 == 0 && (fmtBytes (tcFmt x)).isSome &&
  decide (tcRows x * tcCols x * tcW x ≤ (if tcPR x then 8192 else 4096)) &&
  (!tcPR x || (n % 2 == 0 && decide (n + 1 < count)))

/-- Register names with the second register of a tile pair (09 R149). -/
def pairNames (w : Wg) (rs : List RegName) : List RegName :=
  rs.flatMap (fun r => match r with
    | .t n => if tcV (w.cfg n) && tcPR (w.cfg n) then [.t n, .t (n + 1)] else [.t n]
    | r => [r])

namespace Wg

/-- Is register n absorbed by a pair at n − 1 (09 R149). -/
def absorbed (w : Wg) (n : Nat) : Bool := n % 2 == 1 && tcV (w.cfg (n - 1)) && tcPR (w.cfg (n - 1))
/-- The bytes of element (r, c) of a configured tile, as a natural number (09 R150). -/
def tElem (w : Wg) (n r c : Nat) : Nat :=
  let x := w.cfg n
  let o := (r * tcCols x + c) * tcW x
  (List.range (tcW x)).foldr (fun b a => (w.tByte n (o + b)).toNat + 256 * a) 0
/-- Clear every byte from key lo up to hi. -/
def clearT (w : Wg) (lo hi : Nat) : Wg := { w with t := w.t.filter (fun e => !(decide (lo ≤ e.1) && decide (e.1 < hi))) }

end Wg

namespace State

/-- Tile registers that the issuing stage declared (05 R77). -/
def tregsHere (s : State) : Nat := s.launchHere.tregs s.here.stage
/-- May a class 2 instruction other than tcfgw and tcfgr name register n (05 R77, 09 R149). -/
def tNameable (s : State) (n : BitVec 4) : Bool := decide (n.toNat < s.tregsHere) && !s.here.absorbed n.toNat
/-- Is register n nameable and configured. -/
def tUsable (s : State) (n : BitVec 4) : Bool := s.tNameable n && tcV (s.here.cfg n.toNat)

end State

/-- tcfgw (09 R153). -/
def execTcfgw (n : BitVec 4) (a : BitVec 6) (s : State) : Res :=
  let x := s.span.sr a
  if s.tregsHere ≤ n.toNat then fault 0x02 0 s
  else if tcV x && !tcfgLegal s.tregsHere n.toNat x then fault 0x02 0 s
  else if !tcV x && x != 0 then fault 0x02 0 s
  else done (s.updHere (fun w => { w with tcfg := Store.set 0 w.tcfg n.toNat x }))
/-- tcfgr (09 R153). -/
def execTcfgr (d : BitVec 7) (n : BitVec 4) (s : State) : Res :=
  if s.tregsHere ≤ n.toNat then fault 0x02 0 s
  else done (s.updSpan (fun sp => sp.mapPair s.lanes d.toNat (fun _ => s.here.cfg n.toNat)))
/-- tzero (09 R153). -/
def execTzero (n : BitVec 4) (s : State) : Res :=
  if !s.tNameable n then fault 0x02 0 s
  else
    let x := s.here.cfg n.toNat
    done (s.updHere (fun w => w.clearT (4096 * n.toNat) (4096 * n.toNat + (if tcV x && tcPR x then 8192 else 4096))))

/-! ## Between tile memory and tile registers (09 R154-R157) -/

/-- Element coordinates of a tile-register access: the tile's element number with the handle's row and column. -/
abbrev Elems := List (Nat × Nat × Nat)

/-- The rectangle of a configured tile at an origin (09 R155). -/
def rectElems (x : Dword) (row col : Nat) : Elems :=
  (List.range (tcRows x)).flatMap (fun r => (List.range (tcCols x)).map (fun c => (r * tcCols x + c, row + r, col + c)))

/-- The register bytes of a load with the granules and bytes that they come from. -/
def loadBytes (place : Nat) (e : BitVec 128) (els : Elems) : List (Nat × Nat × Nat × Nat) :=
  els.flatMap (fun q => (List.range (eWidth e)).map (fun b =>
    let o := eOff e q.2.1 q.2.2 + b
    (q.1 * eWidth e + b, place, o / 16, o % 16)))

/-- tld and tld.perm after the format check (09 R154-R156): register n from handle h of r. Code 07 where the handle, the width or
an element is outside; with .wf and .wfc the load waits until all its granules are full together; code 09 on a granule that it
reads poisoned; else it is performed, on the elements and under the configuration read at issue. DESIGN CHOICE (log 78): a plain load that
races another span's store reads every granule in one step, never a mix of old and new ones, which 09 R158 allows. Unsafe. -/
def tileLoad (k : BitVec 3) (fe : BitVec 2) (n : BitVec 4) (h : BitVec 6) (r : TileRef) (els : Elems) (s : State) : Res :=
  let t := s.tileProg (s.tileStart s.lanes (s.here.cfg n.toNat) els [] (tR n) k.toNat)
  let els := t.elems
  match s.tileRef s.focus.g h.toNat r with
    | .bad => fault 0x07 0 s.tileOver
    | .wait => .next (if 63 ≤ s.span.kc k.toNat ∧ k ≠ 7#3 ∧ !s.tileBegun then s
        else s.tileWaits { t with on := s.handleWait r h.toNat, lanes := s.lanes })
    | .ok place e =>
      if eWidth e ≠ tcW t.cfg ∨ els.any (fun q => decide (eRows e ≤ q.2.1) || decide (eCols e ≤ q.2.2)) then
        fault 0x07 0 s.tileOver
      else
        let bs := loadBytes place e els
        if s.tileBusy (bs.map (fun b => (b.2.1, b.2.2.1))) then .next s
        else if 63 ≤ s.span.kc k.toNat ∧ k ≠ 7#3 ∧ !s.tileBegun then .next s
        else
          match (if fe = 0#2 then none else bs.find? (fun b => !(s.gran place b.2.2.1).full)) with
          | some b => .next (s.tileWaits { t with on := .granule place b.2.2.1, lanes := s.lanes
                                                  grans := bs.map (fun b => (b.2.1, b.2.2.1)) })
          | none =>
            match bs.find? (fun b => (s.gran place b.2.2.1).poison) with
            | some b => fault 0x09 0 (s.logGran place b.2.2.1).tileOver
            | none =>
              let ws := bs.map (fun b => RegWrite.t n.toNat b.1 (s.placeByte place (16 * b.2.2.1 + b.2.2.2)))
              let s1 := if fe = 2#2 then bs.foldl (fun a b => a.setFull place false b.2.2.1) s else s
              (if fe = 0#2 then s1 else s1.tileHear place).tileOver.counted k s.lanes (tR n) ws

/-- tld (09 R155). -/
def execTld (k : BitVec 3) (fe : BitVec 2) (dy dx n : BitVec 4) (sib : BitVec 1) (h : BitVec 6) (c : Coord) (s : State) : Res :=
  if !s.tileBegun && !s.tUsable n then fault 0x02 0 s
  else tileLoad k fe n h ⟨dx, dy, sib⟩ (rectElems (s.here.cfg n.toNat) (c.row s.span 0) (c.col s.span 0)) s

/-- tld.perm.a and tld.perm.b (09 R156): the table is read at issue. -/
def execTldPerm (k : BitVec 3) (fe : BitVec 2) (tT : BitVec 4) (bb : BitVec 1) (n : BitVec 4) (h : BitVec 6) (c : Coord)
    (s : State) : Res :=
  let x := s.here.cfg n.toNat
  let y := s.here.cfg tT.toNat
  let need := if bb = 1#1 then tcRows x else tcCols x
  if !s.tileBegun && (!s.tUsable n || !s.tUsable tT || tT == n || tcFmt y != 0x05 || tcRows y != 1 || tcPR y || decide (tcCols y < need)) then
    fault 0x02 0 s
  else
    let row := c.row s.span 0
    let col := c.col s.span 0
    let tab (i : Nat) : Nat := s.here.tElem tT.toNat 0 i
    let els : Elems := (List.range (tcRows x)).flatMap (fun r => (List.range (tcCols x)).map (fun q =>
      (r * tcCols x + q, if bb = 1#1 then (row + tab r, col + q) else (row + r, col + tab q))))
    tileLoad k fe n h ⟨0, 0, 0⟩ els s

/-- The bytes that a store writes, gathered by granule: granule, mask, data. -/
def byGranule (bs : List (Nat × Byte)) : List (Nat × BitVec 16 × BitVec 128) :=
  let gs := (bs.map (fun b => b.1 / 16)).foldl (fun a g => if a.contains g then a else a ++ [g]) []
  gs.map (fun g =>
    let own := bs.filter (fun b => b.1 / 16 == g)
    (g, own.foldl (fun m b => m ||| BitVec.twoPow 16 (b.1 % 16)) 0,
      own.foldl (fun d b => (d &&& ~~~(0xFF#128 <<< (8 * (b.1 % 16)))) ||| ((b.2.setWidth 128 : BitVec 128) <<< (8 * (b.1 % 16)))) (0 : BitVec 128)))

/-- Perform the stores of a list of granules of a place: bytes written, then the full bit set (09 R157, 11 R193). -/
def State.storeGrans (s : State) (place : Nat) (gs : List (Nat × BitVec 16 × BitVec 128)) : State :=
  gs.foldl (fun a g => a.setGran place g.1 { mergeGran (a.gran place g.1) g.2.1 g.2.2 with full := true }) s
/-- The same for an instruction, whose core's clock goes with the full bits (12 R223). -/
def State.tellGrans (s : State) (place : Nat) (gs : List (Nat × BitVec 16 × BitVec 128)) : State :=
  if gs = [] then s else (s.storeGrans place gs).tileTell place

/-- tst (09 R157). With .we each granule is written as soon as it is empty, and the instruction is complete when all are; poison that
a later granule shows then leaves the written ones written (log 71). Data that fail their carriage check are not written (11 R188). The
rectangle and the data are those of its issue. -/
def execTst (fe : BitVec 2) (dy dx n : BitVec 4) (sib : BitVec 1) (h : BitVec 6) (c : Coord) (s : State) : Res :=
  let x := s.here.cfg n.toNat
  let size := tcRows x * tcCols x * tcW x
  let t := s.tileProg (s.tileStart s.lanes x (rectElems x (c.row s.span 0) (c.col s.span 0))
    ((List.range size).map (fun b => (b, (s.here.tByte n.toNat b).toNat))) [] 7)
  if !s.tileBegun && !s.tUsable n then fault 0x02 0 s
  else
    match s.tileRef s.focus.g h.toNat ⟨dx, dy, sib⟩ with
    | .bad => fault 0x07 0 s.tileOver
    | .wait => .next (s.tileWaits { t with on := s.handleWait ⟨dx, dy, sib⟩ h.toNat, lanes := s.lanes })
    | .ok place e =>
      let els := t.elems
      if eWidth e ≠ tcW t.cfg ∨ els.any (fun q => decide (eRows e ≤ q.2.1) || decide (eCols e ≤ q.2.2)) then fault 0x07 0 s.tileOver
      else
        let gs := (byGranule ((loadBytes place e els).map (fun b => (16 * b.2.2.1 + b.2.2.2, BitVec.ofNat 8 (t.vals.getD b.1 (0, 0)).2)))).filter
          (fun g => !t.wrote.contains g.1)
        if s.tileBusy (gs.map (fun g => (place, g.1))) then .next s
        else
          let ready := gs.filter (fun g => fe == 0#2 || !(s.gran place g.1).full)
          let rest := gs.filter (fun g => !(fe == 0#2 || !(s.gran place g.1).full))
          match ready.find? (fun g => laneIn s.carriage s.lowLane || s.granRefuses place g.1 g.2.1), rest with
          | some g, _ => fault 0x09 0 (s.logHere (s.granName place g.1) 9 (if s.granRefuses place g.1 g.2.1 then 1 else 0)).tileOver
          | none, [] => done (s.tellGrans place ready).tileOver
          | none, g :: _ => .next ((s.tellGrans place ready).tileWaits
              { t with on := .granule place g.1, lanes := s.lanes, wrote := t.wrote ++ ready.map Prod.fst
                       grans := rest.map (fun g => (place, g.1)) })

/-- tmov and tmov.tr move bytes between configured tiles of equal element width (09 R159): the bytes of element i of D
come from element src i of S. -/
def tileMove (d n : BitVec 4) (ok : Dword → Dword → Bool) (src : Dword → Dword → Nat → Nat) (s : State) : Res :=
  let x := s.here.cfg d.toNat
  let y := s.here.cfg n.toNat
  if !s.tUsable d || !s.tUsable n || tcW x != tcW y || !ok x y then fault 0x02 0 s
  else
    done (s.updHere (fun w =>
      (List.range (tcRows x * tcCols x)).foldl (fun a i =>
        (List.range (tcW x)).foldl (fun b o => b.setTByte d.toNat (i * tcW x + o) (w.tByte n.toNat (src x y i * tcW x + o))) a) w))
/-- tmov. -/
def execTmov (d n : BitVec 4) (s : State) : Res :=
  tileMove d n (fun x y => tcRows x * tcCols x == tcRows y * tcCols y) (fun _ _ i => i) s
/-- tmov.tr: tD[r, c] := tS[c, r]. -/
def execTmovTr (d n : BitVec 4) (s : State) : Res :=
  tileMove d n (fun x y => tcRows x == tcCols y && tcCols x == tcRows y)
    (fun x y i => i % tcCols x * tcCols y + i / tcCols x) s

/-! ## Matrix multiply-accumulate (09 R160-R167) -/

/-- What an mma form fixes (09 R160): opcode, legal formats of A and B, sparse, scaled. -/
structure MmaForm where
  op : Nat
  fmt : Nat → Bool
  sp : Bool
  scl : Bool
  wide : Bool

/-- Lanes of quarter q (03 R33). -/
def quarter (q : Nat) : Lanes := 0xFF#32 <<< (8 * q)
/-- Does quarter q take part (09 R161): it has a lane in S, and every lane of it that has not ended is in S. -/
def quarterIn (s : State) (q : Nat) : Bool := s.lanes &&& quarter q != 0
/-- A quarter with a lane in S and another that has not ended and is not in S: code 02 (09 R161). -/
def quarterSplit (s : State) (q : Nat) : Bool :=
  quarterIn s q && (s.span.alive &&& quarter q &&& ~~~s.lanes != 0)

/-- Geometry of the operands (09 R162). -/
def mmaGeometry (F : MmaForm) (bs : Nat) (a b m : Dword) : Bool :=
  let nb := tcCols a / 32
  (tcRows a == 8 || tcRows a == 32) && tcCols a % 32 == 0 && (tcCols b == 8 || tcCols b == 32) &&
  tcRows b == (if F.sp then 2 * tcCols a else tcCols a) && decide (bs < nb) && (!(F.scl && F.sp) || decide (bs ≤ 1)) &&
  (!F.sp || (tcFmt m == 0x04 && tcRows m == tcRows a && tcCols m == 8 * nb)) && F.fmt (tcFmt a) && F.fmt (tcFmt b)

/-- The terms of block j of an element (m, n) of quarter q (09 R164, R165): positions of the A and B elements, in
increasing logical position order of their stored columns, with the block's number j. -/
def mmaTerms (F : MmaForm) (w : Wg) (bs : Nat) (tA tB tM : Nat) (q m n : Nat) : List (Nat × List (Nat × Nat × Nat × Nat)) :=
  let a := w.cfg tA
  let b := w.cfg tB
  let ra := if tcRows a = 32 then 8 * q else 0
  let cb := if tcCols b = 32 then 8 * q else 0
  if F.sp then
    let pos (s : Nat) : Nat :=
      let g := s / 2
      let nib := w.tElem tM (ra + m) (8 * bs + g / 2) / 16 ^ (g % 2) % 16
      64 * bs + 4 * g + nib / 4 ^ (s % 2) % 4
    [2 * bs, 2 * bs + 1].map (fun j =>
      (j, ((List.range 32).filter (fun s => pos s / 32 == j)).map (fun s => (ra + m, 32 * bs + s, pos s, cb + n))))
  else [(bs, (List.range 32).map (fun k => (ra + m, 32 * bs + k, 32 * bs + k, cb + n)))]

/-- Value of a .s8e scale (06 R93) applied to an exact value. -/
def applyScale (x : Nat) (v : FVal) : FVal := if x = 0xFF then .nan else v.scale ((x : Int) - 127)

/-- Accumulator element (m, n) of quarter q before the instruction (09 R163). -/
def mmaAcc (F : MmaForm) (sp : Span) (v q m n : Nat) : Dword :=
  if F.wide then sp.pair (v + 2 * m) (8 * q + n) else (sp.vr (v + m) (8 * q + n)).setWidth 64

/-- The scale byte of block j in a lane of a scale register (09 R164). -/
def scaleByte (sp : Span) (r j l : Nat) : Nat := bits (sp.vr r l) (8 * j + 7) (8 * j)

/-- One floating-point block: acc := round(acc + round(e)) (06 R96). -/
def accF (F : Fmt) (acc : FVal) (ts : List FVal) : FVal :=
  F.decode (F.encode .rne false (acc.add (F.decode (F.encode .rne false (blockSum ts)))))

/-- The new accumulator element: floating point (09 R164, 06 R96). -/
def mmaFloat (F : MmaForm) (acc : Fmt) (s : State) (bs tA tB tM v vA vB q m n : Nat) : Dword :=
  let w := s.here
  let fa : BitVec 6 := BitVec.ofNat 6 (tcFmt (w.cfg tA))
  let fb : BitVec 6 := BitVec.ofNat 6 (tcFmt (w.cfg tB))
  let val (f : BitVec 6) (x : Nat) : FVal := sourceValue f (BitVec.ofNat 64 x)
  let r := (mmaTerms F w bs tA tB tM q m n).foldl (fun c jt =>
    let ts := jt.2.map (fun t =>
      let x := (val fa (w.tElem tA t.1 t.2.1)).mul (val fb (w.tElem tB t.2.2.1 t.2.2.2))
      if F.scl then applyScale (scaleByte s.span vA jt.1 (8 * q + m)) (applyScale (scaleByte s.span vB jt.1 (8 * q + n)) x) else x)
    accF acc c ts) (acc.decode (mmaAcc F s.span v q m n).toNat)
  BitVec.ofNat 64 (acc.encode .rne false r)

/-- The new accumulator element: integers, wrapping (06 R96). -/
def mmaInt (F : MmaForm) (s : State) (bs tA tB v q m n : Nat) : Dword :=
  let w := s.here
  let val (t x : Nat) : Int := if tcFmt (w.cfg t) = 0 then (BitVec.ofNat 8 x).toInt else x
  let e := (mmaTerms F w bs tA tB 0 q m n).foldl (fun c jt =>
    jt.2.foldl (fun a t => a + val tA (w.tElem tA t.1 t.2.1) * val tB (w.tElem tB t.2.2.1 t.2.2.2)) c)
    ((mmaAcc F s.span v q m n).toNat : Int)
  (BitVec.ofInt 32 e).setWidth 64

/-- The new accumulator element: residues (06 R96, R100). -/
def mmaResidue (F : MmaForm) (s : State) (bs tA tB v q m n : Nat) : Dword :=
  let w := s.here
  let p := s.span.mq.toNat
  let e := (mmaTerms F w bs tA tB 0 q m n).foldl (fun c jt =>
    jt.2.foldl (fun a t => a + w.tElem tA t.1 t.2.1 * w.tElem tB t.2.2.1 t.2.2.2) c) (mmaAcc F s.span v q m n).toNat
  BitVec.ofNat 64 (e % p)

/-- Groups of four logical positions that the matrix pipe skips in a quarter (09 R166): every A element zero, every B element
finite. The scales of a scaled form are not looked at, though a scale 0xFF makes a product NaN (log 72). Integer and residue
elements are always finite. DESIGN CHOICE (log 78): the spec does not say whether an .m64 element that is a nonzero multiple of q counts as
zero; here the stored value is tested, and it does not. Unsafe. -/
def mmaSkipped (F : MmaForm) (s : State) (bs tA tB tM q : Nat) : Nat :=
  let w := s.here
  let exact := F.op = 0x18 ∨ F.op = 0x19
  let val (f x : Nat) : FVal := sourceValue (BitVec.ofNat 6 f) (BitVec.ofNat 64 x)
  let ts := (List.range 64).flatMap (fun mn => (mmaTerms F w bs tA tB tM q (mn / 8) (mn % 8)).flatMap (·.2))
  let zero (x : Nat) : Bool := if exact then x == 0 else match val (tcFmt (w.cfg tA)) x with
    | .fin _ m _ => m == 0
    | _ => false
  let finite (x : Nat) : Bool := decide exact || (match val (tcFmt (w.cfg tB)) x with
    | .fin _ _ _ => true
    | _ => false)
  let k0 := if F.sp then 64 * bs else 32 * bs
  ((List.range (if F.sp then 16 else 8)).filter (fun g =>
    (ts.filter (fun t => t.2.2.1 / 4 == (k0 + 4 * g) / 4)).all (fun t =>
      zero (w.tElem tA t.1 t.2.1) && finite (w.tElem tB t.2.2.1 t.2.2.2)))).length

/-- What makes two quarters of different spans fuse (09 R168): one form and bs, one tB that nothing has written between them (its
generation stands), one B slice. As a number, not 0. -/
def fuseKey (F : MmaForm) (s : State) (bs tB q : Nat) : Nat :=
  let c := s.here.cfg tB
  1 + F.op + 2 ^ 8 * (bs + 4 * tB + 64 * (if tcCols c = 8 then 0 else q) + 256 * bits c 47 32)
/-- Quarters of the workgroup's other spans that may fuse with quarter q. -/
def fuseMates (F : MmaForm) (s : State) (bs tB q : Nat) : Nat :=
  (s.here.mmaLast.filter (fun e => e.1 / 4 != s.focus.sp && e.2 == fuseKey F s bs tB q)).length
/-- Rime records of an mma, one for each quarter that takes part (17 R306, 09 R168): quarters of the instruction fuse over a common B;
with how many of the quarters of the workgroup's other spans that may fuse with it a quarter does is the pipe's timing (log 73). -/
def mmaRecords (F : MmaForm) (s : State) (bs tA tB tM : Nat) : State :=
  let qs := (List.range 4).filter (quarterIn s)
  let own := if tcCols (s.here.cfg tB) = 8 then qs.length - 1 else 0
  let fused (q : Nat) : Nat := min 7 (own + Config.fused s.steps % (fuseMates F s bs tB q + 1))
  let s1 := qs.foldl (fun a q => (a.count s.here.core (19 + q) (mmaSkipped F s bs tA tB tM q)).emitWg 0x20 0x02 s.focus.g s.focus.sp
    (BitVec.ofNat 64 (F.op + 2 ^ 8 * q + 2 ^ 10 * fused q + 2 ^ 16 * (mmaSkipped F s bs tA tB tM q % 256)
      + 2 ^ 32 * bits (s.here.cfg tA) 47 32 + 2 ^ 48 * bits (s.here.cfg tB) 47 32))) s
  s1.updHere (fun w => { w with mmaLast := qs.foldl (fun m q => Store.set 0 m (4 * s.focus.sp + q) (fuseKey F s bs tB q)) w.mmaLast })

/-- Every mma form (09 R160-R167): the checks, then the accumulator elements of the participating quarters, all read
before any is written. -/
def mma (F : MmaForm) (k : BitVec 3) (bs : BitVec 2) (tA tB tM : BitVec 4) (v : BitVec 7)
    (elem : Nat → Nat → Nat → Dword) (s : State) : Res :=
  let w := s.here
  if !s.tUsable tA || !s.tUsable tB || (F.sp && !s.tUsable tM) ||
      !mmaGeometry F bs.toNat (w.cfg tA.toNat) (w.cfg tB.toNat) (w.cfg tM.toNat) ||
      (List.range 4).any (quarterSplit s) then fault 0x02 0 s
  else
    let qs := (List.range 4).filter (quarterIn s)
    let els := qs.flatMap (fun q => (List.range 64).map (fun i => (q, i / 8, i % 8)))
    let ws := (els.filter (fun t => laneIn s.span.alive (8 * t.1 + t.2.2))).flatMap (fun t =>
      let x := elem t.1 t.2.1 t.2.2
      if F.wide then
        [RegWrite.v (v.toNat + 2 * t.2.1) (8 * t.1 + t.2.2) (x.setWidth 32),
         RegWrite.v (v.toNat + 2 * t.2.1 + 1) (8 * t.1 + t.2.2) (x.extractLsb' 32 32)]
      else [RegWrite.v (v.toNat + t.2.1) (8 * t.1 + t.2.2) (x.setWidth 32)])
    if 63 ≤ s.span.kc k.toNat ∧ k ≠ 7#3 then .next s
    else (mmaRecords F s bs.toNat tA.toNat tB.toNat tM.toNat).counted k s.lanes (vN (if F.wide then 16 else 8) v) ws

/-- binary8 format codes (06 R82). -/
def fmtB8 (f : Nat) : Bool := decide (0x20 ≤ f) && decide (f ≤ 0x3B)

/-- A floating-point form. -/
def mmaF (F : MmaForm) (acc : Fmt) (k : BitVec 3) (bs : BitVec 2) (tA tB tM : BitVec 4) (v vA vB : BitVec 7) (s : State) : Res :=
  mma F k bs tA tB tM v (fun q m n => mmaFloat F acc s bs.toNat tA.toNat tB.toNat tM.toNat v.toNat vA.toNat vB.toNat q m n) s

/-- mma.b8. -/
def execMmaB8 (k : BitVec 3) (bs : BitVec 2) (tB tA : BitVec 4) (v : BitVec 7) (s : State) : Res :=
  mmaF ⟨0x10, fmtB8, false, false, false⟩ fmt32 k bs tA tB 0 v 0 0 s
/-- mma.b8.scl. -/
def execMmaB8Scl (k : BitVec 3) (bs : BitVec 2) (tB tA : BitVec 4) (v vA vB : BitVec 7) (s : State) : Res :=
  mmaF ⟨0x11, fmtB8, false, true, false⟩ fmt32 k bs tA tB 0 v vA vB s
/-- mma.b8.sp. -/
def execMmaB8Sp (k : BitVec 3) (bs : BitVec 2) (tM tB tA : BitVec 4) (v : BitVec 7) (s : State) : Res :=
  mmaF ⟨0x12, fmtB8, true, false, false⟩ fmt32 k bs tA tB tM v 0 0 s
/-- mma.b8.scl.sp. -/
def execMmaB8SclSp (k : BitVec 3) (bs : BitVec 2) (tM tB tA : BitVec 4) (v vA vB : BitVec 7) (s : State) : Res :=
  mmaF ⟨0x13, fmtB8, true, true, false⟩ fmt32 k bs tA tB tM v vA vB s
/-- mma.bf16. -/
def execMmaBf16 (k : BitVec 3) (bs : BitVec 2) (tB tA : BitVec 4) (v : BitVec 7) (s : State) : Res :=
  mmaF ⟨0x14, fun f => f == 0x09, false, false, false⟩ fmt32 k bs tA tB 0 v 0 0 s
/-- mma.f16. -/
def execMmaF16 (k : BitVec 3) (bs : BitVec 2) (tB tA : BitVec 4) (v : BitVec 7) (s : State) : Res :=
  mmaF ⟨0x15, fun f => f == 0x08, false, false, false⟩ fmt32 k bs tA tB 0 v 0 0 s
/-- mma.f32. -/
def execMmaF32 (k : BitVec 3) (bs : BitVec 2) (tB tA : BitVec 4) (v : BitVec 7) (s : State) : Res :=
  mmaF ⟨0x16, fun f => f == 0x0A, false, false, false⟩ fmt32 k bs tA tB 0 v 0 0 s
/-- mma.f64. -/
def execMmaF64 (k : BitVec 3) (bs : BitVec 2) (tB tA : BitVec 4) (v : BitVec 7) (s : State) : Res :=
  mmaF ⟨0x17, fun f => f == 0x0B, false, false, true⟩ fmt64 k bs tA tB 0 v 0 0 s
/-- mma.i8. -/
def execMmaI8 (k : BitVec 3) (bs : BitVec 2) (tB tA : BitVec 4) (v : BitVec 7) (s : State) : Res :=
  let F : MmaForm := ⟨0x18, fun f => f == 0x00 || f == 0x04, false, false, false⟩
  mma F k bs tA tB 0 v (fun q m n => mmaInt F s bs.toNat tA.toNat tB.toNat v.toNat q m n) s
/-- mma.mod: code 02 while %mq is 0 (05 R79). -/
def execMmaMod (k : BitVec 3) (bs : BitVec 2) (tB tA : BitVec 4) (v : BitVec 7) (s : State) : Res :=
  let F : MmaForm := ⟨0x19, fun f => f == 0x0E, false, false, true⟩
  if s.span.mq = 0 then fault 0x02 0 s
  else mma F k bs tA tB 0 v (fun q m n => mmaResidue F s bs.toNat tA.toNat tB.toNat v.toNat q m n) s

end Sys2Proof.Machine
end

