-- ==== Sys2Proof/Machine/LoadStore.lean ====
section
/-!
DEFINITION. Machine/LoadStore.lean: the meanings of class 3: loads, stores, tile loads and stores, atomics, reductions,
drift reductions, fences and cache operations (11 R183-R203).
-/

namespace Sys2Proof.Machine

/-! ## Loads and stores (11 R187) -/

/-- The register writes of one loaded element of size bytes: bytes and half words are extended to 32 bits. -/
def loadWrites (size : Nat) (sx : Bool) (d l x : Nat) : List RegWrite :=
  if size < 4 then
    [.v d l (if sx then (BitVec.ofNat (8 * size) x).signExtend 32 else BitVec.ofNat 32 x)]
  else State.elemWrites size d l x

/-- A load of size bytes per lane into register d and its followers; it waits while its counter stands at 63 (05 R77). -/
def load (size : Nat) (sx : Bool) (k : BitVec 3) (i : BitVec 7) (b : BitVec 6) (d : BitVec 7) (m : MemMod) (s : State) : Res :=
  let addr := s.laneAddr b i m.off
  if s.counterFull k then .next s
  else State.finishCounted (s.doLoad s.lanes m size addr) addr k (vN ((size + 3) / 4) d) (loadWrites size sx d.toNat)

/-- ld.n8. -/
def execLdN8 (k : BitVec 3) (i : BitVec 7) (b : BitVec 6) (d : BitVec 7) (m : MemMod) (s : State) : Res := load 1 false k i b d m s
/-- ld.i8. -/
def execLdI8 (k : BitVec 3) (i : BitVec 7) (b : BitVec 6) (d : BitVec 7) (m : MemMod) (s : State) : Res := load 1 true k i b d m s
/-- ld.n16. -/
def execLdN16 (k : BitVec 3) (i : BitVec 7) (b : BitVec 6) (d : BitVec 7) (m : MemMod) (s : State) : Res := load 2 false k i b d m s
/-- ld.i16. -/
def execLdI16 (k : BitVec 3) (i : BitVec 7) (b : BitVec 6) (d : BitVec 7) (m : MemMod) (s : State) : Res := load 2 true k i b d m s
/-- ld.32. -/
def execLd32 (k : BitVec 3) (i : BitVec 7) (b : BitVec 6) (d : BitVec 7) (m : MemMod) (s : State) : Res := load 4 false k i b d m s
/-- ld.64. -/
def execLd64 (k : BitVec 3) (i : BitVec 7) (b : BitVec 6) (d : BitVec 7) (m : MemMod) (s : State) : Res := load 8 false k i b d m s
/-- ld.128. -/
def execLd128 (k : BitVec 3) (i : BitVec 7) (b : BitVec 6) (d : BitVec 7) (m : MemMod) (s : State) : Res := load 16 false k i b d m s

/-- The data of lane l's element of size bytes: the low bytes of a register, a pair, a group (11 R187). -/
def elemOf (sp : Span) (size d l : Nat) : Nat :=
  if size ≤ 4 then (sp.vr d l).toNat % 256 ^ size
  else if size = 8 then (sp.pair d l).toNat else (sp.group d l).toNat

/-- A store of size bytes per lane. -/
def store (size : Nat) (i : BitVec 7) (b : BitVec 6) (d : BitVec 7) (m : MemMod) (s : State) : Res :=
  let addr := s.laneAddr b i m.off
  State.finish (s.doStore s.lanes m size addr 0 (fun _ => elemOf s.span size d.toNat)) addr

/-- st.8. -/
def execSt8 (i : BitVec 7) (b : BitVec 6) (d : BitVec 7) (m : MemMod) (s : State) : Res := store 1 i b d m s
/-- st.16. -/
def execSt16 (i : BitVec 7) (b : BitVec 6) (d : BitVec 7) (m : MemMod) (s : State) : Res := store 2 i b d m s
/-- st.32. -/
def execSt32 (i : BitVec 7) (b : BitVec 6) (d : BitVec 7) (m : MemMod) (s : State) : Res := store 4 i b d m s
/-- st.64. -/
def execSt64 (i : BitVec 7) (b : BitVec 6) (d : BitVec 7) (m : MemMod) (s : State) : Res := store 8 i b d m s
/-- st.128. -/
def execSt128 (i : BitVec 7) (b : BitVec 6) (d : BitVec 7) (m : MemMod) (s : State) : Res := store 16 i b d m s

/-! ## Scalar loads and stores (11 R192) -/

/-- The address of a scalar access. -/
def scalarAddr (b : BitVec 6) (m : MemMod) (s : State) : Dword := s.span.sr b + m.off.signExtend 64
/-- One access of the issue set, made for its lowest lane. -/
def oneLane (s : State) : Lanes := BitVec.twoPow 32 s.lowLane

/-- sld.64. A fault is raised on every lane. -/
def execSld64 (k : BitVec 3) (b d : BitVec 6) (m : MemMod) (s : State) : Res :=
  let a := scalarAddr b m s
  let r := s.doLoad (oneLane s) m 8 (fun _ => a)
  if s.counterFull k then .next s
  else if r.1.waits ≠ [] then .next (State.memWaits k.toNat r.1 r.2)
  else if r.1.bad ≠ [] then .next (r.1.s.memOver.raise s.lanes (State.faultCode r.1.bad s.lowLane)
    (fun _ => State.laneAt' r.1 (fun _ => a) s.lowLane))
  else r.1.s.memOver.counted k s.lanes (sR d) (r.1.vals.map (fun v => .s d.toNat (BitVec.ofNat 64 v.2)))

/-- sst.64: of an s[sa] read at issue. -/
def execSst64 (b a : BitVec 6) (m : MemMod) (s : State) : Res :=
  let x := scalarAddr b m s
  let r := s.doStore (oneLane s) m 8 (fun _ => x) (s.span.sr a) (fun v _ => v.toNat)
  if r.1.waits ≠ [] then .next (State.memWaits 7 r.1 r.2)
  else if r.1.bad ≠ [] then .next (r.1.s.memOver.raise s.lanes (State.faultCode r.1.bad s.lowLane)
    (fun _ => State.laneAt' r.1 (fun _ => x) s.lowLane))
  else done r.1.s.memOver

/-! ## Tile loads and stores (11 R193) -/

/-- The elements that the active lanes name: lane, row, column. -/
def laneElems (sp : Span) (c : Coord) (S : Lanes) : List (Nat × Nat × Nat) := (lanesOf S).map (fun l => (l, c.row sp l, c.col sp l))
/-- Lane l's element among them. -/
def elemOfLane (els : List (Nat × Nat × Nat)) (l : Nat) : Nat × Nat := ((els.find? (fun x => x.1 == l)).map Prod.snd).getD (0, 0)
/-- Does lane l's element lie outside the handle, or differ in width (09 R154, 11 R193). -/
def elemBad (e : BitVec 128) (size : Nat) (els : List (Nat × Nat × Nat)) (l : Nat) : Bool :=
  eWidth e != size || decide (eRows e ≤ (elemOfLane els l).1) || decide (eCols e ≤ (elemOfLane els l).2)
/-- The byte offset of lane l's element. -/
def elemOff (e : BitVec 128) (els : List (Nat × Nat × Nat)) (l : Nat) : Nat := eOff e (elemOfLane els l).1 (elemOfLane els l).2

/-- ldt of size bytes: each lane is served when its granule may be read; with .wf and .wfc that is when it is full. A lane that is
served has its element, whatever becomes of the others (18 R317); the lanes that fault do so together at the end. -/
def ldt (size : Nat) (k p : BitVec 3) (h : BitVec 6) (d : BitVec 7) (m : MemMod) (c : Coord) (s : State) : Res :=
  let sp := s.span
  let t := s.tileProg (s.tileStart (s.active p) 0 (laneElems sp c (s.active p)) [] (vN (size / 4) d) k.toNat)
  let S := t.active
  if k ≠ 7#3 ∧ 63 ≤ sp.kc k.toNat ∧ !s.tileBegun then .next s
  else if S = 0 then done s
  else
    match s.tileRef s.focus.g h.toNat m.ref with
    | .bad => .next (s.tileOver.raiseL (S &&& ~~~t.served) (fun l => if laneIn (State.failsOf t) l then Store.get 0 t.failed l else 0x07) (fun _ => 0))
    | .wait => .next (s.tileWaits { t with on := s.handleWait m.ref h.toNat, lanes := S &&& ~~~t.served &&& ~~~(State.failsOf t), grans := [] })
    | .ok place e =>
      let bad := S &&& lanesWhere (elemBad e size t.elems)
      let gr (l : Nat) : Nat := elemOff e t.elems l / 16
      let left := S &&& ~~~bad &&& ~~~t.served &&& ~~~(State.failsOf t)
      if s.tileBusy ((lanesOf left).map (fun l => (place, gr l))) then .next s
      else
        let ready := left &&& lanesWhere (fun l => m.fe == 0#2 || (s.gran place (gr l)).full)
        let pois := ready &&& lanesWhere (fun l => (s.gran place (gr l)).poison)
        let ok := ready &&& ~~~pois
        let rest := left &&& ~~~ready
        let s1 := (lanesOf pois).foldl (fun a l => a.logGran place (gr l)) s
        let ws := (lanesOf ok).flatMap (fun l => State.elemWrites size d.toNat l (s.placeBytes place (elemOff e t.elems l) size))
        let s2 := if m.fe = 2#2 then (lanesOf ok).foldl (fun a l => a.setFull place false (gr l)) s1 else s1
        let s2 := if m.fe = 0#2 ∨ ok = 0 then s2 else s2.tileHear place
        let failed := (lanesOf (bad ||| pois)).foldl (fun f l => Store.set 0 f l (if laneIn bad l then 0x07#8 else 0x09)) t.failed
        if rest ≠ 0 then
          .next ((s2.writeRegs s.focus.g s.focus.sp ws).tileWaits
            { t with on := .granule place (gr (State.lowest rest)), lanes := rest, served := t.served ||| ok, failed := failed
                     grans := (lanesOf rest).map (fun l => (place, gr l)) })
        else
          let s2 := s2.tileOver
          let s3 := if t.served ||| ok = 0 then s2
            else if k = 7#3 then s2.writeRegs s.focus.g s.focus.sp ws
            else s2.addPend k (t.served ||| ok) (vN (size / 4) d) ws
          .next (s3.raiseL (bad ||| pois ||| State.failsOf t) (fun l => Store.get 0 failed l) (fun _ => 0))

/-- ldt.32. -/
def execLdt32 (k p : BitVec 3) (h : BitVec 6) (d : BitVec 7) (m : MemMod) (c : Coord) (s : State) : Res := ldt 4 k p h d m c s
/-- ldt.64. -/
def execLdt64 (k p : BitVec 3) (h : BitVec 6) (d : BitVec 7) (m : MemMod) (c : Coord) (s : State) : Res := ldt 8 k p h d m c s
/-- ldt.128. -/
def execLdt128 (k p : BitVec 3) (h : BitVec 6) (d : BitVec 7) (m : MemMod) (c : Coord) (s : State) : Res := ldt 16 k p h d m c s

/-- stt of size bytes: each granule is written and becomes full; with .we each is written as soon as it is empty. At one element
the highest lane stands. A granule is written when the data of all the lanes that write it pass their carriage checks (11 R188). -/
def stt (size : Nat) (p : BitVec 3) (h : BitVec 6) (d : BitVec 7) (m : MemMod) (c : Coord) (s : State) : Res :=
  let sp := s.span
  let t := s.tileProg (s.tileStart (s.active p) 0 (laneElems sp c (s.active p))
    ((lanesOf (s.active p)).map (fun l => (l, elemOf sp size d.toNat l))) [] 7)
  let S := t.active
  if S = 0 then done s
  else
    match s.tileRef s.focus.g h.toNat m.ref with
    | .bad => .next (s.tileOver.raiseL (S &&& ~~~t.served) (fun l => if laneIn (State.failsOf t) l then Store.get 0 t.failed l else 0x07) (fun _ => 0))
    | .wait => .next (s.tileWaits { t with on := s.handleWait m.ref h.toNat, lanes := S &&& ~~~t.served &&& ~~~(State.failsOf t), grans := [] })
    | .ok place e =>
      let bad := S &&& lanesWhere (elemBad e size t.elems)
      let gr (l : Nat) : Nat := elemOff e t.elems l / 16
      let left := S &&& ~~~bad &&& ~~~t.served &&& ~~~(State.failsOf t)
      let bytesOf (l : Nat) : List (Nat × Byte) :=
        (List.range size).map (fun j => (elemOff e t.elems l + j,
          BitVec.ofNat 8 ((((t.vals.find? (fun v => v.1 == l)).map Prod.snd).getD 0) / 256 ^ j)))
      let gs := byGranule ((lanesOf left).flatMap bytesOf)
      if s.tileBusy (gs.map (fun g => (place, g.1))) then .next s
      else
        let naming (xs : List (Nat × BitVec 16 × BitVec 128)) : Lanes := left &&& lanesWhere (fun l => xs.any (fun g => g.1 == gr l))
        let free (g : Nat × BitVec 16 × BitVec 128) : Bool := m.fe == 0#2 || !(s.gran place g.1).full
        let hit := naming (gs.filter free) &&& s.carriage
        let struck (g : Nat × BitVec 16 × BitVec 128) : Bool := (lanesOf hit).any (fun l => gr l == g.1)
        let pois := naming (gs.filter (fun g => free g && !struck g && s.granRefuses place g.1 g.2.1))
        let ws := gs.filter (fun g => free g && !struck g && !s.granRefuses place g.1 g.2.1)
        let rest := naming (gs.filter (fun g => !free g))
        let fails := naming (gs.filter (fun g => free g && struck g)) ||| pois
        let s1 := (lanesOf fails).foldl (fun a l => a.logHere (a.granName place (gr l)) 9 (if laneIn pois l then 1 else 0)) s
        let s2 := s1.tellGrans place ws
        let failed := (lanesOf (bad ||| fails)).foldl (fun f l => Store.set 0 f l (if laneIn bad l then 0x07#8 else 0x09)) t.failed
        if rest ≠ 0 then
          .next (s2.tileWaits { t with on := .granule place (gr (State.lowest rest)), lanes := rest, served := t.served ||| naming ws,
                                       failed := failed, grans := (lanesOf rest).map (fun l => (place, gr l)) })
        else .next (s2.tileOver.raiseL (bad ||| fails ||| State.failsOf t) (fun l => Store.get 0 failed l) (fun _ => 0))

/-- stt.32. -/
def execStt32 (p : BitVec 3) (h : BitVec 6) (d : BitVec 7) (m : MemMod) (c : Coord) (s : State) : Res := stt 4 p h d m c s
/-- stt.64. -/
def execStt64 (p : BitVec 3) (h : BitVec 6) (d : BitVec 7) (m : MemMod) (c : Coord) (s : State) : Res := stt 8 p h d m c s
/-- stt.128. -/
def execStt128 (p : BitVec 3) (h : BitVec 6) (d : BitVec 7) (m : MemMod) (c : Coord) (s : State) : Res := stt 16 p h d m c s

/-! ## Atomics (11 R195, R196) -/

/-- The request of lane l: the operand is a register or pair; a cas takes compare and new value from the register, or
pair, and the next one. -/
def amoReq (op : AmoOp) (sp : Span) (d l off : Nat) : AmoReq :=
  match op with
  | .cas32 => ⟨op, off, (sp.vr (d + 1) l).setWidth 64, (sp.vr d l).setWidth 64⟩
  | .cas64 => ⟨op, off, sp.pair (d + 2) l, sp.pair d l⟩
  | _ => ⟨op, off, if State.amoSize op = 8 then sp.pair d l else (sp.vr d l).setWidth 64, 0⟩

/-- A value-returning atomic. -/
def amo (op : AmoOp) (k : BitVec 3) (i : BitVec 7) (b : BitVec 6) (d : BitVec 7) (m : MemMod) (s : State) : Res :=
  let addr := s.laneAddr b i m.off
  let n := State.amoSize op
  if s.counterFull k then .next s
  else State.finishCounted (s.doAmo s.lanes m false n addr (amoReq op s.span d.toNat)) addr k (vN (n / 4) d) (State.elemWrites n d.toNat)

/-- amo.add.i32. -/
def execAmoAddI32 (k : BitVec 3) (i : BitVec 7) (b : BitVec 6) (d : BitVec 7) (m : MemMod) (s : State) : Res := amo .add32 k i b d m s
/-- amo.add.i64. -/
def execAmoAddI64 (k : BitVec 3) (i : BitVec 7) (b : BitVec 6) (d : BitVec 7) (m : MemMod) (s : State) : Res := amo .add64 k i b d m s
/-- amo.min.i32. -/
def execAmoMinI32 (k : BitVec 3) (i : BitVec 7) (b : BitVec 6) (d : BitVec 7) (m : MemMod) (s : State) : Res := amo .min32 k i b d m s
/-- amo.min.n32. -/
def execAmoMinN32 (k : BitVec 3) (i : BitVec 7) (b : BitVec 6) (d : BitVec 7) (m : MemMod) (s : State) : Res := amo .minn32 k i b d m s
/-- amo.min.i64. -/
def execAmoMinI64 (k : BitVec 3) (i : BitVec 7) (b : BitVec 6) (d : BitVec 7) (m : MemMod) (s : State) : Res := amo .min64 k i b d m s
/-- amo.max.i32. -/
def execAmoMaxI32 (k : BitVec 3) (i : BitVec 7) (b : BitVec 6) (d : BitVec 7) (m : MemMod) (s : State) : Res := amo .max32 k i b d m s
/-- amo.max.n32. -/
def execAmoMaxN32 (k : BitVec 3) (i : BitVec 7) (b : BitVec 6) (d : BitVec 7) (m : MemMod) (s : State) : Res := amo .maxn32 k i b d m s
/-- amo.max.i64. -/
def execAmoMaxI64 (k : BitVec 3) (i : BitVec 7) (b : BitVec 6) (d : BitVec 7) (m : MemMod) (s : State) : Res := amo .max64 k i b d m s
/-- amo.and. -/
def execAmoAnd (k : BitVec 3) (i : BitVec 7) (b : BitVec 6) (d : BitVec 7) (m : MemMod) (s : State) : Res := amo .and32 k i b d m s
/-- amo.or. -/
def execAmoOr (k : BitVec 3) (i : BitVec 7) (b : BitVec 6) (d : BitVec 7) (m : MemMod) (s : State) : Res := amo .or32 k i b d m s
/-- amo.xor. -/
def execAmoXor (k : BitVec 3) (i : BitVec 7) (b : BitVec 6) (d : BitVec 7) (m : MemMod) (s : State) : Res := amo .xor32 k i b d m s
/-- amo.swap. -/
def execAmoSwap (k : BitVec 3) (i : BitVec 7) (b : BitVec 6) (d : BitVec 7) (m : MemMod) (s : State) : Res := amo .swap32 k i b d m s
/-- amo.cas.32. -/
def execAmoCas32 (k : BitVec 3) (i : BitVec 7) (b : BitVec 6) (d : BitVec 7) (m : MemMod) (s : State) : Res := amo .cas32 k i b d m s
/-- amo.cas.64. -/
def execAmoCas64 (k : BitVec 3) (i : BitVec 7) (b : BitVec 6) (d : BitVec 7) (m : MemMod) (s : State) : Res := amo .cas64 k i b d m s

/-- What an amo.fadd.f32 leaves besides its results when it has been performed (11 R196): the launch's T bit in its status word, and
a record of each physical line of this device, from its home slice; that of another device's line is that device's. -/
def faddMarks (s : State) (a : State.Acc' × State.Phys) : State.Acc' × State.Phys :=
  if a.1.vals = [] ∨ a.1.waits ≠ [] then a
  else
    let ps := a.2.filter (fun p => a.1.vals.any (fun v => v.1 == p.1))
    let s1 := (a.1.s.updLaunch s.here.launchKey (fun l => { l with timing := true })).putStatus s.here.launchKey
    ({ a.1 with s := ((State.linesOf ps).filter (fun n => !isPod n)).foldl (fun x n =>
        x.emitHome 0x4A 0x07 n (some s.here.paddock) s.span.lastStop true (BitVec.ofNat 64 s.here.core) (s.coreStamp s.here.core)) s1 }, a.2)

/-- amo.fadd.f32. -/
def execAmoFaddF32 (k : BitVec 3) (i : BitVec 7) (b : BitVec 6) (d : BitVec 7) (m : MemMod) (s : State) : Res :=
  let addr := s.laneAddr b i m.off
  if s.counterFull k then .next s
  else State.finishCounted (faddMarks s (s.doAmo s.lanes m false 4 addr (amoReq .fadd32 s.span d.toNat))) addr k (vN 1 d)
    (State.elemWrites 4 d.toNat)

/-! ## Reductions (11 R197) -/

/-- A non-returning reduction. -/
def red (op : AmoOp) (i : BitVec 7) (b : BitVec 6) (d : BitVec 7) (m : MemMod) (s : State) : Res :=
  let addr := s.laneAddr b i m.off
  State.finish (s.doAmo s.lanes m true (State.amoSize op) addr (amoReq op s.span d.toNat)) addr

/-- red.add.i32. -/
def execRedAddI32 (i : BitVec 7) (b : BitVec 6) (d : BitVec 7) (m : MemMod) (s : State) : Res := red .add32 i b d m s
/-- red.add.i64. -/
def execRedAddI64 (i : BitVec 7) (b : BitVec 6) (d : BitVec 7) (m : MemMod) (s : State) : Res := red .add64 i b d m s
/-- red.min. -/
def execRedMin (i : BitVec 7) (b : BitVec 6) (d : BitVec 7) (m : MemMod) (s : State) : Res := red .min32 i b d m s
/-- red.max. -/
def execRedMax (i : BitVec 7) (b : BitVec 6) (d : BitVec 7) (m : MemMod) (s : State) : Res := red .max32 i b d m s
/-- red.and. -/
def execRedAnd (i : BitVec 7) (b : BitVec 6) (d : BitVec 7) (m : MemMod) (s : State) : Res := red .and32 i b d m s
/-- red.or. -/
def execRedOr (i : BitVec 7) (b : BitVec 6) (d : BitVec 7) (m : MemMod) (s : State) : Res := red .or32 i b d m s
/-- red.xor. -/
def execRedXor (i : BitVec 7) (b : BitVec 6) (d : BitVec 7) (m : MemMod) (s : State) : Res := red .xor32 i b d m s

/-! ## Drift reductions (11 R198) -/

/-- A drift reduction under an operator, with the modulus read at issue (0 but for modadd). -/
def dred (op : BitVec 3) (q : Dword) (val : Nat → Dword) (i : BitVec 7) (b : BitVec 6) (m : MemMod) (s : State) : Res :=
  let addr := s.laneAddr b i m.off
  State.finish (s.doDred s.lanes op q addr val) addr
/-- A register as a contribution. -/
def dredW (d : BitVec 7) (s : State) (l : Nat) : Dword := (s.span.vr d.toNat l).setWidth 64
/-- A pair as a contribution. -/
def dredP (d : BitVec 7) (s : State) (l : Nat) : Dword := s.span.pair d.toNat l

/-- dred.add.i64. -/
def execDredAddI64 (i : BitVec 7) (b : BitVec 6) (d : BitVec 7) (m : MemMod) (s : State) : Res := dred 0 0 (dredP d s) i b m s
/-- dred.fadd.f32. -/
def execDredFaddF32 (i : BitVec 7) (b : BitVec 6) (d : BitVec 7) (m : MemMod) (s : State) : Res := dred 1 0 (dredW d s) i b m s
/-- dred.fadd.b8: the code decoded exactly, NaN for a format code that is no binary8 format. -/
def execDredFaddB8 (i : BitVec 7) (b : BitVec 6) (d : BitVec 7) (m : MemMod) (s : State) : Res :=
  dred 2 0 (fun l =>
    let x := s.span.vr d.toNat l
    let f : BitVec 6 := x.extractLsb' 8 6
    (toF32 (if fmtB8 f.toNat then b8Value f (x.extractLsb' 0 8) else .nan)).setWidth 64) i b m s
/-- dred.modadd: under the modulus read at issue; code 02 while %mq is 0 (05 R79). -/
def execDredModadd (i : BitVec 7) (b : BitVec 6) (d : BitVec 7) (m : MemMod) (s : State) : Res :=
  if s.span.mq = 0 ∧ s.memProg.isNone then fault 0x02 0 s else dred 3 s.span.mq (dredP d s) i b m s
/-- dred.min.f32. -/
def execDredMinF32 (i : BitVec 7) (b : BitVec 6) (d : BitVec 7) (m : MemMod) (s : State) : Res := dred 4 0 (dredW d s) i b m s
/-- dred.max.f32. -/
def execDredMaxF32 (i : BitVec 7) (b : BitVec 6) (d : BitVec 7) (m : MemMod) (s : State) : Res := dred 5 0 (dredW d s) i b m s
/-- dred.or. -/
def execDredOr (i : BitVec 7) (b : BitVec 6) (d : BitVec 7) (m : MemMod) (s : State) : Res := dred 6 0 (dredW d s) i b m s

/-! ## Fences and cache operations (11 R199-R203) -/

/-- fence (11 R199). Every access of the model takes effect at its step (log 6), so a fence orders nothing more; an sc
fence of device scope or wider takes its stamp. -/
def execFence (m : MemMod) (s : State) : Res :=
  if !State.stamped m then done s
  else if decide (4 ≤ m.scope.toNat) && !s.ptpEver then .next s
  else
    match s.scStamp s.here.core none with
    | some s' => done s'
    | none => .next s

/-- fence.ro: the core's read-only copies are discarded (11 R200). -/
def execFenceRo (_m : MemMod) (s : State) : Res := done { s with ro := s.ro.filter (fun c => c.core != s.here.core) }

/-- The cache operations of 11 R201 that act on lines held. -/
inductive CacheOp where
  | flush | inv | discard
  deriving DecidableEq, Repr

namespace State

/-- Write dirty data of a line back to its home; its copies stay valid and clean (11 R201): the copy of the core own, or any core's. -/
def cleanLine (s : State) (line : Nat) (own : Option Nat) : State :=
  let d := s.dirAt line
  match s.ownerOf line with
  | some (o, c) =>
    if own.any (fun n => n != o) then s
    else if c.state = .M then (((s.setMemLine line c.data).soil line).setCache o line { c with state := .E }).count o 26 1
    else if c.state = .O then
      ((((s.setMemLine line c.data).soil line).setCache o line { c with state := .S }).setDir line
        (addParty { d with state := .S, owner := 0 } (BitVec.ofNat 13 o))).count o 26 1
    else s
  | none => s

/-- Read-only copies of a line go, a core's or every core's (11 R201). -/
def dropRo (s : State) (line : Nat) (own : Option Nat) : State :=
  { s with ro := s.ro.filter (fun x => x.line != line || own.any (fun n => x.core != n)) }

/-- Take the copies of a line that the scope chooses away without writing them back (11 R201, R203): the core own's, or every core's of this
device, for which its proxy gives a pod line up. Agents keep theirs. -/
def dropLine (s : State) (line : Nat) (own : Option Nat) : State :=
  let d := s.dirAt line
  let s0 := s.dropRo line own
  match own with
  | some core =>
    let s1 := s0.setCache core line CacheLine.none
    if owns (s.cacheAt core line) then
      (if d.state = .O then s1.setDir line { d with state := .S, owner := 0 } else s1.freeDir line .I)
    else s1
  | none =>
    let theirs := decide (d.state = .X ∨ d.state = .O) && isAgent d.owner
    let s1 := (s0.dropCopies line)
    let s2 := if theirs then s1.setDir line { d with ptrs := d.ptrs.filter isAgent }
      else if DirEntry.agents d = [] then s1.freeDir line .I
      else s1.setDir line { d with state := .S, owner := 0, ptrs := d.ptrs.filter isAgent }
    let c := s.proxyAt line
    match c.state with
    | .S => s2.setProxy line CacheLine.none
    | .E | .M | .O => (s2.setProxy line { c with state := .EI }).toPod (s.podHome line) line .putE
    | .D => (s2.setProxy line CacheLine.none).toPod (s.podHome line) line (.drPart c.tag [] 0)
    | _ => s2

/-- Is the line dirty: some cache holds it dirty or in drift (11 R203). Whether an agent or a peer that holds the line alone has changed
it, only that party knows (log 22). -/
def dirtyLine (s : State) (line : Nat) : Bool :=
  let d := s.dirAt line
  let q := s.podAt line
  let theirs := Config.outside s.steps % 2 == 1
  (s.copiesOf line).any (fun e => [CacheState.M, .O, .D, .OM, .MI].contains e.2.state) || d.state == .D ||
    [CacheState.M, .O, .D, .OM, .MI].contains (s.proxyAt line).state || (isAgent d.owner && (d.state == .O || (d.state == .X && theirs))) ||
    q.state == .O || q.state == .D || (q.state == .X && theirs)

/-- Is no transaction of the line under way at its home slice or in a core of this device. -/
def settled (s : State) (line : Nat) : Bool :=
  let d := s.dirAt line
  !d.state.busy && d.queue.isEmpty && d.held.isEmpty && s.msgs.all (fun m => m.1.line != line || m.1.pod) &&
    (s.copiesOf line).all (fun e => !e.2.state.moving)
/-- Is a transaction of the line under way at its home or in the core's L1. -/
def inFlight (s : State) (core line : Nat) : Bool :=
  (s.dirAt line).state.busy || (s.cacheAt core line).state.moving || s.msgs.any (fun m => m.1.line == line)

/-- Do parties outside this device's cores hold the line's only current data. -/
def heldOutside (s : State) (line : Nat) : Bool :=
  let d := s.dirAt line
  (decide (d.state = .X ∨ d.state = .O) && isAgent d.owner) || (d.state == .D && !(DirEntry.agents d).isEmpty) ||
    [HomeState.X, .O, .D].contains (s.podAt line).state
/-- The line is taken back from every party of this device and the pod, a drift line by its merge (13 R239, R243); with drop what comes
back is written nowhere (11 R203). -/
def bringBack (s : State) (line : Nat) (drop : Bool) : State :=
  let put (a : State) : State := if drop then (if (a.podAt line).state = .I then a else a.setPod line { a.podAt line with drop := true }) else a
  let s1 := put (if drop then s.setDir line { s.dirAt line with drop := true } else s)
  let s2 := s1.takeIn line
  if [HomeState.X, .O, .D].contains (s2.podAt line).state then s2.podAsk line .home else s2

/-- cflush and cinv of a pod line at a scope that reaches L2 (11 R201, 13 R244): data that must reach the exporting device, and partials,
leave with the proxy, and the line is then fetched again, a drift line by its merge at the pod home. none: it waits. -/
def cachePod (m : MemMod) (k : CacheOp) (s : State) (line : Nat) : State × Bool :=
  let s1 := if (s.proxyAt line).state = .D then s else s.cleanLine line none
  let st := (s1.proxyAt line).state
  if st = .D ∨ (decide (4 ≤ m.scope.toNat) && k == .flush && (st == .M || st == .O)) then (s1.leaveProxy line 0, true)
  else (s1, false)

/-- A cache operation on one line of the lanes. At scopes up to pen it acts on the core's own copy, which must not be in flight, at
wider ones, and on a drift line (13 R244), on every cache of this device. A dirty line of a page without D is code 0B to its lane of
cinv.discard, tested as the line is performed (11 R203). A line that is being brought back, or fetched again, is marked in the
instruction's list of requests, with number 0. -/
def cacheOp (m : MemMod) (k : CacheOp) (addr : Nat → Dword) (ps : Phys) (a : Acc') (line : Nat) : Acc' :=
  let mine := ps.filter (fun p => p.2.1.pa / 128 == line)
  let s := a.s
  let core := s.here.core
  let narrow : Bool := decide (m.scope.toNat ≤ 2) && !s.inDrift line
  let wait (b : Acc') (x : State) : Acc' := { b with s := x, waits := b.waits ++ [line] }
  let mark (b : Acc') (x : State) : Acc' := { (answerTaken b line) with
    s := x, waits := b.waits ++ [line], sent := (answerTaken b line).sent ++ [⟨line, 0, none⟩] }
  let complete (b : Acc') (x : State) : Acc' := { (answerTaken b line) with s := if k = .flush then x else x.dropRo line (if narrow then some core else none) }
  let c := (s.proxyAt line).state
  let leaving (x : State) : Bool := [CacheState.S, .E, .M, .O, .D].contains (x.proxyAt line).state
  match mine with
  | [] => a
  | p :: _ =>
    if (s.dirAt line).state = .P ∨ s.podFailed line then lineFails (answerTaken a line) addr line (mine.map (·.1))
    else if (sentFor a line).isSome then
      if isPod line then
        if !c.readable then wait a (s.podAsk line .read)
        else if k = .flush then complete a s
        else
          let x := s.leaveProxy line 0
          if leaving x then wait a x else complete a x
      else if (s.dirAt line).state.busy ∨ (s.podAt line).state.busy then wait a s
      else complete a s
    else if narrow && decide ((s.cacheAt core line).state ≠ .I) && s.inFlight core line then wait a s
    else if !narrow && s.unreachable p.2.1.pa then lineError a addr line (mine.map (·.1)) 9 (downKind p.2.1.pa)
    else if !narrow && !s.settled line then wait a s
    else if k = .discard then
      let bad := if s.dirtyLine line then mine.filter (fun q => !q.2.1.d) else []
      let b : Acc' := { a with bad := a.bad ++ bad.map (fun q => (q.1, 0x0B#8)) }
      if bad.length = mine.length then b
      else if narrow then complete b (s.dropLine line (some core))
      else if !isPod line && s.heldOutside line then
        let x := s.bringBack line true
        if (x.dirAt line).state.busy ∨ (x.podAt line).state.busy then mark b x else complete b x
      else complete b (traceDrift s (s.dropLine line none) line core (some s.here.paddock) s.span.lastStop)
    else if narrow then
      let x := s.cleanLine line (some core)
      complete a (if k = .inv then x.dropLine line (some core) else x)
    else if isPod line then
      match cachePod m k s line with
      | (x, true) => if [CacheState.M, .O, .D].contains (x.proxyAt line).state then wait a x else mark a x
      | (x, false) =>
        if k = .flush then complete a x
        else
          let y := x.leaveProxy line 0
          if leaving y then wait a y else complete a y
    else if s.inDrift line then
      let x := if (s.dirAt line).state = .D ∧ DirEntry.agents (s.dirAt line) = [] ∧ (s.podAt line).state ≠ .D
        then s.mergeHome line (some s.here.paddock) else s.bringBack line false
      if (x.dirAt line).state.busy ∨ (x.podAt line).state.busy then mark a x
      else if (x.dirAt line).state = .P then lineFails { a with s := x } addr line (mine.map (·.1))
      else complete a (traceDrift s x line core (some s.here.paddock) s.span.lastStop)
    else
      let x := s.cleanLine line none
      complete a (if k = .inv then x.dropLine line none else x)

/-- The lines of the lanes of S, checked (11 R201, R186), and an operation on each. Nothing caches memory of another pod. -/
def doCache (s : State) (m : MemMod) (k : CacheOp) (addr : Nat → Dword) : Acc' × Phys :=
  let at' := s.addrOr addr
  match s.memProg with
  | some w => (w.left.foldl (cacheOp m k at' w.phys) ⟨s, w.bad, w.vals, [], w.arg, w.addrs, w.sent⟩, w.phys)
  | none =>
    let (s1, ts) := s.checkLanes s.lanes addr 1 1 .read (k == .discard)
    let mine := (lanesOf s.lanes).map (fun l => (l, addr l))
    if walkWaits ts then (⟨s1, [], [], [noLine], 0, mine, []⟩, [])
    else
      let ps := physLanes ts
      let s2 := ((badLanes ts).filter (fun x => x.2 == 0x0A#8)).foldl (fun a x => a.errFar (addr x.1) 1) s1
      let s3 := (failLanes ts).foldl (fun a f => a.errLine (addr f.1) f.2.2 (errCode f.2.2) f.2.1) s2
      ((linesOf ps).foldl (cacheOp m k addr ps) ⟨s3, badLanes ts ++ (failLanes ts).map (fun f => (f.1, BitVec.ofNat 8 (errCode f.2.2))),
        [], [], 0, mine, []⟩, ps)

end State

/-- cflush (11 R201). -/
def execCflush (i : BitVec 7) (b : BitVec 6) (m : MemMod) (s : State) : Res :=
  let addr := s.laneAddr b i m.off
  State.finish (s.doCache m .flush addr) addr
/-- cinv: dirty data are written back, then the copies go (11 R201); an L2 slice's copy of a pod line goes back to its device. -/
def execCinv (i : BitVec 7) (b : BitVec 6) (m : MemMod) (s : State) : Res :=
  let addr := s.laneAddr b i m.off
  State.finish (s.doCache m .inv addr) addr
/-- cinv.discard: a dirty line of a page without D is code 0B (11 R203). -/
def execCinvDiscard (i : BitVec 7) (b : BitVec 6) (m : MemMod) (s : State) : Res :=
  let addr := s.laneAddr b i m.off
  State.finish (s.doCache m .discard addr) addr

/-- One lane of pref: a line that the core does not hold is asked of its home (11 R201, R202; 13 R240 GetS), with .l2only a pod line
of the pod. A lane that would fault, or must wait for a walk, does nothing. -/
def prefLane (m : MemMod) (addr : Nat → Dword) (s : State) (l : Nat) : State :=
  let core := s.here.core
  match s.checkAddr core s.here.paddock s.asid (addr l) 1 1 .read s.privileged false with
  | (s', .ok (.phys x _)) =>
    let line := x.pa / 128
    if s'.unreachable x.pa ∨ (s'.dirAt line).state = .P then s
    else if m.hint = 3#3 then
      (if isPod line && decide ((s'.proxyAt line).state = .I) && !s'.podOk line .read then s'.podAsk line .read else s')
    else if (s'.cacheAt core line).state ≠ .I ∨ s'.l1Full core ∨ s'.sentOut core line then s'
    else (s'.setCache core line { CacheLine.none with state := .IS, tags := State.tagsFor s.asid (addr l) x }).toHome core line .getS
  | _ => s

/-- pref: it never faults (11 R202). -/
def execPref (i : BitVec 7) (b : BitVec 6) (m : MemMod) (s : State) : Res :=
  done ((lanesOf s.lanes).foldl (prefLane m (s.laneAddr b i m.off)) s)

end Sys2Proof.Machine
end

