-- ==== Sys2Proof/Machine/Resources.lean ====
section
/-!
DEFINITION. Machine/Resources.lean: what a core, a park area and a level-2 pool hold, and what launches and their
workgroups need of them (03 R43-R49, 10 R171-R174, 14 R254-R256).
-/

namespace Sys2Proof.Machine

/-! ## Declarations of a launch record (14 R252) -/

/-- Fields of a declaration word. -/
def dValid (d : Dword) : Bool := d.getLsbD 63
/-- Kind: a chute when set. -/
def dChute (d : Dword) : Bool := d.getLsbD 62
/-- Owning or producing stage. -/
def dFrom (d : Dword) : Nat := bits d 61 59
/-- Consuming stage. -/
def dTo (d : Dword) : Nat := bits d 58 56
/-- Handle. -/
def dHandle (d : Dword) : Nat := bits d 55 50
/-- Level. -/
def dLevel (d : Dword) : Nat := bits d 49 48
/-- Element width in bytes. -/
def dWidth (d : Dword) : Nat := 2 ^ bits d 47 45
/-- Rows, or slots. -/
def dRows (d : Dword) : Nat := bits d 44 33 + 1
/-- Columns. -/
def dCols (d : Dword) : Nat := bits d 32 21 + 1
/-- Bytes of the declared handle or chute (10 R173, 14 R255). -/
def dBytes (d : Dword) : Nat := dRows d * ((dCols d * dWidth d + 15) / 16 * 16)

namespace Launch

/-- The valid declarations. -/
def decls (l : Launch) : List Dword := ((List.range 16).map (fun i => l.decl i)).filter dValid
/-- The tile declarations of a stage. -/
def tiles (l : Launch) (st : Nat) : List Dword := l.decls.filter (fun d => !dChute d && dFrom d == st)
/-- The chute declarations. -/
def chutes (l : Launch) : List Dword := l.decls.filter dChute
/-- Members of a pen. -/
def penSize (l : Launch) : Nat := l.pw * l.ph
/-- Level-0 maximum of a stage in bytes (03 R49): its declarations, or the record's larger figure. -/
def level0 (l : Launch) (st : Nat) : Nat :=
  max (((l.tiles st).filter (fun d => dLevel d == 0)).map dBytes).sum (l.level0Max st)
/-- Bytes of one core's stripe of a handle of n bytes (10 R174). -/
def stripe (l : Launch) (n : Nat) : Nat := (n / 16 + l.penSize - 1) / l.penSize * 16
/-- Stripes of a stage's declared level-1 handles on one core, for one member's declarations. -/
def stripes1 (l : Launch) (st : Nat) : Nat :=
  (((l.tiles st).filter (fun d => dLevel d == 1)).map (fun d => l.stripe (dBytes d))).sum
/-- Pinned lines of a stage's declared level-2 handles, for one member. -/
def lines2 (l : Launch) (st : Nat) : Nat :=
  (((l.tiles st).filter (fun d => dLevel d == 2)).map (fun d => (dBytes d + 127) / 128)).sum
/-- Tile-memory bytes of the chutes on one core (14 R255). -/
def chuteBytes (l : Launch) : Nat := (l.chutes.map dBytes).sum
/-- Bytes of the park image of one stage-workgroup (03 R48). -/
def image (l : Launch) (st : Nat) : Nat :=
  (l.nspans st * 20480 + l.tregs st * 4096 + l.level0 st + (l.level0 st + 127) / 128 + 2048 + 127) / 128 * 128
/-- Grid positions. -/
def grid (l : Launch) : Nat := l.gx * l.gy * l.gz
/-- Bytes of all park images of the launch. -/
def images (l : Launch) : Nat := ((List.range l.stages).map (fun st => l.grid * l.image st)).sum
/-- The core of grid position (wx, wy) (03 R40). -/
def coreFor (l : Launch) (wx wy : Nat) : Nat := l.orgX + wx % l.rectW + 64 * (l.orgY + wy % l.rectH)
/-- The cores of the rectangle. -/
def cores (l : Launch) : List Nat :=
  (List.range l.rectH).flatMap (fun y => (List.range l.rectW).map (fun x => l.orgX + x + 64 * (l.orgY + y)))
/-- Is a core in the rectangle. -/
def covers (l : Launch) (core : Nat) : Bool :=
  decide (l.orgX ≤ core % 64) && decide (core % 64 < l.orgX + l.rectW) && decide (l.orgY ≤ core / 64) &&
    decide (core / 64 < l.orgY + l.rectH)

end Launch

/-- The compute dies that a rectangle covers. -/
def coveredDies (c : PaddockCfg) : Nat :=
  ((c.ox + c.w + 15) / 16 - c.ox / 16) * ((c.oy + c.h + 15) / 16 - c.oy / 16)

namespace State

/-- The cores of a workgroup's pen, in the order of pen offsets (03 R41). -/
def penCores (s : State) (w : Wg) : List Nat :=
  let l := s.launchAt w.launchKey
  let base := w.core - w.wx % l.pw - 64 * (w.wy % l.ph)
  (List.range l.ph).flatMap (fun dy => (List.range l.pw).map (fun dx => base + dx + 64 * dy))

/-- The bound handles of a workgroup at a level, chutes left out. -/
def handlesAt (w : Wg) (level : Nat) : List (BitVec 128) :=
  (w.handle.filter (fun e => eAlloc e.2 && !eChute e.2 && eLevel e.2 == level)).map Prod.snd
/-- Level-0 bytes that a workgroup has bound (15 R270). -/
def level0Used (w : Wg) : Nat := ((handlesAt w 0).map eBytes).sum

/-- Tile memory in use on a core (03 R47): chutes of admitted launches, stripes of level-1 handles, the level-0 maxima of
resident workgroups, of the paddock that runs the core. DESIGN CHOICE (log 78): R47's table names a resident's level-0 handles; here it
counts at its stage's maximum, whatever it has bound. Unsafe. -/
def tileUsed (s : State) (core : Nat) : Nat :=
  let chutes := ((s.launch.filter (fun e => e.2.live && e.2.admitted && (s.pk e.2.paddock).resident && e.2.covers core)).map
    (fun e => e.2.chuteBytes)).sum
  let mine := s.wg.filter (fun e => e.2.res != .none && e.2.res != .ended && (s.pk e.2.paddock).resident)
  let stripes := (mine.map (fun e =>
    if (handlesAt e.2 1).isEmpty || !(s.penCores e.2).contains core then 0
    else ((handlesAt e.2 1).map (fun h => (s.launchAt e.2.launchKey).stripe (eBytes h))).sum)).sum
  let level0 := (mine.map (fun e =>
    if e.2.res == .resident && e.2.core == core then (s.launchAt e.2.launchKey).level0 e.2.stage else 0)).sum
  chutes + stripes + level0
/-- Free tile memory of a core. -/
def tileFree (s : State) (core : Nat) : Nat := Config.tileMemory - s.tileUsed core
/-- Free lines of a paddock's level-2 pool (10 R171). -/
def pool2Free (s : State) (pkn : Nat) : Nat :=
  (s.pk pkn).cfg.l2pool * 32768 - ((s.wg.filter (fun e => e.2.paddock == pkn && e.2.res != .none && e.2.res != .ended)).map
    (fun e => ((handlesAt e.2 2).map (fun h => (eBytes h + 127) / 128)).sum)).sum
/-- How many lines of a paddock's level-2 pool lie on a die, where the handles of the die's cores lie (10 R174): all of them when it covers
one die, else a share that is free (log 79). -/
def poolCap (s : State) (pkn die : Nat) : Nat :=
  let total := (s.pk pkn).cfg.l2pool * 32768
  if coveredDies (s.pk pkn).cfg ≤ 1 then total else Config.poolOfDie pkn die % (total + 1)
/-- Free lines of that share. -/
def pool2FreeOn (s : State) (pkn die : Nat) : Nat :=
  min (s.pool2Free pkn) (s.poolCap pkn die - ((s.wg.filter (fun e => e.2.paddock == pkn && e.2.res != .none && e.2.res != .ended &&
    dieOf e.2.core == die)).map (fun e => ((handlesAt e.2 2).map (fun h => (eBytes h + 127) / 128)).sum)).sum)
/-- Free bytes of a paddock's park area: admitted launches hold the images of all their workgroups (03 R48). -/
def parkFree (s : State) (pkn : Nat) : Nat :=
  (s.pk pkn).cfg.parkArea * 4194304 - ((s.launch.filter (fun e => e.2.live && e.2.admitted && e.2.paddock == pkn)).map
    (fun e => e.2.images)).sum

/-- The resident workgroups of a core. -/
def residents (s : State) (core : Nat) : List (Nat × Wg) :=
  s.wg.filter (fun e => e.2.res == .resident && e.2.core == core && (s.pk e.2.paddock).resident)
/-- Span slots in use on a core (03 R47, R38: a span that has ended holds none). -/
def slotsUsed (s : State) (core : Nat) : Nat :=
  ((s.residents core).map (fun e => (e.2.spanNums.filter (fun n => !e.2.spanEnded n)).length)).sum
/-- Tile registers in use on a core. -/
def tregsUsed (s : State) (core : Nat) : Nat :=
  ((s.residents core).map (fun e => (s.launchAt e.2.launchKey).tregs e.2.stage)).sum
/-- Level-0 tile memory that residents of a core hold. -/
def level0Held (s : State) (core : Nat) : Nat :=
  ((s.residents core).map (fun e => (s.launchAt e.2.launchKey).level0 e.2.stage)).sum

/-- The next value of a place field, free (log 5). -/
def bindPlace (s : State) : BitVec 64 := Config.place s.bindings
/-- The tile-table entry of a declaration or descriptor: place, shape in [63:35], chute, declared, allocated (15 R269). -/
def entryFor (place : BitVec 64) (level width rows cols : Nat) (chute declared : Bool) : BitVec 128 :=
  BitVec.ofNat 128 (place.toNat * 2 ^ 64 + level * 2 ^ 62 + Nat.log2 width * 2 ^ 59 + (rows - 1) * 2 ^ 47 + (cols - 1) * 2 ^ 35 +
    (if chute then 4 else 0) + (if declared then 2 else 0) + 1)

/-- Bind a handle of a workgroup: every granule empty (15 R270). -/
def bindHandle (s : State) (g h : Nat) (e : BitVec 128) : State :=
  { s with bindings := s.bindings + 1 }.updWg g (fun w =>
    { w with handle := Store.set 0 w.handle h e
             granule := w.granule.filter (fun x => x.1 / 16777216 != h) })

end State
end Sys2Proof.Machine
end

