-- ==== Sys2Proof/Machine/System.lean ====
section
/-!
DEFINITION. Machine/System.lean: class 6: the tile, window and rank tables, system registers, user records, invalidation of
translations, traps and their return (15 R268-R278, 16 R298, 17 R314, 18 R321-R327).
-/

namespace Sys2Proof.Machine

/-! ## The tile table (15 R270, R271) -/

/-- Write a status to s[d] and go on. -/
def status (d : BitVec 6) (x : Dword) (s : State) : Res := done (s.updSpan (fun sp => sp.setS d x))

/-- talloc. -/
def execTalloc (d h b : BitVec 6) (s : State) : Res :=
  let x := s.span.sr b
  let w := s.here
  let l := s.launchHere
  let rows := bits x 58 47 + 1
  let cols := bits x 46 35 + 1
  let width := 2 ^ bits x 61 59
  let level := bits x 63 62
  let bytes := rows * ((cols * width + 15) / 16 * 16)
  if bits x 34 0 ≠ 0 ∨ level = 3 ∨ 4 < bits x 61 59 then fault 0x07 0 s
  else if eAlloc (w.entryOf h.toNat) then fault 0x07 0 s
  else if level = 0 ∧ l.level0 w.stage < State.level0Used w + bytes then fault 0x0D 0 s
  else if level = 1 ∧ (s.penCores w).any (fun c => decide (s.tileFree c < l.stripe bytes)) then status d 1 s
  else if level = 2 ∧ s.pool2FreeOn w.paddock (State.dieOf w.core) < (bytes + 127) / 128 then status d 1 s
  else status d 0 (s.bindHandle s.focus.g h.toNat (State.entryFor s.bindPlace level width rows cols false false))

/-- tfree: it waits for the tile instructions of the span's other issue sets; class 4 operations lose their sides (15 R271). -/
def execTfree (h : BitVec 6) (s : State) : Res :=
  let e := s.here.entryOf h.toNat
  if !eAlloc e || eChute e then fault 0x07 0 s
  else if s.span.tileWait.any (fun t => t.own != s.lanes) then .next s
  else done ((s.unbindSides s.focus.g h.toNat).updHere (fun w =>
    { w with handle := Store.set 0 w.handle h.toNat 0
             granule := w.granule.filter (fun x => x.1 / 16777216 != h.toNat) }))

/-- tquery: the descriptor, 0 for a handle that is not bound. -/
def execTquery (d h : BitVec 6) (s : State) : Res :=
  let e := s.here.entryOf h.toNat
  status d (if eAlloc e then e.setWidth 64 else 0) s

/-! ## Windows and ranks (15 R274, R277, R278) -/

/-- The checks of a window's base, and its size and region word, in the order of 15 R277. -/
def winCode (base sr : Dword) : Option Byte :=
  let size := bits sr 47 8 * 256
  if bits sr 63 48 ≠ 0 ∨ bits sr 7 5 ≠ 0 ∨ size = 0 ∨ 2 ^ 36 < size then some 0x02
  else if base.getLsbD 63 ∨ bits base 62 48 ≠ 0 then some 0x04
  else if base.toNat % 256 ≠ 0 then some 0x03
  else none

namespace State

/-- The first free entry of a window table. -/
def freeWindow (p : Paddock) : Option Nat :=
  (List.range Config.windowEntries).find? (fun i => !(Store.get Window.none p.window i).valid)
/-- Enter a window (15 R277): 0 entered, 1 the region is held, 2 the table is full. -/
def enterWindow (s : State) (pkn : Nat) (serial : Word) (region : Nat) (base : Dword) (size : Nat) : State × Nat :=
  if (s.windowOf pkn serial region).isSome then (s, 1)
  else
    match freeWindow (s.pk pkn) with
    | none => (s, 2)
    | some i => (s.updPk pkn (fun p =>
        { p with window := Store.set Window.none p.window i
                   { Window.none with valid := true, serial := serial, region := BitVec.ofNat 5 region, base := base, size := size } }), 0)

end State

/-- winreg. -/
def execWinreg (d a b : BitVec 6) (s : State) : Res :=
  let base := s.span.sr a
  let x := s.span.sr b
  match winCode base x with
  | some c => fault c (if c = 0x02#8 then 0 else base) s
  | none =>
    let r := s.enterWindow s.here.paddock s.here.serial (bits x 4 0) base (bits x 47 8 * 256)
    status d (BitVec.ofNat 64 r.2) r.1

/-- Does a clause wait at a wcwait of a region. -/
def waitsWindow (c : Clause) (n : Nat) : Bool :=
  c.waiting && !c.suspended && (match decode (bits c.hdr 6 4) (c.words.drop (c.pos - 1)) with
    | .ok (.wcwait _ r _) => r.toNat == n
    | _ => false)
/-- The clauses of the issuing launch that wait on a region learn that it has been freed (16 R292). -/
def staleWaits (s : State) (n : Nat) : State :=
  { s with wg := Store.mapVals Wg.none (fun _ w =>
      if w.launchKey = s.here.launchKey then
        { w with span := Store.mapVals Span.fresh (fun _ sp =>
          { sp with clauses := sp.clauses.map (fun c => if waitsWindow c n then { c with stale := some c.pos } else c) }) w.span }
      else w) s.wg }

/-- winfree. A unit is accepted and lands in one step (log 6), so none is in between. -/
def execWinfree (d : BitVec 6) (b : SOp) (s : State) : Res :=
  let n := (s.span.opB b).toNat
  match (if 31 < n then none else s.windowOf s.here.paddock s.here.serial n) with
  | none => status d 1 s
  | some (i, _) => status d 0 ((staleWaits s n).updPk s.here.paddock (fun p => { p with window := Store.set Window.none p.window i Window.none }))

/-- rankq. -/
def execRankq (d a : BitVec 6) (s : State) : Res :=
  let x := s.span.sr a
  let un : Dword := 3#2 ++ 0#62
  if bits x 63 22 ≠ 0 then status d un s
  else
    match s.resolve s.here.core s.here.paddock (bits x 21 0) with
    | (s1, none) => status d un s1
    | (s1, some p) =>
      status d (BitVec.ofNat 2 (s1.scopeOf p) ++ (BitVec.ofNat 12 p.pod ++ (BitVec.ofNat 5 p.group ++ (BitVec.ofNat 5 p.slot ++ 0#40)))) s1

/-! ## System registers (16 R298, 05 R78, R79) -/

/-- The value of a system register for the issuing set; none for a reserved number. -/
def sysReg (s : State) (n : Nat) : Option Dword :=
  let w := s.here
  let l := s.launchHere
  let la := s.span.laneAt s.lowLane
  match n with
  | 0x00 => some (BitVec.ofNat 64 s.lowLane)
  | 0x01 => some (BitVec.ofNat 64 s.focus.sp)
  | 0x02 => some (BitVec.ofNat 64 w.wx)
  | 0x03 => some (BitVec.ofNat 64 w.wy)
  | 0x04 => some (BitVec.ofNat 64 w.wz)
  | 0x05 => some (BitVec.ofNat 64 (State.coreX w.core))
  | 0x06 => some (BitVec.ofNat 64 (State.coreY w.core))
  | 0x07 => some (BitVec.ofNat 64 l.orgX)
  | 0x08 => some (BitVec.ofNat 64 l.orgY)
  | 0x09 => some (BitVec.ofNat 64 l.pw)
  | 0x0A => some (BitVec.ofNat 64 l.ph)
  | 0x0B => some (BitVec.ofNat 64 w.stage)
  | 0x0C => some (BitVec.ofNat 64 w.paddock)
  | 0x10 => some s.cycle
  | 0x11 => some (s.dieTime (State.dieOf w.core) - (s.pk w.paddock).cfg.traceEpoch)
  | 0x20 => some s.span.mq
  | 0x21 => some s.span.mqr
  | 0x30 => some (s.span.tmask.setWidth 64)
  | 0x31 => some (la.tcode.setWidth 64)
  | 0x32 => some la.tpc
  | 0x33 => some la.tvaddr
  | _ => none

/-- sprd: code 02 for a reserved number. -/
def execSprd (d : BitVec 6) (n : BitVec 12) (s : State) : Res :=
  match sysReg s n.toNat with
  | none => fault 0x02 0 s
  | some x => status d x s

/-- The Barrett constant of a modulus (05 R79): ⌊2^(b + 63) / q⌋, b the bit length of q. -/
def barrett (q : Dword) : Dword := BitVec.ofNat 64 (2 ^ (Nat.log2 q.toNat + 1 + 63) / q.toNat)
/-- May a value be a modulus (05 R79). -/
def modulusOk (q : Dword) : Bool := q.getLsbD 0 && decide (3 ≤ q.toNat) && decide (q.toNat < 2 ^ 62)

/-- spwr: %mq with its check, %tpc of every lane in a handler; code 06 for a register that it may not write, 02 for a
reserved number. -/
def execSpwr (a : BitVec 6) (n : BitVec 12) (s : State) : Res :=
  let x := s.span.sr a
  if n = 0x20#12 then
    if modulusOk x then done (s.updSpan (fun sp => { sp with mq := x, mqr := barrett x })) else fault 0x02 0 s
  else if n = 0x32#12 then
    if (s.span.laneAt s.lowLane).level = 0 then fault 0x06 0 s
    else done (s.updSpan (fun sp => sp.updLanes s.lanes (fun _ la => { la with tpc := x })))
  else
    match sysReg s n.toNat with
    | none => fault 0x02 0 s
    | some _ => fault 0x06 0 s

/-- evt (17 R314). -/
def execEvt (a n : BitVec 6) (s : State) : Res :=
  let w := s.here
  done (s.emit (0xC0 + n.toNat) 0x00 w.core (State.dieOf w.core) (some w.paddock) s.span.lastStop false (s.span.sr a)
    (BitVec.ofNat 26 w.lin ++ BitVec.ofNat 3 w.stage ++ BitVec.ofNat 3 s.focus.sp ++ s.lanes) 0)

/-! ## Invalidation of translations (15 R272) -/

namespace State

/-- The L1 copies under a virtual tag for which f holds. -/
def taggedCopies (s : State) (f : L1Tag → Bool) : List (Nat × CacheLine) := s.cache.filter (fun e => e.2.tags.any f)

/-- Drop the translations for which f holds and the L1 lines under tags for which t holds; dirty ones are written back
first, and a fill in flight is not installed. -/
def dropXlat (s : State) (f : TcEntry → Bool) (t : L1Tag → Bool) : State :=
  (s.taggedCopies t).foldl (fun a e =>
    let core := e.1 / 2 ^ 53
    let line := e.1 % 2 ^ 53
    if e.2.state = .IS then a.setCache core line { e.2 with fillDead := true }
    else if a.inFlight core line then a
    else (a.cleanLine line (some core)).dropLine line (some core)) { s with tc := s.tc.filter (fun e => !f e) }

/-- Is a transaction other than a fill under way on an L1 line under such a tag: the invalidation waits for it. -/
def xlatBusy (s : State) (t : L1Tag → Bool) : Bool :=
  (s.taggedCopies t).any (fun e => e.2.state != .IS && s.inFlight (e.1 / 2 ^ 53) (e.1 % 2 ^ 53))

end State

/-- A supervisor instruction: code 06 outside the privileged handler (04 R71). -/
def supervisor (s : State) (f : Res) : Res := if s.privileged then f else fault 0x06 0 s

/-- The drops of a kind of tlbinv. -/
def tlbinv (f : TcEntry → Bool) (t : L1Tag → Bool) (s : State) : Res :=
  supervisor s (if s.xlatBusy t then .next s else done (s.dropXlat f t))

/-- tlbinv.page. The L1 lines of the page are those of each cached page that covers the address, or, where none is cached, those
within the largest page size about it (log 28). -/
def execTlbinvPage (a : BitVec 6) (b : SOp) (s : State) : Res :=
  let asid := bits (s.span.sr a) 15 0
  let va := bits (s.span.opB b) 47 0
  let covers (e : TcEntry) : Bool := e.asid == asid && e.vpage == va / 2 ^ e.log2
  let sizes := if s.tc.any covers then (s.tc.filter covers).map (·.log2) else [31]
  tlbinv covers (fun t => t.asid == asid && sizes.any (fun n => t.vline / 2 ^ (n - 7) == va / 2 ^ n)) s
/-- tlbinv.asid. -/
def execTlbinvAsid (a : BitVec 6) (_b : SOp) (s : State) : Res :=
  let asid := bits (s.span.sr a) 15 0
  tlbinv (fun e => e.asid == asid) (fun t => t.asid == asid) s
/-- tlbinv.paddock. -/
def execTlbinvPaddock (_a : BitVec 6) (_b : SOp) (s : State) : Res :=
  let own (x : Nat) : Bool := (s.pk s.here.paddock).cfg.asids.any (fun e => e.1 == x)
  tlbinv (fun e => own e.asid) (fun t => own t.asid) s
/-- tlbinv.rank: every die's cached resolutions of a rank. -/
def execTlbinvRank (a : BitVec 6) (s : State) : Res :=
  let r := bits (s.span.sr a) 21 0
  supervisor s (done { s with paddock := Store.mapVals Paddock.none (fun _ p =>
    { p with rankCache := p.rankCache.filter (fun e => e.1 % 2 ^ 22 != r) }) s.paddock })
/-- tlbinv.rankall: every cached resolution and hot destination of the paddock. -/
def execTlbinvRankall (_a : BitVec 6) (s : State) : Res :=
  supervisor s (done { (s.updPk s.here.paddock (fun p => { p with rankCache := [] })) with
    hotDest := s.hotDest.filter (fun x => x / 2 ^ 22 != s.here.paddock) })

/-! ## Traps (18 R321-R327) -/

/-- trap: code 11 on every lane (18 R323). -/
def execTrap (s : State) : Res := fault 0x11 0 s
/-- The trap level of the issuing set. -/
def levelHere (s : State) : Nat := (s.span.laneAt s.lowLane).level
/-- A return from a handler: code 02 outside one (18 R321); it waits for the memory that it reads. -/
def tret (skip : Bool) (s : State) : Res :=
  if levelHere s = 0 then fault 0x02 0 s
  else match s.returnWaits skip with
    | some s1 => .next s1
    | none => .next (s.trapReturn skip)
/-- tret.retry. -/
def execTretRetry (s : State) : Res := tret false s
/-- tret.skip. -/
def execTretSkip (s : State) : Res := tret true s
/-- tret.kill: the workgroup ends, killed (18 R323). -/
def execTretKill (s : State) : Res :=
  if levelHere s = 0 then fault 0x02 0 s
  else .next ((s.emitWg 0x49 0x00 s.focus.g s.focus.sp (BitVec.ofNat 64 (s.lanes.toNat + 2 * 2 ^ 32))).killWg s.focus.g)
/-- tmask: code 06 outside a handler (18 R321, R325). -/
def execTmask (s : State) : Res :=
  if levelHere s = 0 then fault 0x06 0 s else done (s.updSpan (fun sp => { sp with trapMask := true }))
/-- tunmask: what was held pending may be taken (18 R325). -/
def execTunmask (s : State) : Res :=
  if levelHere s = 0 then fault 0x06 0 s
  else done (s.updSpan (fun sp => { sp with trapMask := false, traps := sp.traps ++ sp.deferred, deferred := [] }))
/-- brk: the stop-next flag, while a debugger is attached (18 R327). -/
def execBrk (s : State) : Res :=
  if (s.pk s.here.paddock).cfg.debugger then done (s.updSpan (fun sp => { sp with stopNext := true })) else done s
/-- halt: a forced reset of the launch, in the privileged handler (18 R326). -/
def execHalt (s : State) : Res := supervisor s (.next (s.forceReset s.here.launchKey))

end Sys2Proof.Machine
end

