-- ==== Sys2Proof/Machine/Yard.lean ====
section
/-!
DEFINITION. Machine/Yard.lean: the yard: admission of launches and pens, residency, parking, pre-emption, and the swap of
paddocks (03 R39-R59, 14 R253-R256, 18 R328-R331, 19 R335).
-/

namespace Sys2Proof.Machine

/-! ## Order -/

/-- Lexicographic order of keys. -/
def lexLt : List Int → List Int → Bool
  | [], _ => false
  | _ :: _, [] => false
  | a :: as, b :: bs => decide (a < b) || (decide (a = b) && lexLt as bs)
/-- Put an entry in its place in a list sorted by key. -/
def insertBy {α : Type} (key : α → List Int) (x : α) : List α → List α
  | [] => [x]
  | y :: ys => if lexLt (key x) (key y) then x :: y :: ys else y :: insertBy key x ys
/-- Sort by key; equal keys keep their order. -/
def sortBy {α : Type} (key : α → List Int) (xs : List α) : List α := xs.foldl (fun a x => insertBy key x a) []

namespace State

/-! ## Weights and waits (14 R256, 03 R50) -/

/-- The number of ready slots of a chute (14 R255). -/
def readySlots (c : Chute) : Nat := popCount (c.full &&& ~~~c.taken)
/-- Stage weight of a stage of a launch on a core (14 R256). -/
def weight (s : State) (l : Launch) (core stage : Nat) : Int :=
  (s.chute.filter (fun e => e.2.live && e.2.paddock == l.paddock && e.2.serial == l.serial && e.2.core == core)).foldl
    (fun a e => a + (if e.2.toStage = stage then (readySlots e.2 : Int) else 0) -
      (if e.2.fromStage = stage then (readySlots e.2 : Int) else 0)) 0
/-- Stage weight of a workgroup. -/
def weightOf (s : State) (w : Wg) : Int := s.weight (s.launchAt w.launchKey) w.core w.stage
/-- Launch priority of a workgroup. -/
def prioOf (s : State) (w : Wg) : Nat := (s.launchAt w.launchKey).prio

/-- Does the clause wait at an instruction at which the yard may park (03 R50). -/
def parkWait (c : Clause) : Bool :=
  !c.suspended && c.waiting && (match c.instr with
    | some (.chqClaim _ _) => true
    | some (.chqWait _ _) => true
    | some (.waitq _ _ _) => true
    | some (.mwait _ _) => true
    | _ => false)
/-- The lanes of a span that could act: not ended, at the innermost open level. -/
def openLanes (sp : Span) : Lanes := lanesWhere (fun l => !(sp.laneAt l).ended && (sp.laneAt l).level == sp.openLevel)
/-- Does a span that has not ended wait as 03 R50 says: no thread of it could issue, and one waits at bar.pen, bar.launch, a
chute, a waiter queue or a monitor. -/
def spanParkWaits (sp : Span) : Bool :=
  let waits (l : Nat) : Bool := decide ((sp.laneAt l).hold = .barrier .pen) || decide ((sp.laneAt l).hold = .barrier .launch) ||
    sp.clauses.any (fun c => parkWait c && laneIn c.lanes l)
  (lanesOf (openLanes sp)).all (fun l => waits l || decide ((sp.laneAt l).hold = .meeting)) && (lanesOf (openLanes sp)).any waits
/-- Every span of the workgroup that has not ended waits so. -/
def wgParkWaits (w : Wg) : Bool := w.spanNums.all (fun n => w.spanEnded n || spanParkWaits (w.spanAt n))

/-- Does a span stand where it may be parked: every issue set that could act is at a clause boundary or at a class 5
instruction that waits, its results are written, traps are not masked in a handler, no debugger holds it (03 R51, 18 R325). -/
def spanParkable (sp : Span) : Bool :=
  sp.pending.isEmpty && !(sp.trapMask && sp.openLevel != 0) &&
    sp.clauses.all (fun c => c.suspended || (!c.stopped && (c.waiting || (sp.laneAt (lowest c.lanes)).level != sp.openLevel)))
/-- May a resident workgroup be parked now. -/
def wgParkable (w : Wg) : Bool :=
  w.res == .resident && w.spanNums.all (fun n => (w.spanAt n).pending.isEmpty && (w.spanEnded n || spanParkable (w.spanAt n)))

/-- Is a workgroup held at a barrier that is not complete, in all its spans: then it does not wait for residency (23 R359). -/
def wgAtBarrier (w : Wg) : Bool :=
  w.res == .parked && !w.allEnded && w.spanNums.all (fun n => w.spanEnded n || ((lanesOf (w.spanAt n).alive).all (fun l =>
    match ((w.spanAt n).laneAt l).hold with
    | .barrier _ => true
    | _ => false)))

/-! ## Residency (03 R47, R50, R53, 14 R256) -/

/-- May a workgroup wait for residency: admitted, not resident, of a resident paddock, its launch not pre-empted. -/
def candidate (s : State) (w : Wg) : Bool :=
  (w.res == .unstarted || w.res == .parked) && (s.pk w.paddock).resident && !wgAtBarrier w &&
    (s.launchAt w.launchKey).preempt == .none
/-- The candidates of a core in the order of 14 R256. -/
def candidates (s : State) (core : Nat) : List (Nat × Wg) :=
  sortBy (fun e => [-(s.prioOf e.2 : Int), -(s.weightOf e.2), (e.2.since : Int), (e.2.lin : Int), (e.2.stage : Int)])
    (s.wg.filter (fun e => e.2.core == core && s.candidate e.2))
/-- The residents of a core in the order in which they are parked (03 R50). -/
def parkOrder (s : State) (core : Nat) : List (Nat × Wg) :=
  sortBy (fun e => [(s.prioOf e.2 : Int), s.weightOf e.2, (e.2.since : Int), -(e.2.lin : Int), -(e.2.stage : Int)])
    (s.residents core)

/-- What a workgroup needs of its core to be resident: span slots, tile registers, level-0 tile memory. -/
def needs (s : State) (w : Wg) : Nat × Nat × Nat :=
  ((w.spanNums.filter (fun n => !w.spanEnded n)).length, (s.launchAt w.launchKey).tregs w.stage,
    (s.launchAt w.launchKey).level0 w.stage)
/-- What a core has free (03 R47). -/
def freeOn (s : State) (core : Nat) : Nat × Nat × Nat :=
  (Config.spanSlots - s.slotsUsed core, Config.tileRegs - s.tregsUsed core, s.tileFree core)
/-- Do needs fit. -/
def fitsIn (need have_ : Nat × Nat × Nat) : Bool :=
  decide (need.1 ≤ have_.1) && decide (need.2.1 ≤ have_.2.1) && decide (need.2.2 ≤ have_.2.2)
/-- Resources together. -/
def plus (a b : Nat × Nat × Nat) : Nat × Nat × Nat := (a.1 + b.1, a.2.1 + b.2.1, a.2.2 + b.2.2)

/-- The word by which the yard of a core knows a candidate: its entry and paddock, and since when it waits. -/
def choiceWord (w : Wg) : Nat := 2 ^ 30 * w.since + 2 ^ 18 * w.paddock + 64 * w.core + w.entry + 1
/-- Is a workgroup at bar.pen in all its spans. -/
def atPenBar (w : Wg) : Bool :=
  !w.allEnded && w.spanNums.all (fun n => w.spanEnded n ||
    (lanesOf (w.spanAt n).alive).all (fun l => decide (((w.spanAt n).laneAt l).hold = .barrier .pen)))
/-- Does a span of the workgroup wait in a chute instruction. -/
def waitsAtChute (w : Wg) : Bool :=
  w.span.any (fun q => q.2.clauses.any (fun c => parkWait c && (match c.instr with
    | some (.chqClaim _ _) => true
    | some (.chqWait _ _) => true
    | _ => false)))
/-- The other members of a workgroup's pen. -/
def penSiblings (s : State) (w : Wg) : List Wg :=
  let l := s.launchAt w.launchKey
  (s.wg.map Prod.snd).filter (fun v => v.launchKey == w.launchKey && v.stage == w.stage && v.pen l == w.pen l && v.core != w.core)
/-- The promise to pens (03 R55): none of a pen's members is parked at bar.pen while another waits for residency. DESIGN CHOICE (log 50):
while one is parked there, another is parked only at bar.pen itself, or in a chute instruction, as 03 R46 asks. -/
def penAllows (s : State) (r : Wg) : Bool :=
  if atPenBar r then !(s.penSiblings r).any s.candidate
  else waitsAtChute r || !(s.penSiblings r).any (fun v => v.res == .parked && atPenBar v)

/-- May resident r be parked to make room for candidate c (03 R50): its quantum has expired while c waited, or all its spans wait. -/
def givesWay (s : State) (c r : Wg) : Bool :=
  decide (s.prioOf r ≤ s.prioOf c) && s.penAllows r &&
    ((r.parkWanted == some .quantum && r.expiry.contains (choiceWord c)) || (wgParkWaits r && wgParkable r))

/-- The residents to park, in order, until the candidate fits; none when it cannot fit. -/
def victims (s : State) (c : Wg) : Nat × Nat × Nat → List (Nat × Wg) → Option (List Nat)
  | have_, [] => if fitsIn (s.needs c) have_ then some [] else none
  | have_, r :: rs =>
    if fitsIn (s.needs c) have_ then some []
    else if s.givesWay c r.2 then (victims s c (plus have_ (s.needs r.2)) rs).map (fun v => r.1 :: v)
    else victims s c have_ rs

/-- The candidate that the yard of a core has chosen while others are parked for it (23 R359); none, or one that waits no more. -/
def kept (s : State) (core : Nat) : List (Nat × Wg) :=
  let n := Store.get 0 s.chosen core
  let g := n % 2 ^ 30 - 1
  let w := s.wgAt g
  if n ≠ 0 ∧ n = choiceWord w ∧ w.core = core ∧ s.candidate w then [(g, w)] else []
/-- The yard's choice on a core: the candidate that becomes resident next, and whom to park for it (14 R256, 03 R50). One that has been
chosen stays chosen (23 R359). -/
def yardPlan (s : State) (core : Nat) : Option (Nat × List Nat) :=
  (s.kept core ++ s.candidates core).findSome? (fun e => (s.victims e.2 (s.freeOn core) (s.parkOrder core)).map (fun v => (e.1, v)))
/-- Is a resident workgroup among those that the yard parks for its choice. -/
def toPark (s : State) (g : Nat) : Bool :=
  match s.yardPlan (s.wgAt g).core with
  | some (_, v) => v.contains g
  | none => false
/-- Has the workgroup's quantum expired while the core's choice waited (03 R50): it is parked for that, not for its own wait. -/
def expiredFor (s : State) (w : Wg) : Bool :=
  match s.yardPlan w.core with
  | some (g, _) => w.expiry.contains (choiceWord (s.wgAt g))
  | none => false
/-- The yard keeps its choice while it parks for it. -/
def keepChoice (s : State) (core : Nat) : State :=
  match s.yardPlan core with
  | some (g, _) => { s with chosen := Store.set 0 s.chosen core (choiceWord (s.wgAt g)) }
  | none => s
/-- The core's choice has become resident. -/
def dropChoice (s : State) (core : Nat) : State := { s with chosen := Store.set 0 s.chosen core 0 }

/-- Should the workgroup stop at its clause boundaries, to be parked (03 R51, 18 R328). -/
def toStop (s : State) (g : Nat) : Bool :=
  match (s.wgAt g).parkWanted with
  | none => false
  | some .preempt => true
  | some _ => s.toPark g

/-- Level-0 entries of a workgroup name new places (03 R51, R53; log 5). -/
def moveLevel0 (s : State) (g : Nat) : State :=
  (s.wgAt g).handle.foldl (fun a e =>
    if eAlloc e.2 && !eChute e.2 && eLevel e.2 == 0 then
      { a with bindings := a.bindings + 1 }.updWg g (fun w =>
        { w with handle := Store.set 0 w.handle e.1 (a.bindPlace ++ (e.2.setWidth 64 : BitVec 64)) })
    else a) s

/-- Park a workgroup: its core resources are free, its level-0 handles lie in the image, whose address its core's admission directory
holds (03 R51, 15 R269; log 5). -/
def parkWg (s : State) (g : Nat) (cause : ParkCause) : State :=
  let s1 := ({ s with bindings := s.bindings + 1 }.updWg g (fun w =>
    { w with res := .parked, parkWanted := none, expiry := [], since := s.steps + 1, image := s.bindPlace })).moveLevel0 g
  (s1.emitWg 0x1B 0x01 g 0 (match cause with
    | .quantum => 0
    | .wait => 1
    | .preempt => 2)).drainCheck (s.wgAt g).launchKey

/-- The candidates of equal or higher priority that wait for the core of a resident workgroup (03 R50); one that the yard has chosen
does not wait (23 R359). -/
def wanted (s : State) (w : Wg) : List Nat :=
  ((s.candidates w.core).filter (fun e => decide (s.prioOf w ≤ s.prioOf e.2) && !(s.kept w.core).any (fun k => k.1 == e.1))).map
    (fun e => choiceWord e.2)

end State

/-- PARK (03 R51). -/
def execPark (g : Nat) (s : State) : Res :=
  let w := s.wgAt g
  if !State.wgParkable w then .next s
  else
    match w.parkWanted with
    | some .preempt => .next (s.parkWg g .preempt)
    | some c => if s.toPark g then .next ((s.keepChoice w.core).parkWg g (if s.expiredFor w then c else .wait)) else .next s
    | none => if State.wgParkWaits w && s.toPark g then .next ((s.keepChoice w.core).parkWg g .wait) else .next s

/-- MAKE_RESIDENT (03 R53): a parked workgroup that fits goes on where it was. -/
def execMakeResident (g : Nat) (s : State) : Res :=
  let w := s.wgAt g
  if w.res ≠ .parked ∨ !s.candidate w ∨ !State.fitsIn (s.needs w) (s.freeOn w.core) then .next s
  else
    .next ((((s.dropChoice w.core).updWg g (fun w => { w with res := .resident, since := s.steps + 1, image := 0 })).moveLevel0 g).emitWg
      0x1C 0x01 g 0 0)

namespace State

/-- A span as its workgroup starts it at an entry (03 R31). -/
def startSpan (entry : Dword) : Span := Span.fresh.updLanes allLanes (fun _ la => { la with pc := entry })

end State

/-- WORKGROUP_START (03 R31): the launch's state becomes 3 with its first. -/
def execWorkgroupStart (g : Nat) (s : State) : Res :=
  let w := s.wgAt g
  let l := s.launchAt w.launchKey
  if w.res ≠ .unstarted ∨ !s.candidate w ∨ !State.fitsIn (s.needs w) (s.freeOn w.core) then .next s
  else
    let s1 := (((s.dropChoice w.core).hearClock w.core l.clock).updWg g (fun w =>
      { w with res := .resident, since := s.steps + 1
               span := (List.range w.nspans).foldl (fun m n => Store.set Span.fresh m n (State.startSpan (l.entryPc w.stage))) [] })).emitWg
        0x1A 0x01 g 0 0
    if l.state = 2 then .next ((s1.updLaunch w.launchKey (fun l => { l with state := 3 })).putStatus w.launchKey) else .next s1

/-- QUANTUM_EXPIRY (03 R50): the workgroup is to be parked for one of the candidates of equal or higher priority that wait now. DESIGN
CHOICE (log 51): the spec does not say how long an expiry stays in force; here it does for those candidates until one of them is
resident. Unsafe. Time in the icehouse, in a lossless stall and at a debugger's stop does not count (17 R313, 18 R327, R331). -/
def execQuantumExpiry (g : Nat) (s : State) : Res :=
  let w := s.wgAt g
  if w.res = .resident ∧ w.parkWanted ≠ some .preempt ∧ s.wanted w ≠ [] ∧ ¬s.timersHeld w.paddock ∧
      ¬w.spanNums.any (fun n => s.spanStopped g n) then
    .next (s.updWg g (fun w => { w with parkWanted := some .quantum, expiry := (s.wanted w ++ w.expiry).eraseDups }))
  else .next s

/-! ## Admission of pens (03 R40, R43, R47, R54) -/

/-- A pen: its stage, its place in the grid of pens, its layer. -/
structure PenPos where
  stage : Nat
  px : Nat
  py : Nat
  wz : Nat
  deriving DecidableEq, Repr

namespace Launch

/-- Pens of the grid and of the rectangle in each direction. -/
def gridPx (l : Launch) : Nat := l.gx / l.pw
def gridPy (l : Launch) : Nat := l.gy / l.ph
def rectPx (l : Launch) : Nat := l.rectW / l.pw
def rectPy (l : Launch) : Nat := l.rectH / l.ph
/-- How many of n pens fall on position r of m. -/
def share (n m r : Nat) : Nat := (n + m - 1 - r) / m
/-- Pen number n of those bound to position (rx, ry) of the rectangle, in the order of 03 R40: increasing linear index, then
stage. -/
def penAt (l : Launch) (rx ry n : Nat) : Option PenPos :=
  let nx := share l.gridPx l.rectPx rx
  let ny := share l.gridPy l.rectPy ry
  let m := n / l.stages
  if nx = 0 ∨ ny = 0 ∨ l.gz ≤ m / (nx * ny) then Option.none
  else some ⟨n % l.stages, rx + l.rectPx * (m % nx), ry + l.rectPy * (m / nx % ny), m / (nx * ny)⟩
/-- The positions of the rectangle, numbered. -/
def positions (l : Launch) : List (Nat × Nat × Nat) :=
  (List.range (l.rectPx * l.rectPy)).map (fun i => (i, i % l.rectPx, i / l.rectPx))
/-- The next pen of position i that is not admitted. -/
def nextAt (l : Launch) (p : Nat × Nat × Nat) : Option PenPos := l.penAt p.2.1 p.2.2 (Store.get 0 l.nextPen p.1)
/-- The number of a pen. -/
def penNum (l : Launch) (p : PenPos) : Nat := penKey l p.stage (p.px * l.pw) (p.py * l.ph) p.wz
/-- The members of a pen: (wx, wy), in the order of pen offsets. -/
def membersOf (l : Launch) (p : PenPos) : List (Nat × Nat) :=
  (List.range l.ph).flatMap (fun dy => (List.range l.pw).map (fun dx => (p.px * l.pw + dx, p.py * l.ph + dy)))

end Launch

namespace State

/-- The key of admission entry e of a core for a paddock. -/
def wgKey (pkn core e : Nat) : Nat := 2 ^ 18 * pkn + 64 * core + e
/-- Is an admission entry of a core free: those of the paddock that runs the core count (03 R47). -/
def entryFree (s : State) (pkn core e : Nat) : Bool :=
  let g := wgKey pkn core e
  (s.wgAt g).res == .none || (s.wgAt g).res == .ended
/-- The free admission entries of a core. -/
def freeEntries (s : State) (pkn core : Nat) : List Nat := (List.range Config.entriesPerCore).filter (fun e => s.entryFree pkn core e)

/-- Do pens together have room: an entry and the stripes of their level-1 handles on every core, level-2 lines on every die (03 R43,
10 R174). -/
def pensFit (s : State) (l : Launch) (ps : List PenPos) : Bool :=
  let on (core : Nat) : List (PenPos × Nat × Nat) :=
    ps.flatMap (fun p => ((l.membersOf p).filter (fun m => l.coreFor m.1 m.2 == core)).map (fun m => (p, m)))
  let cores := (ps.flatMap (fun p => (l.membersOf p).map (fun m => l.coreFor m.1 m.2))).foldl
    (fun a c => if a.contains c then a else a ++ [c]) []
  cores.all (fun core =>
      decide ((on core).length ≤ (s.freeEntries l.paddock core).length) &&
      decide (((on core).map (fun x => l.penSize * l.stripes1 x.1.stage)).sum ≤ s.tileFree core)) &&
    decide ((ps.map (fun p => l.penSize * l.lines2 p.stage)).sum ≤ s.pool2Free l.paddock) &&
    (cores.map dieOf).eraseDups.all (fun die =>
      decide ((ps.map (fun p => ((l.membersOf p).filter (fun m => dieOf (l.coreFor m.1 m.2) == die)).length * l.lines2 p.stage)).sum ≤
        s.pool2FreeOn l.paddock die))

/-- The handles that a member binds at its admission: its stage's .tile declarations, and the chutes that it shares
(14 R252, 15 R269). -/
def bindDeclared (s : State) (g : Nat) (l : Launch) (stage : Nat) : State :=
  l.decls.foldl (fun a d =>
    if dChute d then
      if dFrom d = stage ∨ dTo d = stage then a.bindHandle g (dHandle d) (entryFor a.bindPlace 0 (dWidth d) (dRows d) (dCols d) true false)
      else a
    else if dFrom d = stage then a.bindHandle g (dHandle d) (entryFor a.bindPlace (dLevel d) (dWidth d) (dRows d) (dCols d) false true)
    else a) s

/-- Admit one member: it takes the lowest free entry of its core. -/
def admitMember (s : State) (l : Launch) (p : PenPos) (m : Nat × Nat) : State :=
  let core := l.coreFor m.1 m.2
  let e := (s.freeEntries l.paddock core).headD 0
  let g := wgKey l.paddock core e
  let w : Wg := { Wg.none with
    res := .unstarted, paddock := l.paddock, serial := l.serial, stage := p.stage, wx := m.1, wy := m.2, wz := p.wz
    lin := m.1 + l.gx * (m.2 + l.gy * p.wz), core := core, entry := e, nspans := l.nspans p.stage, since := s.steps + 1 }
  (s.updWg g (fun _ => w)).bindDeclared g l p.stage

/-- Admit a pen: its members together. -/
def admitPen (s : State) (l : Launch) (i : Nat) (p : PenPos) : State :=
  ((l.membersOf p).foldl (fun a m => a.admitMember l p m) s).updLaunch l.key
    (fun l => { l with nextPen := Store.upd 0 l.nextPen i (fun n => n + 1) })

/-- May a launch admit pens at all. -/
def admits (s : State) (l : Launch) : Bool :=
  l.live && l.admitted && !l.unstartedKilled && (s.pk l.paddock).resident && !s.leaving l.paddock

/-- All pens of a launch with their positions: those of a flagged launch enter together (03 R54). -/
def allPens (l : Launch) : List (Nat × PenPos) :=
  l.positions.flatMap (fun q => (List.range l.total).filterMap (fun n => (l.penAt q.2.1 q.2.2 n).map (fun p => (q.1, p))))

end State

/-- PEN_ADMISSION (03 R43): the named pen, when it is next on its cores and has room; a flagged launch enters whole. -/
def execPenAdmission (k pen : Nat) (s : State) : Res :=
  let l := s.launchAt k
  if !s.admits l then .next s
  else if l.gridBar then
    let ps := State.allPens l
    if l.nextPen ≠ [] ∨ !s.pensFit l (ps.map Prod.snd) then .next s
    else .next (ps.foldl (fun a q => a.admitPen l q.1 q.2) s)
  else
    match l.positions.findSome? (fun q => ((l.nextAt q).filter (fun p => l.penNum p == pen)).map (fun p => (q.1, p))) with
    | none => .next s
    | some (i, p) => if s.pensFit l [p] then .next (s.admitPen l i p) else .next s

/-! ## Admission of launches (14 R254) -/

namespace State

/-- The record at the head of the highest level of a paddock's queues. -/
def headOf (p : Paddock) : Option QueuedLaunch :=
  p.queue.foldl (fun a q => match a with
    | none => some q
    | some b => if b.prio < q.prio then some q else a) none

/-- Reason 1: geometry outside 03 R39, or outside the paddock. -/
def badGeometry (l : Launch) (c : PaddockCfg) : Bool :=
  let ranged (n lo hi : Nat) : Bool := decide (lo ≤ n) && decide (n ≤ hi)
  !(ranged l.rectW 1 64 && ranged l.rectH 1 64 && decide (c.ox ≤ l.orgX) && decide (l.orgX + l.rectW ≤ c.ox + c.w) &&
    decide (c.oy ≤ l.orgY) && decide (l.orgY + l.rectH ≤ c.oy + c.h) && decide (1 ≤ l.gx) && decide (1 ≤ l.gy) &&
    decide (1 ≤ l.gz) && decide (l.pw ≤ 16) && decide (l.ph ≤ 16) && l.rectW % l.pw == 0 && l.gx % l.pw == 0 &&
    l.rectH % l.ph == 0 && l.gy % l.ph == 0 && decide (l.stages ≤ 8) &&
    (List.range l.stages).all (fun st => ranged (l.nspans st) 1 8))

/-- The stage-workgroups of a launch bound to the core that has most of them. -/
def perCore (l : Launch) : Nat :=
  (l.gx + l.rectW - 1) / l.rectW * ((l.gy + l.rectH - 1) / l.rectH) * l.gz * l.stages

/-- Is a reserved bit of the record set (14 R252). -/
def reservedBits (l : Launch) : Bool :=
  bits (l.dw 0) 62 54 != 0 || bits (l.dw 0) 7 5 != 0 || bits (l.dw 1) 63 54 != 0 || bits (l.dw 1) 47 46 != 0 ||
    bits (l.dw 1) 31 31 != 0 || bits (l.dw 1) 23 23 != 0 || bits (l.dw 1) 15 14 != 0 || bits (l.dw 1) 7 6 != 0 ||
    (List.range 8).any (fun st => bits (l.dw (5 + 2 * st)) 63 33 != 0 || bits (l.dw (5 + 2 * st)) 15 9 != 0) ||
    (List.range 4).any (fun i => bits (l.dw (37 + 2 * i)) 62 48 != 0 || bits (l.dw (37 + 2 * i)) 7 5 != 0) ||
    (List.range 4).any (fun i => l.dw (44 + i) != 0)

/-- Is a declaration word malformed (14 R252, R254). -/
def badDecl (l : Launch) (d : Dword) : Bool :=
  if !dValid d then d != 0
  else bits d 20 0 != 0 || decide (4 < bits d 47 45) || decide (l.stages ≤ dFrom d) ||
    (if dChute d then dLevel d != 0 || decide (64 < dRows d) || decide (l.stages ≤ dTo d) || decide (dTo d ≤ dFrom d)
     else dTo d != 0 || dLevel d == 3)

/-- The (stage, handle) pairs that a declaration declares. -/
def declares (d : Dword) : List (Nat × Nat) :=
  if dChute d then [(dFrom d, dHandle d), (dTo d, dHandle d)] else [(dFrom d, dHandle d)]
/-- Does a list name something twice. -/
def twice {α : Type} [DecidableEq α] : List α → Bool
  | [] => false
  | x :: xs => xs.contains x || twice xs

/-- The valid windows of a record: region, base, size (14 R252). -/
def windowsOf (l : Launch) : List (Dword × Dword) :=
  ((List.range 4).map (fun i => (l.dw (36 + 2 * i), l.dw (37 + 2 * i)))).filter (fun w => w.2.getLsbD 63)

/-- Does another admitted launch of the device own the launch's (job, rank). -/
def rankTaken (s : State) (l : Launch) : Bool :=
  match l.rank with
  | none => false
  | some r => (s.pk l.paddock).cfg.job == 0 || (s.ownerLaunch (s.pk l.paddock).cfg.job r.toNat).isSome

/-- Free entries of a window table. -/
def windowsFree (p : Paddock) : Nat :=
  Config.windowEntries - ((List.range Config.windowEntries).filter (fun i => (Store.get Window.none p.window i).valid)).length

/-- Reason 4. -/
def badRecord (s : State) (l : Launch) : Bool :=
  let ws := windowsOf l
  reservedBits l || ((List.range 16).any (fun i => badDecl l (l.dw (20 + i)))) || twice (l.decls.flatMap declares) ||
    (List.range l.stages).any (fun st => l.entryPc st == 0) ||
    (l.asidField != 0 && !((s.pk l.paddock).cfg.asids.any (fun e => e.1 == l.asidField))) || s.rankTaken l ||
    twice (ws.map (fun w => bits w.2 4 0)) || ws.any (fun w => (winCode w.1 (w.2 &&& ~~~(1#64 <<< 63))).isSome) ||
    decide (windowsFree (s.pk l.paddock) < ws.length)

/-- Reason 5: the declared resources of one pen of every stage never fit. -/
def neverFits (s : State) (l : Launch) : Bool :=
  let st := List.range l.stages
  decide (Config.tileMemory < l.chuteBytes + (st.map (fun i => l.penSize * l.stripes1 i)).sum +
      (st.map (fun i => l.level0 i)).foldl max 0) ||
    decide ((s.pk l.paddock).cfg.l2pool * 32768 < (st.map (fun i => l.penSize * l.lines2 i)).sum) ||
    decide (Config.tileRegs < (st.map (fun i => l.tregs i)).sum)

/-- The reason for which a head is refused, the lowest that applies; 0 for none (14 R254). -/
def refusal (s : State) (l : Launch) : Nat :=
  let c := (s.pk l.paddock).cfg
  if badGeometry l c then 1
  else if c.parkArea * 4194304 < l.images then 2
  else if l.gridBar ∧ Config.entriesPerCore < perCore l then 3
  else if s.badRecord l then 4
  else if s.neverFits l then 5
  else 0

/-- Does the head wait: the free park area or the chute storage does not fit now. -/
def headWaits (s : State) (l : Launch) : Bool :=
  decide (s.parkFree l.paddock < l.images) || l.cores.any (fun c => decide (s.tileFree c < l.chuteBytes))

/-- Take a record out of its queue. -/
def dequeue (s : State) (q : QueuedLaunch) (pkn : Nat) : State := s.updPk pkn (fun p => { p with queue := p.queue.erase q })

/-- Refuse a launch (14 R254): state 6, the launch operation ends in error. -/
def refuse (s : State) (l : Launch) (reason : Nat) : State :=
  let s1 := (s.updLaunch l.key (fun l => { l with state := 6, reason := reason, live := false })).putStatus l.key
  let s2 := s1.emit 0x19 0x01 l.home (dieOf l.home) (some l.paddock) 0xFFFFF false (l.serial.setWidth 64)
    (BitVec.ofNat 64 (6 + 256 * reason)) 0
  match l.issuer with
  | none => s2
  | some uid => s2.finishLater uid true l.serial

/-- The chutes of a launch on every core of its rectangle (14 R255). -/
def makeChutes (s : State) (l : Launch) : State :=
  l.chutes.foldl (fun a d => l.cores.foldl (fun a core =>
    a.updChute (chuteKey l.paddock l.serial core (dHandle d) (dFrom d)) (fun _ =>
      { Chute.none with live := true, paddock := l.paddock, serial := l.serial, core := core, handle := dHandle d,
                        fromStage := dFrom d, toStage := dTo d, slotsM1 := BitVec.ofNat 6 (dRows d - 1), width := dWidth d,
                        colsM1 := dCols d - 1 })) a) s

/-- Admit a launch (14 R254): chutes, windows, state 2. -/
def admitLaunch (s : State) (l : Launch) : State :=
  let s1 := (s.updLaunch l.key (fun l => { l with state := 2, admitted := true })).makeChutes l
  let s2 := (windowsOf l).foldl (fun a w => (a.enterWindow l.paddock l.serial (bits w.2 4 0) w.1 (bits w.2 47 8 * 256)).1) s1
  (s2.emit 0x18 0x01 l.home (dieOf l.home) (some l.paddock) 0xFFFFF false (l.serial.setWidth 64 ||| BitVec.ofNat 64 (2 ^ 32 * l.prio))
    2 0).putStatus l.key

end State

/-- LAUNCH_ADMISSION (14 R254): the head of a paddock's highest level is refused, admitted, or waits. -/
def execLaunchAdmission (pkn : Nat) (s : State) : Res :=
  if !(s.pk pkn).resident ∨ s.leaving pkn then .next s
  else
    match State.headOf (s.pk pkn) with
    | none => .next s
    | some q =>
      let l := s.launchAt (2 ^ 32 * pkn + q.serial.toNat)
      let r := s.refusal l
      if r ≠ 0 then .next ((s.dequeue q pkn).refuse l r)
      else if s.headWaits l then .next s
      else .next ((s.dequeue q pkn).admitLaunch l)

/-- LAUNCH_WINDOW_PLACE (19 R335): result 1 while the queues are full, 2 for a record that cannot be reached, else 0. A placement that
must wait for a line is taken up again. -/
def execLaunchWindowPlace (pkn : Nat) (addr : Dword) (s : State) : Res :=
  let answer (s : State) (r : Nat) : Res := .next (s.updPk pkn (fun p => { p with placeResult := r }))
  let wait (s : State) : Res := .next { s with placing := s.placing ++ [(pkn, addr)] }
  let asid := ((s.pk pkn).cfg.asids.head?.map Prod.fst).getD 0
  if !(s.pk pkn).cfg.valid then .next s
  else if !s.queuesFree pkn then answer s 1
  else
    match s.recordCheck 0 asid false addr with
    | (_, .error _) => answer s 2
    | (s1, .wait _) => wait s1
    | (s1, .fail _ _) => answer s1 2
    | (s1, .ok _) =>
      match s1.readRecord 0 asid false addr.toNat with
      | (s2, .bad _ _ _) => answer s2 2
      | (s2, .wait) => wait s2
      | (s2, .ok ds pa) =>
        let f := bits (ds.getD 2 0) 63 48
        answer (s2.placeRecord pkn (if f = 0 then asid else f) ds pa none) 0

/-! ## Pre-emption (18 R328, 19 R335) -/

/-- PREEMPTION_REQUEST: the drain of an admitted launch begins; any other serial is ignored. -/
def execPreemptionRequest (pkn : Nat) (serial : Word) (s : State) : Res :=
  let k := 2 ^ 32 * pkn + serial.toNat
  let l := s.launchAt k
  if !(l.live && l.admitted && l.preempt == .none) then .next s
  else
    let s1 := (s.updLaunch k (fun l => { l with preempt := .draining })).emit 0x53 0x01 l.home (State.dieOf l.home) (some pkn) 0xFFFFF false
      (l.serial.setWidth 64) 0 0
    let s2 := (s.wg.filter (fun e => e.2.launchKey == k && e.2.res == .resident)).foldl
      (fun a e => a.updWg e.1 (fun w => { w with parkWanted := some .preempt })) s1
    .next (s2.drainCheck k)

/-- PREEMPTION_RESUME: a drained launch takes residency again. -/
def execPreemptionResume (pkn : Nat) (serial : Word) (s : State) : Res :=
  let k := 2 ^ 32 * pkn + serial.toNat
  let l := s.launchAt k
  if l.live && l.admitted && l.preempt == .drained then .next (s.updLaunch k (fun l => { l with preempt := .none })) else .next s

/-- PREEMPTION_DEADLINE: a drain that is not complete ends in a forced reset. Lossless stalls, debugger stops and time in the icehouse do
not count (18 R328, R331). -/
def execPreemptionDeadline (pkn : Nat) (serial : Word) (s : State) : Res :=
  let k := 2 ^ 32 * pkn + serial.toNat
  let stopped := s.wg.any (fun e => e.2.launchKey == k && e.2.spanNums.any (fun n => s.spanStopped e.1 n))
  if (s.launchAt k).live && (s.launchAt k).preempt == .draining && !s.timersHeld pkn && !stopped then .next (s.forceReset k) else .next s

/-! ## The swap of paddocks (18 R330, R331) -/

/-- Do two rectangles overlap. -/
def overlaps (a b : PaddockCfg) : Bool :=
  decide (a.ox < b.ox + b.w) && decide (b.ox < a.ox + a.w) && decide (a.oy < b.oy + b.h) && decide (b.oy < a.oy + a.h)
/-- Are two rectangles identical. -/
def sameRect (a b : PaddockCfg) : Bool := a.ox == b.ox && a.oy == b.oy && a.w == b.w && a.h == b.h
/-- Does a rectangle hold a core. -/
def inRect (c : PaddockCfg) (core : Nat) : Bool :=
  decide (c.ox ≤ core % 64) && decide (core % 64 < c.ox + c.w) && decide (c.oy ≤ core / 64) && decide (core / 64 < c.oy + c.h)
/-- The cores of a paddock's rectangle. -/
def rectCores (c : PaddockCfg) : List Nat :=
  (List.range c.h).flatMap (fun y => (List.range c.w).map (fun x => c.ox + x + 64 * (c.oy + y)))

/-! ## Performance samples (16 R296, R297) -/

namespace State

/-- Pieces of a range that lie in one line each: address and length. -/
def pieces : Nat → Nat → Nat → List (Nat × Nat)
  | 0, _, _ => []
  | n + 1, pa, left =>
    if left = 0 then []
    else
      let k := min left (128 - pa % 128)
      (pa, k) :: pieces n (pa + k) (left - k)

/-- Write one sample into a ring at base with 2^log2 slots of 160 bytes, or count it as lost (16 R297): the
unit's counters as they stand. The tick time counts from the ring's epoch. -/
def sampleInto (s : State) (pk? : Option Nat) (cls idx : Nat) : State :=
  let (base, log2, head, lost) := match pk? with
    | some p => ((s.pk p).cfg.perfBase, (s.pk p).cfg.perfLog2, (s.pk p).perfHead, (s.pk p).perfLost)
    | none => (s.perfRingBase, s.perfRingLog2, s.perfRingHead, s.perfRingLost)
  let put (a : State) (h l : Word) : State := match pk? with
    | some p => a.updPk p (fun q => { q with perfHead := h, perfLost := l })
    | none => { a with perfRingHead := h, perfRingLost := l }
  if 2 ^ log2 ≤ head.toNat then put s head (satInc lost)
  else
    let epoch := match pk? with
      | some p => (s.pk p).cfg.traceEpoch
      | none => s.deviceEpoch
    let hdr := (s.time - epoch).toNat * 2 ^ 192 + cls * 2 ^ 176 + idx * 2 ^ 160 + pk?.getD 63 * 2 ^ 154
    let counter (i : Nat) : Nat := s.perfOf cls idx i % 2 ^ 32
    let x := hdr + 2 ^ 256 * (List.range 32).foldr (fun i x => counter i + 2 ^ 32 * x) 0
    let at' := base + 160 * head.toNat
    put ((pieces 3 at' 160).foldl (fun a q => a.homeUpd q.1 q.2 0 (x / 256 ^ (q.1 - at') % 256 ^ q.2)) s) (head + 1) lost

/-- Latch the samples of a paddock's cores: each core's counters begin again at zero (16 R296). -/
def latchPaddock (s : State) (pkn : Nat) : State :=
  let s1 := (rectCores (s.pk pkn).cfg).foldl (fun a core => a.sampleInto (some pkn) 0 core) s
  { s1 with perf := s1.perf.filter (fun e => !(rectCores (s.pk pkn).cfg).contains (e.1 / 32)) }

end State

namespace State

/-- Does a rectangle meet that of a swap that is under way. -/
def inSwap (s : State) (c : PaddockCfg) : Bool :=
  s.swap.any (fun q => [q.1, q.2].any (fun n => n.any (fun n => overlaps (s.pk n).cfg c)))

/-- Do the sides of a swap stand where they must, and their rectangles meet the rules; is every icehouse bank of the rectangle ready
(18 R330). -/
def swapStands (s : State) (leave enter : Option Nat) : Bool :=
  let out? := leave.map (fun n => s.pk n)
  let in? := enter.map (fun n => s.pk n)
  match leave.or enter with
  | none => false
  | some n =>
    (out?.map (fun a => a.cfg.valid && a.resident)).getD true && (in?.map (fun b => b.cfg.valid && b.held)).getD true &&
    (match out?, in? with
      | some a, some b => sameRect a.cfg b.cfg
      | some a, none => !s.paddock.any (fun e => e.2.held && overlaps e.2.cfg a.cfg)
      | none, some b => !s.paddock.any (fun e => e.2.resident && overlaps e.2.cfg b.cfg)
      | none, none => false) &&
    (rectCores (s.pk n).cfg).all (fun core => s.ready (0x100 + core))

/-- May a swap begin: its sides stand so, and no swap of the rectangle is under way. -/
def swapOk (s : State) (leave enter : Option Nat) : Bool :=
  s.swapStands leave enter && (leave.or enter).all (fun n => !s.inSwap (s.pk n).cfg)

/-- The operations of a paddock other than launches. -/
def swappable (pkn : Nat) (a : AsyncOp) : Bool :=
  a.id.paddock == pkn && (match a.kind with
    | .launch _ _ => false
    | _ => true)

/-- Suspend the operations of a paddock that are not complete, each with its record (18 R330, step 3). -/
def suspendOps (s : State) (pkn : Nat) : State :=
  let mine := s.async.filter (fun a => swappable pkn a && !a.suspended)
  let s1 := mine.foldl (fun x a => x.emitAsync a 0x52 0) s
  { s1 with async := s1.async.map (fun a => if swappable pkn a then { a with suspended := true } else a) }

/-- Steps 1 to 3 of a swap are over for the leaving paddock: its memory instructions that have begun are over, results written, units
that have begun landed. -/
def swapStill (s : State) (pkn : Nat) : Bool :=
  s.wg.all (fun e => e.2.paddock != pkn || e.2.span.all (fun q => q.2.pending.isEmpty && q.2.memWait.isEmpty)) &&
    s.async.all (fun a => !swappable pkn a || a.units.all (fun u => u.sent == none))
/-- The first swap whose leaving paddock stands so. -/
def swapDue (s : State) : Option (Option Nat × Option Nat) := s.swap.find? (fun q => q.1.all s.swapStill)

/-- The icehouse's records of one kind, one a core for each of the two paddocks (17 R306, R309). -/
def swapRecords (s : State) (typ n : Nat) (leave enter : Option Nat) : State :=
  (rectCores (s.pk n).cfg).foldl (fun a core =>
    (leave.toList ++ enter.toList).foldl (fun b pkn =>
      b.emit typ 0x0C core (dieOf core) (some pkn) 0xFFFFF false (BitVec.ofNat 64 (leave.getD 0 + 256 * enter.getD 0))
        (Config.freeTime a.steps) 0) a) s

/-- The leaving paddock goes into the icehouse: its operations in flight are suspended, its cores' counters latched. -/
def swapOut (s : State) (a : Nat) (enter : Option Nat) : State :=
  (((s.suspendOps a).latchPaddock a).updPk a (fun p =>
    { p with resident := false, held := true, cfg := { p.cfg with away := true } })).swapRecords 0x50 a (some a) enter
/-- The entering paddock is resident, its operations go on. -/
def swapIn (s : State) (leave : Option Nat) (b : Nat) : State :=
  let s1 := (s.updPk b (fun p => { p with resident := true, held := false, cfg := { p.cfg with away := false } })).swapRecords 0x51 b leave
    (some b)
  { s1 with async := s1.async.map (fun a => if swappable b a then { a with suspended := false } else a) }

end State

/-- PADDOCK_SWAP (18 R330, steps 1 to 3): a request that breaks a rule is refused whole. The leaving paddock's issue sets
stop where they are, its engines begin no further unit. -/
def execPaddockSwap (leave enter : Option Nat) (s : State) : Res :=
  if s.swapOk leave enter then .next { s with swap := s.swap ++ [(leave, enter)] } else .next s

/-- ICEHOUSE_EXCHANGE (18 R330, steps 3 to 5) of the first swap that is due. One that breaks a rule by now is refused whole. -/
def execIcehouseExchange (s : State) : Res :=
  match s.swapDue with
  | none => .next s
  | some (leave, enter) =>
    let s0 := { s with swap := s.swap.erase (leave, enter) }
    if s.swapStands leave enter then
      let s1 := leave.elim s0 (fun a => s0.swapOut a enter)
      .next (enter.elim s1 (fun b => s1.swapIn leave b))
    else .next s0

end Sys2Proof.Machine
end

