-- ==== Sys2Proof/Machine/Rime.lean ====
section
/-!
DEFINITION. Machine/Rime.lean: records reaching their sinks (17 R307-R313), the time base and PTP (17 R301), the beacon
(16 R295), performance samples (16 R296, R297), the firmware's progress samples (16 R293, R294), floor windows (14 R258).
-/

namespace Sys2Proof.Machine

/-! ## Records as words (17 R304) -/

/-- The event class bit of a record type (17 R306); none for records that are always delivered. -/
def classBit (typ : Nat) : Option Nat :=
  if typ < 0x10 then none
  else if typ ≤ 0x12 then some 0
  else if typ < 0x20 then some 1
  else if typ = 0x20 then some 2
  else if typ = 0x2B then some 11
  else if typ < 0x30 then some 3
  else if typ < 0x38 then some 4
  else if typ < 0x40 then some 5
  else if typ < 0x48 then some 6
  else if typ < 0x50 then some 7
  else if typ < 0x58 then some 8
  else if typ < 0xC0 then some 10
  else some 9

/-- Word 1 of a record (17 R304). -/
def recWord1 (r : Record) : Dword :=
  let f (b : Bool) (n : Nat) : Nat := if b then 2 ^ n else 0
  BitVec.ofNat 64 (r.typ % 256 + 2 ^ 8 * (r.unit % 256) + 2 ^ 16 * (r.idx % 4096) + 2 ^ 28 * (r.die % 16) +
    2 ^ 32 * (r.paddock.getD 0 % 64) + 2 ^ 38 * r.ordinal.toNat + f r.raised 58 + f r.stalled 59 + f r.timing 60 +
    f r.paddock.isNone 61)

/-- The 32 bytes of a record, its stamp counted from an epoch (17 R301, R304). -/
def recBytes (r : Record) (epoch : Dword) : Nat :=
  (r.stamp - epoch).toNat + 2 ^ 64 * (recWord1 r).toNat + 2 ^ 128 * r.w2.toNat + 2 ^ 192 * r.w3.toNat

/-- The classes of the records of a unit that back-pressure stops (17 R306). -/
def unitClasses (unit : Nat) : List Nat :=
  if unit = 0 then [0, 7, 9] else if unit = 1 then [1, 8] else if unit = 2 then [2] else [5, 8]

/-- Does a paddock's filter pass a record of its own (17 R308). A stall record passes when other records of its source do: when one of
their classes does. -/
def filterPasses (f : BitVec 128) (r : Record) : Bool :=
  f.getLsbD 49 && f.getLsbD (96 + r.unit) &&
    (match classBit r.typ with
      | some c => f.getLsbD (112 + c) && decide (bits f 75 56 ≤ r.ordinal.toNat) && decide (r.ordinal.toNat ≤ bits f 95 76)
      | none => (unitClasses r.unit).any (fun c => f.getLsbD (112 + c)))

namespace Sink

/-- Records in the ring. -/
def used (k : Sink) : Nat := (k.head - k.tail).toNat
/-- Slots of the ring. -/
def slots (k : Sink) : Nat := 2 ^ k.log2
/-- Free slots. -/
def free (k : Sink) : Nat := k.slots - k.used

end Sink

namespace State

/-- Sink n. -/
def sinkAt (s : State) (n : Nat) : Sink := Store.get Sink.reset s.sink n
/-- Change sink n. -/
def updSink (s : State) (n : Nat) (f : Sink → Sink) : State := { s with sink := Store.upd Sink.reset s.sink n f }

/-- The epoch of a sink: its paddock's trace epoch, or the device's (17 R301). -/
def sinkEpoch (s : State) (n : Nat) : Dword :=
  let k := s.sinkAt n
  if k.provider then s.deviceEpoch else (s.pk k.paddock).cfg.traceEpoch

/-- Write one record at the head and the head into the mirror (17 R307). -/
def sinkWrite (s : State) (n : Nat) (r : Record) : State :=
  let k := s.sinkAt n
  let s1 := s.homeWrite ⟨k.base.toNat + 128 + 32 * (k.head.toNat % k.slots), 32, 0, recBytes r (s.sinkEpoch n), true⟩
  (s1.homeWrite ⟨k.base.toNat, 8, 0, (k.head + 1).toNat, true⟩).updSink n (fun k => { k with head := k.head + 1 })
/-- Does a sink take records: one that is disabled or not ready drops them without a count (17 R307). -/
def sinkOpen (s : State) (n : Nat) : Bool := (s.sinkAt n).enable && s.ready (0x1100 + n)

/-- A record that the sink itself makes: it goes into its own ring, and waits for the provider's sinks (17 R308). The spec gives a sink no
die: its records name die 0 (log 32). -/
def sinkOwn (s : State) (n typ : Nat) (w2 w3 : Dword) : State × Record :=
  let k := s.sinkAt n
  let (s1, r) := s.makeRecord typ 0x0D n 0 (if k.provider then none else some k.paddock) 0xFFFFF false w2 w3 0
  ({ s1 with records := s1.records ++ [r] }, r)

/-- A slot is free again: the sink writes a gap record before any other when records were dropped (17 R310). -/
def gapWrite (s : State) (n : Nat) : State :=
  let k := s.sinkAt n
  if k.gap = 0 ∨ k.free = 0 ∨ !s.sinkOpen n then s
  else
    let (s1, g) := s.sinkOwn n 0x01 (BitVec.ofNat 64 (k.gap % 2 ^ 32)) (k.gapStamp - s.sinkEpoch n)
    (s1.sinkWrite n g).updSink n (fun k => { k with gap := 0, gapStamp := 0 })
/-- A record meets the ring (17 R310): dropped when it is full. -/
def sinkStore (s : State) (n : Nat) (r : Record) : State :=
  let s1 := s.gapWrite n
  if (s1.sinkAt n).free = 0 then s1.updSink n (fun k =>
    { k with drops := State.satInc k.drops, gapStamp := if k.gap = 0 then r.stamp else k.gapStamp, gap := k.gap + 1 })
  else s1.sinkWrite n r

/-- The sources that back-pressure of a paddock's sink stops (17 R311): span schedulers and matrix quarters of cores where one of its
workgroups is resident, engines with its operations, yards that have a step to take. The quarters of a core have one source index. -/
def sources (s : State) (pkn : Nat) : List Nat :=
  let cores := ((s.wg.filter (fun e => e.2.paddock == pkn && (e.2.res == .resident || e.2.res == .parked || e.2.res == .unstarted))).map
    (fun e => (e.2.core, e.2.res))).eraseDups
  let spans := ((cores.filter (fun c => c.2 == .resident)).map Prod.fst).eraseDups
  let yards := ((cores.filter (fun c => c.2 != .resident)).map Prod.fst).eraseDups
  let engines := ((s.async.filter (fun a => a.id.paddock == pkn)).map (fun a => (kindUnit a.kind, a.core))).eraseDups
  spans.map (fun c => srcKey 0 (dieOf c) c) ++ spans.map (fun c => srcKey 2 (dieOf c) c) ++ yards.map (fun c => srcKey 1 (dieOf c) c) ++
    engines.map (fun e => srcKey e.1 (dieOf e.2) e.2)

/-- Stopped sources write a stall record (17 R311), after those that they made before. -/
def stallRecords (s : State) (n typ : Nat) (w3 : Dword) (srcs : List Nat) : State :=
  srcs.foldl (fun a src =>
    let k := a.sinkAt n
    let (a1, r) := a.makeRecord typ (src / 65536) (src % 4096) (src / 4096 % 16) (some k.paddock) 0xFFFFF false (BitVec.ofNat 64 n) w3 0
    { a1 with records := a1.records ++ [r] }) s

/-- Begin an episode of back-pressure when the free records of a lossless sink fall below its threshold (17 R311). -/
def stallCheck (s : State) (n : Nat) : State :=
  let k := s.sinkAt n
  if k.lossless && !k.provider && !k.released && !k.stalling && decide (k.free < k.threshold) then
    s.updSink n (fun k => { k with stalling := true, stallSince := s.time, stalled := [] })
  else s

/-- The stopped sources go on, and write a stall-end record; their next other record carries S (17 R311). -/
def stallEnd (s : State) (n : Nat) : State :=
  let k := s.sinkAt n
  let s1 := s.stallRecords n 0x03 (s.time - k.stallSince) k.stalled
  { (s1.updSink n (fun k => { k with stalling := false, stalled := [] })) with
    stallFlag := s1.stallFlag ++ k.stalled.filter (fun x => !s1.stallFlag.contains x) }

/-- A record reaches sink n (17 R307). -/
def sinkTake (s : State) (n : Nat) (r : Record) : State := if s.sinkOpen n then (s.sinkStore n r).stallCheck n else s

/-- The sinks that a record reaches (17 R308, R309): every provider sink, and its paddock's own sink when the filter passes. A sink's own
record stands in its ring already. -/
def sinksFor (s : State) (r : Record) : List Nat :=
  let prov := (s.sink.filter (fun e => e.2.provider && e.2.enable && !(r.unit == 0x0D && e.1 == r.idx))).map Prod.fst
  if r.unit = 0x0D then prov else
  match r.paddock with
  | none => prov
  | some p =>
    let f := (s.pk p).cfg.rimeFilter
    let n := bits f 55 50
    if filterPasses f r && !(s.sinkAt n).provider && (s.sinkAt n).paddock == p then n :: prov else prov

end State

/-- The oldest record reaches its sinks (17 R307-R310). -/
def execRimeRecord (s : State) : Res :=
  .next (match s.records with
    | [] => s
    | r :: rs => (State.sinksFor s r).foldl (fun a n => a.sinkTake n r) { s with records := rs })

/-- A descriptor as the fields that the provider writes (17 R307). DESIGN CHOICE (log 75): the access table gives the counts of drops and
limits, which are RC, no meaning under a write; here a write leaves them. Unsafe. -/
def Sink.write (k : Sink) (d : BitVec 256) : Sink :=
  { k with base := BitVec.ofNat 64 (bits d 255 192), tail := BitVec.ofNat 32 (bits d 159 128),
           stallLimit := BitVec.ofNat 16 (bits d 55 40), log2 := bits d 39 32, threshold := bits d 31 9,
           provider := d.getLsbD 8, paddock := bits d 7 2, lossless := d.getLsbD 1, enable := d.getLsbD 0 }

/-- The limits of a descriptor (17 R307). The threshold's are those of lossless mode. -/
def Sink.legal (k : Sink) : Bool :=
  k.base.toNat % 4096 == 0 && decide (1 ≤ k.stallLimit.toNat) && decide (k.stallLimit.toNat ≤ 10000) &&
    decide (10 ≤ k.log2) && decide (k.log2 ≤ 26) &&
    (!k.lossless || (decide (13 ≤ k.log2) && decide (4096 ≤ k.threshold) && decide (k.threshold ≤ 2 ^ (k.log2 - 1))))

namespace State

/-- Free records have risen: an episode ends when they have reached the threshold again (17 R311, R312). -/
def freed (s : State) (n : Nat) : State :=
  let k := s.sinkAt n
  if k.threshold ≤ k.free ∨ !k.lossless ∨ !k.enable then
    let s1 := if k.stalling then s.stallEnd n else s
    s1.updSink n (fun k => { k with released := false })
  else s

end State

/-- The provider writes a sink descriptor, applied whole or refused whole (17 R307). -/
def execSinkDescriptorWrite (n : Nat) (d : BitVec 256) (s : State) : Res :=
  let k := (s.sinkAt n).write d
  .next (if decide (n < 64) && k.legal then (s.updSink n (fun _ => k)).freed n else s)

/-- A consumer advances a sink's tail (17 R307); an advance past the head is refused (17 R315). -/
def execSinkTailWrite (n : Nat) (v : Word) (s : State) : Res :=
  let k := s.sinkAt n
  .next (if n < 64 ∧ (v - k.tail).toNat ≤ k.used then (s.updSink n (fun k => { k with tail := v })).freed n else s)

/-- An episode outlasts the stall limit (17 R312): record, count, the sources are released, and the sink is lossy until free
records next reach the threshold. -/
def execStallLimit (n : Nat) (s : State) : Res :=
  let k := s.sinkAt n
  .next (if !k.stalling then s
    else
      let (s1, r) := s.sinkOwn n 0x05 (BitVec.ofNat 64 n) (k.stallLimit.setWidth 64)
      ((s1.sinkTake n r).updSink n (fun k => { k with limits := State.satInc k.limits, released := true })).stallEnd n)

/-! ## The time base and PTP (17 R301, 16 R295) -/

namespace State

/-- The last moment at which the time base read t. -/
def absOf (s : State) (t : Dword) : Nat := 2 ^ 64 * (if t.toNat ≤ s.time.toNat then s.timeHigh else s.timeHigh - 1) + t.toNat
/-- Every enabled sink receives an epoch record: its epoch as PTP time in ns, and whether the lock is lost. -/
def epochRecords (s : State) (unlocked : Bool) : State :=
  ((s.sink.filter (fun e => e.2.enable)).map Prod.fst).foldl (fun a n =>
    let (a1, r) := a.sinkOwn n 0x04 (BitVec.ofNat 64 (a.absOf (a.sinkEpoch n) / 256)) (if unlocked then 1 else 0)
    a1.sinkTake n r) s

/-- A correction of the time base in units of 1/256 ns: above 1 ms forward it is a step; every other one is slewed, which the
advance of the time base at each step is free to do (log 3). -/
def correct (s : State) (delta : Int) : State :=
  if 256000000 < delta then s.setAbsTime (s.absTime + delta.toNat) else s

/-- The larger of two beacon values (16 R295). -/
def maxStamp (a b : BitVec 48) : BitVec 48 := if precedes a b then b else a

/-- The module's time in nanoseconds modulo 2^48: PTP time once locked, else the time since release. -/
def nowNs (s : State) : BitVec 48 := BitVec.ofNat 48 (s.absTime / 256)

end State

/-- PTP lock is lost (17 R301): the counters run on, and every enabled sink is told. -/
def execPtpLockLoss (s : State) : Res :=
  .next (({ s with ptpLocked := false }).epochRecords true)

/-- PTP lock is reached (16 R295, 17 R301, 19 R344): ns is the PTP time. At the first lock the beacon becomes the larger of its
value and the PTP time, and the device epoch is set. -/
def execPtpLock (ns : Dword) (s : State) : Res :=
  let s1 := s.correct ((256 * ns.toNat : Int) - s.absTime)
  let s2 := if s.ptpEver then s1
    else { s1 with beacon := State.maxStamp s.beacon (BitVec.ofNat 48 ns.toNat), deviceEpoch := s1.time }
  .next (({ s2 with ptpLocked := true, ptpEver := true }).epochRecords false)

/-- A PTP correction in units of 1/256 ns (17 R301). -/
def execPtpCorrection (delta : Int) (s : State) : Res := .next (s.correct delta)

/-- The beacon (16 R295): it follows the time without decreasing, and every core's clock is raised to at least it. -/
def execBeacon (s : State) : Res :=
  let b := State.maxStamp s.beacon s.nowNs
  .next { s with beacon := b, lamport := (List.range Config.cores).filterMap (fun c =>
    let x := State.maxStamp (Store.get 0 s.lamport c) b
    if x = 0 then none else some (c, x)) }

/-! ## Performance samples (16 R296, R297) -/

/-- PERF_LATCH (16 R296): every counter latches a sample and restarts at zero: the cores of resident paddocks into their paddocks'
rings, L2 slices, routers, ports and memory controllers into the provider's. -/
def execPerfLatch (s : State) : Res :=
  let s1 := ((s.paddock.filter (fun e => e.2.cfg.valid && e.2.resident)).map Prod.fst).foldl (fun a p => a.latchPaddock p) s
  let shared : List (Nat × Nat) := (List.range 256).map (fun i => (1, i)) ++ (List.range 4096).map (fun i => (2, i)) ++
    (List.range 88).map (fun i => (3, i)) ++ (List.range 32).map (fun i => (4, i))
  let s2 := shared.foldl (fun a u => a.sampleInto none u.1 u.2) s1
  .next { s2 with perf := [], perfUnit := [] }

/-! ## Progress samples (16 R293, R294) -/

/-- The number of a wait kind, in the order of 16 R293. -/
def WaitKind.num : WaitKind → Nat
  | .none => 0 | .barrier _ => 1 | .chute _ _ => 2 | .granule _ _ => 3 | .handle _ _ => 3 | .waiter _ => 4 | .timeline _ _ => 5
  | .window _ _ => 6 | .mwait => 7
/-- A wait descriptor as numbers: the kind, and the object waited on. -/
def WaitKind.nums (x : WaitKind) : List Nat :=
  x.num :: (match x with
    | .none => []
    | .barrier k => [match k with
      | .wg => 0
      | .pen => 1
      | .launch => 2]
    | .chute key producer => [key, if producer then 1 else 0]
    | .granule place i => [place, i]
    | .handle key h => [handlePlace key h]
    | .waiter key => [key]
    | .timeline tl n => [tl, n]
    | .window r n => [r, n]
    | .mwait => [])

namespace State

/-- Does every span that has not ended wait. -/
def allWait (w : Wg) : Bool :=
  w.spanNums.all (fun n => w.spanEnded n || decide ((w.spanAt n).descriptor ≠ .none))

/-- The workgroups with operations of the engines on a side. -/
def engineEdges (s : State) (onIt : UnitSide → Bool) : List Nat :=
  (s.async.filter (fun a => a.units.any (fun u => u.st == .pending && (onIt u.src || onIt u.dst)))).map (fun a => a.g)
/-- The workgroups that a wait on a handle names: its owner, and those with operations of the engines on it. -/
def handleEdges (s : State) (key h : Nat) : List Nat :=
  (if (s.wgAt key).res = .none then [] else [key]) ++ s.engineEdges (fun
    | .tile k _ n _ _ _ => k == key && n == h
    | _ => false)
/-- The workgroups that workgroup g's waits name (16 R294). -/
def waitEdges (s : State) (g : Nat) : List Nat :=
  let w := s.wgAt g
  w.spanNums.flatMap (fun n =>
    if w.spanEnded n then []
    else
      match (w.spanAt n).descriptor with
      | .barrier k => ((s.parties g k).filter (fun e => e.2.res != .ended && !wgArrived e.2 k)).map Prod.fst
      | .chute key producer =>
        let c := s.chuteAt key
        (s.wg.filter (fun e => e.2.core == c.core && e.2.paddock == c.paddock && e.2.serial == c.serial && e.2.res != .ended &&
          e.2.res != .none && e.2.stage == (if producer then c.toStage else c.fromStage))).map Prod.fst
      | .granule place _ => if place % 2 = 0 then s.handleEdges (place / 128) (place / 2 % 64)
        else s.engineEdges (fun
          | .chute k _ _ => chutePlace k == place
          | _ => false)
      | .handle key h => s.handleEdges key h
      | _ => [])

/-- Workgroups reachable from a set along edges, in at most n rounds. -/
def reach (es : List (Nat × List Nat)) : Nat → List Nat → List Nat
  | 0, xs => xs
  | n + 1, xs => reach es n ((xs ++ xs.flatMap (fun x => ((es.find? (fun e => e.1 == x)).map Prod.snd).getD [])).eraseDups)

/-- What a sample compares: the four counters of a workgroup, and the last issue of its threads. -/
def progOf (w : Wg) : List Nat :=
  [w.progBar.toNat, w.progChute.toNat, w.progFe.toNat, w.progWaiter.toNat,
    (w.spanNums.map (fun n => (w.spanAt n).lastIssueOf allLanes)).foldl max 0]

/-- Sample one paddock (16 R294): counts of samples between which nothing changed and every span waited, deadlock reports with the wait
descriptors for new cycles, lone reports at the sixteenth. -/
def samplePaddock (s : State) (pkn : Nat) : State :=
  let mine := s.wg.filter (fun e => e.2.paddock == pkn && e.2.res != .ended && e.2.res != .none && e.2.res != .unstarted)
  let old := (s.pk pkn).samples
  let next : Store (List Nat) := mine.map (fun e =>
    let o := Store.get [] old e.1
    let same := o.take 5 == progOf e.2 && allWait e.2 && o.getD 6 0 == 1
    (e.1, progOf e.2 ++ [if same then o.getD 5 0 + 1 else 0, if allWait e.2 then 1 else 0]))
  let count (x : Nat) : Nat := (Store.get [] next x).getD 5 0
  let stuck := next.filter (fun e => decide (0 < e.2.getD 5 0))
  let es := stuck.map (fun e => (e.1, (s.waitEdges e.1).filter (fun x => stuck.any (fun y => y.1 == x))))
  let closure (x : Nat) : List Nat := reach es es.length (((es.find? (fun e => e.1 == x)).map Prod.snd).getD [])
  let cycle (x : Nat) : List Nat := (closure x).filter (fun y => (closure y).contains x)
  let heads := stuck.filter (fun e => (closure e.1).contains e.1 && (cycle e.1).all (fun y => decide (e.1 ≤ y)) &&
    (cycle e.1).any (fun y => count y == 1))
  let s1 := s.updPk pkn (fun p => { p with samples := next, sampledAt := s.absTime })
  let s2 := heads.foldl (fun a e =>
    let c := (cycle e.1).take 16
    let n := (a.pk pkn).reports
    let a1 := (a.updPk pkn (fun p => { p with reports := n + 1 })).emit 0x58 0x0E 0 0 (some pkn) 0xFFFFF false (BitVec.ofNat 64 n)
      (BitVec.ofNat 64 c.length) 0
    let waits (g : Nat) : List Nat := ((a.wgAt g).spanNums.filter (fun n => !(a.wgAt g).spanEnded n)).flatMap (fun n =>
      ((a.wgAt g).spanAt n).descriptor.nums)
    { a1 with outbox := a1.outbox ++ [.firmware 0x58 (n :: c.flatMap (fun g => g :: waits g))] }) s1
  (stuck.filter (fun e => e.2.getD 5 0 == 16)).foldl (fun a e =>
    let w := a.wgAt e.1
    (w.spanNums.filter (fun n => !w.spanEnded n && decide (4 ≤ (w.spanAt n).descriptor.num))).foldl (fun a n =>
      a.emit 0x59 0x0E 0 0 (some pkn) (w.spanAt n).lastStop false (workWord w n) (BitVec.ofNat 64 (w.spanAt n).descriptor.num) 0) a) s2

end State

/-- Is a paddock's sample due: it is resident, its interval has passed since the last one, its sources are not stopped. -/
def State.sampleDue (s : State) (pkn : Nat) : Bool :=
  (s.pk pkn).cfg.valid && !s.timersHeld pkn && decide ((s.pk pkn).sampledAt + 256000 * (s.pk pkn).cfg.sampleUs ≤ s.absTime)

/-- The firmware samples the progress of every paddock whose interval has passed (16 R294, 17 R313). -/
def execProgressSample (s : State) : Res :=
  .next (((s.paddock.map Prod.fst).filter s.sampleDue).foldl (fun a p => a.samplePaddock p) s)

/-! ## Floor windows (14 R258) -/

/-- A pipe's window of 1,024 clocks ends: its grant counts restart. A lossless stall of the core's paddock does not count (17 R313). -/
def execFloorWindow (core pipe : Nat) (s : State) : Res :=
  if s.paddock.any (fun e => e.2.resident && inRect e.2.cfg core && s.sourceStopped e.1) then .next s
  else .next { s with floorCnt := s.floorCnt.filter (fun e => e.1 / 64 != State.floorKey core pipe 0 / 64) }

end Sys2Proof.Machine
end

