-- ==== Sys2Proof/Machine/Fabric.lean ====
section
/-!
DEFINITION. Machine/Fabric.lean: what reaches the device over the pod and over scale-out (19 R336-R342, 15 R276, R277): packets,
acknowledgements, retransmissions, links, keys, tray windows.
-/

namespace Sys2Proof.Machine

/-! ## Packets at the target (10 R180, 19 R339-R341) -/

/-- How many bytes of the window a packet touches, from its offset on: atomics of one line from the first to the last. -/
def packetSize (p : Packet) : Nat :=
  match p.kind with
  | .write bs => bs.length
  | .read n => n
  | .amo rs => (rs.map (fun r => r.off + State.amoSize r.op - p.off % 128)).foldl max 0
  | .dred t _ _ => dtagWidth t
  | .landed n => n
  | .waitq _ | .wake _ => 4
  | .unwait _ | .connect _ => 1
/-- Are the elements that a packet names aligned to their size, and within one line. -/
def packetAligned (p : Packet) : Bool :=
  match p.kind with
  | .amo rs => rs.all (fun r => decide (p.off % 128 ≤ r.off) && decide (r.off + State.amoSize r.op ≤ 128) && r.off % State.amoSize r.op == 0)
  | .dred _ _ _ | .waitq _ | .wake _ => p.off % packetSize p == 0
  | _ => true
/-- How a packet's walk accesses the page. -/
def packetAccess : PacketKind → State.Access
  | .read _ | .waitq _ | .wake _ | .unwait _ => .read
  | _ => .write
/-- The global address that a packet names (01 R12). -/
def packetAddr (p : Packet) : Dword := BitVec.ofNat 64 (2 ^ 63 + 2 ^ 41 * p.rank.toNat + 2 ^ 36 * p.region.toNat + p.off)

/-- What a target answers: it has performed the packet, must wait, refuses it with an error of a kind of 15 R281, or has nothing to answer
yet. -/
inductive Placed where
  | ok (s : State) (data : List Byte)
  | wait (s : State)
  | refused (s : State) (kind : Nat)
  | quiet (s : State)
  deriving DecidableEq, Repr

/-- A number as its four bytes, least significant first. -/
def wordBytes (n : Nat) : List Byte := (List.range 4).map (fun i => BitVec.ofNat 8 (n / 256 ^ i % 256))

namespace State

/-- A packet's payload obeys 19 R339: at most 4,096 bytes, within one 4 KiB page of the window, its elements aligned. -/
def packetOk (p : Packet) : Bool :=
  let n := packetSize p
  decide (1 ≤ n) && decide (n ≤ 4096) && p.off / 4096 == (p.off + n - 1) / 4096 && packetAligned p

/-- The key of a packet is its window's, or the one that a replacement has left valid for 20 µs (19 R341, R346). -/
def keyOk (w : Window) (k : BitVec 16) : Bool := k == w.key || w.oldKey == some k
/-- May a packet be encrypted as it is (19 R341): one of another pod in page mode alone, hop mode where the pod is one trust domain. Page
mode goes by the window's key. -/
def modeOk (s : State) (p : Packet) (w : Window) : Bool :=
  match p.mode with
  | .page => keyOk w p.key
  | .hop => !p.far && s.hopOn
  | .clear => !p.far

/-- An error that this device finds with a packet is logged (01 R18): in the log of the launch that owns the rank, else in every valid
paddock's. The entry's requester is of another device: the core that it names is open (log 80). -/
def logPacket (s : State) (p : Packet) (addr : Dword) (kind : Nat) : State :=
  let own := (s.ownerLaunch p.job p.rank.toNat).map (·.paddock)
  (s.paddock.filter (fun e => e.2.cfg.valid && own.all (fun n => n == e.1))).foldl (fun a e =>
    a.logError e.1 addr none (Config.choose s.steps % 4096) 9 kind 0xFFFFF) s

/-- The lines of a packet that are not free for it yet, at their homes: none of it is performed before all are. -/
def heldLines (s : State) (ps : List (Nat × Nat)) (n : Need) : List Nat :=
  (ps.map (fun q => q.1 / 128)).filter (fun line =>
    match (if n = .home then s.quietHome line 0x1FFF else if s.reservedFor 0x1FFF line then .ok s else s.quietFor line n : HomeAns) with
    | .wait _ => true
    | _ => false)

/-- Write bytes at their homes, line by line, for the paddock pk; none when a line is poisoned. A whole line is written as one (11
R189). -/
def placeBytesAt (s : State) (pk : Nat) (ps : List (Nat × Nat)) (x : Nat) : HomeAns :=
  (ps.foldl (fun (a : HomeAns × Nat) q =>
    match a.1 with
    | .ok t =>
      (if q.2 = 128 then t.wrLineHome 0x1FFF (q.1 / 128) (some pk) (BitVec.ofNat 1024 a.2)
       else t.homeLine 0x1FFF (q.1 / 128) (some pk) (fun d => setLineBytes d (q.1 % 128) q.2 a.2), a.2 / 256 ^ q.2)
    | r => (r, a.2)) (.ok s, x)).1

/-- Read bytes at their homes, line by line. -/
def fetchBytesAt (s : State) (pk : Nat) (ps : List (Nat × Nat)) : HomeAns × List Byte :=
  ps.foldl (fun (a : HomeAns × List Byte) q =>
    match a.1 with
    | .ok t =>
      (match t.loadHome 0x1FFF (q.1 / 128) (some pk) with
        | .ok u => if (u.dirAt (q.1 / 128)).state = .P then (.err, [])
            else (.ok u, a.2 ++ (List.range q.2).map (fun i => BitVec.ofNat 8 (u.viewBytes (q.1 + i) 1)))
        | r => (r, []))
    | r => (r, [])) (.ok s, [])

/-- A drift contribution that arrives by itself from another device of the pod (13 R246): added into the home drift buffer, which the
line enters with its base when it is not in D under the tag. -/
def dredHome (s : State) (pk line : Nat) (t : DTag) (e : Nat) (x : Dword) : HomeAns :=
  let add (d : DirEntry) : DirEntry := { d with accs := Store.set 0 d.accs e (accAdd t (Store.get 0 d.accs e) (accOf t x)) }
  let d := s.dirAt line
  let mine := s.reservedFor 0x1FFF line
  match (if mine then .ok s else s.quietFor line (.drift t) : HomeAns) with
  | .err => .err
  | .wait s' => .wait s'
  | .ok _ =>
    if d.state = .D ∧ d.tag = t then .ok (s.setDir line (add d))
    else if d.state ≠ .D ∧ !s.driftRoom line then .wait s
    else
      let s1 := s.roomAt line 0x1FFF (some pk)
      let b := s1.dirAt line
      if b.state = .P then .err
      else .ok (s1.setDir line (add { b with state := .D, tag := t, accs := s1.entryAccs line t }))

/-- The request that a packet makes of a line's home, by its code. -/
def packetReq (p : Packet) (whole : Bool) : ReqCode :=
  match p.kind with
  | .read _ | .waitq _ | .wake _ => .getS
  | .amo _ => .amo
  | .dred _ _ _ => .drGet
  | _ => if whole then .wrLine else .getX
/-- The records of the home slices that have served a packet (17 R306; log 22): under no paddock of this device. -/
def packetRecords (s0 s1 : State) (p : Packet) (ps : List (Nat × Nat)) : State :=
  ps.foldl (fun a q => tracePeer s0 a (q.1 / 128) (p.peer % 8192) (packetReq p (q.2 == 128)) p.stamp) s1

/-- The records of the amo.fadd.f32 operations that a home performs for another device (11 R196; log 22): from the home slice, under no
paddock. -/
def faddFar (s : State) (p : Packet) (line : Nat) : State :=
  match p.kind with
  | .amo rs => (rs.filter (fun r => r.op == .fadd32)).foldl (fun a _ =>
      a.emitHome 0x4A 0x07 line none 0xFFFFF true (BitVec.ofNat 64 (p.peer % 8192)) p.stamp) s
  | _ => s

/-- The job in whose name a packet meets waiter queues (14 R262). -/
def packetJob (p : Packet) : Nat := if p.job = 0 then 65536 + 64 + p.peer else p.job.toNat
/-- The check of a pod peer's waitq at the word's home (14 R262): 0 when the word differs, 2 when no header is free, else a node that a
wake answers. The header counts in the table of the window's paddock (log 31). -/
def peerWait (s : State) (pk pa : Nat) (p : Packet) (x : Word) : Placed :=
  let key := waiterKey pa (packetJob p)
  let node := peerNode p.peer p.tag
  match s.loadHome 0x1FFF (pa / 128) (some pk) with
  | .err => .refused s 1
  | .wait s1 => .wait s1
  | .ok s1 =>
    if (s1.dirAt (pa / 128)).state = .P then .refused s1 1
    else if s1.viewBytes pa 4 ≠ x.toNat then .ok s1 [0]
    else
      match s1.queueAt key with
      | none =>
        if Config.waiterHeaders ≤ (s1.waitq.filter (fun q => q.paddock == pk)).length then .ok s1 [2]
        else .quiet { s1 with waitq := s1.waitq ++ [(⟨key, pa, packetJob p, pk, [node]⟩ : WaitQueue)] }
      | some _ => .quiet { s1 with waitq := s1.waitq.map (fun (q : WaitQueue) =>
          if q.key = key then { q with nodes := if q.nodes.contains node then q.nodes else q.nodes ++ [node] } else q) }
/-- The node of a peer's earlier request is taken away: its workgroup has ended (14 R262). -/
def dropPeer (s : State) (peer tag : Nat) : State :=
  let kept (q : WaitQueue) : WaitQueue := { q with nodes := q.nodes.filter (fun n => n != peerNode peer tag) }
  { s with waitq := (s.waitq.map kept).filter (fun q => q.nodes ≠ []) }

/-- The physical address of byte i of pieces. -/
def byteAt : List (Nat × Nat) → Nat → Nat
  | [], _ => 0
  | (pa, n) :: ps, i => if i < n then pa + i else byteAt ps (i - n)
/-- The physical addresses at which the granules of a write lie whose carriage codes prove wrong (19 R340). -/
def badGranules (p : Packet) (bs : List Byte) (ps : List (Nat × Nat)) : List Nat :=
  let codes := carriageCodes (packetAddr p) bs
  ((List.range codes.length).filter (fun g => p.codes[g]? != codes[g]?)).map (fun g => byteAt ps (16 * g - p.off % 16))
/-- A write whose carriage check fails at this target (11 R188, 19 R340): the lines of its bad granules are poisoned, each granule is
logged, nothing is written or counted. -/
def failWrite (s : State) (p : Packet) (bad : List Nat) : State :=
  (bad.map (· / 128)).eraseDups.foldl enterP (bad.foldl (fun a pa => a.logPacket p (BitVec.ofNat 64 (pa / 16 * 16)) 0) s)

/-- What the performing of a packet at pieces of physical memory, of window wi of paddock pk, answers. -/
def performPacket (s : State) (p : Packet) (pk wi : Nat) (ps : List (Nat × Nat)) : Placed :=
  let pa := byteAt ps 0
  let line := pa / 128
  let put (a : HomeAns) (f : State → State) (data : List Byte) : Placed := match a with
    | .ok t => .ok (f (packetRecords s t p ps)) data
    | .wait t => .wait t
    | .err => .refused s 1
  match p.kind with
  | .landed n => .quiet (s.landed pk wi n)
  | .wake n =>
    let r := s.wakeQueue (waiterKey pa (packetJob p)) n (s.fromHome 0 line).clock
    .ok r.1 (wordBytes r.2)
  | .write bs =>
    match badGranules p bs ps with
    | [] => put (s.placeBytesAt pk ps (bytesNat bs)) (fun t => t.landed pk wi bs.length) []
    | bad => .refused (s.failWrite p bad) 0
  | .read _ => let r := s.fetchBytesAt pk ps; put r.1 id r.2
  | .amo rs =>
    let a := s.amoHome 0x1FFF line (some pk) rs
    put a.1 (fun t => t.faddFar p line) ((rs.zip a.2).flatMap (fun e => (List.range (amoSize e.1.op)).map (fun i =>
      BitVec.ofNat 8 (e.2 / 256 ^ i % 256))))
  | .dred t _ x => put (s.dredHome pk line t (pa % 128 / dtagWidth t) x) id []
  | .waitq x => s.peerWait pk pa p x
  | .unwait tag => .quiet (s.dropPeer p.peer tag)
  | .connect _ => .refused s 5

/-- The walk of the bytes of a packet in a window's extent, page by page (10 R180): their pieces of physical memory. -/
def packetPieces (s : State) (l : Launch) (va n : Nat) (acc : Access) : State × Look (List (Nat × Nat)) :=
  let first := min n (2 ^ 19 - va % 2 ^ 19)
  match s.translateL2 (dieOf l.home) l.asid va acc false with
  | (s1, .error c) => (s1, .error c)
  | (s1, .fail k line) => (s1, .fail k line)
  | (s1, .wait line) => (s1, .wait line)
  | (s1, .ok x) =>
    if first = n then (s1, .ok (pieces 34 x.pa n))
    else
      match s1.translateL2 (dieOf l.home) l.asid (va + first) acc false with
      | (s2, .error c) => (s2, .error c)
      | (s2, .fail k line) => (s2, .fail k line)
      | (s2, .wait line) => (s2, .wait line)
      | (s2, .ok y) => (s2, .ok (pieces 34 x.pa first ++ pieces 34 y.pa (n - first)))

/-- A packet at its target (10 R180): the authentication tag, the owner of (job, rank), its window, the key, the walk under the owner's
ASID, then the homes; while a line of it is not free none of it is performed, and the lines are asked for. -/
def placePacket (s : State) (p : Packet) : Placed :=
  if !p.auth then .refused (s.logPacket p (packetAddr p) 0) 0
  else
    match s.ownerLaunch p.job p.rank.toNat with
    | none => .refused s 5
    | some l =>
      match s.windowOf l.paddock l.serial p.region.toNat with
      | none => .refused s 5
      | some (wi, w) =>
        let n := packetSize p
        if !packetOk p || decide (w.size < p.off + n) || !s.modeOk p w then .refused s 5
        else
          match s.packetPieces l (w.base.toNat + p.off) n (packetAccess p.kind) with
          | (s1, .error _) => .refused s1 5
          | (s1, .fail k _) => .refused s1 k
          | (s1, .wait _) => .wait s1
          | (s1, .ok ps) =>
            let need : Need := match p.kind with
              | .read _ | .waitq _ => .read
              | .dred t _ _ => .drift t
              | _ => .home
            let held := match p.kind with
              | .landed _ | .wake _ | .unwait _ => []
              | _ => s1.heldLines ps need
            match ps.find? (fun q => s1.unreachable q.1) with
            | some q => .refused s1 (downKind q.1)
            | none =>
              if held ≠ [] then .wait (held.foldl (fun a line => a.askHome 0x1FFF line need) s1)
              else s1.performPacket p l.paddock wi ps

/-- The congestion state of a distance class changes as answers come back (15 R276): by what is free (log 33). -/
def congested (s : State) (r : RemoteReq) : State :=
  if !r.scaleOut then s
  else
    let q := s.pk r.paddock
    let i := ((q.rankRange.find? (fun e => e.2.getLsbD 127 && decide (bits e.2 21 0 ≤ r.packet.rank.toNat) &&
      decide (r.packet.rank.toNat < bits e.2 21 0 + bits e.2 44 22))).map Prod.fst).getD 0
    { s with congestion := Store.set 0 s.congestion (Store.get 0 q.rankClass i % 4) (Config.outside s.steps) }

end State

/-- A packet from another device (19 R339): placed into its window and acknowledged, refused with code 0A, or kept until the lines it names
are free. At the setup of a connection reliable unordered delivery is accepted, the other services are refused. An acknowledgement within
the pod carries this device's stamp (17 R302). -/
def execRemotePacket (p : Packet) (s : State) : Res :=
  let s0 := { s with inbox := s.inbox.erase p }
  let silent := match p.kind with
    | .landed _ | .unwait _ => true
    | _ => false
  let ack (s1 : State) (c : Byte) (kind : Nat) (data : List Byte) : State :=
    let stamp := if p.far then 0 else s1.deviceStamp
    if silent then s1 else { s1 with outbox := s1.outbox ++ [OutMsg.ack p.peer p.tag c kind stamp data] }
  .next (match p.kind with
    | .connect 0 => ack { s0 with connected := if s0.connected.contains p.peer then s0.connected else s0.connected ++ [p.peer] } 0 0 []
    | .connect _ => ack s0 0x0A 5 []
    | _ =>
      match s0.placePacket p with
      | .ok s1 data => ack s1 0 0 data
      | .refused s1 kind => ack s1 0x0A kind []
      | .wait s1 => { s1 with inbox := s1.inbox ++ [p] }
      | .quiet s1 => s1)

/-! ## Acknowledgements at the initiator (11 R212, 16 R291) -/

namespace State

/-- The port that has received an answer to a kept packet. -/
def remoteSrc (s : State) (r : RemoteReq) : Source := portSrc s.steps r.die (if r.scaleOut then 2 else 1)
/-- An error response that a port has received: log entry and record, after the stamp that it carries (01 R18, 17 R302, R306). -/
def logRemote (s : State) (r : RemoteReq) (kind : Nat) (stamp : Dword) : State :=
  let q := s.remoteSrc r
  (s.logError r.paddock r.addr (s.launchAt (2 ^ 32 * r.paddock + r.serial.toNat)).rank r.core 10 kind r.ordinal).emit
    0x4B q.1 q.2.1 q.2.2 (some r.paddock) r.ordinal false r.addr (BitVec.ofNat 64 (10 + 256 * kind)) stamp

/-- Bytes of a kept packet are acknowledged. -/
def countAck (s : State) (r : RemoteReq) : State :=
  if r.counts then s.acked r.paddock r.serial (bits r.addr 40 36) r.size else s

/-- The answer to a load or atomic of an issue set reaches the instruction that waits for it. -/
def answerLoad (s : State) (tag : Nat) (ans : Answer) : State :=
  let got (x : Sent) : Sent := if 2 ^ 58 ≤ x.line ∧ x.req = tag then { x with resp := some ans } else x
  { s with wg := Store.mapVals Wg.none (fun _ w =>
      { w with span := Store.mapVals Span.fresh (fun _ sp =>
          { sp with memWait := sp.memWait.map (fun m => { m with sent := m.sent.map got }) }) w.span }) s.wg }

end State

/-- An acknowledgement (11 R212, 16 R291): a put unit or store counts and lands, a get unit brings its data, a refusal of a unit is
code 0A, which ends the operation in error and is logged. A store that was accepted can fail afterwards: its bytes do not count, an entry
of the answer's kind is logged, its thread is not faulted (11 R188). The answer to a load, or to a waitq or wake of a pod peer's word,
reaches the issue set that waits for it (14 R262). -/
def execRemoteAck (a : PacketAck) (s : State) : Res :=
  .next (match s.remote.find? (fun r => r.tag == a.tag) with
    | none => s
    | some r =>
      let s0 := { s with remote := s.remote.filter (fun x => x.tag != a.tag) }.congested r
      match a.body with
      | .waiter v => s0.answerWaiter a.tag a.code v
      | .load data => s0.answerLoad a.tag (if a.code = 0 then .bytes data else .err a.kind)
      | .store => if a.code = 0 then s0.countAck r else s0.logRemote r a.kind a.stamp
      | .unit n u data =>
        match (s0.asyncAt n).bind (fun op => op.units[u]?) with
        | none => s0
        | some x =>
          if x.sent ≠ some a.tag then (if a.code = 0 then s0.countAck r else s0.failOp n 0x0A r.addr a.kind (some (s0.remoteSrc r)))
          else if a.code ≠ 0 then s0.failUnit n u 0x0A r.addr a.kind (some (s0.remoteSrc r))
          else
            match r.packet.kind with
            | .read _ => s0.updAsync n (fun op =>
                { op with units := op.units.modify u (fun y => { y with src := .data (bytesNat data), sent := none }) })
            | _ => (s0.countAck r).settle n u .landed)

/-- A scale-out port resends a packet that was not acknowledged (15 R276), with its record; no request of a paddock caused it
(17 R309). -/
def execRetransmission (die seq : Nat) (s : State) : Res :=
  .next (match s.remote.find? (fun r => r.tag == seq && r.die == die && r.scaleOut) with
    | none => s
    | some r =>
      { (s.emit 0x41 0x0B die die none 0xFFFFF false (BitVec.ofNat 64 seq) (r.packet.rank.setWidth 64) 0) with
        outbox := s.outbox ++ [.packet r.packet] })

/-! ## Links (19 R334, R336-R338) -/

/-- The unit class, source index and die of a port: scale-up ports 0–71, scale-out ports 72–87, one for each die. -/
def portSource (n : Nat) : Nat × Nat × Nat := if n < 72 then (0x0A, n, 0) else (0x0B, n - 72, n - 72)

namespace State

/-- Set a port's link state, with its record (17 R306). -/
def setLink (s : State) (n st : Nat) : State :=
  let u := portSource n
  let s1 := { s with port := Store.upd Port.reset s.port n (fun p => { p with link := st }) }
  if n < 88 then s1.emit 0x40 u.1 u.2.1 u.2.2 none 0xFFFFF false (BitVec.ofNat 64 st) 0 0 else s1

/-- A global link's bit of the group's path-quality bitmap follows its port (15 R276, 19 R336; log 33). -/
def setPath (s : State) (n : Nat) (up : Bool) : State :=
  if 62 ≤ n ∧ n < 72 then
    let L := 10 * s.slotId + (n - 62)
    { s with pathBits := Store.upd 0 s.pathBits s.groupId (fun b =>
        if up then b ||| BitVec.twoPow 320 L else b &&& ~~~(BitVec.twoPow 320 L)) }
  else s

/-- The slot that a local port goes to (19 R336). -/
def portSlot (s : State) (n : Nat) : Nat := 32 * s.groupId + (if n / 2 < s.slotId then n / 2 else n / 2 + 1)

end State

/-- A link reports down (19 R334, R338): a module's agents are lost, a device whose last link is down is lost, other traffic moves
to other paths. Ports 88 to 91 are the UCIe modules. -/
def execLinkDown (n : Nat) (s : State) : Res :=
  .next (if 92 ≤ n ∨ (Store.get Port.reset s.port n).link = 0 then s
    else
      let s1 := (s.setLink n 0).setPath n false
      if 88 ≤ n then (List.range 4).foldl (fun a i => a.declareLost (.agent (4 * (n - 88) + i))) s1
      else if n < 62 ∧ !s1.portUp (2 * (n / 2)) ∧ !s1.portUp (2 * (n / 2) + 1) then s1.declareLost (.device (s1.portSlot n))
      else s1)

/-- A link completes training (17 R306): up, under a new hop-mode key where the pod is one trust domain (19 R341); parties behind it are no longer lost (log 33). -/
def execLinkUp (n : Nat) (s : State) : Res :=
  .next (if 92 ≤ n then s
    else
      let s1 := (s.setLink n 2).setPath n true
      let s2 := if n < 72 then
          { s1 with port := Store.upd Port.reset s1.port n (fun p => { p with hopKey := if s.hopOn then p.hopKey + 1 else 0, flits := 0 }) }
        else s1
      let back : Party → Bool := fun q => match q with
        | .agent m => 88 ≤ n && m / 4 == n - 88
        | .device k => n < 62 && k == s2.portSlot n
        | .core _ => false
      { s2 with lost := s2.lost.filter (fun q => !back q)
                slotDown := if n < 62 ∧ s2.lost.contains (.device (s2.portSlot n)) then s2.slotDown.filter (fun k => k != s2.portSlot n)
                            else s2.slotDown })

/-- A scale-up link has carried 2^48 flits under one hop-mode key (19 R341): it is retrained, and the firmwares set a new key. -/
def execHopKeyChange (n : Nat) (s : State) : Res :=
  .next (if 72 ≤ n ∨ (Store.get Port.reset s.port n).hopKey = 0 ∨ (Store.get Port.reset s.port n).flits < 2 ^ 48 then s
    else
      let s1 := (s.setLink n 1).setLink n 2
      { s1 with port := Store.upd Port.reset s1.port n (fun p => { p with hopKey := p.hopKey + 1, flits := 0 }) })

/-! ## Window keys and tray windows (19 R341, R342, R346) -/

namespace State

/-- Change a valid window. -/
def updWindow (s : State) (pkn w : Nat) (f : Window → Window) : State :=
  if (Store.get Window.none (s.pk pkn).window w).valid then
    s.updPk pkn (fun p => { p with window := Store.upd Window.none p.window w f })
  else s

end State

/-- The supervisor replaces a window's key number; the old one stays good for 20 µs, and packets are counted anew under the new key (19 R341,
R346). -/
def execWindowKeyReplace (pkn w : Nat) (key : BitVec 16) (s : State) : Res :=
  .next (if (Store.get Window.none (s.pk pkn).window w).valid then
      { s with pktCount := s.pktCount.filter (fun e => e.1 != key.toNat) }.updWindow pkn w (fun x => { x with oldKey := some x.key, key := key })
    else s)
/-- Twenty microseconds after a key's replacement the old one is refused (19 R346). -/
def execOldKeyTimeout (pkn w : Nat) (s : State) : Res :=
  .next (s.updWindow pkn w (fun x => { x with oldKey := none }))
/-- After 1,024 responses below load 12 the window of a tray doubles, up to its limit (19 R342). -/
def execTrayWindowDouble (slot : Nat) (s : State) : Res :=
  .next (if (Store.get TrayWindow.reset s.tray slot).lows < 1024 then s
    else { s with tray := Store.upd TrayWindow.reset s.tray slot (fun t => { t with size := min t.limit (2 * t.size), lows := 0 }) })

end Sys2Proof.Machine
end

