-- ==== Sys2Proof/Machine/Scalar.lean ====
section
/-!
DEFINITION. Machine/Scalar.lean: class 0, scalar and control instructions (07 R102-R122).
-/

namespace Sys2Proof.Machine

/-- s[sd] := f(s[sa], b) (07 R104). -/
def scalarBin (d a : BitVec 6) (b : SOp) (f : Dword → Dword → Dword) (s : State) : Res :=
  done (s.updSpan (fun sp => sp.setS d (f (sp.sr a) (sp.opB b))))
/-- s[sd] := f(b). -/
def scalarUn (d : BitVec 6) (b : SOp) (f : Dword → Dword) (s : State) : Res :=
  done (s.updSpan (fun sp => sp.setS d (f (sp.opB b))))
/-- A shift count b[5:0]. -/
def shCount (b : Dword) : Nat := b.toNat % 64
/-- Bits [127:64] of the signed product. -/
def mulHighS (a b : Dword) : Dword := BitVec.ofInt 64 (a.toInt * b.toInt / 2 ^ 64)
/-- Bits [127:64] of the natural product. -/
def mulHighN (a b : Dword) : Dword := BitVec.ofNat 64 (a.toNat * b.toNat / 2 ^ 64)

/-- snop: no change of state (07 R104). -/
def execSnop (s : State) : Res := done s
/-- sadd (07 R104). -/
def execSadd (d a : BitVec 6) (b : SOp) (s : State) : Res := scalarBin d a b (fun x y => x + y) s
/-- ssub (07 R104). -/
def execSsub (d a : BitVec 6) (b : SOp) (s : State) : Res := scalarBin d a b (fun x y => x - y) s
/-- smul: the low 64 bits of the product (07 R104). -/
def execSmul (d a : BitVec 6) (b : SOp) (s : State) : Res := scalarBin d a b (fun x y => x * y) s
/-- smulh (07 R104). -/
def execSmulh (d a : BitVec 6) (b : SOp) (s : State) : Res := scalarBin d a b mulHighS s
/-- smulhn (07 R104). -/
def execSmulhn (d a : BitVec 6) (b : SOp) (s : State) : Res := scalarBin d a b mulHighN s
/-- sand (07 R104). -/
def execSand (d a : BitVec 6) (b : SOp) (s : State) : Res := scalarBin d a b (fun x y => x &&& y) s
/-- sor (07 R104). -/
def execSor (d a : BitVec 6) (b : SOp) (s : State) : Res := scalarBin d a b (fun x y => x ||| y) s
/-- sxor (07 R104). -/
def execSxor (d a : BitVec 6) (b : SOp) (s : State) : Res := scalarBin d a b (fun x y => x ^^^ y) s
/-- sshl (07 R104). -/
def execSshl (d a : BitVec 6) (b : SOp) (s : State) : Res := scalarBin d a b (fun x y => x <<< shCount y) s
/-- sshr (07 R104). -/
def execSshr (d a : BitVec 6) (b : SOp) (s : State) : Res := scalarBin d a b (fun x y => x >>> shCount y) s
/-- ssar (07 R104). -/
def execSsar (d a : BitVec 6) (b : SOp) (s : State) : Res := scalarBin d a b (fun x y => x.sshiftRight (shCount y)) s
/-- smin (07 R104). -/
def execSmin (d a : BitVec 6) (b : SOp) (s : State) : Res := scalarBin d a b (sMinMax false) s
/-- smax (07 R104). -/
def execSmax (d a : BitVec 6) (b : SOp) (s : State) : Res := scalarBin d a b (sMinMax true) s
/-- sminn (07 R104). -/
def execSminn (d a : BitVec 6) (b : SOp) (s : State) : Res := scalarBin d a b (uMinMax false) s
/-- smaxn (07 R104). -/
def execSmaxn (d a : BitVec 6) (b : SOp) (s : State) : Res := scalarBin d a b (uMinMax true) s
/-- smov (07 R105). -/
def execSmov (d : BitVec 6) (b : SOp) (s : State) : Res := scalarUn d b (fun x => x) s
/-- smovk: the literal, zero-extended or with .sx sign-extended (07 R105). -/
def execSmovk (d : BitVec 6) (sx : BitVec 1) (lit : Word) (s : State) : Res :=
  done (s.updSpan (fun sp => sp.setS d (if sx = 1#1 then lit.signExtend 64 else lit.setWidth 64)))
/-- smovkh: the literal into bits [63:32] (07 R105). -/
def execSmovkh (d : BitVec 6) (lit : Word) (s : State) : Res :=
  done (s.updSpan (fun sp => sp.setS d (lit ++ (sp.sr d).extractLsb' 0 32)))
/-- The result of scmp: signed, or natural when n is set (07 R106). -/
def scmpResult (n : BitVec 1) (c : BitVec 3) (x y : Dword) : Bool :=
  if n = 1#1 then condN c.toNat x y else condS c.toNat x y
/-- scmp to a scalar register (07 R106). -/
def execScmp (n : BitVec 1) (c : BitVec 3) (d a : BitVec 6) (b : SOp) (s : State) : Res :=
  scalarBin d a b (fun x y => if scmpResult n c x y then 1 else 0) s
/-- scmp to a predicate: the bits of the lanes of S (07 R106). -/
def execScmpP (n : BitVec 1) (c : BitVec 3) (q : BitVec 3) (a : BitVec 6) (b : SOp) (s : State) : Res :=
  done (s.updSpan (fun sp => sp.setP q s.lanes (if scmpResult n c (sp.sr a) (sp.opB b) then allLanes else 0)))
/-- ssel (07 R107). -/
def execSsel (all : BitVec 1) (q : BitVec 3) (d a : BitVec 6) (b : SOp) (s : State) : Res :=
  done (s.updSpan (fun sp =>
    let m := sp.pr q &&& s.lanes
    let c := if all = 1#1 then m == s.lanes else m != 0
    sp.setS d (if c then sp.sr a else sp.opB b)))
/-- sfromv: one lane of a vector register or pair (07 R108). -/
def execSfromv (w64 hi : BitVec 1) (lo d : BitVec 6) (b : SOp) (s : State) : Res :=
  done (s.updSpan (fun sp =>
    let r := (hi ++ lo : BitVec 7).toNat
    let l := (sp.opB b).toNat % 32
    sp.setS d (if w64 = 1#1 then sp.pair r l else (sp.vr r l).setWidth 64)))
/-- sballot (07 R109). -/
def execSballot (d : BitVec 6) (q : BitVec 3) (s : State) : Res :=
  done (s.updSpan (fun sp => sp.setS d ((sp.pr q &&& s.lanes).setWidth 64)))
/-- spopc (07 R109). -/
def execSpopc (d : BitVec 6) (b : SOp) (s : State) : Res := scalarUn d b (fun x => BitVec.ofNat 64 (popCount x)) s
/-- sclz (07 R109). -/
def execSclz (d : BitVec 6) (b : SOp) (s : State) : Res := scalarUn d b (fun x => BitVec.ofNat 64 (leadZeros x)) s

/-- b: every lane of S takes the target (07 R111). -/
def execBr (lit : Word) (s : State) : Res := done (s.setTargets s.lanes (fun _ => s.branchTarget lit))
/-- bz (07 R111). -/
def execBz (a : BitVec 6) (lit : Word) (s : State) : Res :=
  if s.span.sr a = 0 then done (s.setTargets s.lanes (fun _ => s.branchTarget lit)) else done s
/-- bnz (07 R111). -/
def execBnz (a : BitVec 6) (lit : Word) (s : State) : Res :=
  if s.span.sr a = 0 then done s else done (s.setTargets s.lanes (fun _ => s.branchTarget lit))
/-- bp: the lanes of S whose bit of pN is set, or clear with .not, take the target (07 R112). -/
def execBp (neg : BitVec 1) (q : BitVec 3) (lit : Word) (s : State) : Res :=
  let T := s.lanes &&& (if neg = 1#1 then ~~~(s.span.pr q) else s.span.pr q)
  done (s.setTargets T (fun _ => s.branchTarget lit))
/-- call: the fall-through address to s[sd], and the target (07 R113). -/
def execCall (d : BitVec 6) (lit : Word) (s : State) : Res :=
  done ((s.updSpan (fun sp => sp.setS d s.nextPc)).setTargets s.lanes (fun _ => s.branchTarget lit))
/-- A jump to the address in a scalar register: code 04 on a non-canonical one (07 R113). -/
def jumpTo (a : BitVec 6) (s : State) : Res :=
  let t := s.span.sr a
  if bits t 63 48 ≠ 0 then fault 0x04 t s else done (s.setTargets s.lanes (fun _ => t))
/-- ret (07 R113). -/
def execRet (a : BitVec 6) (s : State) : Res := jumpTo a s
/-- bi (07 R113). -/
def execBi (a : BitVec 6) (s : State) : Res := jumpTo a s
/-- exit: the threads of S end at the clause end (07 R114). -/
def execExit (s : State) : Res :=
  done (s.updSpan (fun sp => sp.updClause s.lanes (fun c => { c with exiting := true })))
/-- yield: S counts as the issue set that issued most recently (07 R115). -/
def execYield (s : State) : Res :=
  done (s.updSpan (fun sp => sp.updClause s.lanes (fun c => { c with yielded := true })))

/-- mset (07 R119): code 02 when another mask holds the address for a lane of S, or jN another address. -/
def execMset (j : BitVec 3) (lit : Word) (s : State) : Res :=
  match s.span.enrolIn j.toNat s.lanes (s.branchTarget lit) with
  | none => fault 0x02 0 s
  | some sp => done (s.updSpan (fun _ => sp))
/-- mstrike (07 R120). -/
def execMstrike (j : BitVec 3) (s : State) : Res := 
  done ((s.updSpan (fun sp => sp.strike j.toNat s.lanes)).releaseCheck s.focus.g s.focus.sp)
/-- mget: each lane's mr to the pair 2·d (07 R121). -/
def execMget (d : BitVec 6) (s : State) : Res :=
  done (s.updSpan (fun sp => sp.mapPair s.lanes (2 * d.toNat) (fun l => (sp.laneAt l).mr)))
/-- mput: the pair 2·a to each lane's mr (07 R121). -/
def execMput (a : BitVec 6) (s : State) : Res :=
  done (s.updSpan (fun sp => sp.updLanes s.lanes (fun l la => { la with mr := sp.pair (2 * a.toNat) l })))
/-- jread: held and enrolled threads of jN (07 R122). -/
def execJread (d : BitVec 6) (j : BitVec 3) (s : State) : Res :=
  done (s.updSpan (fun sp => sp.setS d ((sp.jm j.toNat).held ++ (sp.jm j.toNat).enrol)))
/-- jread.addr: the meeting address of jN (07 R122). -/
def execJreadAddr (d : BitVec 6) (j : BitVec 3) (s : State) : Res :=
  done (s.updSpan (fun sp => sp.setS d (sp.jm j.toNat).addr))

end Sys2Proof.Machine
end

