-- ==== Sys2Proof/Machine/Readback.lean ====
section
/-!
DEFINITION. Machine/Readback.lean: every unit's state as double words, which readback gives (01 R19, 13 R232, 15 R283). Which double word
an offset of a unit names is free (log 23); here each piece of state is written out as a list of numbers.
-/

namespace Sys2Proof.Machine

/-! ## Pieces of state as words -/

/-- A flag as a word. -/
def bitW (b : Bool) : List Nat := [if b then 1 else 0]
/-- The n low double words of a number, least significant first. -/
def wideW (n x : Nat) : List Nat := (List.range n).map (fun i => x / 2 ^ (64 * i) % 2 ^ 64)
/-- What may be absent. -/
def optW {α : Type} (f : α → List Nat) : Option α → List Nat
  | none => [0]
  | some x => 1 :: f x
/-- A list, after its length. -/
def listW {α : Type} (f : α → List Nat) (xs : List α) : List Nat := xs.length :: xs.flatMap f
/-- A numbered store. -/
def storeW {α : Type} (f : α → List Nat) (m : Store α) : List Nat := listW (fun e => e.1 :: f e.2) m
/-- A number. -/
def natW (n : Nat) : List Nat := [n]

/-- A line's data. -/
def lineW (d : LineData) : List Nat := wideW 16 d.toNat
/-- Accumulators, as their exact image (06 R98). -/
def accsW (m : Store Acc) : List Nat := storeW (fun a => wideW 5 a.toNat) m
/-- An operator tag. -/
def tagW (t : DTag) : List Nat := [t.op.toNat, t.q.toNat]
/-- An issue set. -/
def refW (q : SpanRef) : List Nat := [q.g, q.sp, q.lanes.toNat]
/-- A stage-workgroup's name. -/
def idW (i : WgId) : List Nat := [i.paddock, i.serial.toNat, i.stage, i.lin]
/-- The number of an operation on memory. -/
def amoNum : AmoOp → Nat
  | .add32 => 0 | .add64 => 1 | .min32 => 2 | .minn32 => 3 | .min64 => 4 | .max32 => 5 | .maxn32 => 6 | .max64 => 7 | .and32 => 8 | .or32 => 9
  | .xor32 => 10 | .swap32 => 11 | .cas32 => 12 | .cas64 => 13 | .fadd32 => 14
/-- An atomic or reduction. -/
def amoW (r : AmoReq) : List Nat := [amoNum r.op, r.off, r.x.toNat, r.c.toNat]
/-- A message's header. -/
def hdrW (h : Hdr) : List Nat :=
  [h.src.toNat, h.dst.toNat, h.line, h.clock.toNat, h.stamp.toNat, h.req, h.ord.toNat, h.kind, h.load] ++ bitW h.pod ++ bitW h.sc ++ optW natW h.pk
/-- A message's body (13 R236). -/
def bodyW : Msg → List Nat
  | .getS => [0] | .getX => [1] | .upg => [2] | .drGet t => 3 :: tagW t | .amo rs => 4 :: listW amoW rs | .wrLine d => 5 :: lineW d
  | .putE => [6] | .putM d => 7 :: lineW d | .putO d => 8 :: lineW d | .inv => [9] | .fwdS q => [10, q.toNat] | .fwdX q => [11, q.toNat]
  | .recall => [12] | .merge => [13] | .data d x => 14 :: bitW x ++ lineW d | .grant => [15] | .grantD t => 16 :: tagW t
  | .invAck b => 17 :: bitW b | .fwdAck d => 18 :: optW lineW d | .putAck => [19] | .redAck n => [20, n] | .err b => 21 :: bitW b
  | .redOp rs n => 22 :: n :: listW amoW rs | .drPart t a n => 23 :: n :: tagW t ++ accsW a
/-- A message. -/
def msgW (m : Hdr × Msg) : List Nat := hdrW m.1 ++ bodyW m.2

/-- The number of a cache state, in the order of 13 R231 and R240. -/
def cacheNum : CacheState → Nat
  | .I => 0 | .S => 1 | .E => 2 | .M => 3 | .O => 4 | .D => 5 | .IS => 6 | .IM => 7 | .SM => 8 | .OM => 9 | .ID => 10 | .MI => 11 | .EI => 12 | .II => 13
/-- A line in a cache: its state and data, its tags, its accumulators. -/
def cacheW (c : CacheLine) : List Nat :=
  cacheNum c.state :: lineW c.data ++ tagW c.tag ++ bitW c.haveData ++ bitW c.haveGrant ++ bitW c.fillDead ++ bitW c.owed ++ bitW c.refused ++
    optW natW c.failed ++ optW refW c.asker ++ optW msgW c.defer ++ listW (fun t => [t.asid, t.vline] ++ bitW t.w ++ bitW t.u) c.tags ++
    accsW c.accs

/-- A directory entry as its 128 bits (13 R232). -/
def dirWord (d : DirEntry) : BitVec 128 :=
  let sharers : Nat := if d.coarse then d.vec.toNat else d.ptrs.foldr (fun p x => p.toNat + 2 ^ 13 * x) 0
  let n := if d.coarse then 0 else d.ptrs.length
  BitVec.ofNat 128 (d.state.code.toNat * 2 ^ 124 + (if d.coarse then 2 ^ 123 else 0) + n % 8 * 2 ^ 120 + d.owner.toNat * 2 ^ 107 +
    d.tag.op.toNat * 2 ^ 104 + d.acks % 2 ^ 13 * 2 ^ 91 + d.requester.toNat * 2 ^ 78 + sharers)
/-- A directory entry with what the home keeps beside it. -/
def dirW (d : DirEntry) : List Nat :=
  wideW 2 (dirWord d).toNat ++ [d.tag.q.toNat, d.before.code.toNat, d.stamp.toNat] ++ bitW d.lostHolder ++ bitW d.drop ++
    optW (fun p => [p.toNat]) d.fwdTo ++ listW (fun p => [p.toNat]) d.replied ++ optW msgW d.serving ++ listW msgW d.queue ++ listW msgW d.held ++
    accsW d.accs
/-- The entry that a proxy keeps toward the pod (13 R232). DESIGN CHOICE (log 78): the spec does not say what it holds besides its layout; here
it tells what this device's own slot holds of the line, as the pod home would see it. Unsafe. -/
def podEntry (slot : Nat) (c : CacheLine) : DirEntry :=
  let me := BitVec.ofNat 13 slot
  match c.state with
  | .S | .SM => { DirEntry.idle with state := .S, ptrs := [me] }
  | .E | .M | .MI | .EI => { DirEntry.idle with state := .X, owner := me }
  | .O | .OM => { DirEntry.idle with state := .O, owner := me }
  | .D => { DirEntry.idle with state := .D, ptrs := [me], tag := c.tag }
  | _ => DirEntry.idle

/-- A register's name. -/
def regW : RegName → List Nat
  | .v n => [0, n] | .s n => [1, n] | .p n => [2, n] | .j n => [3, n] | .t n => [4, n] | .mr => [5, 0]
/-- One write of a result. -/
def writeW : RegWrite → List Nat
  | .v r l x => [0, r, l, x.toNat] | .s r x => [1, r, 0, x.toNat] | .t r o x => [2, r, o, x.toNat]
/-- A result that is outstanding. -/
def pendingW (p : Pending) : List Nat := [p.ctr, p.seq, p.lanes.toNat] ++ listW regW p.dests ++ listW writeW p.ws
/-- A clause in issue. -/
def clauseW (c : Clause) : List Nat :=
  [c.lanes.toNat, c.hdrPc.toNat, c.hdr.toNat, c.pos] ++ bitW c.exiting ++ bitW c.yielded ++ bitW c.stopped ++ bitW c.waiting ++ bitW c.suspended ++
    listW (fun w => [w.toNat]) c.words ++ storeW (fun a => [a.toNat]) c.targets ++ optW (fun a => [a.1, a.2.toNat]) c.arg ++ optW natW c.stale
/-- A fault that is raised. -/
def trapW (t : PendingTrap) : List Nat :=
  [t.lanes.toNat, t.tpc.toNat] ++ storeW (fun c => [c.toNat]) t.codes ++ storeW (fun a => [a.toNat]) t.tvaddr
/-- A tile instruction that waits. -/
def tileWaitW (t : TileWait) : List Nat :=
  [t.own.toNat, t.lanes.toNat, t.served.toNat, t.active.toNat, t.cfg.toNat, t.ctr, t.seq] ++ listW natW t.on.nums ++ listW natW t.wrote ++
    storeW (fun c => [c.toNat]) t.failed ++ listW (fun e => [e.1, e.2.1, e.2.2]) t.elems ++ listW (fun e => [e.1, e.2]) t.vals ++
    listW (fun e => [e.1, e.2]) t.grans ++ listW regW t.dests
/-- An answer that has come. -/
def answerW : Answer → List Nat
  | .data d => 0 :: lineW d | .ack => [1] | .err k => [2, k] | .bytes bs => 3 :: listW (fun b => [b.toNat]) bs
/-- A memory instruction that waits. -/
def memWaitW (m : MemWait) : List Nat :=
  [m.own.toNat, m.arg.toNat, m.ctr] ++ listW (fun e => [e.1, e.2.toNat]) m.bad ++ listW (fun e => [e.1, e.2]) m.vals ++ listW natW m.left ++
    listW (fun e => [e.1, e.2.1.pa] ++ bitW e.2.1.w ++ bitW e.2.1.u ++ bitW e.2.1.d ++ optW (fun w => [w.1, w.2]) e.2.2) m.phys ++
    listW (fun e => [e.1, e.2.toNat]) m.addrs ++ listW (fun x => [x.line, x.req] ++ optW answerW x.resp) m.sent
/-- A side of a unit of class 4. -/
def sideW : UnitSide → List Nat
  | .mem a => [0, a.toNat] | .tile g i h r c b => [1, g] ++ idW i ++ [h, r, c] ++ bitW b | .chute k r c => [2, k, r, c]
  | .data x => 3 :: wideW 64 x
/-- A unit of class 4. -/
def unitW (u : AUnit) : List Nat :=
  [u.size, (match u.st with
    | .pending => 0
    | .landed => 1
    | .failed => 2)] ++ bitW u.row ++ optW natW u.sent ++ sideW u.src ++ sideW u.dst
/-- An error that is not reported yet. -/
def markW (m : Mark) : List Nat := [m.op, m.code.toNat, m.addr.toNat]
/-- A class 4 operation. -/
def asyncW (a : AsyncOp) : List Nat :=
  [a.uid, a.g, a.sp, a.core, a.asid, a.ordinal.toNat, a.tl, a.num, State.kindNum a.kind] ++ idW a.id ++ bitW a.priv ++ bitW a.wf ++ bitW a.we ++
    bitW a.suspended ++ bitW a.noBegin ++ optW markW a.err ++ listW unitW a.units ++ (match a.kind with
    | .cpr op => [op]
    | .cpchute k slot => k :: optW natW slot
    | .launch x placed => x.toNat :: bitW placed
    | _ => [])
/-- A packet. -/
def packetW (p : Packet) : List Nat :=
  [p.job.toNat, p.rank.toNat, p.region.toNat, p.off, p.key.toNat, p.peer, p.tag, p.stamp.toNat, p.seq, (match p.mode with
    | .page => 0
    | .hop => 1
    | .clear => 2)] ++ bitW p.far ++ bitW p.auth ++ listW (fun w => [w.toNat]) p.codes ++ (match p.kind with
    | .write bs => 0 :: listW (fun b => [b.toNat]) bs
    | .read n => [1, n]
    | .amo rs => 2 :: listW amoW rs
    | .dred t o x => 3 :: tagW t ++ [o, x.toNat]
    | .landed n => [4, n]
    | .waitq x => [5, x.toNat]
    | .wake n => [6, n]
    | .unwait t => [7, t]
    | .connect n => [8, n])
/-- A packet that is kept. -/
def remoteW (r : RemoteReq) : List Nat :=
  [r.tag, r.die, r.paddock, r.serial.toNat, r.core, r.ordinal.toNat, r.addr.toNat, r.size] ++ bitW r.scaleOut ++ bitW r.counts ++ packetW r.packet
/-- What is about to leave the device. -/
def outW : OutMsg → List Nat
  | .coh h m => 0 :: msgW (h, m)
  | .packet p => 1 :: packetW p
  | .ack p t c k x bs => [2, p, t, c.toNat, k, x.toNat] ++ listW (fun b => [b.toNat]) bs
  | .firmware k xs => 3 :: k :: listW natW xs
/-- A record. -/
def recordW (r : Record) : List Nat :=
  [r.stamp.toNat, (recWord1 r).toNat, r.w2.toNat, r.w3.toNat]
/-- A sink's descriptor as its 256 bits (17 R307). -/
def sinkWord (k : Sink) : BitVec 256 :=
  BitVec.ofNat 256 (k.base.toNat * 2 ^ 192 + k.head.toNat * 2 ^ 160 + k.tail.toNat * 2 ^ 128 + k.drops.toNat * 2 ^ 96 + k.limits.toNat * 2 ^ 64 +
    k.stallLimit.toNat * 2 ^ 40 + k.log2 % 256 * 2 ^ 32 + k.threshold % 2 ^ 23 * 2 ^ 9 + (if k.provider then 256 else 0) + k.paddock % 64 * 4 +
    (if k.lossless then 2 else 0) + (if k.enable then 1 else 0))
/-- A sink. -/
def sinkW (k : Sink) : List Nat :=
  wideW 4 (sinkWord k).toNat ++ [k.gap, k.gapStamp.toNat, k.stallSince.toNat] ++ bitW k.stalling ++ bitW k.released ++ listW natW k.stalled
/-- A paddock-table entry's fields. -/
def cfgW (c : PaddockCfg) : List Nat :=
  bitW c.valid ++ [c.ox, c.oy, c.w, c.h, c.job.toNat, c.parkArea, c.l2pool, c.quantumUs, c.deadlineUs, c.handler.toNat, c.trapFrame.toNat, c.errBase] ++
    wideW 2 c.rimeFilter.toNat ++ [c.traceEpoch.toNat, c.watchdogUs, c.sampleUs, c.perfBase, c.perfLog2] ++ bitW c.debugger ++ bitW c.trustDomain ++
    listW (fun a => [a.1, a.2]) c.asids ++ storeW natW c.floors ++ listW natW c.stops
/-- A window. -/
def windowW (w : Window) : List Nat :=
  bitW w.valid ++ [w.serial.toNat, w.region.toNat, w.base.toNat, w.size, w.landed.toNat, w.acked.toNat, w.key.toNat] ++
    optW (fun k => [k.toNat]) w.oldKey
/-- A paddock's entry and its tables. -/
def paddockW (p : Paddock) : List Nat :=
  cfgW p.cfg ++ bitW p.resident ++ bitW p.held ++ [p.errHead.toNat, p.errTail.toNat, p.errLost.toNat, p.perfHead.toNat, p.perfLost.toNat,
    p.nextSerial.toNat, p.placeResult, p.readbacks, p.reports, p.sampledAt] ++ listW (fun q => [q.prio, q.serial.toNat]) p.queue ++
    storeW (fun e => [e.toNat]) p.rankExc ++ storeW (fun e => wideW 2 e.toNat) p.rankRange ++ storeW (fun e => wideW 5 e.toNat) p.rankMap ++
    storeW natW p.rankClass ++ storeW (fun e => [e.toNat]) p.rankCache ++ storeW windowW p.window ++
    listW (fun h => wideW 4 h.toNat) p.codeHashes ++ storeW (listW natW) p.samples
/-- A party that is lost. -/
def partyW : Party → List Nat
  | .core n => [0, n] | .agent n => [1, n] | .device n => [2, n]
/-- An SPDM responder. -/
def spdmW (x : Spdm) : List Nat :=
  (match x.phase with
    | .fresh => 0
    | .version => 1
    | .capabilities => 2
    | .negotiated => 3) :: [x.asym.toNat, x.kem.toNat] ++ listW (fun e => e.1 :: bitW e.2.1 ++ [e.2.2]) x.sessions

/-! ## Units (17 R305) -/

/-- Field f of a span: its registers, masks, counters and threads, 4,096 items to a field; then its clauses, results, faults and waits. -/
def spanItem (sp : Span) (f : Nat) : Nat :=
  let i := f % 4096
  let la := sp.laneAt (i % 32)
  let b (x : Bool) : Nat := if x then 1 else 0
  let j := sp.jm (i / 64)
  let k := f % 2 ^ 20
  match f / 2 ^ 20 with
  | 0 =>
    match f / 4096 with
    | 0 => (sp.vr (i / 32) (i % 32)).toNat
    | 1 => if i < 64 then (sp.sr (BitVec.ofNat 6 i)).toNat else 0
    | 2 => if i < 8 then (sp.pr (BitVec.ofNat 3 i)).toNat else 0
    | 3 => if i < 6 then sp.kc i else 0
    | 4 => if 512 ≤ i then 0 else if i % 64 < 32 then (Store.get 0 j.save (i % 32)).toNat else ([j.enrol.toNat, j.held.toNat, j.addr.toNat]).getD (i % 64 - 32) 0
    | 5 => if 256 ≤ i then 0 else ([la.pc.toNat, la.mr.toNat, b la.ended, (match la.hold with
        | .free => 0
        | .meeting => 1
        | .barrier .wg => 2
        | .barrier .pen => 3
        | .barrier .launch => 4), la.level, la.tcode.toNat, la.tpc.toNat, la.tvaddr.toNat]).getD (i / 32) 0
    | 6 => if i < 32 then la.lastIssue else 0
    | 7 => ([sp.mq.toNat, sp.mqr.toNat, sp.tmask.toNat, b sp.trapMask, b sp.nested, b sp.stopNext, sp.lastStop.toNat] ++ sp.descriptor.nums).getD i 0
    | 8 => (optW (fun (m : Monitor) => m.line :: bitW m.triggered) sp.mon ++ optW (fun (n : Node) => [n.key, n.lanes.toNat] ++ bitW n.released)
        sp.node).getD i 0
    | _ => 0
  | 1 => (listW clauseW sp.clauses).getD k 0
  | 2 => (listW pendingW sp.pending).getD k 0
  | 3 => (listW trapW (sp.traps ++ sp.deferred)).getD k 0
  | 4 => (listW tileWaitW sp.tileWait).getD k 0
  | 5 => (listW memWaitW sp.memWait).getD k 0
  | _ => 0

/-- Item f of a workgroup besides its spans and registers: its place, its handles, timelines and counters, its tile memory. -/
def wgItem (w : Wg) (f : Nat) : Nat :=
  let i := f % 2 ^ 30
  match f / 2 ^ 30 with
  | 0 => ([(match w.res with
      | .none => 0
      | .unstarted => 1
      | .resident => 2
      | .parked => 3
      | .ended => 4), w.paddock, w.serial.toNat, w.stage, w.wx, w.wy, w.wz, w.lin, w.core, w.entry, w.nspans, w.progBar.toNat,
      w.progChute.toNat, w.progFe.toNat, w.progWaiter.toNat, w.wgGen, (if w.killed then 1 else 0), w.since, w.image.toNat,
      (match w.parkWanted with
      | none => 0
      | some .quantum => 1
      | some .wait => 2
      | some .preempt => 3)] ++ listW natW w.expiry ++ storeW natW w.mmaLast).getD i 0
  | 1 => if i < 128 then bits (w.entryOf (i / 2)) (64 * (i % 2) + 63) (64 * (i % 2)) else 0
  | 2 => (storeW (fun (t : Timeline) => [t.c, t.i] ++ optW markW t.mark ++ listW markW t.errors ++ listW natW t.done) w.tl).getD i 0
  | 3 => let x := w.granuleAt (i / 2 ^ 24) (i % 2 ^ 24); bits x.data 63 0
  | 4 => let x := w.granuleAt (i / 2 ^ 24) (i % 2 ^ 24); bits x.data 127 64
  | 5 => let x := w.granuleAt (i / 2 ^ 24) (i % 2 ^ 24); (if x.full then 1 else 0) + (if x.poison then 2 else 0)
  | 6 => (List.range 8).foldr (fun k x => (w.tByte (i / 512) (8 * (i % 512) + k)).toNat + 256 * x) 0
  | 7 => (w.cfg i).toNat
  | _ => 0

/-- A launch: its record, what it has so far. -/
def launchW (l : Launch) : List Nat :=
  (List.range 48).map (fun i => (l.dw i).toNat) ++ bitW l.live ++ [l.paddock, l.serial.toNat, l.statusPa, l.asid, l.state, l.reason, l.killed,
    l.ended, l.launchGen, (match l.preempt with
    | .none => 0
    | .draining => 1
    | .drained => 2), l.clock.toNat] ++ bitW l.timing ++ bitW l.inError ++ bitW l.admitted ++ bitW l.unstartedKilled ++ optW natW l.issuer ++
    storeW natW l.nextPen ++ storeW natW l.penGen
/-- Field f of a chute: its control block, its geometry, who waits; then its rows. -/
def chuteItem (c : Chute) (f : Nat) : Nat :=
  if f < 2 ^ 18 then (wideW 5 c.block.toNat ++ bitW c.live ++ [c.core, c.handle, c.fromStage, c.toStage, c.width, c.colsM1, c.serial.toNat] ++
    listW (fun x => [x.1, x.2.1, x.2.2]) c.prodWait ++ listW (fun x => [x.1, x.2.1, x.2.2]) c.consWait).getD f 0
  else let x := Store.get Granule.empty c.granule ((f - 2 ^ 18) / 4)
    ([bits x.data 63 0, bits x.data 127 64, if x.full then 1 else 0, if x.poison then 1 else 0]).getD (f % 4) 0

/-- Word n of the entries of a list, m to an entry. -/
def nth {α : Type} (m n : Nat) (xs : List α) (f : α → List Nat) : Nat := ((xs[n / m]?).map (fun x => (f x).getD (n % m) 0)).getD 0

namespace State

/-- Is a unit class one of those with a core's number as index (17 R305). -/
def coreUnit (cls : Nat) : Bool := decide (cls ≤ 5) || cls == 0x0C
/-- The paddock whose state a unit of a core holds (17 R309): the one that runs the core, or the one in its icehouse. -/
def unitPk (s : State) (cls core : Nat) : Option Nat :=
  if coreUnit cls then (s.paddock.find? (fun e => e.2.cfg.valid && (if cls = 0x0C then e.2.held else e.2.resident) &&
    (rectCores e.2.cfg).contains core)).map Prod.fst
  else none
/-- The paddock whose state a readback address names. -/
def readbackOf (s : State) (addr : Dword) : Option Nat := s.unitPk (bits addr 63 56) (bits addr 55 44)
/-- The workgroups that a core's unit holds: those of its paddock on the core, by admission entry. -/
def unitWg (s : State) (cls core e : Nat) : Wg :=
  match s.unitPk cls core with
  | some p => s.wgAt (wgKey p core e)
  | none => Wg.none

/-- Item n of a core's scheduler and caches: 2^24 items for each of the 8 spans of the 64 entries, then the core's counters, its lines and
its copies on the read-only path. -/
def coreItem (s : State) (cls core n : Nat) : Nat :=
  let m := n - 2 ^ 33
  if n < 2 ^ 33 then spanItem ((s.unitWg cls core (n / 2 ^ 27)).spanAt (n / 2 ^ 24 % 8)) (n % 2 ^ 24)
  else if m < 32 then s.perfOf 0 core m % 2 ^ 32
  else if m = 32 then (Store.get 0 s.lamport core).toNat
  else if m = 33 then (s.dieTime (dieOf core)).toNat
  else if m < 2 ^ 10 then 0
  else if m < 2 ^ 40 then nth 1024 (m - 2 ^ 10) (s.cache.filter (fun e => e.1 / 2 ^ 53 == core)) (fun e => e.1 % 2 ^ 53 :: cacheW e.2)
  else if m < 2 ^ 41 then nth 32 (m - 2 ^ 40) (s.ro.filter (fun c => c.core == core)) (fun c => [c.line, c.launch] ++ lineW c.data)
  else nth 4 (m - 2 ^ 41) (s.readySince.filter (fun e => (s.wgAt e.1.g).core == core)) (fun e => refW e.1 ++ [e.2])
/-- Item n of a core's yard: its workgroups, then its launches and chutes, then its choice and its grants. -/
def yardItem (s : State) (cls core n : Nat) : Nat :=
  let mine (p : Nat) : Bool := s.unitPk cls core == some p
  if n < 2 ^ 39 then wgItem (s.unitWg cls core (n / 2 ^ 33)) (n % 2 ^ 33)
  else if n < 2 ^ 40 then nth (2 ^ 20) (n - 2 ^ 39) (s.launch.filter (fun e => mine e.2.paddock)) (fun e => launchW e.2)
  else if n < 2 ^ 41 then
    ((s.chute.filter (fun e => e.2.core == core && mine e.2.paddock))[(n - 2 ^ 40) / 2 ^ 20]?).elim 0 (fun e => chuteItem e.2 (n % 2 ^ 20))
  else if n = 2 ^ 41 then Store.get 0 s.chosen core
  else Store.get 0 s.floorCnt (floorKey core (n / 64 % 8) (n % 64))

/-- Item n of a home slice: directory entries, pod entries, proxies, the clock of the slice, keys of sc events. -/
def sliceItem (s : State) (h n : Nat) : Nat :=
  let here (line : Nat) : Bool := homeSlice line == h
  let m := n % 2 ^ 40
  match n / 2 ^ 40 with
  | 0 => nth (2 ^ 20) m (s.dir.filter (fun e => here e.1)) (fun e => e.1 :: dirW e.2)
  | 1 => nth (2 ^ 20) m (s.pod.filter (fun e => here e.1)) (fun e => e.1 :: dirW e.2)
  | 2 => nth (2 ^ 20) m (s.proxy.filter (fun e => here e.1)) (fun e => e.1 :: wideW 2 (dirWord (podEntry s.slotId e.2)).toNat ++ cacheW e.2)
  | 3 => if m = 0 then (Store.get 0 s.sliceClock h).toNat else if m ≤ 32 then s.perfOf 1 h (m - 1) % 2 ^ 32 else 0
  | _ => nth 2 m (s.homeKey.filter (fun e => here e.1)) (fun e => [e.1, e.2.toNat])

/-- Item n of the Sahnan firmware and of the device as a whole. -/
def deviceItem (s : State) (n : Nat) : Nat :=
  let i := n % 2 ^ 40
  match n / 2 ^ 40 with
  | 0 => nth (2 ^ 30) i s.paddock (fun e => e.1 :: paddockW e.2)
  | 1 => (Store.get 0 s.readiness i).toNat
  | 2 => ([s.time.toNat, s.timeHigh, s.deviceEpoch.toNat, s.cycle.toNat, s.beacon.toNat, s.perfPeriod, s.perfRingBase, s.perfRingLog2,
      s.perfRingHead.toNat, s.perfRingLost.toNat, s.powerCap, s.podId, s.groupId, s.slotId, s.opSeq, s.remoteTag, s.bindings, s.carriage.toNat] ++
      bitW s.ptpLocked ++ bitW s.ptpEver ++ bitW s.powered ++ bitW s.halted ++ bitW s.tripped ++ bitW s.spillReserved).getD i 0
  | 3 => bits (Store.get 0 s.pathBits (i / 5)) (64 * (i % 5) + 63) (64 * (i % 5))
  | 4 => bits (Store.get 0 s.entropy (i / 4)) (64 * (i % 4) + 63) (64 * (i % 4))
  | 5 => nth (2 ^ 20) i s.waitq (fun q => [q.key, q.pa, q.job, q.paddock] ++ listW (fun x => [x.1, x.2]) q.nodes)
  | 6 => nth 8 i s.tc (fun e => [e.die, e.asid, e.vpage, e.log2, e.leaf.toNat, e.leafPa])
  | 7 => (listW natW s.hotDest).getD i 0
  | 8 => Store.get 0 s.congestion i
  | 9 => let t := Store.get TrayWindow.reset s.tray (i / 4); ([t.limit, t.size, t.lows]).getD (i % 4) 0
  | 10 => (listW partyW s.lost ++ listW natW s.slotDown ++ listW natW s.connected ++ listW natW s.throttled).getD i 0
  | 11 => (listW (fun (r : Revoked) => [r.host, r.first, r.count] ++ bitW r.lapsed) s.revoked).getD i 0
  | 12 => (storeW spdmW s.spdm).getD i 0
  | 13 => (listW (fun q => optW natW q.1 ++ optW natW q.2) s.swap ++ listW (fun e => e.1 :: cfgW e.2) s.cfgWait ++
      listW (fun e => [e.1, e.2.toNat]) s.placing ++ listW (fun a => [a.toNat]) s.readWait).getD i 0
  | 14 => (listW (fun (w : LateWrite) => [w.pa, w.n, w.keep] ++ wideW 20 w.val ++ bitW w.ring) s.late).getD i 0
  | 15 => (storeW natW s.pktCount ++ storeW natW s.spareLink).getD i 0
  | 16 => (listW natW s.driftOrder ++ listW (fun e => [e.1, e.2]) s.spilled).getD i 0
  | 17 => (listW natW s.stallFlag ++ storeW (fun x => [x.toNat]) s.lastStamp).getD i 0
  | _ => 0

/-- Double word number n of a unit's state (15 R283); what no item has reads as zero. The classes are those of 17 R305. What travels is read at
the routers, ports and sinks that it reaches. -/
def unitItem (s : State) (cls idx n : Nat) : Nat :=
  let m := n % 2 ^ 42
  match cls with
  | 0x00 => s.coreItem cls idx n
  | 0x01 => s.yardItem cls idx n
  | 0x02 => wgItem (s.unitWg cls idx (n / 2 ^ 33)) (6 * 2 ^ 30 + n % 2 ^ 31)
  | 0x03 | 0x04 | 0x05 => nth (2 ^ 30) n (s.async.filter (fun a => a.core == idx && kindUnit a.kind == cls)) asyncW
  | 0x06 =>
    match n / 2 ^ 42 with
    | 0 => nth (2 ^ 20) m (s.msgs.filter (fun e => homeSlice e.1.line == idx)) msgW
    | 1 => nth (2 ^ 20) m (s.combined.filter (fun c => homeSlice c.1.1.line == idx)) (fun c => msgW c.1 ++ listW (fun x => hdrW x.1 ++ [x.2]) c.2)
    | _ => if m < 32 then s.perfOf 2 idx m % 2 ^ 32 else 0
  | 0x07 => s.sliceItem idx n
  | 0x08 => nth 512 n ((s.dir ++ s.pod).filter (fun e => homeSlice e.1 == idx && e.2.state == .D)) (fun e => e.1 :: accsW e.2.accs)
  | 0x09 => if n < 2 ^ 43 then s.bytesAt (8 * n) 8 else if m < 32 then s.perfOf 4 idx m % 2 ^ 32 else 0
  | 0x0A | 0x0B =>
    let port := if cls = 0x0A then idx else 72 + idx
    match n / 2 ^ 42 with
    | 0 => let p := Store.get Port.reset s.port port; ([p.link, p.hopKey, p.flits]).getD m 0
    | 1 => nth (2 ^ 20) m (s.remote.filter (fun r => r.scaleOut == (cls == 0x0B) && (cls == 0x0A || r.die == idx))) remoteW
    | 2 => nth (2 ^ 20) m s.inbox packetW
    | 3 => nth (2 ^ 20) m s.outbox outW
    | _ => if m < 32 then s.perfOf 3 port m % 2 ^ 32 else 0
  | 0x0C => if n < 2 ^ 43 then s.yardItem cls idx n else s.coreItem cls idx (n - 2 ^ 43)
  | 0x0D => if n < 2 ^ 42 then (sinkW (s.sinkAt idx)).getD n 0 else nth 4 m s.records recordW
  | 0x0E => s.deviceItem n
  | _ => 0

/-! ## Reading (01 R19, 04 R62) -/

/-- The registers of a span whose results are outstanding: those of results to be written, and of loads that wait. -/
def outstanding (w : Wg) (sp : Span) : List RegName :=
  let waiting := sp.tileWait.map (·.own) ++ sp.memWait.map (·.own)
  pairNames w (sp.pending.flatMap (·.dests) ++ sp.tileWait.flatMap (·.dests) ++
    (sp.clauses.filter (fun c => waiting.contains c.lanes)).flatMap (fun c => (c.instr.map Instr.regWrites).getD []))
/-- The register that an item of a core's scheduler is. -/
def itemReg (n : Nat) : Option RegName :=
  if 2 ^ 33 ≤ n then none
  else
    let f := n % 2 ^ 24
    match f / 4096 with
    | 0 => some (.v (f % 4096 / 32))
    | 1 => some (.s (f % 4096))
    | 2 => some (.p (f % 4096))
    | 4 => some (.j (f % 4096 / 64))
    | _ => none
/-- Must a readback wait: it reads a register whose result is outstanding (04 R62). -/
def readbackHeld (s : State) (addr : Dword) : Bool :=
  let n := Config.readbackItem addr
  let core := bits addr 55 44
  let tileHeld (w : Wg) (t : Nat) : Bool := w.span.any (fun q => (outstanding w q.2).contains (.t t))
  match bits addr 63 56 with
  | 0x00 =>
    let w := s.unitWg 0 core (n / 2 ^ 27)
    (itemReg n).any (fun r => (outstanding w (w.spanAt (n / 2 ^ 24 % 8))).contains r)
  | 0x01 => decide (n < 2 ^ 39) && n % 2 ^ 33 / 2 ^ 30 == 6 && tileHeld (s.unitWg 1 core (n / 2 ^ 33)) (n % 2 ^ 30 / 512)
  | 0x02 => tileHeld (s.unitWg 2 core (n / 2 ^ 33)) (n % 2 ^ 31 / 512)
  | _ => false
/-- A readback answers: eight bytes of the unit's state; a readback of a paddock's state raises its index 20 (19 R343). -/
def answerRead (s : State) (addr : Dword) : State :=
  let v : Dword := BitVec.ofNat 64 (s.unitItem (bits addr 63 56) (bits addr 55 44) (Config.readbackItem addr))
  let s1 := { s with readOut := s.readOut ++ [v] }
  match s.readbackOf addr with
  | some p => s1.updPk p (fun q => { q with readbacks := q.readbacks + 1 })
  | none => s1

end State

/-- READBACK (15 R283): eight bytes of any unit, changing nothing that it reads; an unused unit class reads as zero. Which double word of
the unit an offset names is free (log 23). It waits for a register whose result is outstanding (04 R62). -/
def execReadback (addr : Dword) (s : State) : Res :=
  .next (if s.readbackHeld addr then { s with readWait := s.readWait ++ [addr] } else s.answerRead addr)

end Sys2Proof.Machine
end

