-- ==== Sys2Proof/Machine/Tables.lean ====
section
/-!
DEFINITION. Machine/Tables.lean: writes of the provider and the supervisors to the tables (15 R273-R283), the readiness table,
bring-up, power and heat (19 R344, R345), the SPDM responders (19 R343).
-/

namespace Sys2Proof.Machine

/-! ## The paddock table (15 R279) -/

/-- An entry as it is written: reserved bits of the Rime filter stay zero (00 R6, 17 R308). -/
def cfgWritten (c : PaddockCfg) : PaddockCfg := { c with rimeFilter := c.rimeFilter &&& ~~~((0xF#128 <<< 124) ||| BitVec.ofNat 128 (2 ^ 49 - 1)) }

/-- The limits of a paddock-table entry by itself: the rectangle (01 R14), which an entry that is not valid may leave empty, ASIDs, pinned L2 of 64 MiB a die in units of 4 MiB
(10 R171), quantum (03 R56), floors (14 R258), deadline (18 R328), handler, error log, stop comparators, watchdog (18 R317),
sample interval (16 R294), trap-frame base aligned to 32 MiB (18 R320). -/
def cfgLegal (c : PaddockCfg) : Bool :=
  c.ox % 8 == 0 && c.oy % 8 == 0 && c.w % 8 == 0 && c.h % 8 == 0 && (!c.valid || (decide (0 < c.w) && decide (0 < c.h))) &&
    decide (c.ox + c.w ≤ 64) && decide (c.oy + c.h ≤ 64) &&
    c.asids.all (fun a => decide (1 ≤ a.1) && decide (a.1 ≤ 65535)) && decide (c.asids.map Prod.fst).Nodup &&
    decide (c.parkArea + c.l2pool ≤ 16 * coveredDies c) &&
    decide (10 ≤ c.quantumUs) && decide (c.quantumUs ≤ 100000) &&
    c.floors.all (fun f => decide (f.1 < 64) && decide (f.2 ≤ 255)) && decide ((c.floors.map Prod.snd).sum ≤ 512) &&
    Store.wf 0 c.floors &&
    decide (10 ≤ c.deadlineUs) && decide (c.deadlineUs ≤ 1000000) &&
    c.handler.toNat % 4 == 0 && bits c.handler 63 48 == 0 && c.trapFrame.toNat % 2 ^ 25 == 0 && c.errBase % 131072 == 0 &&
    decide (c.stops.length ≤ 16) && c.stops.all (fun o => decide (o < 2 ^ 20)) &&
    decide (1 ≤ c.watchdogUs) && decide (c.watchdogUs ≤ 1000000) &&
    decide (100 ≤ c.sampleUs) && decide (c.sampleUs ≤ 1000000)

namespace State

/-- Are the ASIDs of an entry free of every other paddock's (15 R279). -/
def asidsFree (s : State) (pkn : Nat) (c : PaddockCfg) : Bool :=
  s.paddock.all (fun e => e.1 == pkn || !e.2.cfg.valid || e.2.cfg.asids.all (fun a => !c.asids.any (fun b => b.1 == a.1)))

/-- Can a paddock stand where its entry says (15 R279, 01 R16): resident or held in the icehouse, as the residency field asks; beside no
other paddock of its cores but one of the same rectangle in the other place, nor where a swap is under way. A paddock that has workgroups
changes its place by a swap alone (log 48). -/
def placeOk (s : State) (pkn : Nat) (c : PaddockCfg) : Bool :=
  let p := s.pk pkn
  let others := s.paddock.filter (fun e => e.1 != pkn && e.2.cfg.valid && overlaps e.2.cfg c)
  let busy := s.wg.any (fun e => e.2.paddock == pkn && e.2.res != .none && e.2.res != .ended)
  let swapping := s.swap.any (fun q => q.1 == some pkn || q.2 == some pkn)
  decide (others.length ≤ 1) && others.all (fun e => sameRect e.2.cfg c && e.2.resident == c.away) &&
    ((!busy && !swapping && !s.inSwap c) || (sameRect p.cfg c && p.held == c.away))

/-- Does an entry change the size of a pinned area that is in use: a park area with reservations, a level-2 pool with lines
taken (15 R285). -/
def pinnedChange (s : State) (pkn : Nat) (c : PaddockCfg) : Bool :=
  let o := (s.pk pkn).cfg
  (o.parkArea != c.parkArea && decide (s.parkFree pkn ≠ o.parkArea * 4194304)) ||
    (o.l2pool != c.l2pool && decide (s.pool2Free pkn ≠ o.l2pool * 32768))

end State

namespace State

/-- Is the paddock between clauses (15 R285): no clause of its resident workgroups is in issue, but those that wait, those that a debugger
has stopped and those whose handler has not returned (log 48). -/
def betweenAll (s : State) (pkn : Nat) : Bool :=
  s.wg.all (fun e => e.2.paddock != pkn || e.2.res != .resident || e.2.span.all (fun q => q.2.clauses.all (fun c => c.waiting || c.suspended ||
    c.stopped || q.2.tileWait.any (fun t => t.own == c.lanes) || (q.2.laneAt (lowest c.lanes)).level != q.2.openLevel)))

/-- An entry takes effect, or is refused whole. An entry that is not valid leaves residency. -/
def applyCfg (s : State) (pkn : Nat) (c : PaddockCfg) : State :=
  if s.pinnedChange pkn c || !cfgLegal c then s
  else if !c.valid then if s.swap.any (fun q => q.1 == some pkn || q.2 == some pkn) then s else s.updPk pkn (fun p => { p with cfg := c, resident := false, held := false })
  else if s.asidsFree pkn c && s.placeOk pkn c then s.updPk pkn (fun p => { p with cfg := c, resident := !c.away, held := c.away })
  else s

end State

/-- PADDOCK_TABLE_WRITE (15 R279): an entry is applied whole or refused whole, between clauses of the paddock (15 R285): until then it
waits. -/
def execPaddockTableWrite (pkn : Nat) (c : PaddockCfg) (s : State) : Res :=
  .next (if 64 ≤ pkn then s
    else if s.betweenAll pkn && !s.cfgWait.any (fun e => e.1 == pkn) then s.applyCfg pkn (cfgWritten c)
    else { s with cfgWait := s.cfgWait ++ [(pkn, cfgWritten c)] })

/-- ERROR_LOG_TAIL_WRITE (15 R281): refused when the tail would pass the head or fall more than 4,096 below it. -/
def execErrorLogTailWrite (pkn : Nat) (v : Word) (s : State) : Res :=
  .next (if ((s.pk pkn).errHead - v).toNat ≤ Config.errRing then s.updPk pkn (fun p => { p with errTail := v }) else s)

/-! ## Other tables and registers (00 R5) -/

/-- Do two valid range entries overlap (15 R273). -/
def rangesOverlap (a b : BitVec 128) : Bool :=
  a.getLsbD 127 && b.getLsbD 127 && decide (bits a 21 0 < bits b 21 0 + bits b 44 22) &&
    decide (bits b 21 0 < bits a 21 0 + bits a 44 22)

/-- The n low double words of a number, least significant first. -/
def dwords (n x : Nat) : List Dword := (List.range n).map (fun i => BitVec.ofNat 64 (x / 2 ^ (64 * i)))

/-- REGISTER_WRITE (00 R5): each item by its access type and its limits; what breaks a limit is refused. A read through a table window
answers and clears what is RC; a field that is WO reads as zero. DESIGN CHOICE (log 78): the bits of a rank exception entry ([62:44]) and of a
range entry ([126:67]) that 15 R273 neither lists nor calls reserved are kept as written and read back. Unsafe. -/
def execRegisterWrite (w : RegWriteReq) (s : State) : Res :=
  .next (match w with
    | .rankException p i e =>
      if i < 4096 then s.updPk p (fun q => { q with rankExc := Store.set 0 q.rankExc i e }) else s
    | .rankRange p i e =>
      if 256 ≤ i ∨ (s.pk p).rankRange.any (fun x => x.1 != i && rangesOverlap x.2 e) then s
      else s.updPk p (fun q => { q with rankRange := Store.set 0 q.rankRange i e })
    | .rankMap p pod e => if pod < 4096 then s.updPk p (fun q => { q with rankMap := Store.set 0 q.rankMap pod e }) else s
    | .pathBitmap g e => if g < 32 then { s with pathBits := Store.set 0 s.pathBits g e } else s
    | .entropy c e => if c < 4 then { s with entropy := Store.set 0 s.entropy c e } else s
    | .distanceClass p i c =>
      if i < 256 ∧ c < 4 then s.updPk p (fun q => { q with rankClass := Store.set 0 q.rankClass i c }) else s
    | .perfPeriod k => if 12 ≤ k ∧ k ≤ 26 then { s with perfPeriod := k } else s
    | .trayLimit slot limit => { s with tray := Store.set TrayWindow.reset s.tray slot ⟨limit, limit, 0⟩ }
    | .slotReachable slot up =>
      if 1024 ≤ slot then s
      else if up then { s with slotDown := s.slotDown.filter (fun n => n != slot) }
      else if s.slotDown.contains slot then s
      else { s with slotDown := s.slotDown ++ [slot] }
    | .identity pod group slot =>
      if pod < 4096 ∧ group < 32 ∧ slot < 32 then { s with podId := pod, groupId := group, slotId := slot } else s
    | .spareLink g l off =>
      if g < 32 ∧ 310 ≤ l ∧ l < 320 ∧ off < 32 then { s with spareLink := Store.set 0 s.spareLink (320 * g + l) off } else s
    | .codeLoaded p hash => s.updPk p (fun q => { q with codeHashes := q.codeHashes ++ [hash] })
    | .perfRingProvider base log2 => { s with perfRingBase := base, perfRingLog2 := log2, perfRingHead := 0 }
    | .readOnly _ _ => s
    | .readErrorLog p =>
      let q := s.pk p
      { s with readOut := s.readOut ++ [q.errTail ++ q.errHead, (q.errLost.setWidth 64)] }.updPk p (fun q => { q with errLost := 0 })
    | .readSink n =>
      { s with readOut := s.readOut ++ dwords 4 (sinkWord (s.sinkAt n)).toNat }.updSink n (fun k => { k with drops := 0, limits := 0 })
    | .readLaunchWindow p off =>
      { s with readOut := s.readOut ++ [if off = 8 then BitVec.ofNat 64 (s.pk p).placeResult else 0] })

/-! ## Readiness, bring-up, power and heat (15 R282, 19 R344, R345) -/

/-- Is an index that of a function (15 R282). -/
def readyIndex (i : Nat) : Bool := decide (i < 0x88) || (decide (0x100 ≤ i) && decide (i < 0x1140))

/-- POWER_GOOD (19 R344): the images are verified; the firmware halts on failure, else it reserves the drift spill area and
releases the dies. -/
def execPowerGood (verified : Bool) (s : State) : Res :=
  .next (if verified then { s with powered := true, spillReserved := true, halted := false } else { s with halted := true })

/-- READINESS_REPORT (15 R282): a function writes its own entry, once the dies are released (19 R344); states above 4 are never
written, and no HBM stack reports ready before the spill area is reserved. -/
def execReadinessReport (idx : Nat) (st : BitVec 4) (s : State) : Res :=
  .next (if s.powered && readyIndex idx && decide (st.toNat ≤ 4) &&
      (s.spillReserved || !(decide (0x10 ≤ idx) && decide (idx < 0x30))) then
      { s with readiness := Store.set 0 s.readiness idx st }
    else s)

/-- POWER_CAP_SET (19 R345): a cap from 6.0 to 11.5 kW; only timing changes. -/
def execPowerCapSet (watts : Nat) (s : State) : Res :=
  .next (if 6000 ≤ watts ∧ watts ≤ 11500 then { s with powerCap := watts } else s)

/-- THERMAL_THROTTLE (19 R345): the die withholds issue clocks; only timing changes. -/
def execThermalThrottle (die : Nat) (s : State) : Res :=
  .next (if 16 ≤ die ∨ s.throttled.contains die then s else { s with throttled := s.throttled ++ [die] })

/-- THERMAL_TRIP (19 R345, R346): the dies are powered down and their readiness entries go to 4; launches in flight end with
their state unknown, which readback after a restart recovers. -/
def execThermalTrip (s : State) : Res :=
  .next { s with tripped := true
                 readiness := (List.range 16).foldl (fun m d => Store.set 0 m d 4#4) s.readiness
                 launch := Store.mapVals Launch.none (fun _ l => { l with live := false }) s.launch }

/-! ## SPDM (19 R343) -/

namespace State

/-- Key of a responder: 0 the device, 1 + n paddock n. -/
def spdmKey (r : Responder) : Nat := r.elim 0 (fun n => n + 1)
/-- A responder's state. -/
def spdmAt (s : State) (r : Responder) : Spdm := Store.get Spdm.fresh s.spdm (spdmKey r)
/-- Is there such a responder: the device's, or that of a valid paddock. -/
def spdmThere (s : State) (r : Responder) : Bool := s.powered && r.all (fun n => (s.pk n).cfg.valid)
/-- n free values of an answer (log 21). -/
def spdmValues (s : State) (n : Nat) : List (BitVec 256) := (List.range n).map (fun i => Config.spdmBytes s.spdmOut.length i)

/-- A request is answered: accepted with values and a new state of the responder, or with an error. -/
def spdmAnswer (s : State) (r : Responder) (name : String) (ok : Bool) (vs : List (BitVec 256)) (f : Spdm → Spdm) : State :=
  if ok && s.spdmThere r then
    { s with spdm := Store.upd Spdm.fresh s.spdm (spdmKey r) f, spdmOut := s.spdmOut ++ [⟨r, name, true, vs⟩] }
  else { s with spdmOut := s.spdmOut ++ [⟨r, name, false, []⟩] }

/-- Has the responder agreed on algorithms. -/
def spdmReady (s : State) (r : Responder) : Bool := (s.spdmAt r).phase == .negotiated
/-- Does a session exist, and is it established. -/
def spdmSession (s : State) (r : Responder) (n : Nat) : Option (Bool × Nat) :=
  ((s.spdmAt r).sessions.find? (fun x => x.1 == n)).map Prod.snd

/-- Does a responder answer for a measurement index (19 R343). -/
def spdmIndex (r : Responder) (i : Nat) : Bool :=
  (decide (1 ≤ i) && decide (i ≤ 3)) || (r.isSome && decide (16 ≤ i) && decide (i ≤ 20))

end State

/-- GET_VERSION: SPDM 1.3; the connection begins anew. -/
def execGetVersion (r : Responder) (s : State) : Res :=
  .next (s.spdmAnswer r "GET_VERSION" true [0x13] (fun _ => { Spdm.fresh with phase := .version }))
/-- GET_CAPABILITIES, after GET_VERSION. -/
def execGetCapabilities (r : Responder) (s : State) : Res :=
  .next (s.spdmAnswer r "GET_CAPABILITIES" ((s.spdmAt r).phase == .version) (s.spdmValues 1) (fun x => { x with phase := .capabilities }))
/-- NEGOTIATE_ALGORITHMS, after GET_CAPABILITIES. -/
def execNegotiateAlgorithms (r : Responder) (asym kem : BitVec 32) (s : State) : Res :=
  .next (s.spdmAnswer r "NEGOTIATE_ALGORITHMS" ((s.spdmAt r).phase == .capabilities) [asym.setWidth 256, kem.setWidth 256]
    (fun x => { x with phase := .negotiated, asym := asym, kem := kem }))
/-- GET_DIGESTS, once algorithms are agreed. -/
def execGetDigests (r : Responder) (s : State) : Res :=
  .next (s.spdmAnswer r "GET_DIGESTS" (s.spdmReady r) (s.spdmValues 1) id)
/-- GET_CERTIFICATE: len bytes of a slot's chain from off. -/
def execGetCertificate (r : Responder) (slot off len : Nat) (s : State) : Res :=
  .next (s.spdmAnswer r "GET_CERTIFICATE" (s.spdmReady r && decide (slot < 8) && decide (off < 65536)) (s.spdmValues ((len + 31) / 32)) id)
/-- CHALLENGE: the nonce and an SLH-DSA signature. -/
def execChallenge (r : Responder) (nonce : BitVec 256) (s : State) : Res :=
  .next (s.spdmAnswer r "CHALLENGE" (s.spdmReady r) (nonce :: s.spdmValues 1) id)
/-- GET_MEASUREMENTS: the SHA-256 measurement of an index that the responder answers for. -/
def execGetMeasurements (r : Responder) (idx : Nat) (nonce : BitVec 256) (s : State) : Res :=
  .next (s.spdmAnswer r "GET_MEASUREMENTS" (s.spdmReady r && State.spdmIndex r idx) (nonce :: s.spdmValues 1) id)
/-- KEY_EXCHANGE: a session begins under ML-KEM-1024. -/
def execKeyExchange (r : Responder) (session kem : Nat) (s : State) : Res :=
  .next (s.spdmAnswer r "KEY_EXCHANGE" (s.spdmReady r && (s.spdmSession r session).isNone && decide (kem = (s.spdmAt r).kem.toNat))
    (s.spdmValues 1) (fun x => { x with sessions := x.sessions ++ [(session, false, 0)] }))
/-- FINISH: the session is set up. -/
def execFinish (r : Responder) (session : Nat) (s : State) : Res :=
  .next (s.spdmAnswer r "FINISH" ((s.spdmSession r session).any (fun x => !x.1)) []
    (fun x => { x with sessions := x.sessions.map (fun e => if e.1 = session then (e.1, true, e.2.2) else e) }))
/-- KEY_UPDATE: an established session's keys change. -/
def execKeyUpdate (r : Responder) (session : Nat) (s : State) : Res :=
  .next (s.spdmAnswer r "KEY_UPDATE" ((s.spdmSession r session).any (fun x => x.1)) []
    (fun x => { x with sessions := x.sessions.map (fun e => if e.1 = session then (e.1, e.2.1, e.2.2 + 1) else e) }))
/-- END_SESSION: an established session ends. -/
def execEndSession (r : Responder) (session : Nat) (s : State) : Res :=
  .next (s.spdmAnswer r "END_SESSION" ((s.spdmSession r session).any (fun x => x.1)) []
    (fun x => { x with sessions := x.sessions.filter (fun e => e.1 != session) }))

end Sys2Proof.Machine
end

