-- ==== Sys2Proof/Machine/Vector.lean ====
section
/-!
DEFINITION. Machine/Vector.lean: class 1, vector instructions (08 R125-R145). In each lane every source is read before any
destination is written: a result is a function of the span before the instruction.
-/

namespace Sys2Proof.Machine

/-! ## Shapes -/

/-- Write one register in each active lane with f of the span and the lane. -/
def vecW (p : BitVec 3) (d : BitVec 7) (f : Span → Nat → Word) (s : State) : Res :=
  done (s.updSpan (fun sp => sp.mapV (s.active p) d.toNat (f sp)))
/-- Write one pair in each active lane. -/
def vecP (p : BitVec 3) (d : BitVec 7) (f : Span → Nat → Dword) (s : State) : Res :=
  done (s.updSpan (fun sp => sp.mapPair (s.active p) d.toNat (f sp)))
/-- Write one group in each active lane. -/
def vecG (p : BitVec 3) (d : BitVec 7) (f : Span → Nat → BitVec 128) (s : State) : Res :=
  done (s.updSpan (fun sp => sp.mapGroup (s.active p) d.toNat (f sp)))
/-- A function of one 32-bit source. -/
def vec1 (p : BitVec 3) (d a : BitVec 7) (f : Word → Word) (s : State) : Res :=
  vecW p d (fun sp l => f (sp.vr a.toNat l)) s
/-- A function of two 32-bit sources. -/
def vec2 (p : BitVec 3) (d a b : BitVec 7) (f : Word → Word → Word) (s : State) : Res :=
  vecW p d (fun sp l => f (sp.vr a.toNat l) (sp.vr b.toNat l)) s
/-- A function of two 32-bit sources and the old destination. -/
def vec3 (p : BitVec 3) (d a b : BitVec 7) (f : Word → Word → Word → Word) (s : State) : Res :=
  vecW p d (fun sp l => f (sp.vr a.toNat l) (sp.vr b.toNat l) (sp.vr d.toNat l)) s
/-- A function of two pairs. -/
def vecP2 (p : BitVec 3) (d a b : BitVec 7) (f : Dword → Dword → Dword) (s : State) : Res :=
  vecP p d (fun sp l => f (sp.pair a.toNat l) (sp.pair b.toNat l)) s
/-- Set the predicate bits of the active lanes (08 R131). -/
def vecCmp (p q : BitVec 3) (f : Span → Nat → Bool) (s : State) : Res :=
  done (s.updSpan (fun sp => sp.setP q (s.active p) (lanesWhere (f sp))))

/-! ## Integers, logic, bit fields (08 R128-R131) -/

/-- vmov. -/
def execVmov (p : BitVec 3) (d a : BitVec 7) (s : State) : Res := vec1 p d a (fun x => x) s
/-- vmovk: the literal. -/
def execVmovk (p : BitVec 3) (d : BitVec 7) (lit : Word) (s : State) : Res := vecW p d (fun _ _ => lit) s
/-- vadd.i32. -/
def execVaddI32 (p : BitVec 3) (d a b : BitVec 7) (s : State) : Res := vec2 p d a b (fun x y => x + y) s
/-- vadd.i64. -/
def execVaddI64 (p : BitVec 3) (d a b : BitVec 7) (s : State) : Res := vecP2 p d a b (fun x y => x + y) s
/-- vsub.i32. -/
def execVsubI32 (p : BitVec 3) (d a b : BitVec 7) (s : State) : Res := vec2 p d a b (fun x y => x - y) s
/-- vsub.i64. -/
def execVsubI64 (p : BitVec 3) (d a b : BitVec 7) (s : State) : Res := vecP2 p d a b (fun x y => x - y) s
/-- vmul.i32: bits [31:0] of the product. -/
def execVmulI32 (p : BitVec 3) (d a b : BitVec 7) (s : State) : Res := vec2 p d a b (fun x y => x * y) s
/-- vmulh.i32: bits [63:32] of the signed product. -/
def execVmulhI32 (p : BitVec 3) (d a b : BitVec 7) (s : State) : Res :=
  vec2 p d a b (fun x y => BitVec.ofInt 32 (x.toInt * y.toInt / 2 ^ 32)) s
/-- vmulh.n32: bits [63:32] of the natural product. -/
def execVmulhN32 (p : BitVec 3) (d a b : BitVec 7) (s : State) : Res :=
  vec2 p d a b (fun x y => BitVec.ofNat 32 (x.toNat * y.toNat / 2 ^ 32)) s
/-- vmad.i32. -/
def execVmadI32 (p : BitVec 3) (d a b : BitVec 7) (s : State) : Res := vec3 p d a b (fun x y z => x * y + z) s
/-- vand. -/
def execVand (p : BitVec 3) (d a b : BitVec 7) (s : State) : Res := vec2 p d a b (fun x y => x &&& y) s
/-- vor. -/
def execVor (p : BitVec 3) (d a b : BitVec 7) (s : State) : Res := vec2 p d a b (fun x y => x ||| y) s
/-- vxor. -/
def execVxor (p : BitVec 3) (d a b : BitVec 7) (s : State) : Res := vec2 p d a b (fun x y => x ^^^ y) s
/-- vnot. -/
def execVnot (p : BitVec 3) (d a : BitVec 7) (s : State) : Res := vec1 p d a (fun x => ~~~x) s
/-- vshl: 0 when the count is 32 or more (08 R129). -/
def execVshl (p : BitVec 3) (d a b : BitVec 7) (s : State) : Res := vec2 p d a b (fun x y => if 32 ≤ y.toNat then 0 else x <<< y.toNat) s
/-- vshr: 0 when the count is 32 or more (08 R129). -/
def execVshr (p : BitVec 3) (d a b : BitVec 7) (s : State) : Res := vec2 p d a b (fun x y => if 32 ≤ y.toNat then 0 else x >>> y.toNat) s
/-- vsar: copies of bit 31 when the count is 32 or more (08 R129). -/
def execVsar (p : BitVec 3) (d a b : BitVec 7) (s : State) : Res := vec2 p d a b (fun x y => x.sshiftRight (min y.toNat 32)) s
/-- vmin.i32. -/
def execVminI32 (p : BitVec 3) (d a b : BitVec 7) (s : State) : Res := vec2 p d a b (sMinMax false) s
/-- vmax.i32. -/
def execVmaxI32 (p : BitVec 3) (d a b : BitVec 7) (s : State) : Res := vec2 p d a b (sMinMax true) s
/-- vmin.n32. -/
def execVminN32 (p : BitVec 3) (d a b : BitVec 7) (s : State) : Res := vec2 p d a b (uMinMax false) s
/-- vmax.n32. -/
def execVmaxN32 (p : BitVec 3) (d a b : BitVec 7) (s : State) : Res := vec2 p d a b (uMinMax true) s
/-- vabs.i32: −2^31 gives 0x8000_0000. -/
def execVabsI32 (p : BitVec 3) (d a : BitVec 7) (s : State) : Res := vec1 p d a (fun x => if x.msb then -x else x) s
/-- vclz. -/
def execVclz (p : BitVec 3) (d a : BitVec 7) (s : State) : Res := vec1 p d a (fun x => BitVec.ofNat 32 (leadZeros x)) s
/-- vpopc. -/
def execVpopc (p : BitVec 3) (d a : BitVec 7) (s : State) : Res := vec1 p d a (fun x => BitVec.ofNat 32 (popCount x)) s
/-- vbrev. -/
def execVbrev (p : BitVec 3) (d a : BitVec 7) (s : State) : Res := vec1 p d a (fun x => x.reverse) s
/-- Position of the field that a control word names (08 R129). -/
def fieldPos (ctl : Word) : Nat := bits ctl 4 0
/-- Length of the field that a control word names (08 R129). -/
def fieldLen (ctl : Word) : Nat := min (bits ctl 13 8) (32 - bits ctl 4 0)
/-- len ones. -/
def fieldMask (ctl : Word) : Word := BitVec.ofNat 32 (2 ^ fieldLen ctl - 1)
/-- vbfx: the field, zero-extended (08 R129). -/
def execVbfx (p : BitVec 3) (d a b : BitVec 7) (s : State) : Res :=
  vec2 p d a b (fun x c => (x >>> fieldPos c) &&& fieldMask c) s
/-- vbfi: the field of vd replaced (08 R129). -/
def execVbfi (p : BitVec 3) (d a b : BitVec 7) (s : State) : Res :=
  vec3 p d a b (fun x c z => (z &&& ~~~(fieldMask c <<< fieldPos c)) ||| ((x &&& fieldMask c) <<< fieldPos c)) s
/-- vsel: every lane of S, chosen by pN (08 R130). -/
def execVsel (p : BitVec 3) (d a b : BitVec 7) (s : State) : Res :=
  done (s.updSpan (fun sp => sp.mapV s.lanes d.toNat
    (fun l => if laneIn (sp.pr p) l then sp.vr a.toNat l else sp.vr b.toNat l)))
/-- vcmp.i32. -/
def execVcmpI32 (p : BitVec 3) (c : BitVec 4) (q : BitVec 3) (a b : BitVec 7) (s : State) : Res :=
  vecCmp p q (fun sp l => condS c.toNat (sp.vr a.toNat l) (sp.vr b.toNat l)) s
/-- vcmp.n32. -/
def execVcmpN32 (p : BitVec 3) (c : BitVec 4) (q : BitVec 3) (a b : BitVec 7) (s : State) : Res :=
  vecCmp p q (fun sp l => condN c.toNat (sp.vr a.toNat l) (sp.vr b.toNat l)) s
/-- vcmp.i64. -/
def execVcmpI64 (p : BitVec 3) (c : BitVec 4) (q : BitVec 3) (a b : BitVec 7) (s : State) : Res :=
  vecCmp p q (fun sp l => condS c.toNat (sp.pair a.toNat l) (sp.pair b.toNat l)) s
/-- vadds.i32: the sum clamped to the signed range (06 R83). -/
def execVaddsI32 (p : BitVec 3) (d a b : BitVec 7) (s : State) : Res :=
  vec2 p d a b (fun x y => BitVec.ofInt 32 (clampI (-2147483648) 2147483647 (x.toInt + y.toInt))) s

/-! ## Across lanes (08 R132, R133) -/

/-- Write to each active lane l the value of va in lane src l, or its own when that is no lane of S. -/
def shuffle (p : BitVec 3) (d a : BitVec 7) (src : Span → Nat → Int) (s : State) : Res :=
  vecW p d (fun sp l =>
    let m := src sp l
    if 0 ≤ m ∧ laneIn s.lanes m.toNat then sp.vr a.toNat m.toNat else sp.vr a.toNat l) s
/-- vshfl.idx. -/
def execVshflIdx (p : BitVec 3) (d a b : BitVec 7) (s : State) : Res :=
  shuffle p d a (fun sp l => ((sp.vr b.toNat l).toNat % 32 : Nat)) s
/-- vshfl.xor. -/
def execVshflXor (p : BitVec 3) (d a : BitVec 7) (c : BitVec 5) (s : State) : Res :=
  shuffle p d a (fun _ l => (l ^^^ c.toNat : Nat)) s
/-- vshfl.up. -/
def execVshflUp (p : BitVec 3) (d a : BitVec 7) (c : BitVec 5) (s : State) : Res :=
  shuffle p d a (fun _ l => (l : Int) - c.toNat) s
/-- vshfl.down. -/
def execVshflDown (p : BitVec 3) (d a : BitVec 7) (c : BitVec 5) (s : State) : Res :=
  shuffle p d a (fun _ l => (l : Int) + c.toNat) s
/-- vbcast. -/
def execVbcast (p : BitVec 3) (d a : BitVec 7) (c : BitVec 5) (s : State) : Res :=
  shuffle p d a (fun _ _ => (c.toNat : Int)) s
/-- vlaneid. -/
def execVlaneid (p : BitVec 3) (d : BitVec 7) (s : State) : Res := vecW p d (fun _ l => BitVec.ofNat 32 l) s
/-- vprefix.i32: the sum over the active lanes up to l. -/
def execVprefixI32 (p : BitVec 3) (d a : BitVec 7) (s : State) : Res :=
  vecW p d (fun sp l => ((lanesOf (s.active p)).filter (fun m => decide (m ≤ l))).foldl
    (fun x m => x + sp.vr a.toNat m) 0) s

/-! ## Floating point (08 R134-R138) -/

/-- vadd.f32. -/
def execVaddF32 (p : BitVec 3) (d a b : BitVec 7) (s : State) : Res :=
  vec2 p d a b (fun x y => toF32 ((f32Of x).add (f32Of y))) s
/-- vsub.f32. -/
def execVsubF32 (p : BitVec 3) (d a b : BitVec 7) (s : State) : Res :=
  vec2 p d a b (fun x y => toF32 ((f32Of x).add (f32Of y).neg)) s
/-- vmul.f32. -/
def execVmulF32 (p : BitVec 3) (d a b : BitVec 7) (s : State) : Res :=
  vec2 p d a b (fun x y => toF32 ((f32Of x).mul (f32Of y))) s
/-- vfma.f32: one rounding. -/
def execVfmaF32 (p : BitVec 3) (d a b : BitVec 7) (s : State) : Res :=
  vec3 p d a b (fun x y z => toF32 (((f32Of x).mul (f32Of y)).add (f32Of z))) s
/-- vmin.f32. -/
def execVminF32 (p : BitVec 3) (d a b : BitVec 7) (s : State) : Res :=
  vec2 p d a b (fun x y => toF32 (fMinMax false (f32Of x) (f32Of y))) s
/-- vmax.f32. -/
def execVmaxF32 (p : BitVec 3) (d a b : BitVec 7) (s : State) : Res :=
  vec2 p d a b (fun x y => toF32 (fMinMax true (f32Of x) (f32Of y))) s
/-- vcmp.f32. -/
def execVcmpF32 (p : BitVec 3) (c : BitVec 4) (q : BitVec 3) (a b : BitVec 7) (s : State) : Res :=
  vecCmp p q (fun sp l => condF c.toNat (f32Of (sp.vr a.toNat l)) (f32Of (sp.vr b.toNat l))) s

/-- A transcendental with an optional pending counter (08 R138): with one, the values computed at issue are written
when the result is. -/
def vecTrans (p : BitVec 3) (d a : BitVec 7) (k : BitVec 3) (f : FVal → FVal) (s : State) : Res :=
  s.counted k (s.active p) (vW d)
    ((lanesOf (s.active p)).map (fun l => .v d.toNat l (toF32 (f (f32Of (s.span.vr a.toNat l))))))
/-- vrcp.f32. -/
def execVrcpF32 (p : BitVec 3) (d a : BitVec 7) (k : BitVec 3) (s : State) : Res := vecTrans p d a k fRcp s
/-- vrsqrt.f32. -/
def execVrsqrtF32 (p : BitVec 3) (d a : BitVec 7) (k : BitVec 3) (s : State) : Res := vecTrans p d a k fRsqrt s
/-- vsqrt.f32. -/
def execVsqrtF32 (p : BitVec 3) (d a : BitVec 7) (k : BitVec 3) (s : State) : Res := vecTrans p d a k fSqrt s
/-- vexp2.f32. -/
def execVexp2F32 (p : BitVec 3) (d a : BitVec 7) (k : BitVec 3) (s : State) : Res := vecTrans p d a k fExp2 s
/-- vlog2.f32. -/
def execVlog2F32 (p : BitVec 3) (d a : BitVec 7) (k : BitVec 3) (s : State) : Res := vecTrans p d a k fLog2 s
/-- vclass.f32. -/
def execVclassF32 (p : BitVec 3) (d a : BitVec 7) (s : State) : Res := vec1 p d a classF32 s

/-- vadd.f64. -/
def execVaddF64 (p : BitVec 3) (d a b : BitVec 7) (s : State) : Res :=
  vecP2 p d a b (fun x y => toF64 ((f64Of x).add (f64Of y))) s
/-- vsub.f64. -/
def execVsubF64 (p : BitVec 3) (d a b : BitVec 7) (s : State) : Res :=
  vecP2 p d a b (fun x y => toF64 ((f64Of x).add (f64Of y).neg)) s
/-- vmul.f64. -/
def execVmulF64 (p : BitVec 3) (d a b : BitVec 7) (s : State) : Res :=
  vecP2 p d a b (fun x y => toF64 ((f64Of x).mul (f64Of y))) s
/-- vfma.f64. -/
def execVfmaF64 (p : BitVec 3) (d a b : BitVec 7) (s : State) : Res :=
  vecP p d (fun sp l => toF64 (((f64Of (sp.pair a.toNat l)).mul (f64Of (sp.pair b.toNat l))).add
    (f64Of (sp.pair d.toNat l)))) s
/-- vmin.f64. -/
def execVminF64 (p : BitVec 3) (d a b : BitVec 7) (s : State) : Res :=
  vecP2 p d a b (fun x y => toF64 (fMinMax false (f64Of x) (f64Of y))) s
/-- vmax.f64. -/
def execVmaxF64 (p : BitVec 3) (d a b : BitVec 7) (s : State) : Res :=
  vecP2 p d a b (fun x y => toF64 (fMinMax true (f64Of x) (f64Of y))) s
/-- vcmp.f64. -/
def execVcmpF64 (p : BitVec 3) (c : BitVec 4) (q : BitVec 3) (a b : BitVec 7) (s : State) : Res :=
  vecCmp p q (fun sp l => condF c.toNat (f64Of (sp.pair a.toNat l)) (f64Of (sp.pair b.toNat l))) s

/-- Element 0 and element 1 of .f16x2, each on its own (06 R84). -/
def halves (f : FVal → FVal → FVal → FVal) (x y z : Word) : Word :=
  toF16 (f (f16Of (x.extractLsb' 16 16)) (f16Of (y.extractLsb' 16 16)) (f16Of (z.extractLsb' 16 16))) ++
  toF16 (f (f16Of (x.extractLsb' 0 16)) (f16Of (y.extractLsb' 0 16)) (f16Of (z.extractLsb' 0 16)))
/-- vadd.f16x2. -/
def execVaddF16x2 (p : BitVec 3) (d a b : BitVec 7) (s : State) : Res :=
  vec2 p d a b (fun x y => halves (fun u v _ => u.add v) x y 0) s
/-- vmul.f16x2. -/
def execVmulF16x2 (p : BitVec 3) (d a b : BitVec 7) (s : State) : Res :=
  vec2 p d a b (fun x y => halves (fun u v _ => u.mul v) x y 0) s
/-- vfma.f16x2. -/
def execVfmaF16x2 (p : BitVec 3) (d a b : BitVec 7) (s : State) : Res :=
  vec3 p d a b (halves (fun u v w => (u.mul v).add w)) s

/-! ## Conversions and binary8 helpers (08 R139-R143) -/

/-- vcvt: the exact value of the source, converted (08 R139). -/
def execVcvt (p : BitVec 3) (d a : BitVec 7) (sat : BitVec 1) (rnd : BitVec 2) (df sf : BitVec 6) (s : State) : Res :=
  let src (sp : Span) (l : Nat) : Dword := if code64 sf then sp.pair a.toNat l else (sp.vr a.toNat l).setWidth 64
  let res (sp : Span) (l : Nat) : Dword := destValue df (Rnd.of rnd) (sat == 1#1) (sourceValue sf (src sp l))
  if code64 df then vecP p d res s else vecW p d (fun sp l => (res sp l).setWidth 32) s

/-- One byte of vpack8 (08 R140). -/
def packByte (sat : Bool) (f : BitVec 6) (x : Word) : Byte :=
  if f = 0x00#6 then (if sat then BitVec.ofInt 8 (clampI (-128) 127 x.toInt) else x.setWidth 8)
  else if f = 0x04#6 then (if sat then BitVec.ofNat 8 (min 255 x.toNat) else x.setWidth 8)
  else toB8 f .rne sat (f32Of x)
/-- vpack8. -/
def execVpack8 (p : BitVec 3) (d a : BitVec 7) (sat : BitVec 1) (f : BitVec 6) (s : State) : Res :=
  vecW p d (fun sp l =>
    let b (i : Nat) : Byte := packByte (sat == 1#1) f (sp.vr (a.toNat + i) l)
    b 3 ++ b 2 ++ b 1 ++ b 0) s
/-- One register of vunpack8 (08 R140). -/
def unpackByte (f : BitVec 6) (x : Byte) : Word :=
  if f = 0x00#6 then x.signExtend 32 else if f = 0x04#6 then x.setWidth 32 else toF32 (b8Value f x)
/-- vunpack8. -/
def execVunpack8 (p : BitVec 3) (d a : BitVec 7) (f : BitVec 6) (s : State) : Res :=
  vecG p d (fun sp l =>
    let x := sp.vr a.toNat l
    unpackByte f (x.extractLsb' 24 8) ++ unpackByte f (x.extractLsb' 16 8) ++
      unpackByte f (x.extractLsb' 8 8) ++ unpackByte f (x.extractLsb' 0 8)) s
/-- The block scale of vscale.f32 on one lane (08 R141). -/
def scaleF32 (x y : Word) : Word :=
  if bits y 7 0 = 0xFF then 0x7FC00000#32 else toF32 ((f32Of x).scale ((bits y 7 0 : Int) - 127))
/-- vscale.f32. -/
def execVscaleF32 (p : BitVec 3) (d a b : BitVec 7) (s : State) : Res := vec2 p d a b scaleF32 s
/-- vperm on one lane: source bytes a then z, chosen by the bytes of c (08 R142). -/
def permBytes (x c z : Word) : Word :=
  let w : Dword := z ++ x
  let b (i : Nat) : Byte :=
    let t := c.extractLsb' (8 * i) 8
    if t.getLsbD 7 then 0 else w.extractLsb' (8 * (t.toNat % 8)) 8
  b 3 ++ b 2 ++ b 1 ++ b 0
/-- vperm. -/
def execVperm (p : BitVec 3) (d a b : BitVec 7) (s : State) : Res := vec3 p d a b permBytes s
/-- vdot4 on one lane: A codes x, formats f, B codes y, addend z (08 R143, 06 R97). -/
def dot4 (x f y z : Word) : Word :=
  let fa := f.extractLsb' 0 6
  let fb := f.extractLsb' 8 6
  if !isB8 fa || !isB8 fb then 0x7FC00000#32
  else
    toF32 (blockSum (f32Of z :: (List.range 4).map (fun i =>
      (b8Value fa (x.extractLsb' (8 * i) 8)).mul (b8Value fb (y.extractLsb' (8 * i) 8)))))
/-- vdot4. -/
def execVdot4 (p : BitVec 3) (d a b : BitVec 7) (s : State) : Res :=
  vecW p d (fun sp l => dot4 (sp.vr a.toNat l) (sp.vr (a.toNat + 1) l) (sp.vr b.toNat l) (sp.vr d.toNat l)) s

/-! ## Modular arithmetic (08 R144, R145) -/

/-- A modular instruction: code 02 on every lane of S while %mq is 0 (05 R79). -/
def modular (s : State) (f : Nat → Res) : Res := if s.span.mq = 0 then fault 0x02 0 s else f s.span.mq.toNat
/-- (x − y) mod q. -/
def subMod (q x y : Nat) : Nat := (x % q + (q - y % q)) % q
/-- vmodadd. -/
def execVmodadd (p : BitVec 3) (d a b : BitVec 7) (s : State) : Res :=
  modular s (fun q => vecP2 p d a b (fun x y => BitVec.ofNat 64 ((x.toNat + y.toNat) % q)) s)
/-- vmodsub. -/
def execVmodsub (p : BitVec 3) (d a b : BitVec 7) (s : State) : Res :=
  modular s (fun q => vecP2 p d a b (fun x y => BitVec.ofNat 64 (subMod q x.toNat y.toNat)) s)
/-- vmodmul. -/
def execVmodmul (p : BitVec 3) (d a b : BitVec 7) (s : State) : Res :=
  modular s (fun q => vecP2 p d a b (fun x y => BitVec.ofNat 64 (x.toNat * y.toNat % q)) s)
/-- vmodred: the 128-bit value of the group modulo q. -/
def execVmodred (p : BitVec 3) (d a : BitVec 7) (s : State) : Res :=
  modular s (fun q => vecP p d (fun sp l => BitVec.ofNat 64 ((sp.group a.toNat l).toNat % q)) s)
/-- vntt.ct: a + w·b and a − w·b. -/
def execVnttCt (p : BitVec 3) (d a b : BitVec 7) (s : State) : Res :=
  modular s (fun q => vecG p d (fun sp l =>
    let x := (sp.pair b.toNat l).toNat * (sp.pair (a.toNat + 2) l).toNat % q
    let u := (sp.pair a.toNat l).toNat
    (BitVec.ofNat 64 (subMod q u x) ++ BitVec.ofNat 64 ((u + x) % q) : BitVec 128)) s)
/-- vntt.gs: a + b and (a − b)·w. -/
def execVnttGs (p : BitVec 3) (d a b : BitVec 7) (s : State) : Res :=
  modular s (fun q => vecG p d (fun sp l =>
    let u := (sp.pair a.toNat l).toNat
    let v := (sp.pair (a.toNat + 2) l).toNat
    (BitVec.ofNat 64 (subMod q u v * (sp.pair b.toNat l).toNat % q) ++ BitVec.ofNat 64 ((u + v) % q) : BitVec 128)) s)

end Sys2Proof.Machine
end

