-- ==== Sys2Proof/Machine/Dispatch.lean ====
section
/-!
DEFINITION. Machine/Dispatch.lean: the meaning of every instruction and event, one arm for each constructor of Instr.
-/

namespace Sys2Proof.Machine

/-- The meaning of an instruction. -/
def exec (i : Instr) (s : State) : Host.Outcome State Fault Refusal :=
  match i with
  | .clauseIssue q => Sys2Proof.Machine.execClauseIssue q s
  | .clauseEnd q => Sys2Proof.Machine.execClauseEnd q s
  | .countedResultWrite g sp n => Sys2Proof.Machine.execCountedResultWrite g sp n s
  | .trapEntry g sp => Sys2Proof.Machine.execTrapEntry g sp s
  | .park g => Sys2Proof.Machine.execPark g s
  | .makeResident g => Sys2Proof.Machine.execMakeResident g s
  | .workgroupStart g => Sys2Proof.Machine.execWorkgroupStart g s
  | .penAdmission l pen => Sys2Proof.Machine.execPenAdmission l pen s
  | .launchAdmission pk => Sys2Proof.Machine.execLaunchAdmission pk s
  | .asyncUnitLand n u => Sys2Proof.Machine.execAsyncUnitLand n u s
  | .gets m => Sys2Proof.Machine.execGets m s
  | .pute m => Sys2Proof.Machine.execPute m s
  | .putm m data => Sys2Proof.Machine.execPutm m data s
  | .puto m data => Sys2Proof.Machine.execPuto m data s
  | .inv m => Sys2Proof.Machine.execInv m s
  | .fwds m rq => Sys2Proof.Machine.execFwds m rq s
  | .fwdx m rq => Sys2Proof.Machine.execFwdx m rq s
  | .recall m => Sys2Proof.Machine.execRecall m s
  | .merge m => Sys2Proof.Machine.execMerge m s
  | .data m data excl => Sys2Proof.Machine.execData m data excl s
  | .invack m nil => Sys2Proof.Machine.execInvack m nil s
  | .fwdack m dirty => Sys2Proof.Machine.execFwdack m dirty s
  | .putack m => Sys2Proof.Machine.execPutack m s
  | .drpart m tag parts n => Sys2Proof.Machine.execDrpart m tag parts n s
  | .sadd d a b => Sys2Proof.Machine.execSadd d a b s
  | .ssub d a b => Sys2Proof.Machine.execSsub d a b s
  | .smul d a b => Sys2Proof.Machine.execSmul d a b s
  | .smulh d a b => Sys2Proof.Machine.execSmulh d a b s
  | .smulhn d a b => Sys2Proof.Machine.execSmulhn d a b s
  | .sand d a b => Sys2Proof.Machine.execSand d a b s
  | .sor d a b => Sys2Proof.Machine.execSor d a b s
  | .sxor d a b => Sys2Proof.Machine.execSxor d a b s
  | .sshl d a b => Sys2Proof.Machine.execSshl d a b s
  | .sshr d a b => Sys2Proof.Machine.execSshr d a b s
  | .ssar d a b => Sys2Proof.Machine.execSsar d a b s
  | .smin d a b => Sys2Proof.Machine.execSmin d a b s
  | .smax d a b => Sys2Proof.Machine.execSmax d a b s
  | .sminn d a b => Sys2Proof.Machine.execSminn d a b s
  | .smaxn d a b => Sys2Proof.Machine.execSmaxn d a b s
  | .smov d b => Sys2Proof.Machine.execSmov d b s
  | .smovk d sx lit => Sys2Proof.Machine.execSmovk d sx lit s
  | .smovkh d lit => Sys2Proof.Machine.execSmovkh d lit s
  | .scmp n c d a b => Sys2Proof.Machine.execScmp n c d a b s
  | .scmpP n c q a b => Sys2Proof.Machine.execScmpP n c q a b s
  | .ssel all q d a b => Sys2Proof.Machine.execSsel all q d a b s
  | .sfromv w64 hi lo d b => Sys2Proof.Machine.execSfromv w64 hi lo d b s
  | .sballot d q => Sys2Proof.Machine.execSballot d q s
  | .spopc d b => Sys2Proof.Machine.execSpopc d b s
  | .sclz d b => Sys2Proof.Machine.execSclz d b s
  | .br lit => Sys2Proof.Machine.execBr lit s
  | .bz a lit => Sys2Proof.Machine.execBz a lit s
  | .bnz a lit => Sys2Proof.Machine.execBnz a lit s
  | .bp neg q lit => Sys2Proof.Machine.execBp neg q lit s
  | .call d lit => Sys2Proof.Machine.execCall d lit s
  | .ret a => Sys2Proof.Machine.execRet a s
  | .bi a => Sys2Proof.Machine.execBi a s
  | .mset j lit => Sys2Proof.Machine.execMset j lit s
  | .mstrike j => Sys2Proof.Machine.execMstrike j s
  | .mget d => Sys2Proof.Machine.execMget d s
  | .mput a => Sys2Proof.Machine.execMput a s
  | .jread d j => Sys2Proof.Machine.execJread d j s
  | .jreadAddr d j => Sys2Proof.Machine.execJreadAddr d j s
  | .vmov p d a => Sys2Proof.Machine.execVmov p d a s
  | .vmovk p d lit => Sys2Proof.Machine.execVmovk p d lit s
  | .vaddI32 p d a b => Sys2Proof.Machine.execVaddI32 p d a b s
  | .vaddI64 p d a b => Sys2Proof.Machine.execVaddI64 p d a b s
  | .vsubI32 p d a b => Sys2Proof.Machine.execVsubI32 p d a b s
  | .vsubI64 p d a b => Sys2Proof.Machine.execVsubI64 p d a b s
  | .vmulI32 p d a b => Sys2Proof.Machine.execVmulI32 p d a b s
  | .vmulhI32 p d a b => Sys2Proof.Machine.execVmulhI32 p d a b s
  | .vmulhN32 p d a b => Sys2Proof.Machine.execVmulhN32 p d a b s
  | .vmadI32 p d a b => Sys2Proof.Machine.execVmadI32 p d a b s
  | .vand p d a b => Sys2Proof.Machine.execVand p d a b s
  | .vor p d a b => Sys2Proof.Machine.execVor p d a b s
  | .vxor p d a b => Sys2Proof.Machine.execVxor p d a b s
  | .vnot p d a => Sys2Proof.Machine.execVnot p d a s
  | .vshl p d a b => Sys2Proof.Machine.execVshl p d a b s
  | .vshr p d a b => Sys2Proof.Machine.execVshr p d a b s
  | .vsar p d a b => Sys2Proof.Machine.execVsar p d a b s
  | .vminI32 p d a b => Sys2Proof.Machine.execVminI32 p d a b s
  | .vmaxI32 p d a b => Sys2Proof.Machine.execVmaxI32 p d a b s
  | .vminN32 p d a b => Sys2Proof.Machine.execVminN32 p d a b s
  | .vmaxN32 p d a b => Sys2Proof.Machine.execVmaxN32 p d a b s
  | .vabsI32 p d a => Sys2Proof.Machine.execVabsI32 p d a s
  | .vclz p d a => Sys2Proof.Machine.execVclz p d a s
  | .vpopc p d a => Sys2Proof.Machine.execVpopc p d a s
  | .vbrev p d a => Sys2Proof.Machine.execVbrev p d a s
  | .vbfx p d a b => Sys2Proof.Machine.execVbfx p d a b s
  | .vbfi p d a b => Sys2Proof.Machine.execVbfi p d a b s
  | .vsel p d a b => Sys2Proof.Machine.execVsel p d a b s
  | .vcmpI32 p c q a b => Sys2Proof.Machine.execVcmpI32 p c q a b s
  | .vcmpN32 p c q a b => Sys2Proof.Machine.execVcmpN32 p c q a b s
  | .vcmpI64 p c q a b => Sys2Proof.Machine.execVcmpI64 p c q a b s
  | .vaddsI32 p d a b => Sys2Proof.Machine.execVaddsI32 p d a b s
  | .vshflIdx p d a b => Sys2Proof.Machine.execVshflIdx p d a b s
  | .vshflXor p d a c => Sys2Proof.Machine.execVshflXor p d a c s
  | .vshflUp p d a c => Sys2Proof.Machine.execVshflUp p d a c s
  | .vshflDown p d a c => Sys2Proof.Machine.execVshflDown p d a c s
  | .vbcast p d a c => Sys2Proof.Machine.execVbcast p d a c s
  | .vlaneid p d => Sys2Proof.Machine.execVlaneid p d s
  | .vprefixI32 p d a => Sys2Proof.Machine.execVprefixI32 p d a s
  | .vaddF32 p d a b => Sys2Proof.Machine.execVaddF32 p d a b s
  | .vsubF32 p d a b => Sys2Proof.Machine.execVsubF32 p d a b s
  | .vmulF32 p d a b => Sys2Proof.Machine.execVmulF32 p d a b s
  | .vfmaF32 p d a b => Sys2Proof.Machine.execVfmaF32 p d a b s
  | .vminF32 p d a b => Sys2Proof.Machine.execVminF32 p d a b s
  | .vmaxF32 p d a b => Sys2Proof.Machine.execVmaxF32 p d a b s
  | .vcmpF32 p c q a b => Sys2Proof.Machine.execVcmpF32 p c q a b s
  | .vrcpF32 p d a k => Sys2Proof.Machine.execVrcpF32 p d a k s
  | .vrsqrtF32 p d a k => Sys2Proof.Machine.execVrsqrtF32 p d a k s
  | .vsqrtF32 p d a k => Sys2Proof.Machine.execVsqrtF32 p d a k s
  | .vexp2F32 p d a k => Sys2Proof.Machine.execVexp2F32 p d a k s
  | .vlog2F32 p d a k => Sys2Proof.Machine.execVlog2F32 p d a k s
  | .vclassF32 p d a => Sys2Proof.Machine.execVclassF32 p d a s
  | .vaddF64 p d a b => Sys2Proof.Machine.execVaddF64 p d a b s
  | .vsubF64 p d a b => Sys2Proof.Machine.execVsubF64 p d a b s
  | .vmulF64 p d a b => Sys2Proof.Machine.execVmulF64 p d a b s
  | .vfmaF64 p d a b => Sys2Proof.Machine.execVfmaF64 p d a b s
  | .vminF64 p d a b => Sys2Proof.Machine.execVminF64 p d a b s
  | .vmaxF64 p d a b => Sys2Proof.Machine.execVmaxF64 p d a b s
  | .vcmpF64 p c q a b => Sys2Proof.Machine.execVcmpF64 p c q a b s
  | .vaddF16x2 p d a b => Sys2Proof.Machine.execVaddF16x2 p d a b s
  | .vmulF16x2 p d a b => Sys2Proof.Machine.execVmulF16x2 p d a b s
  | .vfmaF16x2 p d a b => Sys2Proof.Machine.execVfmaF16x2 p d a b s
  | .vcvt p d a sat rnd df sf => Sys2Proof.Machine.execVcvt p d a sat rnd df sf s
  | .vpack8 p d a sat f => Sys2Proof.Machine.execVpack8 p d a sat f s
  | .vunpack8 p d a f => Sys2Proof.Machine.execVunpack8 p d a f s
  | .vscaleF32 p d a b => Sys2Proof.Machine.execVscaleF32 p d a b s
  | .vperm p d a b => Sys2Proof.Machine.execVperm p d a b s
  | .vdot4 p d a b => Sys2Proof.Machine.execVdot4 p d a b s
  | .vmodadd p d a b => Sys2Proof.Machine.execVmodadd p d a b s
  | .vmodsub p d a b => Sys2Proof.Machine.execVmodsub p d a b s
  | .vmodmul p d a b => Sys2Proof.Machine.execVmodmul p d a b s
  | .vmodred p d a => Sys2Proof.Machine.execVmodred p d a s
  | .vnttCt p d a b => Sys2Proof.Machine.execVnttCt p d a b s
  | .vnttGs p d a b => Sys2Proof.Machine.execVnttGs p d a b s
  | .tcfgw n a => Sys2Proof.Machine.execTcfgw n a s
  | .tcfgr d n => Sys2Proof.Machine.execTcfgr d n s
  | .tzero n => Sys2Proof.Machine.execTzero n s
  | .tld k fe dy dx n sib h c => Sys2Proof.Machine.execTld k fe dy dx n sib h c s
  | .tldPerm k fe tT bb n h c => Sys2Proof.Machine.execTldPerm k fe tT bb n h c s
  | .tst fe dy dx n sib h c => Sys2Proof.Machine.execTst fe dy dx n sib h c s
  | .tmov d src => Sys2Proof.Machine.execTmov d src s
  | .tmovTr d src => Sys2Proof.Machine.execTmovTr d src s
  | .mmaB8 k bs tB tA v => Sys2Proof.Machine.execMmaB8 k bs tB tA v s
  | .mmaB8Scl k bs tB tA v vA vB => Sys2Proof.Machine.execMmaB8Scl k bs tB tA v vA vB s
  | .mmaB8Sp k bs tM tB tA v => Sys2Proof.Machine.execMmaB8Sp k bs tM tB tA v s
  | .mmaB8SclSp k bs tM tB tA v vA vB => Sys2Proof.Machine.execMmaB8SclSp k bs tM tB tA v vA vB s
  | .mmaBf16 k bs tB tA v => Sys2Proof.Machine.execMmaBf16 k bs tB tA v s
  | .mmaF16 k bs tB tA v => Sys2Proof.Machine.execMmaF16 k bs tB tA v s
  | .mmaF32 k bs tB tA v => Sys2Proof.Machine.execMmaF32 k bs tB tA v s
  | .mmaF64 k bs tB tA v => Sys2Proof.Machine.execMmaF64 k bs tB tA v s
  | .mmaI8 k bs tB tA v => Sys2Proof.Machine.execMmaI8 k bs tB tA v s
  | .mmaMod k bs tB tA v => Sys2Proof.Machine.execMmaMod k bs tB tA v s
  | .ldN8 k x b d m => Sys2Proof.Machine.execLdN8 k x b d m s
  | .ldI8 k x b d m => Sys2Proof.Machine.execLdI8 k x b d m s
  | .ldN16 k x b d m => Sys2Proof.Machine.execLdN16 k x b d m s
  | .ldI16 k x b d m => Sys2Proof.Machine.execLdI16 k x b d m s
  | .ld32 k x b d m => Sys2Proof.Machine.execLd32 k x b d m s
  | .ld64 k x b d m => Sys2Proof.Machine.execLd64 k x b d m s
  | .ld128 k x b d m => Sys2Proof.Machine.execLd128 k x b d m s
  | .st8 x b d m => Sys2Proof.Machine.execSt8 x b d m s
  | .st16 x b d m => Sys2Proof.Machine.execSt16 x b d m s
  | .st32 x b d m => Sys2Proof.Machine.execSt32 x b d m s
  | .st64 x b d m => Sys2Proof.Machine.execSt64 x b d m s
  | .st128 x b d m => Sys2Proof.Machine.execSt128 x b d m s
  | .ldt32 k p h d m c => Sys2Proof.Machine.execLdt32 k p h d m c s
  | .ldt64 k p h d m c => Sys2Proof.Machine.execLdt64 k p h d m c s
  | .ldt128 k p h d m c => Sys2Proof.Machine.execLdt128 k p h d m c s
  | .stt32 p h d m c => Sys2Proof.Machine.execStt32 p h d m c s
  | .stt64 p h d m c => Sys2Proof.Machine.execStt64 p h d m c s
  | .stt128 p h d m c => Sys2Proof.Machine.execStt128 p h d m c s
  | .sld64 k b d m => Sys2Proof.Machine.execSld64 k b d m s
  | .sst64 b a m => Sys2Proof.Machine.execSst64 b a m s
  | .amoAddI32 k x b d m => Sys2Proof.Machine.execAmoAddI32 k x b d m s
  | .amoAddI64 k x b d m => Sys2Proof.Machine.execAmoAddI64 k x b d m s
  | .amoMinI32 k x b d m => Sys2Proof.Machine.execAmoMinI32 k x b d m s
  | .amoMinN32 k x b d m => Sys2Proof.Machine.execAmoMinN32 k x b d m s
  | .amoMinI64 k x b d m => Sys2Proof.Machine.execAmoMinI64 k x b d m s
  | .amoMaxI32 k x b d m => Sys2Proof.Machine.execAmoMaxI32 k x b d m s
  | .amoMaxN32 k x b d m => Sys2Proof.Machine.execAmoMaxN32 k x b d m s
  | .amoMaxI64 k x b d m => Sys2Proof.Machine.execAmoMaxI64 k x b d m s
  | .amoAnd k x b d m => Sys2Proof.Machine.execAmoAnd k x b d m s
  | .amoOr k x b d m => Sys2Proof.Machine.execAmoOr k x b d m s
  | .amoXor k x b d m => Sys2Proof.Machine.execAmoXor k x b d m s
  | .amoSwap k x b d m => Sys2Proof.Machine.execAmoSwap k x b d m s
  | .amoCas32 k x b d m => Sys2Proof.Machine.execAmoCas32 k x b d m s
  | .amoCas64 k x b d m => Sys2Proof.Machine.execAmoCas64 k x b d m s
  | .amoFaddF32 k x b d m => Sys2Proof.Machine.execAmoFaddF32 k x b d m s
  | .redAddI32 x b d m => Sys2Proof.Machine.execRedAddI32 x b d m s
  | .redAddI64 x b d m => Sys2Proof.Machine.execRedAddI64 x b d m s
  | .redMin x b d m => Sys2Proof.Machine.execRedMin x b d m s
  | .redMax x b d m => Sys2Proof.Machine.execRedMax x b d m s
  | .redAnd x b d m => Sys2Proof.Machine.execRedAnd x b d m s
  | .redOr x b d m => Sys2Proof.Machine.execRedOr x b d m s
  | .redXor x b d m => Sys2Proof.Machine.execRedXor x b d m s
  | .dredAddI64 x b d m => Sys2Proof.Machine.execDredAddI64 x b d m s
  | .dredFaddF32 x b d m => Sys2Proof.Machine.execDredFaddF32 x b d m s
  | .dredFaddB8 x b d m => Sys2Proof.Machine.execDredFaddB8 x b d m s
  | .dredModadd x b d m => Sys2Proof.Machine.execDredModadd x b d m s
  | .dredMinF32 x b d m => Sys2Proof.Machine.execDredMinF32 x b d m s
  | .dredMaxF32 x b d m => Sys2Proof.Machine.execDredMaxF32 x b d m s
  | .dredOr x b d m => Sys2Proof.Machine.execDredOr x b d m s
  | .fence m => Sys2Proof.Machine.execFence m s
  | .fenceRo m => Sys2Proof.Machine.execFenceRo m s
  | .cflush x b m => Sys2Proof.Machine.execCflush x b m s
  | .cinv x b m => Sys2Proof.Machine.execCinv x b m s
  | .cinvDiscard x b m => Sys2Proof.Machine.execCinvDiscard x b m s
  | .pref x b m => Sys2Proof.Machine.execPref x b m s
  | .cp p sz tl dst src m => Sys2Proof.Machine.execCp p sz tl dst src m s
  | .cpm p sz tl dst src m => Sys2Proof.Machine.execCpm p sz tl dst src m s
  | .cpr p sz tl dst src m => Sys2Proof.Machine.execCpr p sz tl dst src m s
  | .gth p sz tl dst src m => Sys2Proof.Machine.execGth p sz tl dst src m s
  | .sct p sz tl dst src m => Sys2Proof.Machine.execSct p sz tl dst src m s
  | .put p sz tl dst src m => Sys2Proof.Machine.execPut p sz tl dst src m s
  | .get p sz tl dst src m => Sys2Proof.Machine.execGet p sz tl dst src m s
  | .cpchute p sz tl dst src m => Sys2Proof.Machine.execCpchute p sz tl dst src m s
  | .launch p tl src m => Sys2Proof.Machine.execLaunch p tl src m s
  | .tlwait n b => Sys2Proof.Machine.execTlwait n b s
  | .tlread d n sel => Sys2Proof.Machine.execTlread d n sel s
  | .wcwait k r b => Sys2Proof.Machine.execWcwait k r b s
  | .wcread d r k => Sys2Proof.Machine.execWcread d r k s
  | .chqClaim d h => Sys2Proof.Machine.execChqClaim d h s
  | .chqPub h b => Sys2Proof.Machine.execChqPub h b s
  | .chqWait d h => Sys2Proof.Machine.execChqWait d h s
  | .chqRel h b => Sys2Proof.Machine.execChqRel h b s
  | .waitq d a b => Sys2Proof.Machine.execWaitq d a b s
  | .wake d a b => Sys2Proof.Machine.execWake d a b s
  | .mon a => Sys2Proof.Machine.execMon a s
  | .mwait d b => Sys2Proof.Machine.execMwait d b s
  | .talloc d h b => Sys2Proof.Machine.execTalloc d h b s
  | .tfree h => Sys2Proof.Machine.execTfree h s
  | .tquery d h => Sys2Proof.Machine.execTquery d h s
  | .winreg d a b => Sys2Proof.Machine.execWinreg d a b s
  | .winfree d b => Sys2Proof.Machine.execWinfree d b s
  | .rankq d a => Sys2Proof.Machine.execRankq d a s
  | .sprd d n => Sys2Proof.Machine.execSprd d n s
  | .spwr a n => Sys2Proof.Machine.execSpwr a n s
  | .evt a n => Sys2Proof.Machine.execEvt a n s
  | .tlbinvPage a b => Sys2Proof.Machine.execTlbinvPage a b s
  | .tlbinvAsid a b => Sys2Proof.Machine.execTlbinvAsid a b s
  | .tlbinvPaddock a b => Sys2Proof.Machine.execTlbinvPaddock a b s
  | .tlbinvRank a => Sys2Proof.Machine.execTlbinvRank a s
  | .tlbinvRankall a => Sys2Proof.Machine.execTlbinvRankall a s
  | .launchPlacement => Sys2Proof.Machine.execLaunchPlacement s
  | .cpchuteClaim => Sys2Proof.Machine.execCpchuteClaim s
  | .icehouseExchange => Sys2Proof.Machine.execIcehouseExchange s
  | .rimeRecord => Sys2Proof.Machine.execRimeRecord s
  | .ptpLockLoss => Sys2Proof.Machine.execPtpLockLoss s
  | .beacon => Sys2Proof.Machine.execBeacon s
  | .perfLatch => Sys2Proof.Machine.execPerfLatch s
  | .progressSample => Sys2Proof.Machine.execProgressSample s
  | .thermalTrip => Sys2Proof.Machine.execThermalTrip s
  | .snop => Sys2Proof.Machine.execSnop s
  | .exit => Sys2Proof.Machine.execExit s
  | .yield => Sys2Proof.Machine.execYield s
  | .barWg => Sys2Proof.Machine.execBarWg s
  | .barPen => Sys2Proof.Machine.execBarPen s
  | .barLaunch => Sys2Proof.Machine.execBarLaunch s
  | .trap => Sys2Proof.Machine.execTrap s
  | .tretRetry => Sys2Proof.Machine.execTretRetry s
  | .tretSkip => Sys2Proof.Machine.execTretSkip s
  | .tretKill => Sys2Proof.Machine.execTretKill s
  | .tmask => Sys2Proof.Machine.execTmask s
  | .tunmask => Sys2Proof.Machine.execTunmask s
  | .brk => Sys2Proof.Machine.execBrk s
  | .halt => Sys2Proof.Machine.execHalt s
  | .debuggerResume q => Sys2Proof.Machine.execDebuggerResume q s
  | .watchdogExpiry who => Sys2Proof.Machine.execWatchdogExpiry who s
  | .mwaitTimeout q => Sys2Proof.Machine.execMwaitTimeout q s
  | .quantumExpiry g => Sys2Proof.Machine.execQuantumExpiry g s
  | .launchWindowPlace pk addr => Sys2Proof.Machine.execLaunchWindowPlace pk addr s
  | .preemptionRequest pk serial => Sys2Proof.Machine.execPreemptionRequest pk serial s
  | .preemptionResume pk serial => Sys2Proof.Machine.execPreemptionResume pk serial s
  | .preemptionDeadline pk serial => Sys2Proof.Machine.execPreemptionDeadline pk serial s
  | .paddockSwap leave enter => Sys2Proof.Machine.execPaddockSwap leave enter s
  | .getx m => Sys2Proof.Machine.execGetx m s
  | .upg m => Sys2Proof.Machine.execUpg m s
  | .drget m tag => Sys2Proof.Machine.execDrget m tag s
  | .amoMsg m r => Sys2Proof.Machine.execAmoMsg m r s
  | .wrline m data => Sys2Proof.Machine.execWrline m data s
  | .grant m => Sys2Proof.Machine.execGrant m s
  | .grantd m tag => Sys2Proof.Machine.execGrantd m tag s
  | .redack m n => Sys2Proof.Machine.execRedack m n s
  | .err m retry => Sys2Proof.Machine.execErr m retry s
  | .redop m r n => Sys2Proof.Machine.execRedop m r n s
  | .cacheEviction core line => Sys2Proof.Machine.execCacheEviction core line s
  | .requestRetry core line => Sys2Proof.Machine.execRequestRetry core line s
  | .linkDown port => Sys2Proof.Machine.execLinkDown port s
  | .heartbeatMiss party => Sys2Proof.Machine.execHeartbeatMiss party s
  | .extentRevoke host first count => Sys2Proof.Machine.execExtentRevoke host first count s
  | .revocationTimeout host first count => Sys2Proof.Machine.execRevocationTimeout host first count s
  | .windowKeyReplace pk w key => Sys2Proof.Machine.execWindowKeyReplace pk w key s
  | .oldKeyTimeout pk w => Sys2Proof.Machine.execOldKeyTimeout pk w s
  | .remotePacket pkt => Sys2Proof.Machine.execRemotePacket pkt s
  | .remoteAck ack => Sys2Proof.Machine.execRemoteAck ack s
  | .paddockTableWrite pk e => Sys2Proof.Machine.execPaddockTableWrite pk e s
  | .errorLogTailWrite pk v => Sys2Proof.Machine.execErrorLogTailWrite pk v s
  | .sinkDescriptorWrite n d => Sys2Proof.Machine.execSinkDescriptorWrite n d s
  | .sinkTailWrite n v => Sys2Proof.Machine.execSinkTailWrite n v s
  | .readback addr => Sys2Proof.Machine.execReadback addr s
  | .registerWrite w => Sys2Proof.Machine.execRegisterWrite w s
  | .stallLimit n => Sys2Proof.Machine.execStallLimit n s
  | .ptpLock ns => Sys2Proof.Machine.execPtpLock ns s
  | .ptpCorrection delta => Sys2Proof.Machine.execPtpCorrection delta s
  | .floorWindow core pipe => Sys2Proof.Machine.execFloorWindow core pipe s
  | .powerGood verified => Sys2Proof.Machine.execPowerGood verified s
  | .readinessReport idx st => Sys2Proof.Machine.execReadinessReport idx st s
  | .powerCapSet watts => Sys2Proof.Machine.execPowerCapSet watts s
  | .thermalThrottle die => Sys2Proof.Machine.execThermalThrottle die s
  | .trayWindowDouble slot => Sys2Proof.Machine.execTrayWindowDouble slot s
  | .getVersion r => Sys2Proof.Machine.execGetVersion r s
  | .getCapabilities r => Sys2Proof.Machine.execGetCapabilities r s
  | .negotiateAlgorithms r asym kem => Sys2Proof.Machine.execNegotiateAlgorithms r asym kem s
  | .getDigests r => Sys2Proof.Machine.execGetDigests r s
  | .getCertificate r slot off len => Sys2Proof.Machine.execGetCertificate r slot off len s
  | .challenge r nonce => Sys2Proof.Machine.execChallenge r nonce s
  | .getMeasurements r idx nonce => Sys2Proof.Machine.execGetMeasurements r idx nonce s
  | .keyExchange r session kem => Sys2Proof.Machine.execKeyExchange r session kem s
  | .finish r session => Sys2Proof.Machine.execFinish r session s
  | .keyUpdate r session => Sys2Proof.Machine.execKeyUpdate r session s
  | .endSession r session => Sys2Proof.Machine.execEndSession r session s
  | .linkUp port => Sys2Proof.Machine.execLinkUp port s
  | .hopKeyChange port => Sys2Proof.Machine.execHopKeyChange port s
  | .retransmission die seq => Sys2Proof.Machine.execRetransmission die seq s
  | .firmwareReportsLost party => Sys2Proof.Machine.execFirmwareReportsLost party s

end Sys2Proof.Machine
end

