-- ==== Sys2Proof/Machine/Sched.lean ====
section
/-!
DEFINITION. Machine/Sched.lean: which actions the machine can take now, and the taking of one. Where the spec orders the choice
(03 R35, 14 R256-R258, 18 R318) the order decides; between what it leaves unordered a free value does (log 2).
-/

namespace Sys2Proof.Machine

/-- One action of the machine: an event; the next instruction of an open clause; the delivery of a message or of a packet; data
that prove wrong; a drift line that moves between its buffer and the spill area; two messages that a router combines; and what the
homes, caches and tables take up again of themselves: the oldest write of the machine, waiting requests of a line, a reserved
line that nobody awaits, a deferred forward, an eviction for room, a fill that has served its load, a refused request, a tray's window, a line of a revoked extent, a placement, a table write, a readback. -/
inductive Action where
  | event (i : Instr)
  | instr (q : SpanRef)
  | message (h : Hdr) (m : Msg)
  | packet (p : Packet)
  | lineFails (line kind : Nat)
  | granFails (place i : Nat)
  | spill (line : Nat)
  | unspill (line : Nat)
  | combine (i j : Nat)
  | late
  | drain (line : Nat)
  | unreserve (line : Nat)
  | undefer (h : Hdr)
  | evict (core line : Nat)
  | forget (core : Nat)
  | retry (core line : Nat)
  | double (slot : Nat)
  | askBack (pod : Bool) (p : BitVec 13) (line : Nat)
  | place (pk : Nat) (addr : Dword)
  | config (pk : Nat) (c : PaddockCfg)
  | read (addr : Dword)
  deriving DecidableEq, Repr

/-! ## The interlock (04 R72, R73) -/

/-- May the instruction at which a clause stands issue now: its dependence bit is met, and no register that it names awaits a result. A
word that spells no instruction issues, and faults. DESIGN CHOICE (log 76): the interlock looks at the results of the issuing span alone;
where another span of the workgroup loads a shared tile register the spec does not say whether it holds this one. Unsafe. -/
def instrReady (w : Wg) (sp : Span) (c : Clause) : Bool :=
  match c.instr with
  | none => true
  | some i =>
    let seq := (sp.laneAt (State.lowest c.lanes)).lastIssue
    let mine (p : Pending) : Bool := p.seq == seq && p.lanes &&& c.lanes != 0
    let names := pairNames w (Instr.regReads i ++ Instr.regWrites i)
    (!depBit c.hdr c.pos || !sp.pending.any mine) &&
      !sp.pending.any (fun p => (pairNames w p.dests).any (fun d => names.contains d)) &&
      !sp.tileWait.any (fun t => t.own != c.lanes && (pairNames w t.dests).any (fun d => names.contains d))

/-! ## Actions of a span -/

/-- Clauses that may act: not suspended, of the innermost open level, with no raised exception on their lanes (18 R318); one that a
debugger has stopped is always among them (18 R327). -/
def liveClauses (sp : Span) : List Clause :=
  sp.clauses.filter (fun c => c.stopped || !c.suspended && (sp.laneAt (State.lowest c.lanes)).level == sp.openLevel &&
    c.lanes &&& sp.trapped == 0)

/-- Is a clause held at a barrier: then nothing retries it (14 R259). -/
def atBarrier (sp : Span) (c : Clause) : Bool :=
  match (sp.laneAt (State.lowest c.lanes)).hold with
  | .barrier _ => true
  | _ => false

/-- Does a clause stand at a tile instruction that waits for full/empty bits or a sibling's handle: other issue sets of the span go on. -/
def tileHeld (sp : Span) (c : Clause) : Bool := sp.tileWait.any (fun t => t.own == c.lanes)
/-- Has a clause's memory instruction begun. -/
def memBegun (sp : Span) (c : Clause) : Bool := sp.memWait.any (fun t => t.own == c.lanes)

/-- What a span does inside its clauses: a clause that is over ends; else the clause that runs issues its next instruction;
instructions that wait are taken up again (14 R251). A debugger's stop holds the whole span (18 R327). In a paddock that leaves its
cores a memory instruction that has begun is finished, and nothing else is done (18 R330). -/
def clauseActions (w : Wg) (g n : Nat) (sp : Span) (leaving : Bool) : List Action :=
  let act := liveClauses sp
  let ref (c : Clause) : SpanRef := ⟨g, n, c.lanes⟩
  if leaving then (act.filter (memBegun sp)).map (fun c => .instr (ref c))
  else if act.any (·.stopped) then []
  else
    let ended := act.filter (fun c => decide (c.n < c.pos) && !State.uncounted sp c)
    let run := act.filter (fun c => decide (c.pos ≤ c.n) && !c.waiting && !tileHeld sp c)
    let wait := act.filter (fun c => decide (c.pos ≤ c.n) && ((c.waiting && !atBarrier sp c) || tileHeld sp c))
    (match ended, run with
      | c :: _, _ => [.event (.clauseEnd (ref c))]
      | [], c :: _ => if instrReady w sp c then [.instr (ref c)] else []
      | [], [] => []) ++ wait.map (fun c => .instr (ref c))

/-- Does a span stand between clauses: none is running or ending, none is stopped. -/
def betweenClauses (sp : Span) : Bool :=
  (liveClauses sp).all (fun c => decide (c.pos ≤ c.n) && (c.waiting || tileHeld sp c) && !c.stopped)

namespace State

/-- Is an issue set ready (14 R257): its wait mask met, and no interlock pending for the clause's first instruction; and for which
pipe: none when its clause cannot be fetched or is illegal, which is met on no pipe. -/
def setReady (s : State) (q : SpanRef) : Option (Option Nat) :=
  let s0 := s.atHeader q
  match s0.fetchClause s0.focus.hdrPc with
  | .wait _ => some none
  | .bad _ _ _ => some none
  | .ok s1 (hdr, words) =>
    if !clauseLegal hdr words then some none
    else if State.maskHolds s1.span hdr || !instrReady s1.here s1.span (s0.freshClause hdr words (if hdr.getLsbD 7 then 2 else 1)) then none
    else some (some (bits hdr 6 4))

/-- The issue set that a span offers (03 R35): among the ready ones the least recent issuer, at a tie the one of the lowest
lane. -/
def offered (s : State) (g n : Nat) : Option (SpanRef × Option Nat) :=
  let sp := s.spanAt g n
  let ready := sp.issueSets.filterMap (fun S => (s.setReady ⟨g, n, S⟩).map (fun c => ((⟨g, n, S⟩ : SpanRef), c)))
  (sortBy (fun (e : SpanRef × Option Nat) => [(sp.lastIssueOf e.1.lanes : Int), (State.lowest e.1.lanes : Int)]) ready).head?

/-- Can a workgroup's core execute: its die is ready, its paddock resident on it (01 R14). -/
def coreOn (s : State) (w : Wg) : Bool :=
  (s.pk w.paddock).resident && inRect (s.pk w.paddock).cfg w.core && s.ready (dieOf w.core)
/-- Is a workgroup's core running: it can execute, and its paddock does not leave it. -/
def coreRuns (s : State) (w : Wg) : Bool := s.coreOn w && !s.leaving w.paddock

/-- May clauses of a workgroup's span issue: no lossless sink stops it (17 R311), no raised exception has its turn (18 R319, R324, R325), no
table write waits for the paddock to stand between clauses (15 R285), and it is not to be parked, unless the span is masked in a handler
(03 R51, 18 R325). -/
def mayIssue (s : State) (g : Nat) (w : Wg) (sp : Span) : Bool :=
  !s.sourceStopped w.paddock && !sp.traps.any (trapDue sp) && !s.cfgWait.any (fun e => e.1 == w.paddock) && (!s.toStop g || (sp.trapMask && sp.openLevel != 0))

/-- The sets that the spans of running cores offer, with their pipes. -/
def offers (s : State) : List (SpanRef × Option Nat) :=
  s.wg.flatMap (fun e =>
    if e.2.res == .resident && s.coreRuns e.2 then
      e.2.span.filterMap (fun q =>
        if betweenClauses q.2 && s.mayIssue e.1 e.2 q.2 && q.2.idleLanes != 0 then s.offered e.1 q.1 else none)
    else [])

/-- By what offers are ranked on one pipe of one core (14 R257, R258): a floor grant that is due, the higher level among grants, the
higher priority, the higher stage weight, the clause that became ready earliest, the lower span slot. Slots are taken in the
order of workgroups and spans (log 77). -/
def rank (s : State) (o : SpanRef × Option Nat) : List Int :=
  let w := s.wgAt o.1.g
  let p := s.prioOf w
  let f := Store.get 0 (s.pk w.paddock).cfg.floors p
  let due := decide (Store.get 0 s.floorCnt (floorKey w.core (o.2.getD 7) p) < f)
  [(if due then 1 else 0), (p : Int), s.weightOf w, -(((s.readySince.find? (fun e => e.1 == o.1)).map Prod.snd).getD s.steps : Int),
    -(o.1.g : Int), -(o.1.sp : Int)]

/-- The offers that their pipes may take. -/
def issues (s : State) : List Action :=
  let os := s.offers
  (os.filter (fun o => o.2.isNone || os.all (fun p =>
    decide (o.2 ≠ p.2) || (s.wgAt o.1.g).core != (s.wgAt p.1.g).core || !lexLt (s.rank o) (s.rank p)))).map
    (fun o => .event (.clauseIssue o.1))

/-- Actions inside the spans of running cores. -/
def spanActions (s : State) : List Action :=
  s.wg.flatMap (fun e =>
    if e.2.res == .resident then
      e.2.span.flatMap (fun q =>
        (q.2.pending.zipIdx.map (fun p => .event (.countedResultWrite e.1 q.1 p.2))) ++
        (if !s.coreOn e.2 then []
        else (if s.coreRuns e.2 && !s.spanStopped e.1 q.1 && q.2.traps.any (fun t => trapReady q.2 t) then [.event (.trapEntry e.1 q.1)] else []) ++
          clauseActions e.2 e.1 q.1 q.2 (s.leaving e.2.paddock)))
    else [])

/-! ## Actions of the yard, the engines, the network and Rime -/

/-- The yard's next step on each core (14 R256, 03 R50-R53), and parking for pre-emption (18 R328). -/
def yardActions (s : State) : List Action :=
  let cores := (s.wg.filter (fun e => s.candidate e.2 && s.coreRuns e.2 && !s.sourceStopped e.2.paddock)).map (fun e => e.2.core)
  cores.eraseDups.flatMap (fun core =>
    match s.yardPlan core with
    | none => []
    | some (g, []) => [.event (if (s.wgAt g).res = .unstarted then .workgroupStart g else .makeResident g)]
    | some (_, v :: _) => if wgParkable (s.wgAt v) then [.event (.park v)] else []) ++
  (s.wg.filter (fun e => e.2.parkWanted == some .preempt && wgParkable e.2 && s.coreRuns e.2 && !s.sourceStopped e.2.paddock)).map (fun e => .event (.park e.1))

/-- Pens that can be admitted (03 R43). -/
def penActions (s : State) : List Action :=
  s.launch.flatMap (fun e =>
    let l := e.2
    if !s.admits l then []
    else if l.gridBar then
      (if l.nextPen = [] && l.positions != [] && s.pensFit l ((allPens l).map Prod.snd) then [.event (.penAdmission e.1 0)] else [])
    else l.positions.filterMap (fun q => match l.nextAt q with
      | some p => if s.pensFit l [p] then some (.event (.penAdmission e.1 (l.penNum p))) else none
      | none => none))

/-- Launches at the heads of the queues (14 R254), launch operations with room, chute claims of engines (11 R212). -/
def queueActions (s : State) : List Action :=
  (s.paddock.filter (fun e => e.2.resident && !s.leaving e.1 && (match headOf e.2 with
    | none => false
    | some q => let l := s.launchAt (2 ^ 32 * e.1 + q.serial.toNat)
      s.refusal l != 0 || !s.headWaits l))).map (fun e => .event (.launchAdmission e.1)) ++
  (if s.launchReady.isSome then [.event .launchPlacement] else []) ++
  (if s.engineClaim.isSome then [.event .cpchuteClaim] else [])

/-- Units of class 4 operations that may land (11 R205): none of a suspended operation, of an engine that a sink stops, or of a paddock that
leaves its cores (18 R330). -/
def engineActions (s : State) : List Action :=
  s.async.flatMap (fun a =>
    if a.suspended || !s.ready (dieOf a.core) || s.sourceStopped a.id.paddock || s.leaving a.id.paddock then []
    else a.units.zipIdx.filterMap (fun u =>
      if u.1.st == .pending && u.1.sent.isNone && (match a.kind with
        | .cpchute _ none => false
        | _ => true) then some (.event (.asyncUnitLand a.uid u.2)) else none))

/-- Does the receiver sink a message now (13 R237): a reduction when the queue has a place, a forward under the deferral rule. -/
def sinks (s : State) (h : Hdr) (m : Msg) : Bool :=
  match m with
  | .redOp _ _ => !s.lineBusy h.line || s.canQueue h m
  | .fwdS _ | .fwdX _ | .merge => !s.defers h m || (s.holdAt h).defer.isNone
  | .recall => h.dst = 0x1FFF || !s.defers h m || (s.holdAt h).defer.isNone
  | .inv => (s.holdAt h).state != .S || !s.defers h m
  | _ => true

/-- The class of a message (13 R236): REQ, FWD, RSP, CMB. -/
def msgClass (h : Hdr) (m : Msg) : Nat :=
  match m with
  | .getS | .getX | .upg | .drGet _ | .amo _ | .wrLine _ | .putE | .putM _ | .putO _ => 0
  | .inv | .fwdS _ | .fwdX _ | .merge => 1
  | .recall => if h.dst = 0x1FFF then 0 else 1
  | .redOp _ _ | .drPart _ _ _ => 3
  | _ => 2

/-- Messages that can be delivered: of each source, line and class the first (13 R237); a combined message is its contributors' (R238). -/
def messageActions (s : State) : List Action :=
  let ms := s.msgs.zipIdx
  (ms.filter (fun e => s.sinks e.1.1 e.1.2 &&
    ms.all (fun f => !(decide (f.2 < e.2) && f.1.1.dst == e.1.1.dst && f.1.1.line == e.1.1.line &&
      msgClass f.1.1 f.1.2 == msgClass e.1.1 e.1.2 && s.sharesSource f.1 e.1)))).map
    (fun e => .message e.1.1 e.1.2)

/-- What else stands ready: a swap's exchange, the oldest record, packets that wait. -/
def otherActions (s : State) : List Action :=
  (if s.swapDue.isSome then [.event .icehouseExchange] else []) ++
  (if s.records ≠ [] then [.event .rimeRecord] else []) ++
  s.inbox.map .packet

/-- Data accepted earlier that can prove wrong (11 R188, 19 R340): the carriage check (kind 0) or the ECC (kind 1) of a line
that this device alone holds, of another device's line dirty data alone, or the carriage check of a granule of tile memory. Whether any does
is free (log 36). -/
def mismatchActions (s : State) : List Action :=
  let held : List Nat := (s.cache.filter (fun e => [CacheState.M, .O, .D].contains e.2.state)).map (fun e => e.1 % 2 ^ 53)
  let kept : List Nat := s.mem.map (fun e => e.1 / 128)
  let lines := (held ++ kept).eraseDups.filter (fun n =>
    !s.lineBusy n && (s.dirAt n).state != .P && (outsideHolders (s.dirAt n)).isEmpty &&
      (!isPod n || [CacheState.M, .O, .D].contains (s.proxyAt n).state))
  let grans := s.wg.flatMap (fun e => (e.2.granule.filter (fun x => !x.2.poison)).map (fun x =>
      (handlePlace e.1 (x.1 / 2 ^ 24), x.1 % 2 ^ 24))) ++
    s.chute.flatMap (fun e => (e.2.granule.filter (fun x => !x.2.poison)).map (fun x => (chutePlace e.1, x.1)))
  match lines.flatMap (fun n => [Action.lineFails n 0, .lineFails n 1]) ++ grans.map (fun x => Action.granFails x.1 x.2) with
  | [] => []
  | as => if Config.mismatch s.steps then as else []

/-- Drift lines that move (13 R242): the least recently changed one of a slice whose buffer is full goes to the spill area, or, where another
device is its home, its partial goes to that (13 R246); one that is in the area may come back into a buffer with room, when is free (log
50). -/
def spillActions (s : State) : List Action :=
  let slices := (s.driftOrder.map homeSlice).eraseDups
  slices.flatMap (fun k =>
    let held := s.driftIn k
    if Config.driftPerSlice ≤ held.length then
      ((held.head?.filter (fun n => isPod n || decide (s.spilled.length < Config.driftSpill))).map Action.spill).toList
    else (s.spilled.filter (fun e => homeSlice e.1 == k)).map (fun e => .unspill e.1))

/-- Lines whose requests wait and may go on (13 R239). -/
def drainActions (s : State) : List Action :=
  (s.dir.filter (fun e => !s.lineBusy e.1 && e.2.queue != [])).map (fun e => .drain e.1)

/-- The party for whose access a line is reserved at its home. -/
def reservedParty (s : State) (line : Nat) : Option (BitVec 13) :=
  match (s.dirAt line).serving with
  | some (h, .recall) => if s.reservedFor h.src line then some h.src else none
  | _ => none
/-- Does anything still await a line that is reserved: an instruction of the core, or a write of the machine itself. -/
def wanting (s : State) (p : BitVec 13) (line : Nat) : Bool :=
  if p = 0x1FFF then s.late.any (fun w => decide (0 < w.n) && w.pa / 128 == line)
  else s.awaited p.toNat line
/-- Lines reserved for nobody any more, and forwards that are deferred no longer (13 R240). -/
def releaseActions (s : State) : List Action :=
  (Store.keys s.dir).filterMap (fun n => (s.reservedParty n).bind (fun p => if s.wanting p n then none else some (.unreserve n))) ++
    (s.cache.filterMap (fun e => e.2.defer.bind (fun d => if s.defers d.1 d.2 then none else some (.undefer d.1)))) ++
    (s.proxy.filterMap (fun e => e.2.defer.bind (fun d => if s.defers d.1 d.2 then none else some (.undefer d.1))))

/-- What the caches do of themselves: they give up for room lines of a full L1 or drift buffer that no instruction awaits (01 R9), drop fills
that have served their load (12 R225), and repeat requests that a full queue has refused (13 R237). -/
def cacheActions (s : State) : List Action :=
  let cores := (s.cache.map (fun e => e.1 / 2 ^ 53)).eraseDups
  cores.flatMap (fun core =>
    let mine := s.cache.filter (fun e => e.1 / 2 ^ 53 == core && !s.awaited core (e.1 % 2 ^ 53))
    (if s.l1Full core then (mine.filter (fun e => e.2.state.readable)).map (fun e => .evict core (e.1 % 2 ^ 53)) else []) ++
    (if s.driftFull core then (mine.filter (fun e => e.2.state == .D)).map (fun e => .evict core (e.1 % 2 ^ 53)) else []) ++
    (if mine.any (fun e => e.2.fillDead && e.2.haveData) then [.forget core] else [])) ++
  (s.cache.filter (fun e => e.2.refused)).map (fun e => .retry (e.1 / 2 ^ 53) (e.1 % 2 ^ 53)) ++
  s.proxy.flatMap (fun e =>
    let core := (e.2.asker.map (fun q => (s.wgAt q.g).core)).getD 0
    (if s.idleFill core e.1 e.2 then [.forget core] else []) ++ (if e.2.refused then [.retry 4096 e.1] else []))

/-- What the tables and the machine itself take up again. -/
def tableActions (s : State) : List Action :=
  (if s.late.isEmpty then [] else [.late]) ++
    s.laterAsks.map (fun e => .askBack e.1 e.2.1 e.2.2) ++
    (s.tray.filter (fun e => decide (1024 ≤ e.2.lows))).map (fun e => .double e.1) ++
    s.placing.map (fun e => .place e.1 e.2) ++
    ((s.cfgWait.head?.filter (fun e => s.betweenAll e.1)).map (fun e => Action.config e.1 e.2)).toList ++
    (s.readWait.filter (fun a => !s.readbackHeld a)).map .read

/-- The actions that are enabled. A device whose firmware has not released the dies takes none (19 R344). -/
def enabled (s : State) : List Action :=
  if !s.powered || s.halted then []
  else s.spanActions ++ s.issues ++ s.yardActions ++ s.penActions ++ s.queueActions ++ s.engineActions ++ s.messageActions ++ s.otherActions ++
    s.mismatchActions ++ s.spillActions ++ s.cmbPairs.map (fun e => .combine e.1 e.2) ++ s.drainActions ++ s.releaseActions ++
    s.cacheActions ++ s.tableActions

/-- One enabled action: the only one, or one that a free value names. -/
def pick (s : State) : Option Action :=
  match s.enabled with
  | [] => none
  | [a] => some a
  | as => as[Config.choose s.steps % as.length]?

/-- The 1,280-byte image of a drift line's accumulators (13 R242): 40 bytes to an element. -/
def driftImage (s : State) (line : Nat) : Nat :=
  let p := s.podAt line
  let tag := if p.state = .D ∨ p.state = .BMrg then p.tag else (s.dirAt line).tag
  (List.range 32).foldr (fun e x => (accAdd tag (Store.get 0 (s.dirAt line).accs e) (Store.get 0 (s.podAt line).accs e)).toNat +
    2 ^ 320 * x) 0
/-- The images in the spill area stand as the lines' accumulators do; a line that has left drift has none. -/
def spillImages (s : State) : State :=
  let kept := s.spilled.filter (fun e => s.driftOrder.contains e.1)
  kept.foldl (fun a e => a.setBytes (Config.spillBase + 1280 * e.2) 1280 (a.driftImage e.1)) { s with spilled := kept }

/-- Since when issue sets are ready (14 R257). -/
def readyNow (s : State) : List (SpanRef × Nat) :=
  let sets := s.wg.flatMap (fun e => if e.2.res == .resident && s.coreRuns e.2 then
    e.2.span.flatMap (fun q => q.2.issueSets.map (fun S => (⟨e.1, q.1, S⟩ : SpanRef))) else [])
  (sets.filter (fun q => (s.setReady q).isSome)).map (fun q =>
    (q, ((s.readySince.find? (fun e => e.1 == q)).map Prod.snd).getD s.steps))

/-- What only other devices and agents know may change (log 67): where the pages of their windows lie, and lines that they own, whose writes
trigger the monitors here (14 R264). -/
def outsideTick (s : State) : State :=
  let s1 := { s with podMap := s.podMap + 2 * (Config.outside (2 * s.steps) % 2) }
  let lines := (s.wg.flatMap (fun e => e.2.span.filterMap (fun q => q.2.mon.map (·.line)))).filter (fun n =>
    let d := s.dirAt n
    if isPod n then !(s.proxyAt n).state.readable
    else (s.podAt n).state == .X || (s.podAt n).state == .O || ((d.state == .X || d.state == .O) && isAgent d.owner))
  lines.foldl (fun a n => if Config.outside (2 * s.steps + 1) % 2 = 0 then a else a.trigger n) s1

/-- By how much a counter can rise at this step: by at most 8 a clock (16 R297). -/
def mostCount (s : State) : Nat := 8 * (Config.freeCycles s.steps).toNat
/-- Does the core have what its counter i counts (16 R296): 7 a wait mask that can hold a set back, 8 a result that the interlock awaits, 9 a
line that an access or a fetch awaits, 10 a full/empty wait, 11 threads held at a barrier, 12 a wait at a chute, 14 a workgroup that is to be
parked or waits for residency, 15 to 18 a clause on the matrix pipe. -/
def canCount (s : State) (core i : Nat) : Bool :=
  let ws := (s.wg.filter (fun e => e.2.core == core && s.coreOn e.2)).map Prod.snd
  let spans := (ws.filter (fun w => w.res == .resident)).flatMap (fun w => w.span.map Prod.snd)
  if i = 7 then spans.any (fun sp => sp.k != [] && sp.idleLanes != 0)
  else if i = 8 then spans.any (fun sp => sp.pending != [] || sp.tileWait != [])
  else if i = 9 then spans.any (fun sp => sp.memWait != [] || (sp.idleLanes != 0 && s.cache.any (fun e => e.1 / 2 ^ 53 == core && e.2.state.moving)))
  else if i = 10 then spans.any (fun sp => sp.tileWait != [])
  else if i = 11 then spans.any (fun sp => match sp.descriptor with
    | .barrier _ => true
    | _ => false)
  else if i = 12 then spans.any (fun sp => match sp.descriptor with
    | .chute _ _ => true
    | _ => false)
  else if i = 14 then ws.any (fun w => w.parkWanted.isSome || w.res == .parked || w.res == .unstarted)
  else spans.any (fun sp => sp.clauses.any (fun c => c.cls == 2 && decide (c.pos ≤ c.n)))
/-- The counters of stalls and of busy quarters (16 R296): that of lossless trace stalls rises by the clocks of the stall (16 R300), each
other by a free amount while the core has what it counts (log 20). -/
def stallTick (s : State) : State :=
  let cores := ((s.wg.filter (fun e => s.coreOn e.2)).map (fun e => e.2.core)).eraseDups
  let stopped (core : Nat) : Bool := s.paddock.any (fun e => e.2.resident && inRect e.2.cfg core && s.sourceStopped e.1)
  let rise (core i : Nat) : Nat :=
    if i = 13 then (if stopped core then (Config.freeCycles s.steps).toNat else 0)
    else if s.canCount core i then (Config.perfCount s.steps (32 * core + i)).toNat % (s.mostCount + 1) else 0
  cores.foldl (fun a core => (List.range 12).foldl (fun b i => b.count core (7 + i) (rise core (7 + i))) a) s
/-- The counters of shared units rise by free amounts, and so do the flits of a port that is up and holds a hop-mode key (log 20, log 22). -/
def sharedTick (s : State) : State :=
  { s with
    perfUnit := (Config.sharedRise s.steps).foldl (fun m e =>
      if perfKeyOk e.1 then Store.set 0 m e.1 (Store.get 0 s.perfUnit e.1 + e.2 % (s.mostCount + 1)) else m) s.perfUnit
    port := Store.mapVals Port.reset (fun n (p : Port) =>
      if p.hopKey ≠ 0 ∧ p.link = 2 then { p with flits := p.flits + (Config.perfCount s.steps (2 ^ 30 + n)).toNat } else p) s.port }

/-! ## Back-pressure of the sinks (17 R310, R311) -/

/-- Has a source that back-pressure stops come to where it stops (17 R311): a span scheduler with its quarters, to the clause boundaries of its
spans; an engine, to a boundary of its units; a yard decides at one step. -/
def atRest (s : State) (pkn src : Nat) : Bool :=
  let core := src % 4096
  if src / 65536 = 0 ∨ src / 65536 = 2 then
    s.wg.all (fun e => e.2.paddock != pkn || e.2.core != core || e.2.res != .resident || e.2.span.all (fun q => betweenClauses q.2))
  else if src / 65536 = 1 then true
  else s.async.all (fun a => a.id.paddock != pkn || a.core != core || kindUnit a.kind != src / 65536 || a.units.all (fun u => u.sent == none))
/-- A sink that stalls: it lets its sources go when it can take no records (17 R315), else the sources that have stopped write their
stall-begin records; a gap record goes into a slot that is free (17 R310). -/
def sinkTick (s : State) (n : Nat) : State :=
  let k := s.sinkAt n
  let s1 :=
    if !k.stalling then s
    else if !s.sinkOpen n then s.stallEnd n
    else
      let new := (s.sources k.paddock).filter (fun x => !k.stalled.contains x && s.atRest k.paddock x)
      (s.stallRecords n 0x02 0 new).updSink n (fun k => { k with stalled := k.stalled ++ new })
  s1.gapWrite n
/-- Every sink's step. -/
def sinksTick (s : State) : State := s.sink.foldl (fun a e => a.sinkTick e.1) s

/-- The cached translations without the one that is replaced, if one is (log 66): number n counts from 1. -/
def dropVictim (n : Nat) : List TcEntry → List TcEntry
  | [] => []
  | tc => if n = 0 then tc else tc.eraseIdx ((n - 1) % tc.length)

/-- Time goes on by free amounts, once the dies are released (17 R301, 05 R78; log 3): the step's number, what fails its carriage check at
this step, a cached translation that is replaced (10 R182, 15 R284), what other devices do, the images of spilled lines. -/
def tick (s : State) : State :=
  let a := if s.powered then s.stallTick.sharedTick else s
  let s0 := { a with steps := s.steps + 1, carriage := Config.carriage s.steps, readySince := s.readyNow
                     tc := dropVictim (Config.tcVictim s.steps) s.tc }
  let s1 := s0.spillImages.outsideTick
  if s.powered then
    ({ s1 with cycle := s1.cycle + Config.freeCycles s.steps }.setAbsTime (s1.absTime + ((Config.freeTime s.steps).extractLsb' 0 32).toNat)).sinksTick
  else s1

/-- What the outside world does now: the first of its events, when its step has come. -/
def due (s : State) : Option Instr :=
  match s.agenda with
  | [] => none
  | (n, i) :: _ => if n ≤ s.steps then some i else none

end State

/-- Deliver a message: the meaning of its event. -/
def deliver (h : Hdr) (m : Msg) (s : State) : Res :=
  match m with
  | .getS => execGets h s
  | .getX => execGetx h s
  | .upg => execUpg h s
  | .drGet t => execDrget h t s
  | .amo r => execAmoMsg h r s
  | .wrLine d => execWrline h d s
  | .putE => execPute h s
  | .putM d => execPutm h d s
  | .putO d => execPuto h d s
  | .inv => execInv h s
  | .fwdS rq => execFwds h rq s
  | .fwdX rq => execFwdx h rq s
  | .recall => execRecall h s
  | .merge => execMerge h s
  | .data d e => execData h d e s
  | .grant => execGrant h s
  | .grantD t => execGrantd h t s
  | .invAck n => execInvack h n s
  | .fwdAck d => execFwdack h d s
  | .putAck => execPutack h s
  | .redAck n => execRedack h n s
  | .err r => execErr h r s
  | .redOp r n => execRedop h r n s
  | .drPart t p n => execDrpart h t p n s

/-- A line whose data prove wrong is poisoned, and the address of the granule, which one is free, is logged (11 R188); the party that the
entry names is the line's owner, or is not known and free. A line of another device is given up, and its home is told. -/
def State.spoilData (s : State) (line kind : Nat) : State :=
  let d := s.dirAt line
  let p : BitVec 13 := if d.state = .X ∨ d.state = .O then d.owner else BitVec.ofNat 13 (Config.choose s.steps % 4096)
  (s.paddock.filter (fun e => e.2.cfg.valid)).foldl (fun a e =>
    a.logError e.1 (BitVec.ofNat 64 (128 * line + 16 * (Config.choose s.steps / 4096 % 8))) none p.toNat 9 kind 0xFFFFF) (s.spoil line)

/-- A granule whose data prove wrong keeps its poison until it is written whole, and is logged (11 R188, 19 R340). -/
def State.granFails (s : State) (place i : Nat) : State :=
  let w := s.placeWg place
  (s.setGran place i { s.gran place i with poison := true }).logError w.paddock (s.granName place i) (s.launchAt w.launchKey).rank w.core 9 0
    0xFFFFF

/-- A drift line's image moves to a free place of the spill area or back (13 R242), with the record of 17 R306; no value changes. DESIGN
CHOICE (log 78): of the free places the spec names none; here it is the lowest. Unsafe. -/
def State.moveDrift (s : State) (line : Nat) (out : Bool) : State :=
  let place := ((List.range (s.spilled.length + 1)).find? (fun n => !s.spilled.any (fun e => e.2 == n))).getD 0
  let s1 := { s with spilled := if out then s.spilled ++ [(line, place)] else s.spilled.filter (fun e => e.1 != line) }
  s1.spillImages.emitHome 0x34 0x08 line none 0xFFFFF false (if out then 0 else 1) 0

/-- The oldest write that the machine itself waits to make is made, once its line is free (10 R176, 14 R252, 17 R307); the completion of
a launch operation follows the writes before it. -/
def State.lateStep (s : State) : State :=
  match s.late with
  | [] => s
  | w :: ws =>
    let s1 := { s with late := ws }
    if w.n = 0 then s1.finishLaunchOp w.pa (decide (w.keep = 1)) (BitVec.ofNat 32 w.val)
    else
      match s1.lateHome w with
      | .ok s2 => s2
      | .wait _ => s.askHome 0x1FFF (w.pa / 128) .home
      | .err => s1

/-- A line that was reserved is free again, and its waiting requests go on. -/
def State.unreserve (s : State) (line : Nat) : State :=
  (s.setDir line { DirEntry.idle with queue := (s.dirAt line).queue, held := (s.dirAt line).held }).drain line

/-- Is a word of class 6 that of a supervisor instruction: tlbinv or halt. -/
def supervisorWord (c : Clause) : Bool :=
  c.cls == 6 && [0x0E, 0x0F].contains (fldOp (c.words.getD (c.pos - 1) 0)).toNat

/-- Perform an action: a word that spells no instruction raises code 02, or code 06 when it is a supervisor instruction's outside the
privileged handler (04 R71). -/
def perform (s : State) : Action → Res
  | .event i => exec i s
  | .message h m => deliver h m s
  | .packet p => execRemotePacket p s
  | .lineFails n k => .next (s.spoilData n k)
  | .granFails p i => .next (s.granFails p i)
  | .spill n => .next (if isPod n then s.leaveProxy n 0 else s.moveDrift n true)
  | .unspill n => .next (s.moveDrift n false)
  | .combine i j => .next (s.combineAt i j)
  | .late => .next s.lateStep
  | .drain n => .next (s.drain n)
  | .unreserve n => .next (s.unreserve n)
  | .undefer h => .next (s.undefer h)
  | .evict core n => execCacheEviction core n s
  | .forget core => .next (s.dropFills core)
  | .retry core n => execRequestRetry core n s
  | .double n => execTrayWindowDouble n s
  | .askBack pod p n => .next (State.askBack pod p s n)
  | .place p a => execLaunchWindowPlace p a { s with placing := s.placing.erase (p, a) }
  | .config p c => .next ({ s with cfgWait := s.cfgWait.erase (p, c) }.applyCfg p c)
  | .read a => .next ({ s with readWait := s.readWait.erase a }.answerRead a)
  | .instr q =>
    match (s.spanAt q.g q.sp).clauseOf q.lanes with
    | none => .next s
    | some c =>
      match decode c.cls (c.words.drop (c.pos - 1)) with
      | .ok i => exec i (s.focusOn q c)
      | .error _ =>
        let f := s.focusOn q c
        fault (if supervisorWord c && !f.privileged then 0x06 else 0x02) 0 f

/-- What one step does: an event of the outside world whose time has come, else an action that is enabled, else time alone. -/
def advance (s : State) : Res :=
  match s.due with
  | some i => exec i { s.tick with agenda := s.agenda.tail }
  | none =>
    match s.pick with
    | none => .next s.tick
    | some a => perform s.tick a

/-- A clause that holds one instruction, in issue on all lanes of the only span of the only workgroup, on a running core of a
resident paddock: the next step issues that instruction. -/
def State.placeWord (s : State) (nbits w : Nat) : State :=
  match decodeAnyClass (tableWords (w % 2 ^ nbits)) with
  | none => s
  | some (c, i) =>
    let n := (encode i).length
    let hdr : Word := BitVec.ofNat 32 (0xA0000000 + 16 * c + n)
    let cl : Clause := { lanes := allLanes, hdrPc := 0, hdr := hdr, words := (tableWords (w % 2 ^ nbits)).take n, pos := 1, targets := [],
                         exiting := false, yielded := false, stopped := false, waiting := false, suspended := false }
    let sp : Span := { State.startSpan 0 with clauses := [cl] }
    { s with powered := true, halted := false, swap := [], agenda := [], msgs := [], records := [], inbox := [], async := [],
             launch := [], chute := [], sink := [], cfgWait := [], late := [], readiness := Store.set 0 s.readiness 0 2#4,
             paddock := [(0, { Paddock.none with cfg := { PaddockCfg.reset with valid := true, w := 8, h := 8 }, resident := true })],
             wg := [(0, { Wg.none with res := .resident, nspans := 1, span := [(0, sp)] })] }

end Sys2Proof.Machine
end

