-- ==== Sys2Proof/Safety.lean ====
section
/-!
DEFINITION. Safety.lean: what counts as a safe run, in the terms that statements use: an outcome that goes on, what an
instruction leaves as it was, and the shapes of its results.
-/

namespace Sys2Proof.Machine

/-- An outcome that goes on: neither a fault nor a refusal. -/
def Completes (r : Res) : Prop := ∃ t, r = .next t

/-! ## Frames -/

/-- Only the span of the issuing set may differ between s and t: every other span and workgroup, every byte of memory, and
all the rest of the machine are as they were. -/
structure OnlySpan (s t : State) : Prop where
  rest : t = { s with wg := t.wg }
  bytes : ∀ a, t.byte a = s.byte a
  groups : ∀ g, g ≠ s.focus.g → t.wgAt g = s.wgAt g
  here : t.here = { s.here with span := t.here.span }
  spans : ∀ n, n ≠ s.focus.sp → t.here.spanAt n = s.here.spanAt n

/-- The span as it stands once the open clause of issue set S has moved to word position n and waits for nothing (04 R72). -/
def Span.movedOn (sp : Span) (S : Lanes) (n : Nat) : Span :=
  { sp.updClause S (fun c => { c with pos := n, waiting := false }) with wait := .none }

/-- The instruction is complete: only the issuing span differs, and it is q with its clause moved on. -/
def Retired (s t : State) (q : Span) : Prop := OnlySpan s t ∧ t.span = q.movedOn s.lanes s.focus.next

/-- The answer is a next state in which s[d] holds x (s63 none), every other scalar register what it held, and nothing
else of the machine has changed but that the clause has moved on. -/
def ScalarResult (r : Res) (s : State) (d : BitVec 6) (x : Dword) : Prop :=
  ∃ t, r = .next t ∧ Retired s t { s.span with s := t.span.s } ∧
    ∀ n, t.span.sr n = if n = d ∧ d ≠ 63#6 then x else s.span.sr n

/-- The answer is a next state in which the bits of p[d] of the lanes of L are those of x (p7 none), every other bit of the
predicates is as it was, and nothing else has changed but that the clause has moved on. -/
def PredResult (r : Res) (s : State) (d : BitVec 3) (L x : Lanes) : Prop :=
  ∃ t, r = .next t ∧ Retired s t { s.span with p := t.span.p } ∧
    ∀ n l, laneIn (t.span.pr n) l = if n = d ∧ d ≠ 7#3 ∧ laneIn L l then laneIn x l else laneIn (s.span.pr n) l

/-- Registers v[d] … v[d+w-1] of the lanes of L hold f 0 … f (w-1) in t, every other vector register of every lane holds what
it held in s, and nothing else has changed but that the clause has moved on. -/
def VecLeaves (s t : State) (L : Lanes) (d : BitVec 7) (w : Nat) (f : Nat → Nat → Word) : Prop :=
  Retired s t { s.span with v := t.span.v } ∧
    ∀ n l, l < 32 → t.span.vr n l = if d.toNat ≤ n ∧ n < d.toNat + w ∧ laneIn L l then f (n - d.toNat) l else s.span.vr n l

/-- The answer is a next state that VecLeaves describes. -/
def VecResult (r : Res) (s : State) (L : Lanes) (d : BitVec 7) (w : Nat) (f : Nat → Nat → Word) : Prop :=
  ∃ t, r = .next t ∧ VecLeaves s t L d w f

/-- A 32-bit result x l in each lane l of L. -/
def WordResult (r : Res) (s : State) (L : Lanes) (d : BitVec 7) (x : Nat → Word) : Prop := VecResult r s L d 1 (fun _ l => x l)
/-- A 64-bit result in a pair, bits [31:0] in the even register (05 R77). -/
def PairResult (r : Res) (s : State) (L : Lanes) (d : BitVec 7) (x : Nat → Dword) : Prop :=
  VecResult r s L d 2 (fun i l => (x l).extractLsb' (32 * i) 32)
/-- A 128-bit result in a group, least significant register first (05 R77). -/
def GroupResult (r : Res) (s : State) (L : Lanes) (d : BitVec 7) (x : Nat → BitVec 128) : Prop :=
  VecResult r s L d 4 (fun i l => (x l).extractLsb' (32 * i) 32)

/-- The target that lane l takes at the end of a clause, if one has been taken (07 R110). -/
def Clause.target (c : Clause) (l : Nat) : Option Dword := (c.targets.find? (fun e => e.1 == l)).map (·.2)

/-- The answer is a next state in which the open clause of the issue set has moved on, its lanes in T take target a, and the
span's registers are those of q; nothing else has changed. -/
def BranchResult (r : Res) (s : State) (q : Span) (T : Lanes) (a : Dword) : Prop :=
  ∃ t, r = .next t ∧ OnlySpan s t ∧ t.span = { q with clauses := t.span.clauses, wait := .none } ∧
    (∀ S, S ≠ s.lanes → t.span.clauseOf S = s.span.clauseOf S) ∧
    ∀ c, s.span.clauseOf s.lanes = some c → ∃ c', t.span.clauseOf s.lanes = some c' ∧
      c' = { c with pos := s.focus.next, waiting := false, targets := c'.targets } ∧
      ∀ l, l < 32 → c'.target l = if laneIn T l then some a else c.target l

/-- The answer is a next state in which the open clause c of the issue set has moved on and become f of itself; nothing else has
changed. -/
def ClauseResult (r : Res) (s : State) (f : Clause → Clause) : Prop :=
  ∃ t, r = .next t ∧ OnlySpan s t ∧ t.span = { s.span with clauses := t.span.clauses, wait := .none } ∧
    (∀ S, S ≠ s.lanes → t.span.clauseOf S = s.span.clauseOf S) ∧
    ∀ c, s.span.clauseOf s.lanes = some c →
      t.span.clauseOf s.lanes = some { f c with pos := s.focus.next, waiting := false }

/-- The register writes ws are outstanding in t for the lanes L of the clause issue, under counter k, which has risen (7 is no
counter, 04 R72); nothing else has changed but that the clause has moved on. -/
def Outstanding (s t : State) (k : BitVec 3) (L : Lanes) (dests : List RegName) (ws : List RegWrite) : Prop :=
  Retired s t { s.span with
      k := t.span.k
      pending := s.span.pending ++ [⟨k.toNat, (s.span.laneAt (State.lowest L)).lastIssue, L, dests, ws⟩] } ∧
    ∀ n, t.span.kc n = if n = k.toNat ∧ n < 6 then s.span.kc n + 1 else s.span.kc n

/-- The answer is a next state in which the register writes ws are outstanding under counter k. -/
def CountedResult (r : Res) (s : State) (k : BitVec 3) (L : Lanes) (dests : List RegName) (ws : List RegWrite) : Prop :=
  ∃ t, r = .next t ∧ Outstanding s t k L dests ws

/-- s with the trace of t: the records, the last stamps, the stall flags (17 R302, R304) and the performance counters (16 R296). -/
def State.traced (s t : State) : State :=
  { s with records := t.records, lastStamp := t.lastStamp, stallFlag := t.stallFlag, perf := t.perf }

/-- Only the issuing workgroup differs, and it is w but for its spans, of which the issuing one alone differs: it is q with its
clause moved on. -/
def HereMoved (s t : State) (w : Wg) (q : Span) : Prop :=
  t = { s with wg := t.wg } ∧ (∀ a, t.byte a = s.byte a) ∧ (∀ g, g ≠ s.focus.g → t.wgAt g = s.wgAt g) ∧
    t.here = { w with span := t.here.span } ∧ (∀ n, n ≠ s.focus.sp → t.here.spanAt n = s.here.spanAt n) ∧
    t.span = q.movedOn s.lanes s.focus.next

/-- Only the issuing workgroup differs, and it is w but for its spans, of which the issuing one alone has moved on. -/
def HereRetired (s t : State) (w : Wg) : Prop := HereMoved s t w s.span

/-- s[d] holds x in t (s63 none), and every other scalar register of the issuing span what it held in s. -/
def ScalarIs (s t : State) (d : BitVec 6) (x : Dword) : Prop :=
  ∀ n, t.span.sr n = if n = d ∧ d ≠ 63#6 then x else s.span.sr n

/-- The issue set waits at its instruction, for w, with the operand x that it has read, and is taken up again (14 R251); nothing else
has changed. -/
def Waits (r : Res) (s : State) (w : WaitKind) (x : Dword) : Prop :=
  ∃ t, r = .next t ∧ OnlySpan s t ∧
    t.span = { s.span.updClause s.lanes (fun c => { c with arg := some (s.focus.pos, x), waiting := true }) with wait := w }

/-- One record more, of a type and a unit, with its two payload words (17 R304). -/
def Recorded (s t : State) (typ unit idx : Nat) (w2 w3 : Dword) : Prop :=
  ∃ r, t.records = s.records ++ [r] ∧ r.typ = typ ∧ r.unit = unit ∧ r.idx = idx ∧ r.w2 = w2 ∧ r.w3 = w3

/-- A class 4 operation of the issuing set is in flight in t, numbered after those of its timeline (11 R205); the clause has
moved on, and only chutes may differ besides. -/
def Issued (s t : State) (kind : AsyncKind) (tl : Nat) (m : AMod) (us : List AUnit) : Prop :=
  HereRetired { s.traced t with
      async := s.async ++ [{
        uid := s.opSeq, g := s.focus.g, id := State.wgId s.here, sp := s.focus.sp, core := s.here.core, asid := s.asid,
        priv := s.privileged, ordinal := s.span.lastStop, tl := tl, num := (s.here.tlAt tl).i + 1, kind := kind,
        wf := m.fe == 1#2, we := m.fe == 3#2, units := us, err := none, suspended := false, noBegin := false }]
      opSeq := s.opSeq + 1, chute := t.chute } t { s.here with tl := t.here.tl } ∧
    ∀ n, t.here.tlAt n = if n = tl then { s.here.tlAt tl with i := (s.here.tlAt tl).i + 1 } else s.here.tlAt n

/-- A launch record has entered its paddock's queue at its priority, in state 1 under the paddock's next serial (14 R253). -/
def Queued (s t : State) (pkn asid : Nat) (ds : List Dword) : Prop :=
  let n := (s.pk pkn).nextSerial
  let l := t.launchAt (2 ^ 32 * pkn + n.toNat)
  (t.pk pkn).nextSerial = n + 1 ∧ (t.pk pkn).queue = (s.pk pkn).queue ++ [⟨bits (ds.getD 1 0) 45 40, n⟩] ∧
    (l.live = true ∧ l.state = 1 ∧ l.record = ds ∧ l.asid = asid ∧ l.serial = n ∧ l.paddock = pkn) ∧
    ∀ k, k ≠ 2 ^ 32 * pkn + n.toNat → t.launchAt k = s.launchAt k

/-- A chute instruction is complete: the chute is c', the workgroup has counted it, and the span is q with its clause moved on. -/
def ChuteDone (s t : State) (key : Nat) (c' : Chute) (q : Span) : Prop :=
  HereMoved { s with chute := t.chute } t { s.here with progChute := s.here.progChute + 1 } q ∧ t.chuteAt key = c' ∧
    ∀ k, k ≠ key → t.chuteAt k = s.chuteAt k

/-- In t the lanes of p in span n of workgroup g have entered a handler at level lv (18 R319): each has its code, the fault's pc and
its address, and stands at the handler; %tmask is the set, the mask bit is set; every other lane is as it was. -/
def Entered (s t : State) (g n : Nat) (p : PendingTrap) (lv : Nat) (handler : Dword) : Prop :=
  let q := t.spanAt g n
  q.tmask = p.lanes ∧ q.trapMask = true ∧ q.wait = .none ∧
    ∀ l, l < 32 → q.laneAt l = if laneIn p.lanes l
      then { (s.spanAt g n).laneAt l with
        tcode := Store.get 0 p.codes l, tpc := p.tpc, tvaddr := Store.get 0 p.tvaddr l, level := lv, pc := handler, hold := .free }
      else (s.spanAt g n).laneAt l

/-- The trap-entry record of the lanes of p with the code of the lowest of them (17 R306). -/
def EntryRecord (s t : State) (g n : Nat) (p : PendingTrap) : Prop :=
  Recorded s t 0x48 0 (s.wgAt g).core (State.workWord (s.wgAt g) n)
    (BitVec.ofNat 64 (p.lanes.toNat + 2 ^ 32 * (State.trapCode p).toNat))

/-- Only span n of workgroup g may differ between s and t. -/
def OnlySpanAt (s t : State) (g n : Nat) : Prop :=
  t = { s with wg := t.wg } ∧ (∀ h, h ≠ g → t.wgAt h = s.wgAt h) ∧ t.wgAt g = { s.wgAt g with span := (t.wgAt g).span } ∧
    ∀ m, m ≠ n → t.spanAt g m = s.spanAt g m

/-- In t the granules of place that f chooses are empty; every other granule of every handle and chute, and all but granules, the
issuing span and its workgroup's tile registers, are as they were (09 R155, 11 R193). -/
def Emptied (s t : State) (place : Nat) (f : Nat → Prop) : Prop :=
  t = { s with wg := t.wg, chute := t.chute } ∧
    (∀ p g, g < 2 ^ 24 → (p = place ∧ f g → t.gran p g = { s.gran p g with full := false }) ∧ (¬(p = place ∧ f g) → t.gran p g = s.gran p g)) ∧
    (∀ g, g ≠ s.focus.g → t.wgAt g = { s.wgAt g with granule := (t.wgAt g).granule }) ∧
    t.here = { s.here with granule := t.here.granule, span := t.here.span, t := t.here.t } ∧
    ∀ n, n ≠ s.focus.sp → t.here.spanAt n = s.here.spanAt n

/-- The answer is that code c is raised on every lane of the issue set, with an address (04 R74); what raising an exception
does is said of State.raiseAll. -/
def Faults (r : Res) (s : State) (c : Byte) (addr : Dword) : Prop := r = .next (s.raiseAll c addr)

/-! ## Memory -/

/-- The collections that stand in canonical form. -/
structure Canonical (s : State) : Prop where
  mem : Memory.wf s.mem
  cache : Store.wf CacheLine.none s.cache
  wg : Store.wf Wg.none s.wg
  span : ∀ g, Store.wf Span.fresh (s.wgAt g).span

/-- The translation x of a local virtual address is at hand, so that no table is walked: L1 holds the line under a tag that serves the
access, unless the leaf's own bits are asked for, or the die has the leaf cached (10 R177). -/
def AtHandFor (s : State) (core asid : Nat) (priv : Bool) (a : Dword) (acc : State.Access) (page : Bool) (x : Xlat) : Prop :=
  let hit := s.l1Hit core asid a.toNat acc priv
  (page = false ∧ hit = some x) ∨
  ((page = true ∨ hit = none) ∧ ∃ e, s.tcHit (State.dieOf core) asid a.toNat acc priv = some e ∧
    x = ⟨s.leafPa e.leaf e.log2 a.toNat, e.leaf.getLsbD 2, e.leaf.getLsbD 6, e.leaf.getLsbD 5⟩)

/-- The same for the issuing set. -/
def AtHand (s : State) (a : Dword) (acc : State.Access) (page : Bool) (x : Xlat) : Prop :=
  AtHandFor s s.here.core s.asid s.privileged a acc page x

/-- Every lane of S passes the checks of 11 R186: its address is aligned and canonical, its translation is at hand, and gives pa l, in
one line that can be reached. The instruction has not begun before, the lanes' data pass their carriage check (11 R188), the core has
room for one line more (01 R9), and no error that its home has answered is still to be met. -/
structure OneLine (s : State) (S : Lanes) (addr : Nat → Dword) (size : Nat) (acc : State.Access) (page : Bool) (pa : Nat → Nat)
    (line : Nat) : Prop where
  some : S ≠ 0
  fits : ∀ l, l < 32 → laneIn S l → (addr l).toNat < 2 ^ 48 ∧ (addr l).toNat % size = 0 ∧ pa l / 128 = line ∧
    pa l % 128 = (addr l).toNat % 128 ∧ s.unreachable (pa l) = false ∧ ∃ x, AtHand s (addr l) acc page x ∧ x.pa = pa l
  fresh : s.memProg = none
  carried : acc = .write → S &&& s.carriage = 0
  room : s.l1Full s.here.core = false
  whole : (s.cacheAt s.here.core line).fillDead = false ∧ (s.cacheAt s.here.core line).failed = none
  small : line < 2 ^ 53
  sound : (s.dirAt line).state ≠ .P ∧ s.podFailed line = false
  canon : Canonical s

/-- A line of this device's memory that nobody holds, and for which nothing travels. -/
structure LineFree (s : State) (line : Nat) : Prop where
  entry : s.dirAt line = DirEntry.idle
  peers : s.podAt line = DirEntry.idle
  own : isPod line = false
  copies : s.copiesOf line = []
  still : ∀ m ∈ s.msgs, m.1.line ≠ line

/-- The home is quiet, nothing travels for the line, the pod leaves it to this device, and the cores' copies agree with each other and
with the home: all of them shared, or one alone, modified or clean, at a home that knows of an owner. No drift line stands. -/
structure Settled (s : State) (line : Nat) : Prop where
  state : (s.dirAt line).state ∈ [HomeState.I, .S, .X, .O]
  queue : (s.dirAt line).queue = [] ∧ (s.dirAt line).held = []
  agents : State.outsideHolders (s.dirAt line) = []
  pod : s.podOk line .write = true ∧ s.podFailed line = false
  still : ∀ m ∈ s.msgs, m.1.line ≠ line
  copies : (∀ e ∈ s.copiesOf line, e.2.state = .S) ∨
    ((s.dirAt line).state ∈ [HomeState.X, .O] ∧ ∃ o c, s.copiesOf line = [(o, c)] ∧ (c.state = .M ∨ (c.state = .E ∧ c.data = s.memLine line)))

/-- A settled line of this device's own memory. -/
def SettledHere (s : State) (line : Nat) : Prop := Settled s line ∧ isPod line = false ∧ s.proxyAt line = CacheLine.none

/-- An operation reaches an aligned local address of its workgroup: its translation x is at hand, in memory that can be reached. -/
def OpReach (s : State) (a : AsyncOp) (addr : Dword) (size : Nat) (acc : State.Access) (x : Xlat) : Prop :=
  addr.toNat < 2 ^ 48 ∧ addr.toNat % size = 0 ∧ x.pa % 128 = addr.toNat % 128 ∧ s.unreachable x.pa = false ∧
    AtHandFor s a.core a.asid a.priv addr acc false x

/-- The source of a unit can be read, and holds v (11 R207): data that have come, an element of a bound handle, full where the operation
waits for that, or bytes of a settled line. A chute is the source of none. -/
def UnitReads (s : State) (a : AsyncOp) (size : Nat) (side : UnitSide) (v : Nat) : Prop :=
  match side with
  | .data x => v = x
  | .chute _ _ _ => False
  | .tile g i h r c sib => ∃ place e, s.tileNow g i h sib = .ok place e ∧ unitBad e size r c = false ∧
      (a.wf = true → (s.gran place (eOff e r c / 16)).full = true) ∧ (s.gran place (eOff e r c / 16)).poison = false ∧
      v = s.placeBytes place (eOff e r c) size
  | .mem addr => ∃ x, OpReach s a addr size .read x ∧ Settled s (x.pa / 128) ∧ v = s.viewBytes x.pa size

/-- An element of a place can be written by an operation: it is empty where the operation waits for that, and no earlier operation of its
span has still to write it, no earlier tile instruction to access it. -/
def ElemWrites (s : State) (a : AsyncOp) (size place : Nat) (e : BitVec 128) (r c : Nat) : Prop :=
  unitBad e size r c = false ∧ (a.we = true → (s.gran place (eOff e r c / 16)).full = false) ∧
    (s.gran place (eOff e r c / 16)).poison = false ∧
    s.writesTo (fun b => b.g == a.g && b.id == a.id && b.sp == a.sp && decide (b.uid < a.uid)) [(place, eOff e r c / 16)] = false ∧
    s.tileFirst a [(place, eOff e r c / 16)] = false
/-- The destination of a unit can be written: an element of a bound handle or of a chute, or bytes of a settled line. -/
def UnitWrites (s : State) (a : AsyncOp) (size : Nat) (side : UnitSide) : Prop :=
  match side with
  | .data _ => True
  | .chute key r c => (s.chuteAt key).live = true ∧ ElemWrites s a size (chutePlace key) (chuteEntry (s.chuteAt key)) r c
  | .tile g i h r c sib => ∃ place e, s.tileNow g i h sib = .ok place e ∧ ElemWrites s a size place e r c
  | .mem addr => ∃ x, OpReach s a addr size .write x ∧ Settled s (x.pa / 128) ∧ x.pa / 128 < 2 ^ 53

/-- t is s but for the span of the issuing set, copies of lines, directory entries, the clocks of cores and home slices and the trace; every
line of memory reads as it did (13 R231). This device holds of pod lines what it held; a proxy may have had its access. -/
structure ReadsOnly (s t : State) : Prop where
  rest : t = { s.traced t with
    wg := t.wg, cache := t.cache, dir := t.dir, ro := t.ro, lamport := t.lamport, sliceClock := t.sliceClock
    driftOrder := t.driftOrder, proxy := t.proxy }
  pod : ∀ n, t.proxyAt n = { s.proxyAt n with owed := (t.proxyAt n).owed }
  bytes : ∀ a, t.byte a = s.byte a
  view : ∀ n, t.lineView n = s.lineView n
  groups : ∀ g, g ≠ s.focus.g → t.wgAt g = s.wgAt g
  here : t.here = { s.here with span := t.here.span }
  spans : ∀ n, n ≠ s.focus.sp → t.here.spanAt n = s.here.spanAt n

/-- t is s but for the span of the issuing set, monitors, copies and directory entries, the clocks of cores and home slices, the trace, and
the bytes of one line; every other line of memory reads as it did. This device's holding of a pod line may have become dirty. -/
structure WritesLine (s t : State) (line : Nat) : Prop where
  rest : t = { s.traced t with
    wg := t.wg, cache := t.cache, dir := t.dir, mem := t.mem, lamport := t.lamport, sliceClock := t.sliceClock
    driftOrder := t.driftOrder, proxy := t.proxy }
  pod : ∀ n, (n ≠ line ∨ isPod line = false) → t.proxyAt n = s.proxyAt n
  view : ∀ n, n ≠ line → t.lineView n = s.lineView n
  group : ∀ g, t.wgAt g = { s.wgAt g with span := (t.wgAt g).span }
  spans : ∀ g n, (g ≠ s.focus.g ∨ n ≠ s.focus.sp) → t.spanAt g n = { s.spanAt g n with mon := (t.spanAt g n).mon }
  armed : ∀ g n, (t.spanAt g n).mon = (s.spanAt g n).mon.map (fun m => if m.line = line then { m with triggered := true } else m)

/-- The answer of a load of w registers a lane, f i l to register d + i of lane l: written at once, or outstanding under a counter
that rises (11 R187). -/
def LoadResult (r : Res) (s : State) (k : BitVec 3) (d : BitVec 7) (w : Nat) (f : Nat → Nat → Word) : Prop :=
  ∃ t, r = .next t ∧ ReadsOnly s t ∧
    (k = 7#3 → (∀ l, l < 32 → laneIn s.lanes l → (s.span.laneAt l).ended = false) →
      t.span = Span.movedOn { s.span with v := t.span.v } s.lanes s.focus.next ∧
      ∀ n l, l < 32 → t.span.vr n l =
        if d.toNat ≤ n ∧ n < d.toNat + w ∧ laneIn s.lanes l then f (n - d.toNat) l else s.span.vr n l) ∧
    (k ≠ 7#3 → t.span = Span.movedOn { s.span with
        k := t.span.k
        pending := s.span.pending ++ [⟨k.toNat, (s.span.laneAt (State.lowest s.lanes)).lastIssue, s.lanes, vN w d,
          (lanesOf s.lanes).flatMap (fun l => (List.range w).map (fun i => .v (d.toNat + i) l (f i l)))⟩] }
        s.lanes s.focus.next ∧
      ∀ n, t.span.kc n = if n = k.toNat ∧ n < 6 then s.span.kc n + 1 else s.span.kc n)

/-- The answer of a write to one line that completes: the span moves on, w registers a lane take f (no register where w is 0),
and the line's data are data. -/
def LineResult (r : Res) (s : State) (line : Nat) (data : LineData) (d : BitVec 7) (w : Nat) (f : Nat → Nat → Word) : Prop :=
  ∃ t, r = .next t ∧ WritesLine s t line ∧ t.lineView line = data ∧
    t.span = Span.movedOn { s.span with v := t.span.v, mon := t.span.mon } s.lanes s.focus.next ∧
    ∀ n l, l < 32 → t.span.vr n l =
      if d.toNat ≤ n ∧ n < d.toNat + w ∧ laneIn s.lanes l then f (n - d.toNat) l else s.span.vr n l

/-- The answer of an atomic on one line that is performed: the line's data are data, and w registers a lane take f, at once or outstanding
under a counter that rises (11 R195). -/
def AtomicResult (r : Res) (s : State) (k : BitVec 3) (line : Nat) (data : LineData) (d : BitVec 7) (w : Nat) (f : Nat → Nat → Word) : Prop :=
  ∃ t, r = .next t ∧ WritesLine s t line ∧ t.lineView line = data ∧
    (k = 7#3 → (∀ l, l < 32 → laneIn s.lanes l → (s.span.laneAt l).ended = false) →
      t.span = Span.movedOn { s.span with v := t.span.v, mon := t.span.mon } s.lanes s.focus.next ∧
      ∀ n l, l < 32 → t.span.vr n l =
        if d.toNat ≤ n ∧ n < d.toNat + w ∧ laneIn s.lanes l then f (n - d.toNat) l else s.span.vr n l) ∧
    (k ≠ 7#3 → t.span = Span.movedOn { s.span with
        k := t.span.k, mon := t.span.mon
        pending := s.span.pending ++ [⟨k.toNat, (s.span.laneAt (State.lowest s.lanes)).lastIssue, s.lanes, vN w d,
          (lanesOf s.lanes).flatMap (fun l => (List.range w).map (fun i => .v (d.toNat + i) l (f i l)))⟩] }
        s.lanes s.focus.next ∧
      ∀ n, t.span.kc n = if n = k.toNat ∧ n < 6 then s.span.kc n + 1 else s.span.kc n)

/-- The answer is a next state in which the request m has left for the pod home of a line of another device, and the issue set waits at its
instruction for the answer; the counter k has risen (7 is none), and nothing else has changed (13 R236). -/
def Asked (r : Res) (s : State) (k line : Nat) (m : Msg) : Prop :=
  ∃ t h w, r = .next t ∧ OnlySpan { s with outbox := s.outbox ++ [.coh h m] } t ∧
    h.src = s.mySlot ∧ h.dst = s.podHome line ∧ h.pod = true ∧ h.line = line ∧ h.req ≠ 0 ∧ h.clock = Store.get 0 s.lamport s.here.core ∧
    t.span = { s.span with k := t.span.k, memWait := s.span.memWait ++ [w] } ∧ w.own = s.lanes ∧ w.left = [line] ∧ w.ctr = k ∧
    ∀ n, t.span.kc n = if n = k ∧ n < 6 then s.span.kc n + 1 else s.span.kc n

/-- A message without the stamp that its sender's last record gives it (17 R302). -/
def unstamped (x : Hdr × Msg) : Hdr × Msg := ({ x.1 with stamp := 0 }, x.2)

/-- Is a message a home's answer to a request: it carries the request's number (13 R236). -/
def isAnswer : Msg → Bool
  | .data _ _ | .grant | .grantD _ | .putAck | .redAck _ | .err _ => true
  | _ => false

/-- Between s and t the home of a line has sent these messages, in this order: to a core through the network, to an agent out of the
device; out lists receiver and message. Answers carry the number req, and an error response the kind of its log entry. -/
def HomeSends (s t : State) (line req kind : Nat) (out : List (BitVec 13 × Msg)) : Prop :=
  let away := fun (p : BitVec 13) => decide (0x1000 ≤ p.toNat ∧ p ≠ 0x1FFF#13)
  ∃ xs : List (Hdr × Msg), xs.map unstamped = out.map (fun e => unstamped ({ (s.fromHome e.1 line) with
      req := if isAnswer e.2 then req else 0, kind := if e.2 = .err false then kind else 1 }, e.2)) ∧
    t.msgs = s.msgs ++ xs.filter (fun x => !away x.1.dst) ∧
    t.outbox = s.outbox ++ (xs.filter (fun x => away x.1.dst)).map (fun x => .coh x.1 x.2)

/-- The answer is a next state in which the message m has been taken at its home, whose slice has heard its clock (12 R223): the line's
entry is d, the messages out have been sent, in answer to the request of g, and nothing else has changed but the trace and the routers' record
of combined messages. -/
def HomeMoves (r : Res) (s : State) (h : Hdr) (m : Msg) (g : Hdr) (kind : Nat) (d : DirEntry) (out : List (BitVec 13 × Msg)) : Prop :=
  let s0 := (s.take h m).hearSlice h.line h.clock
  ∃ t, r = .next t ∧ t = { s0.traced t with dir := t.dir, msgs := t.msgs, outbox := t.outbox, driftOrder := t.driftOrder, combined := t.combined } ∧
    t.dirAt h.line = d ∧
    (∀ n, n ≠ h.line → t.dirAt n = s.dirAt n) ∧ HomeSends s0 t h.line g.req kind out

/-- The answer is a next state in which the message m has been taken at its home, whose slice has heard its clock, and has left the line x in
memory and the entry d; every other byte of memory is as it was; the keys of the homes' sc events are key; monitors armed on the line have been
triggered if it counts as a write. -/
def HomeWrites (r : Res) (s : State) (h : Hdr) (m : Msg) (key : Store (BitVec 61)) (write : Bool) (x : LineData) (d : DirEntry)
    (out : List (BitVec 13 × Msg)) : Prop :=
  let s0 := (s.take h m).hearSlice h.line h.clock
  ∃ t, r = .next t ∧
    t = { s0.traced t with dir := t.dir, msgs := t.msgs, outbox := t.outbox, driftOrder := t.driftOrder, combined := t.combined
                           homeKey := key, mem := t.mem, wg := t.wg } ∧
    t.memLine h.line = x ∧ (∀ a, a / 128 ≠ h.line → t.byte a = s.byte a) ∧ t.dirAt h.line = d ∧
    (∀ n, n ≠ h.line → t.dirAt n = s.dirAt n) ∧ HomeSends s0 t h.line h.req 1 out ∧
    ∀ g n, t.spanAt g n = { s.spanAt g n with
      mon := (s.spanAt g n).mon.map (fun y => if write ∧ y.line = h.line then { y with triggered := true } else y) }

/-- The answer is a next state in which the message m has been taken at core's cache: its copy of the line is c, and the messages
out have been sent by the core, in this order; but for the cores' clocks nothing else has changed. -/
def CacheMoves (r : Res) (s : State) (h : Hdr) (m : Msg) (core : Nat) (c : CacheLine) (out : List (BitVec 13 × Msg)) : Prop :=
  ∃ t, r = .next t ∧ t = { s with cache := t.cache, msgs := t.msgs, lamport := t.lamport } ∧ t.cacheAt core h.line = c ∧
    (∀ k n, n < 2 ^ 53 → h.line < 2 ^ 53 → (k ≠ core ∨ n ≠ h.line) → t.cacheAt k n = s.cacheAt k n) ∧
    t.msgs = s.msgs.erase (h, m) ++ out.map (fun e => (s.fromCore core e.1 h.line, e.2))

/-- Byte b of a line. -/
def lineByte (x : LineData) (b : Nat) : Byte := x.extractLsb' (8 * b) 8

/-- The line x after stores of size bytes by the lanes of S at pa l (11 R187): at one address the highest lane stands. -/
def Stored (x y : LineData) (S : Lanes) (pa : Nat → Nat) (size : Nat) (val : Nat → Nat) : Prop :=
  (∀ l j, l < 32 → laneIn S l → j < size → (∀ m, l < m → m < 32 → laneIn S m → pa m ≠ pa l) →
    lineByte y (pa l % 128 + j) = BitVec.ofNat 8 (val l / 256 ^ j)) ∧
  ∀ b, b < 128 → (∀ l, l < 32 → laneIn S l → ¬(pa l % 128 ≤ b ∧ b < pa l % 128 + size)) → lineByte y b = lineByte x b

/-! ## Terms of the rules -/

/-- A condition of 02 R27 by its code: .eq .ne .lt .le .gt .ge. -/
def condHolds (c : Nat) (x y : Int) : Bool :=
  match c with
  | 0 => decide (x = y)
  | 1 => decide (x ≠ y)
  | 2 => decide (x < y)
  | 3 => decide (x ≤ y)
  | 4 => decide (y < x)
  | _ => decide (y ≤ x)

/-- A condition on two floating values by its code (08 R136): 6 is .ord, 7 is .uno. -/
def floatHolds (c : Nat) (x y : FVal) : Bool :=
  if c = 6 then !(x.isNan || y.isNan)
  else if c = 7 then x.isNan || y.isNan
  else if c = 1 then x.isNan || y.isNan || decide (x.cmp y ≠ 0)
  else !(x.isNan || y.isNan) && condHolds c (x.cmp y) 0

/-- The class mask of a binary32 word by its fields (08 R137). -/
def classBits (x : Word) : Word :=
  let e := x.extractLsb' 23 8
  let f := x.extractLsb' 0 23
  let neg := x.getLsbD 31
  if e = 0xFF#8 ∧ f ≠ 0 then 0x100#32
  else if e = 0xFF#8 then (if neg then 0x001#32 else 0x080#32)
  else if e ≠ 0 then (if neg then 0x002#32 else 0x040#32)
  else if f ≠ 0 then (if neg then 0x004#32 else 0x020#32)
  else (if neg then 0x008#32 else 0x010#32)

/-- The value that a shuffle gives lane l from source lane m (08 R132): its own where m is no lane of the issue set. -/
def shuffled (s : State) (a : BitVec 7) (l : Nat) (m : Int) : Word :=
  if 0 ≤ m ∧ m < 32 ∧ laneIn s.lanes m.toNat then s.span.vr a.toNat m.toNat else s.span.vr a.toNat l

/-- A matrix instruction is legal (09 R160-R162): its tile registers are declared, no absorbed half, and configured, their
shapes and formats fit, and no quarter is split. -/
def mmaLegal (F : MmaForm) (s : State) (bs : BitVec 2) (tA tB tM : BitVec 4) : Prop :=
  s.tUsable tA ∧ s.tUsable tB ∧ (F.sp → s.tUsable tM) ∧
    mmaGeometry F bs.toNat (s.here.cfg tA.toNat) (s.here.cfg tB.toNat) (s.here.cfg tM.toNat) ∧
    ∀ q, q < 4 → quarterSplit s q = false

/-- The lanes whose accumulators a matrix instruction writes (09 R161): those of the quarters that take part, not ended. -/
def mmaLanes (s : State) : Lanes := lanesWhere (fun l => quarterIn s (l / 8) && laneIn s.span.alive l)

/-- The register writes of accumulator elements elem q m n of the quarters that take part (09 R161, R163): element (m, n) of quarter q is
register v + m, or pair v + 2m, of lane 8q + n. -/
def mmaWrites (s : State) (wide : Bool) (v : BitVec 7) (elem : Nat → Nat → Nat → Dword) : List RegWrite :=
  ((List.range 4).filter (quarterIn s)).flatMap (fun q =>
    ((List.range 64).filter (fun i => laneIn s.span.alive (8 * q + i % 8))).flatMap (fun i =>
      let x := elem q (i / 8) (i % 8)
      let l := 8 * q + i % 8
      if wide then [.v (v.toNat + 2 * (i / 8)) l (x.extractLsb' 0 32), .v (v.toNat + 2 * (i / 8) + 1) l (x.extractLsb' 32 32)]
      else [.v (v.toNat + i / 8) l (x.extractLsb' 0 32)]))

/-- The result of a matrix instruction with accumulator elements elem q m n (09 R163): registers of the lanes that take part,
32-bit elements in 8 registers or 64-bit ones in 8 pairs; with a counter the writes are outstanding. Records are made, and the workgroup
knows the quarter as the last one (09 R168). -/
def MmaResult (r : Res) (s : State) (wide : Bool) (k : BitVec 3) (v : BitVec 7) (elem : Nat → Nat → Nat → Dword) : Prop :=
  let base := fun (t : State) => (s.traced t).updHere (fun w => { w with mmaLast := t.here.mmaLast })
  (k = 7#3 → ∃ t, r = .next t ∧ VecLeaves (base t) t (mmaLanes s) v (if wide then 16 else 8) (fun i l =>
    if wide then (elem (l / 8) (i / 2) (l % 8)).extractLsb' (32 * (i % 2)) 32 else (elem (l / 8) i (l % 8)).setWidth 32)) ∧
  (k.toNat < 6 → s.span.kc k.toNat < 63 → ∃ t, r = .next t ∧
    Outstanding (base t) t k s.lanes (vN (if wide then 16 else 8) v) (mmaWrites s wide v elem))

/-- The literal target of 07 R110: the header's address plus the signed literal, modulo 2^48. -/
def literalTarget (pc : Dword) (lit : Word) : Dword := BitVec.ofNat 64 (((pc.toNat : Int) + lit.toInt) % 2 ^ 48).toNat

end Sys2Proof.Machine
end

