-- ==== Sys2Proof/Certificates/Slice0/Obligations.lean ====
section
/-!
DEFINITION. Certificates/Slice0/Obligations.lean: the statements for the provers. The shapes of results (ScalarResult and the
like) are in Safety.lean; each shape says where the instruction completes, what it leaves in the registers it writes, and that
nothing else changes.
-/

open Sys2Proof Sys2Proof.Machine

/-! ## Class 0: scalar and control -/

/-- 07 R104: the scalar arithmetic and logic instructions, at every operand; an immediate shift count outside 0 to 31 is
reserved. -/
def Obligations.ScalarArithmetic : Prop :=
  ∀ (s : State) (d a : BitVec 6) (b : SOp),
    let x := s.span.sr a
    let y := s.span.opB b
    (exec .snop s = .next s.retire ∧ Retired s s.retire s.span) ∧
    ScalarResult (exec (.sadd d a b) s) s d (x + y) ∧
    ScalarResult (exec (.ssub d a b) s) s d (x - y) ∧
    ScalarResult (exec (.smul d a b) s) s d ((x.setWidth 128 * y.setWidth 128).extractLsb' 0 64) ∧
    ScalarResult (exec (.smulh d a b) s) s d ((x.signExtend 128 * y.signExtend 128).extractLsb' 64 64) ∧
    ScalarResult (exec (.smulhn d a b) s) s d ((x.setWidth 128 * y.setWidth 128).extractLsb' 64 64) ∧
    ScalarResult (exec (.sand d a b) s) s d (x &&& y) ∧
    ScalarResult (exec (.sor d a b) s) s d (x ||| y) ∧
    ScalarResult (exec (.sxor d a b) s) s d (x ^^^ y) ∧
    ScalarResult (exec (.sshl d a b) s) s d (BitVec.ofNat 64 (x.toNat * 2 ^ (y.extractLsb' 0 6).toNat)) ∧
    ScalarResult (exec (.sshr d a b) s) s d (BitVec.ofNat 64 (x.toNat / 2 ^ (y.extractLsb' 0 6).toNat)) ∧
    ScalarResult (exec (.ssar d a b) s) s d (BitVec.ofInt 64 (x.toInt / 2 ^ (y.extractLsb' 0 6).toNat)) ∧
    ScalarResult (exec (.smin d a b) s) s d (if x.toInt ≤ y.toInt then x else y) ∧
    ScalarResult (exec (.smax d a b) s) s d (if x.toInt ≤ y.toInt then y else x) ∧
    ScalarResult (exec (.sminn d a b) s) s d (if x.toNat ≤ y.toNat then x else y) ∧
    ScalarResult (exec (.smaxn d a b) s) s d (if x.toNat ≤ y.toNat then y else x) ∧
    ∀ v : BitVec 6, 31 < v.toNat →
      Instr.wf (.sshl d a (.imm v)) = false ∧ Instr.wf (.sshr d a (.imm v)) = false ∧ Instr.wf (.ssar d a (.imm v)) = false

/-- 07 R105, R107, R109, R122, R108: moves, the selection by a predicate, ballot, counts, the reads of a rejoin mask; sfromv reads
one lane of a vector register or of a pair as the register holds it at issue, whichever lanes the issue set has. 07 R106: scmp into a scalar register, and into the bits of a predicate for the lanes of the issue set; condition codes 6
and 7 are reserved. -/
def Obligations.ScalarMoves : Prop :=
  ((∀ (s : State) (d a : BitVec 6) (b : SOp) (lit : Word) (q j : BitVec 3),
      let y := s.span.opB b
      ScalarResult (exec (.smov d b) s) s d y ∧
      ScalarResult (exec (.smovk d 0#1 lit) s) s d (lit.setWidth 64) ∧
      ScalarResult (exec (.smovk d 1#1 lit) s) s d (lit.signExtend 64) ∧
      ScalarResult (exec (.smovkh d lit) s) s d (lit ++ (s.span.sr d).extractLsb' 0 32) ∧
      ((∃ l, l < 32 ∧ laneIn s.lanes l ∧ laneIn (s.span.pr q) l) →
        ScalarResult (exec (.ssel 0#1 q d a b) s) s d (s.span.sr a)) ∧
      ((∀ l, l < 32 → laneIn s.lanes l → laneIn (s.span.pr q) l = false) → ScalarResult (exec (.ssel 0#1 q d a b) s) s d y) ∧
      ((∀ l, l < 32 → laneIn s.lanes l → laneIn (s.span.pr q) l) → ScalarResult (exec (.ssel 1#1 q d a b) s) s d (s.span.sr a)) ∧
      ((∃ l, l < 32 ∧ laneIn s.lanes l ∧ laneIn (s.span.pr q) l = false) →
        ScalarResult (exec (.ssel 1#1 q d a b) s) s d y) ∧
      ScalarResult (exec (.sballot d q) s) s d ((s.span.pr q &&& s.lanes).setWidth 64) ∧
      ScalarResult (exec (.spopc d b) s) s d (BitVec.ofNat 64 ((List.range 64).countP (fun i => y.getLsbD i))) ∧
      ScalarResult (exec (.sclz d b) s) s d (BitVec.ofNat 64 ((List.range 64).countP (fun i => decide (y.toNat < 2 ^ i)))) ∧
      ScalarResult (exec (.jread d j) s) s d ((s.span.jm j.toNat).held ++ (s.span.jm j.toNat).enrol) ∧
      ScalarResult (exec (.jreadAddr d j) s) s d (s.span.jm j.toNat).addr) ∧
   (∀ (s : State) (hi : BitVec 1) (lo d : BitVec 6) (b : SOp),
      let va := 64 * hi.toNat + lo.toNat
      let l := ((s.span.opB b).extractLsb' 0 5).toNat
      ScalarResult (exec (.sfromv 0#1 hi lo d b) s) s d ((s.span.vr va l).setWidth 64) ∧
      ScalarResult (exec (.sfromv 1#1 hi lo d b) s) s d (s.span.vr (va + 1) l ++ s.span.vr va l) ∧
      (lo.toNat % 2 = 1 → Instr.wf (.sfromv 1#1 hi lo d b) = false) ∧
      ∀ w64, ∀ v : BitVec 6, 31 < v.toNat → Instr.wf (.sfromv w64 hi lo d (.imm v)) = false)) ∧
  (∀ (s : State) (n : BitVec 1) (c q : BitVec 3) (d a : BitVec 6) (b : SOp),
     let x := s.span.sr a
     let y := s.span.opB b
     let r := if n = 1#1 then condHolds c.toNat x.toNat y.toNat else condHolds c.toNat x.toInt y.toInt
     ScalarResult (exec (.scmp n c d a b) s) s d (if r then 1 else 0) ∧
     PredResult (exec (.scmpP n c q a b) s) s q s.lanes (if r then allLanes else 0) ∧
     (5 < c.toNat → Instr.wf (.scmp n c d a b) = false ∧ Instr.wf (.scmpP n c q a b) = false))

/-- 07 R111, R112, R113, R114, R115: where the lanes of the issue set go at the clause end, the link of call, and the marks that
exit and yield leave on the clause; ret and bi to a canonical address. Ret and bi to an address with bit 63 or a bit of [62:48]
set raise code 04 on every lane, with the address. -/
def Obligations.ControlTransfers : Prop :=
  (∀ (s : State) (d a : BitVec 6) (q : BitVec 3) (lit : Word),
     let dest := literalTarget s.focus.hdrPc lit
     BranchResult (exec (.br lit) s) s s.span s.lanes dest ∧
     (s.span.sr a = 0 → BranchResult (exec (.bz a lit) s) s s.span s.lanes dest ∧ BranchResult (exec (.bnz a lit) s) s s.span 0 dest) ∧
     (s.span.sr a ≠ 0 → BranchResult (exec (.bz a lit) s) s s.span 0 dest ∧ BranchResult (exec (.bnz a lit) s) s s.span s.lanes dest) ∧
     BranchResult (exec (.bp 0#1 q lit) s) s s.span (s.lanes &&& s.span.pr q) dest ∧
     BranchResult (exec (.bp 1#1 q lit) s) s s.span (s.lanes &&& ~~~(s.span.pr q)) dest ∧
     (∀ c, s.span.clauseOf s.lanes = some c →
       BranchResult (exec (.call d lit) s) s (s.span.setS d (c.hdrPc + 4 * (BitVec.ofNat 64 (bits c.hdr 3 0) + 1))) s.lanes dest) ∧
     (bits (s.span.sr a) 63 48 = 0 →
       BranchResult (exec (.ret a) s) s s.span s.lanes (s.span.sr a) ∧ BranchResult (exec (.bi a) s) s s.span s.lanes (s.span.sr a)) ∧
     ClauseResult (exec .exit s) s (fun c => { c with exiting := true }) ∧
     ClauseResult (exec .yield s) s (fun c => { c with yielded := true })) ∧
  (∀ (s : State) (a : BitVec 6), ((s.span.sr a).getLsbD 63 ∨ bits (s.span.sr a) 62 48 ≠ 0) →
     Faults (exec (.ret a) s) s 0x04 (s.span.sr a) ∧ Faults (exec (.bi a) s) s 0x04 (s.span.sr a))

/-- 07 R119: mset enrols the threads of the issue set, saves mr of those newly enrolled, and sets mr, or faults with code 02.
07 R120: mstrike, where no mask is then due for release, takes its threads out of the mask, and mr that stood at its address
returns. 07 R121: mget copies each lane's mr into a pair, and mput sets it from one. -/
def Obligations.RejoinMasks : Prop :=
  (∀ (s : State) (j : BitVec 3) (lit : Word),
     let a := literalTarget s.focus.hdrPc lit
     let old := s.span.jm j.toNat
     let clash := (∃ m, m < 8 ∧ m ≠ j.toNat ∧ (s.span.jm m).enrol &&& s.lanes ≠ 0 ∧ (s.span.jm m).addr = a) ∨
       (old.enrol ≠ 0 ∧ old.addr ≠ a)
     (clash → Faults (exec (.mset j lit) s) s 0x02 0) ∧
     (¬clash → ∃ t, exec (.mset j lit) s = .next t ∧ Retired s t { s.span with j := t.span.j, lane := t.span.lane } ∧
       (∀ m, m ≠ j.toNat → t.span.jm m = s.span.jm m) ∧
       t.span.jm j.toNat = { old with addr := a, enrol := old.enrol ||| s.lanes, save := (t.span.jm j.toNat).save } ∧
       (∀ l, l < 32 → Store.get 0 (t.span.jm j.toNat).save l =
         if laneIn s.lanes l ∧ laneIn old.enrol l = false then (s.span.laneAt l).mr else Store.get 0 old.save l) ∧
       ∀ l, l < 32 → t.span.laneAt l = if laneIn s.lanes l then { s.span.laneAt l with mr := a } else s.span.laneAt l)) ∧
  (∀ (s : State) (j : BitVec 3),
     let old := s.span.jm j.toNat
     let left := old.enrol &&& ~~~s.lanes
     old.held = 0 → (∀ m, m < 8 → m ≠ j.toNat → (s.span.jm m).enrol = 0 ∨ (s.span.jm m).held ≠ (s.span.jm m).enrol) →
     ∃ t, exec (.mstrike j) s = .next t ∧ Retired s t { s.span with j := t.span.j, lane := t.span.lane } ∧
       (∀ m, m ≠ j.toNat → t.span.jm m = s.span.jm m) ∧
       (t.span.jm j.toNat).enrol = left ∧ (t.span.jm j.toNat).held = 0 ∧
       (t.span.jm j.toNat).addr = (if left = 0 then allOnes64 else old.addr) ∧
       (∀ l, l < 32 → laneIn left l → Store.get 0 (t.span.jm j.toNat).save l = Store.get 0 old.save l) ∧
       ∀ l, l < 32 → t.span.laneAt l =
         if laneIn s.lanes l ∧ laneIn old.enrol l ∧ (s.span.laneAt l).mr = old.addr
         then { s.span.laneAt l with mr := Store.get 0 old.save l } else s.span.laneAt l) ∧
  (∀ (s : State) (n : BitVec 6),
     PairResult (exec (.mget n) s) s s.lanes (n ++ 0#1) (fun l => (s.span.laneAt l).mr) ∧
     ∃ t, exec (.mput n) s = .next t ∧ Retired s t { s.span with lane := t.span.lane } ∧
       ∀ l, l < 32 → t.span.laneAt l =
         if laneIn s.lanes l then { s.span.laneAt l with mr := s.span.vr (2 * n.toNat + 1) l ++ s.span.vr (2 * n.toNat) l }
         else s.span.laneAt l)

/-! ## Class 1: vector -/

/-- 08 R128: the integer instructions on every active lane. 08 R129, R130: shifts by a count in each lane, bit fields, and the selection by a predicate. 08 R131, R136: the compares write the bits of the active lanes; integer condition codes above 5 and floating ones above 7
are reserved. -/
def Obligations.VectorIntegers : Prop :=
  ((∀ (s : State) (p : BitVec 3) (d a b : BitVec 7) (lit : Word),
      let A := s.lanes &&& s.span.pr p
      let x := fun l => s.span.vr a.toNat l
      let y := fun l => s.span.vr b.toNat l
      let z := fun l => s.span.vr d.toNat l
      let x2 := fun l => s.span.vr (a.toNat + 1) l ++ s.span.vr a.toNat l
      let y2 := fun l => s.span.vr (b.toNat + 1) l ++ s.span.vr b.toNat l
      WordResult (exec (.vmov p d a) s) s A d x ∧
      WordResult (exec (.vmovk p d lit) s) s A d (fun _ => lit) ∧
      WordResult (exec (.vaddI32 p d a b) s) s A d (fun l => x l + y l) ∧
      WordResult (exec (.vsubI32 p d a b) s) s A d (fun l => x l - y l) ∧
      PairResult (exec (.vaddI64 p d a b) s) s A d (fun l => x2 l + y2 l) ∧
      PairResult (exec (.vsubI64 p d a b) s) s A d (fun l => x2 l - y2 l) ∧
      WordResult (exec (.vmulI32 p d a b) s) s A d (fun l => BitVec.ofNat 32 ((x l).toNat * (y l).toNat)) ∧
      WordResult (exec (.vmulhI32 p d a b) s) s A d (fun l => ((x l).signExtend 64 * (y l).signExtend 64).extractLsb' 32 32) ∧
      WordResult (exec (.vmulhN32 p d a b) s) s A d (fun l => ((x l).setWidth 64 * (y l).setWidth 64).extractLsb' 32 32) ∧
      WordResult (exec (.vmadI32 p d a b) s) s A d (fun l => BitVec.ofNat 32 ((x l).toNat * (y l).toNat + (z l).toNat)) ∧
      WordResult (exec (.vand p d a b) s) s A d (fun l => x l &&& y l) ∧
      WordResult (exec (.vor p d a b) s) s A d (fun l => x l ||| y l) ∧
      WordResult (exec (.vxor p d a b) s) s A d (fun l => x l ^^^ y l) ∧
      WordResult (exec (.vnot p d a) s) s A d (fun l => ~~~(x l)) ∧
      WordResult (exec (.vminI32 p d a b) s) s A d (fun l => if (x l).toInt ≤ (y l).toInt then x l else y l) ∧
      WordResult (exec (.vmaxI32 p d a b) s) s A d (fun l => if (x l).toInt ≤ (y l).toInt then y l else x l) ∧
      WordResult (exec (.vminN32 p d a b) s) s A d (fun l => if (x l).toNat ≤ (y l).toNat then x l else y l) ∧
      WordResult (exec (.vmaxN32 p d a b) s) s A d (fun l => if (x l).toNat ≤ (y l).toNat then y l else x l) ∧
      WordResult (exec (.vabsI32 p d a) s) s A d (fun l => BitVec.ofNat 32 (x l).toInt.natAbs) ∧
      WordResult (exec (.vclz p d a) s) s A d (fun l => BitVec.ofNat 32 ((List.range 32).countP (fun i => decide ((x l).toNat < 2 ^ i)))) ∧
      WordResult (exec (.vpopc p d a) s) s A d (fun l => BitVec.ofNat 32 ((List.range 32).countP (fun i => (x l).getLsbD i))) ∧
      WordResult (exec (.vbrev p d a) s) s A d (fun l => (x l).reverse) ∧
      WordResult (exec (.vaddsI32 p d a b) s) s A d
        (fun l => BitVec.ofInt 32 (max (-2147483648) (min 2147483647 ((x l).toInt + (y l).toInt))))) ∧
   (∀ (s : State) (p : BitVec 3) (d a b : BitVec 7),
      let A := s.lanes &&& s.span.pr p
      let x := fun l => s.span.vr a.toNat l
      let n := fun l => (s.span.vr b.toNat l).toNat
      let z := fun l => s.span.vr d.toNat l
      let pos := fun l => n l % 32
      let len := fun l => min (n l / 256 % 64) (32 - pos l)
      let m := fun l => BitVec.ofNat 32 (2 ^ len l - 1)
      WordResult (exec (.vshl p d a b) s) s A d (fun l => if 32 ≤ n l then 0 else BitVec.ofNat 32 ((x l).toNat * 2 ^ n l)) ∧
      WordResult (exec (.vshr p d a b) s) s A d (fun l => if 32 ≤ n l then 0 else BitVec.ofNat 32 ((x l).toNat / 2 ^ n l)) ∧
      WordResult (exec (.vsar p d a b) s) s A d
        (fun l => if 32 ≤ n l then (if (x l).getLsbD 31 then 0xFFFFFFFF#32 else 0) else BitVec.ofInt 32 ((x l).toInt / 2 ^ n l)) ∧
      WordResult (exec (.vbfx p d a b) s) s A d (fun l => BitVec.ofNat 32 ((x l).toNat / 2 ^ pos l % 2 ^ len l)) ∧
      WordResult (exec (.vbfi p d a b) s) s A d (fun l => (z l &&& ~~~(m l <<< pos l)) ||| ((x l &&& m l) <<< pos l)) ∧
      WordResult (exec (.vsel p d a b) s) s s.lanes d
        (fun l => if laneIn (s.span.pr p) l then x l else s.span.vr b.toNat l))) ∧
  (∀ (s : State) (p q : BitVec 3) (c : BitVec 4) (a b : BitVec 7),
     let A := s.lanes &&& s.span.pr p
     let x := fun l => s.span.vr a.toNat l
     let y := fun l => s.span.vr b.toNat l
     let x2 := fun l => s.span.vr (a.toNat + 1) l ++ s.span.vr a.toNat l
     let y2 := fun l => s.span.vr (b.toNat + 1) l ++ s.span.vr b.toNat l
     PredResult (exec (.vcmpI32 p c q a b) s) s q A (lanesWhere (fun l => condHolds c.toNat (x l).toInt (y l).toInt)) ∧
     PredResult (exec (.vcmpN32 p c q a b) s) s q A (lanesWhere (fun l => condHolds c.toNat (x l).toNat (y l).toNat)) ∧
     PredResult (exec (.vcmpI64 p c q a b) s) s q A (lanesWhere (fun l => condHolds c.toNat (x2 l).toInt (y2 l).toInt)) ∧
     PredResult (exec (.vcmpF32 p c q a b) s) s q A (lanesWhere (fun l => floatHolds c.toNat (f32Of (x l)) (f32Of (y l)))) ∧
     PredResult (exec (.vcmpF64 p c q a b) s) s q A (lanesWhere (fun l => floatHolds c.toNat (f64Of (x2 l)) (f64Of (y2 l)))) ∧
     (5 < c.toNat → Instr.wf (.vcmpI32 p c q a b) = false ∧ Instr.wf (.vcmpN32 p c q a b) = false ∧
       Instr.wf (.vcmpI64 p c q a b) = false) ∧
     (7 < c.toNat → Instr.wf (.vcmpF32 p c q a b) = false ∧ Instr.wf (.vcmpF64 p c q a b) = false))

/-- 08 R132, R133: the shuffles read the lane that they name when it is a lane of the issue set, and else their own; lane
numbers; prefix sums over the active lanes. -/
def Obligations.VectorAcrossLanes : Prop :=
  ∀ (s : State) (p : BitVec 3) (d a b : BitVec 7) (c : BitVec 5),
    let A := s.lanes &&& s.span.pr p
    WordResult (exec (.vshflIdx p d a b) s) s A d (fun l => shuffled s a l ((s.span.vr b.toNat l).extractLsb' 0 5).toNat) ∧
    WordResult (exec (.vshflXor p d a c) s) s A d (fun l => shuffled s a l (l ^^^ c.toNat : Nat)) ∧
    WordResult (exec (.vshflUp p d a c) s) s A d (fun l => shuffled s a l ((l : Int) - c.toNat)) ∧
    WordResult (exec (.vshflDown p d a c) s) s A d (fun l => shuffled s a l ((l : Int) + c.toNat)) ∧
    WordResult (exec (.vbcast p d a c) s) s A d (fun l => shuffled s a l c.toNat) ∧
    WordResult (exec (.vlaneid p d) s) s A d (fun l => BitVec.ofNat 32 l) ∧
    WordResult (exec (.vprefixI32 p d a) s) s A d
      (fun l => (((List.range (l + 1)).filter (fun m => laneIn A m)).map (fun m => s.span.vr a.toNat m)).sum)

/-- 08 R134, R135, R137: floating point in every active lane: the exact operation on the values read, rounded once. -/
def Obligations.VectorFloats : Prop :=
  ∀ (s : State) (p : BitVec 3) (d a b : BitVec 7),
    let A := s.lanes &&& s.span.pr p
    let x := fun l => f32Of (s.span.vr a.toNat l)
    let y := fun l => f32Of (s.span.vr b.toNat l)
    let z := fun l => f32Of (s.span.vr d.toNat l)
    let x2 := fun l => f64Of (s.span.vr (a.toNat + 1) l ++ s.span.vr a.toNat l)
    let y2 := fun l => f64Of (s.span.vr (b.toNat + 1) l ++ s.span.vr b.toNat l)
    let z2 := fun l => f64Of (s.span.vr (d.toNat + 1) l ++ s.span.vr d.toNat l)
    let h := fun (r : BitVec 7) (i l : Nat) => f16Of ((s.span.vr r.toNat l).extractLsb' (16 * i) 16)
    WordResult (exec (.vaddF32 p d a b) s) s A d (fun l => toF32 ((x l).add (y l))) ∧
    WordResult (exec (.vsubF32 p d a b) s) s A d (fun l => toF32 ((x l).add (y l).neg)) ∧
    WordResult (exec (.vmulF32 p d a b) s) s A d (fun l => toF32 ((x l).mul (y l))) ∧
    WordResult (exec (.vfmaF32 p d a b) s) s A d (fun l => toF32 (((x l).mul (y l)).add (z l))) ∧
    WordResult (exec (.vminF32 p d a b) s) s A d
      (fun l => if (x l).isNan || (y l).isNan then 0x7FC00000#32 else toF32 (fMinMax false (x l) (y l))) ∧
    WordResult (exec (.vmaxF32 p d a b) s) s A d
      (fun l => if (x l).isNan || (y l).isNan then 0x7FC00000#32 else toF32 (fMinMax true (x l) (y l))) ∧
    PairResult (exec (.vaddF64 p d a b) s) s A d (fun l => toF64 ((x2 l).add (y2 l))) ∧
    PairResult (exec (.vsubF64 p d a b) s) s A d (fun l => toF64 ((x2 l).add (y2 l).neg)) ∧
    PairResult (exec (.vmulF64 p d a b) s) s A d (fun l => toF64 ((x2 l).mul (y2 l))) ∧
    PairResult (exec (.vfmaF64 p d a b) s) s A d (fun l => toF64 (((x2 l).mul (y2 l)).add (z2 l))) ∧
    PairResult (exec (.vminF64 p d a b) s) s A d
      (fun l => if (x2 l).isNan || (y2 l).isNan then 0x7FF8000000000000#64 else toF64 (fMinMax false (x2 l) (y2 l))) ∧
    PairResult (exec (.vmaxF64 p d a b) s) s A d
      (fun l => if (x2 l).isNan || (y2 l).isNan then 0x7FF8000000000000#64 else toF64 (fMinMax true (x2 l) (y2 l))) ∧
    WordResult (exec (.vaddF16x2 p d a b) s) s A d
      (fun l => toF16 ((h a 1 l).add (h b 1 l)) ++ toF16 ((h a 0 l).add (h b 0 l))) ∧
    WordResult (exec (.vmulF16x2 p d a b) s) s A d
      (fun l => toF16 ((h a 1 l).mul (h b 1 l)) ++ toF16 ((h a 0 l).mul (h b 0 l))) ∧
    WordResult (exec (.vfmaF16x2 p d a b) s) s A d
      (fun l => toF16 (((h a 1 l).mul (h b 1 l)).add (h d 1 l)) ++ toF16 (((h a 0 l).mul (h b 0 l)).add (h d 0 l))) ∧
    WordResult (exec (.vclassF32 p d a) s) s A d (fun l => classBits (s.span.vr a.toNat l))

/-- 08 R138: the transcendentals: without a counter the rounded function of each active lane is written; with one the counter
rises and the results are outstanding. 08 R138: the special inputs of the transcendentals, on the words themselves. -/
def Obligations.VectorTranscendentals : Prop :=
  (∀ (s : State) (p : BitVec 3) (d a : BitVec 7) (k : BitVec 3),
     let A := s.lanes &&& s.span.pr p
     let both := fun (r : Res) (f : FVal → FVal) =>
       (k = 7#3 → (∀ l, l < 32 → laneIn A l → (s.span.laneAt l).ended = false) →
         WordResult r s A d (fun l => toF32 (f (f32Of (s.span.vr a.toNat l))))) ∧
       (k.toNat < 6 → s.span.kc k.toNat < 63 →
         CountedResult r s k A [.v d.toNat] ((lanesOf A).map (fun l => .v d.toNat l (toF32 (f (f32Of (s.span.vr a.toNat l)))))))
     both (exec (.vrcpF32 p d a k) s) fRcp ∧ both (exec (.vrsqrtF32 p d a k) s) fRsqrt ∧
     both (exec (.vsqrtF32 p d a k) s) fSqrt ∧ both (exec (.vexp2F32 p d a k) s) fExp2 ∧ both (exec (.vlog2F32 p d a k) s) fLog2) ∧
  (let f := fun (g : FVal → FVal) (x : Word) => toF32 (g (f32Of x))
   (f fRcp 0xFF800000 = 0x80000000 ∧ f fRcp 0x80000000 = 0xFF800000 ∧ f fRcp 0 = 0x7F800000 ∧ f fRcp 0x7F800000 = 0) ∧
   (f fRsqrt 0xFF800000 = 0x7FC00000 ∧ f fRsqrt 0xBF800000 = 0x7FC00000 ∧ f fRsqrt 0x80000000 = 0xFF800000 ∧
     f fRsqrt 0 = 0x7F800000 ∧ f fRsqrt 0x7F800000 = 0) ∧
   (f fSqrt 0xFF800000 = 0x7FC00000 ∧ f fSqrt 0xBF800000 = 0x7FC00000 ∧ f fSqrt 0x80000000 = 0x80000000 ∧ f fSqrt 0 = 0 ∧
     f fSqrt 0x7F800000 = 0x7F800000) ∧
   (f fExp2 0xFF800000 = 0 ∧ f fExp2 0x80000000 = 0x3F800000 ∧ f fExp2 0 = 0x3F800000 ∧ f fExp2 0x7F800000 = 0x7F800000) ∧
   (f fLog2 0xFF800000 = 0x7FC00000 ∧ f fLog2 0xBF800000 = 0x7FC00000 ∧ f fLog2 0x80000000 = 0xFF800000 ∧
     f fLog2 0 = 0xFF800000 ∧ f fLog2 0x7F800000 = 0x7F800000) ∧
   ∀ x : Word, 0x7F800000 < (x &&& 0x7FFFFFFF#32).toNat →
     f fRcp x = 0x7FC00000 ∧ f fRsqrt x = 0x7FC00000 ∧ f fSqrt x = 0x7FC00000 ∧ f fExp2 x = 0x7FC00000 ∧ f fLog2 x = 0x7FC00000)

/-- 08 R139-R143: conversions, byte packing, the block scale, byte permutation and the binary8 dot product. -/
def Obligations.VectorConversions : Prop :=
  ∀ (s : State) (p : BitVec 3) (d a b : BitVec 7) (sat : BitVec 1) (rnd : BitVec 2) (df sf f : BitVec 6),
    let A := s.lanes &&& s.span.pr p
    let x := fun (i l : Nat) => s.span.vr (a.toNat + i) l
    let y := fun l => s.span.vr b.toNat l
    let z := fun l => s.span.vr d.toNat l
    let src : Nat → Dword := fun l => if code64 sf then x 1 l ++ x 0 l else (x 0 l).setWidth 64
    let cv := fun l => destValue df (Rnd.of rnd) (sat == 1#1) (sourceValue sf (src l))
    let pb := fun (i l : Nat) => packByte (sat == 1#1) f (x i l)
    let ub := fun (i l : Nat) => unpackByte f ((x 0 l).extractLsb' (8 * i) 8)
    (code64 df = true → PairResult (exec (.vcvt p d a sat rnd df sf) s) s A d cv) ∧
    (code64 df = false → WordResult (exec (.vcvt p d a sat rnd df sf) s) s A d (fun l => (cv l).setWidth 32)) ∧
    WordResult (exec (.vpack8 p d a sat f) s) s A d (fun l => pb 3 l ++ pb 2 l ++ pb 1 l ++ pb 0 l) ∧
    VecResult (exec (.vunpack8 p d a f) s) s A d 4 ub ∧
    WordResult (exec (.vscaleF32 p d a b) s) s A d (fun l =>
      if (y l).extractLsb' 0 8 = 0xFF#8 then 0x7FC00000#32
      else toF32 ((f32Of (x 0 l)).scale (((y l).extractLsb' 0 8).toNat - 127))) ∧
    WordResult (exec (.vperm p d a b) s) s A d (fun l =>
      let byte := fun i => let c := (y l).extractLsb' (8 * i) 8
        if c.getLsbD 7 then 0#8 else (z l ++ x 0 l).extractLsb' (8 * (c.extractLsb' 0 3).toNat) 8
      byte 3 ++ byte 2 ++ byte 1 ++ byte 0) ∧
    WordResult (exec (.vdot4 p d a b) s) s A d (fun l => dot4 (x 0 l) (x 1 l) (y l) (z l))

/-- 08 R144, R145: modular arithmetic and the butterflies modulo a nonzero %mq; each result as the integers modulo q give it. -/
def Obligations.VectorModular : Prop :=
  ∀ (s : State) (p : BitVec 3) (d a b : BitVec 7), s.span.mq ≠ 0 →
    let A := s.lanes &&& s.span.pr p
    let q : Int := s.span.mq.toNat
    let P := fun (r l : Nat) => ((s.span.vr (r + 1) l ++ s.span.vr r l : Dword).toNat : Int)
    let x := P a.toNat
    let w := P (a.toNat + 2)
    let y := P b.toNat
    let R := fun v : Int => BitVec.ofInt 64 (v % q)
    PairResult (exec (.vmodadd p d a b) s) s A d (fun l => R (x l + y l)) ∧
    PairResult (exec (.vmodsub p d a b) s) s A d (fun l => R (x l - y l)) ∧
    PairResult (exec (.vmodmul p d a b) s) s A d (fun l => R (x l * y l)) ∧
    PairResult (exec (.vmodred p d a) s) s A d (fun l => R (x l + 2 ^ 64 * w l)) ∧
    GroupResult (exec (.vnttCt p d a b) s) s A d (fun l => R (x l - y l * w l) ++ R (x l + y l * w l)) ∧
    GroupResult (exec (.vnttGs p d a b) s) s A d (fun l => R ((x l - w l) * y l) ++ R (x l + w l))

/-! ## Class 2: tile registers and the matrix pipe -/

/-- 09 R153, R149: tcfgw of a legal value or of zero, tcfgr, and tzero on the register or its pair. 09 R159: tmov copies the elements of a configured tile in row-major order, tmov.tr transposes; every other byte of the tile
registers is as it was. -/
def Obligations.TileConfiguration : Prop :=
  (∀ (s : State) (n : BitVec 4) (a : BitVec 6) (d : BitVec 7), n.toNat < s.tregsHere →
     let x := s.span.sr a
     let c := s.here.cfg n.toNat
     (x = 0 ∨ (tcV x ∧ tcfgLegal s.tregsHere n.toNat x) → ∃ t, exec (.tcfgw n a) s = .next t ∧
       HereRetired s t { s.here with tcfg := t.here.tcfg } ∧
       ∀ m, t.here.cfg m = if m = n.toNat then x else s.here.cfg m) ∧
     PairResult (exec (.tcfgr d n) s) s s.lanes d (fun _ => c) ∧
     (s.here.absorbed n.toNat = false → ∃ t, exec (.tzero n) s = .next t ∧ HereRetired s t { s.here with t := t.here.t } ∧
       ∀ m b, b < 4096 → t.here.tByte m b =
         if m = n.toNat ∨ (m = n.toNat + 1 ∧ tcV c ∧ tcPR c) then 0 else s.here.tByte m b)) ∧
  (∀ (s : State) (d n : BitVec 4), s.tUsable d → s.tUsable n →
     let x := s.here.cfg d.toNat
     let y := s.here.cfg n.toNat
     let w := tcW x
     tcW y = w →
     (tcRows x * tcCols x = tcRows y * tcCols y → ∃ t, exec (.tmov d n) s = .next t ∧
       HereRetired s t { s.here with t := t.here.t } ∧
       (∀ i o, i < tcRows x * tcCols x → o < w → t.here.tByte d.toNat (i * w + o) = s.here.tByte n.toNat (i * w + o)) ∧
       ∀ k, k < 4096 * d.toNat ∨ 4096 * d.toNat + tcRows x * tcCols x * w ≤ k →
         Store.get 0 t.here.t k = Store.get 0 s.here.t k) ∧
     (tcRows x = tcCols y → tcCols x = tcRows y → ∃ t, exec (.tmovTr d n) s = .next t ∧
       HereRetired s t { s.here with t := t.here.t } ∧
       (∀ r c o, r < tcRows x → c < tcCols x → o < w →
         t.here.tByte d.toNat ((r * tcCols x + c) * w + o) = s.here.tByte n.toNat ((c * tcCols y + r) * w + o)) ∧
       ∀ k, k < 4096 * d.toNat ∨ 4096 * d.toNat + tcRows x * tcCols x * w ≤ k →
         Store.get 0 t.here.t k = Store.get 0 s.here.t k))

/-- 11 R193: ldt of elements inside their handle, in granules without poison. Once every lane's granule may be read, plain at once, with
.wf and .wfc when it is full, each lane has its bytes, at once or outstanding under a counter, and .wfc empties the granules; while one
is empty the instruction waits at its word, and the lanes whose granules are full are served. 09 R155: tld of a rectangle inside its
handle, the same with all its granules together. 09 R156: tld.perm reads row table[r], or column table[c], of the handle through a
one-row table of natural 16-bit numbers, as the table stands at issue. -/
def Obligations.TileLoads : Prop :=
  (∀ (s : State) (k p : BitVec 3) (h : BitVec 6) (d : BitVec 7) (m : MemMod) (c : Coord) (place : Nat) (e : BitVec 128),
     let S := s.active p
     let o := fun (l : Nat) => eOff e (c.row s.span l) (c.col s.span l)
     let x := fun (size l j : Nat) => BitVec.ofNat 32 (s.placeBytes place (o l) size / 2 ^ (32 * j))
     let full := fun (l : Nat) => (s.gran place (o l / 16)).full
     let R := S &&& lanesWhere (fun l => !full l)
     let heard := if m.fe = 0#2 ∨ S &&& ~~~R = 0 then s else s.tileHear place
     let holds := fun (t : State) (size : Nat) (L : Lanes) => ∀ n l, l < 32 →
       t.span.vr n l = if d.toNat ≤ n ∧ n < d.toNat + size / 4 ∧ laneIn L l then x size l (n - d.toNat) else s.span.vr n l
     let go := fun (i : Instr) (size : Nat) =>
       let ws := (lanesOf S).flatMap (fun l => (List.range (size / 4)).map (fun j => RegWrite.v (d.toNat + j) l (x size l j)))
       (∀ l, l < 32 → laneIn S l → eWidth e = size ∧ c.row s.span l < eRows e ∧ c.col s.span l < eCols e) →
       (m.fe = 0#2 ∨ R = 0 →
         (m.fe ≠ 2#2 → k = 7#3 → VecResult (exec i s) heard S d (size / 4) (fun j l => x size l j)) ∧
         (m.fe ≠ 2#2 → k ≠ 7#3 → CountedResult (exec i s) heard k S (vN (size / 4) d) ws) ∧
         (m.fe = 2#2 → ∃ t, exec i s = .next t ∧ Emptied heard t place (fun g => ∃ l, l < 32 ∧ laneIn S l ∧ g = o l / 16) ∧
           (k = 7#3 → t.span = Span.movedOn { s.span with v := t.span.v } s.lanes s.focus.next ∧ holds t size S) ∧
           (k ≠ 7#3 → t.span = (s.span.addPending k.toNat S (vN (size / 4) d) ws).movedOn s.lanes s.focus.next))) ∧
       (m.fe ≠ 0#2 → R ≠ 0 → ∃ t, exec i s = .next t ∧
         Emptied heard t place (fun g => m.fe = 2#2 ∧ ∃ l, l < 32 ∧ laneIn (S &&& ~~~R) l ∧ g = o l / 16) ∧ holds t size (S &&& ~~~R) ∧
         (∀ n, t.span.kc n = if n = k.toNat ∧ n < 6 then s.span.kc n + 1 else s.span.kc n) ∧
         t.span = { s.span with
           v := t.span.v, k := t.span.k, wait := .granule place (o (State.lowest R) / 16)
           tileWait := s.span.tileWait ++ [{ (s.tileStart S 0 (laneElems s.span c S) [] (vN (size / 4) d) k.toNat) with
             on := .granule place (o (State.lowest R) / 16), lanes := R, served := S &&& ~~~R
             grans := (lanesOf R).map (fun l => (place, o l / 16)) }] })
     S ≠ 0 → s.tileRef s.focus.g h.toNat m.ref = .ok place e → (∀ i, (s.gran place i).poison = false) →
     s.tileBusy ((lanesOf S).map (fun l => (place, o l / 16))) = false → (∀ w ∈ s.span.tileWait, w.own ≠ s.lanes) →
     (∀ l, l < 32 → laneIn S l → (s.span.laneAt l).ended = false) → (k = 7#3 ∨ (k.toNat < 6 ∧ s.span.kc k.toNat < 63)) →
     go (.ldt32 k p h d m c) 4 ∧ go (.ldt64 k p h d m c) 8 ∧ go (.ldt128 k p h d m c) 16) ∧
  (∀ (s : State) (k : BitVec 3) (fe : BitVec 2) (dy dx n : BitVec 4) (sib : BitVec 1) (h : BitVec 6) (c : Coord)
     (place : Nat) (e : BitVec 128),
     let x := s.here.cfg n.toNat
     let row := c.row s.span 0
     let col := c.col s.span 0
     let bs := loadBytes place e (rectElems x row col)
     let r := exec (.tld k fe dy dx n sib h c) s
     let bytes := fun (t : State) => (∀ i j b, i < tcRows x → j < tcCols x → b < tcW x →
         t.here.tByte n.toNat ((i * tcCols x + j) * tcW x + b) = s.placeByte place (eOff e (row + i) (col + j) + b)) ∧
       ∀ m, m < 4096 * n.toNat ∨ 4096 * n.toNat + tcRows x * tcCols x * tcW x ≤ m →
         Store.get 0 t.here.t m = Store.get 0 s.here.t m
     let ws := bs.map (fun b => RegWrite.t n.toNat b.1 (s.placeByte place (16 * b.2.2.1 + b.2.2.2)))
     let empty := bs.find? (fun b => !(s.gran place b.2.2.1).full)
     let heard := if fe = 0#2 then s else s.tileHear place
     s.tUsable n → s.tileRef s.focus.g h.toNat ⟨dx, dy, sib⟩ = .ok place e → eWidth e = tcW x →
     row + tcRows x ≤ eRows e → col + tcCols x ≤ eCols e → (∀ i, (s.gran place i).poison = false) →
     s.tileBusy (bs.map (fun b => (b.2.1, b.2.2.1))) = false → (∀ w ∈ s.span.tileWait, w.own ≠ s.lanes) →
     (k = 7#3 ∨ (k.toNat < 6 ∧ s.span.kc k.toNat < 63)) →
     (fe = 0#2 ∨ empty = none →
       (fe ≠ 2#2 → k = 7#3 → ∃ t, r = .next t ∧ HereRetired heard t { s.here with t := t.here.t } ∧ bytes t) ∧
       (fe ≠ 2#2 → k ≠ 7#3 → CountedResult r heard k s.lanes [.t n.toNat] ws) ∧
       (fe = 2#2 → ∃ t, r = .next t ∧ Emptied heard t place (fun g => ∃ b ∈ bs, g = b.2.2.1) ∧
         (k = 7#3 → t.span = s.span.movedOn s.lanes s.focus.next ∧ bytes t) ∧
         (k ≠ 7#3 → t.span = (s.span.addPending k.toNat s.lanes [.t n.toNat] ws).movedOn s.lanes s.focus.next))) ∧
     ∀ b, fe ≠ 0#2 → empty = some b → ∃ t, r = .next t ∧ OnlySpan s t ∧
       (∀ n, t.span.kc n = if n = k.toNat ∧ n < 6 then s.span.kc n + 1 else s.span.kc n) ∧ t.span = { s.span with
       k := t.span.k, wait := .granule place b.2.2.1
       tileWait := s.span.tileWait ++ [{ (s.tileStart s.lanes x (rectElems x row col) [] [.t n.toNat] k.toNat) with
         on := .granule place b.2.2.1, lanes := s.lanes, grans := bs.map (fun b => (b.2.1, b.2.2.1)) }] }) ∧
  (∀ (s : State) (tT n : BitVec 4) (bb : BitVec 1) (h : BitVec 6) (c : Coord) (place : Nat) (e : BitVec 128),
     let x := s.here.cfg n.toNat
     let y := s.here.cfg tT.toNat
     let tab := fun i => s.here.tElem tT.toNat 0 i
     let src := fun i j => if bb = 1#1 then (c.row s.span 0 + tab i, c.col s.span 0 + j) else (c.row s.span 0 + i, c.col s.span 0 + tab j)
     s.tUsable n → s.tUsable tT → tT ≠ n → tcFmt y = 0x05 → tcRows y = 1 → tcPR y = false →
     (if bb = 1#1 then tcRows x else tcCols x) ≤ tcCols y → eAlloc (s.here.entryOf h.toNat) → s.here.entryOf h.toNat = e →
     s.placeOf s.focus.g h.toNat = place → eWidth e = tcW x →
     (∀ i j, i < tcRows x → j < tcCols x → (src i j).1 < eRows e ∧ (src i j).2 < eCols e) →
     (∀ i, (s.gran place i).poison = false) → (∀ gs, s.tileBusy gs = false) → (∀ w ∈ s.span.tileWait, w.own ≠ s.lanes) →
     ∃ t, exec (.tldPerm 7 0 tT bb n h c) s = .next t ∧ HereRetired s t { s.here with t := t.here.t } ∧
       (∀ i j b, i < tcRows x → j < tcCols x → b < tcW x → t.here.tByte n.toNat ((i * tcCols x + j) * tcW x + b) =
         s.placeByte place (eOff e (src i j).1 (src i j).2 + b)) ∧
       ∀ m, m < 4096 * n.toNat ∨ 4096 * n.toNat + tcRows x * tcCols x * tcW x ≤ m →
         Store.get 0 t.here.t m = Store.get 0 s.here.t m)

/-- 11 R193: stt of elements inside their handle, and 09 R157: tst of a tile inside its handle, in granules without poison and with
data that pass their carriage check: each granule that they touch is written and becomes full; with .we the empty granules are written
at once, and while one is full the instruction waits at its word. 09 R157, 11 R193: a granule written by a store of tile memory: the last
byte stored at each place stands, every other byte is as it was, the granules touched are full, and every other granule of every handle
is as it was. 12 R223: the clock of the core whose tile memory it is, where it is behind, becomes that of the writing core. -/
def Obligations.TileStores : Prop :=
  (∀ (s : State) (p : BitVec 3) (h : BitVec 6) (d : BitVec 7) (m : MemMod) (c : Coord) (place : Nat) (e : BitVec 128),
     let S := s.active p
     let o := fun (l : Nat) => eOff e (c.row s.span l) (c.col s.span l)
     let R := S &&& lanesWhere (fun l => (s.gran place (o l / 16)).full)
     let go := fun (i : Instr) (size : Nat) =>
       let elem := fun (l : Nat) => (List.range (size / 4)).foldr (fun j x => (s.span.vr (d.toNat + j) l).toNat + 2 ^ 32 * x) 0
       let gs := byGranule ((lanesOf S).flatMap (fun l => (List.range size).map (fun j => (o l + j, BitVec.ofNat 8 (elem l / 256 ^ j)))))
       (∀ l, l < 32 → laneIn S l → eWidth e = size ∧ c.row s.span l < eRows e ∧ c.col s.span l < eCols e) →
       s.tileBusy (gs.map (fun g => (place, g.1))) = false →
       (m.fe = 0#2 ∨ R = 0 → exec i s = .next (s.tellGrans place gs).retire) ∧
       (m.fe ≠ 0#2 → R ≠ 0 → exec i s = .next ((s.tellGrans place (gs.filter (fun g => !(s.gran place g.1).full))).tileWaits
         { (s.tileStart S 0 (laneElems s.span c S) ((lanesOf S).map (fun l => (l, elem l))) [] 7) with
           on := .granule place (o (State.lowest R) / 16), lanes := R, served := S &&& ~~~R
           grans := (lanesOf R).map (fun l => (place, o l / 16)) }))
     S ≠ 0 → s.tileRef s.focus.g h.toNat m.ref = .ok place e → (∀ i, (s.gran place i).poison = false) → S &&& s.carriage = 0 →
     (∀ w ∈ s.span.tileWait, w.own ≠ s.lanes) →
     go (.stt32 p h d m c) 4 ∧ go (.stt64 p h d m c) 8 ∧ go (.stt128 p h d m c) 16) ∧
  (∀ (s : State) (fe : BitVec 2) (dy dx n : BitVec 4) (sib : BitVec 1) (h : BitVec 6) (c : Coord) (place : Nat) (e : BitVec 128),
     let x := s.here.cfg n.toNat
     let row := c.row s.span 0
     let col := c.col s.span 0
     let gs := byGranule ((loadBytes place e (rectElems x row col)).map
       (fun b => (16 * b.2.2.1 + b.2.2.2, s.here.tByte n.toNat b.1)))
     let full := gs.filter (fun g => (s.gran place g.1).full)
     let free := gs.filter (fun g => !(s.gran place g.1).full)
     let r := exec (.tst fe dy dx n sib h c) s
     s.tUsable n → s.tileRef s.focus.g h.toNat ⟨dx, dy, sib⟩ = .ok place e → eWidth e = tcW x →
     row + tcRows x ≤ eRows e → col + tcCols x ≤ eCols e → (∀ i, (s.gran place i).poison = false) →
     laneIn s.carriage s.lowLane = false → s.tileBusy (gs.map (fun g => (place, g.1))) = false →
     (∀ w ∈ s.span.tileWait, w.own ≠ s.lanes) →
     (fe = 0#2 ∨ full = [] → r = .next (s.tellGrans place gs).retire) ∧
     ∀ g, fe ≠ 0#2 → full.head? = some g → r = .next ((s.tellGrans place free).tileWaits
       { (s.tileStart s.lanes x (rectElems x row col)
           ((List.range (tcRows x * tcCols x * tcW x)).map (fun b => (b, (s.here.tByte n.toNat b).toNat))) [] 7) with
         on := .granule place g.1, lanes := s.lanes, wrote := free.map Prod.fst, grans := full.map (fun g => (place, g.1)) })) ∧
  (∀ (s : State) (place : Nat) (bs : List (Nat × Byte)), (∀ b ∈ bs, b.1 < 2 ^ 28) →
     let t := s.storeGrans place (byGranule bs)
     (∀ xs o v ys, bs = xs ++ (o, v) :: ys → (∀ y ∈ ys, y.1 ≠ o) → t.placeByte place o = v) ∧
     (∀ o, o < 2 ^ 28 → (∀ b ∈ bs, b.1 ≠ o) → t.placeByte place o = s.placeByte place o) ∧
     (∀ b ∈ bs, (t.gran place (b.1 / 16)).full = true) ∧
     (∀ p i, i < 2 ^ 24 → (p ≠ place ∨ ∀ b ∈ bs, b.1 / 16 ≠ i) → t.gran p i = s.gran p i) ∧
     ∀ a, t.byte a = s.byte a) ∧
  (∀ (s : State) (place : Nat) (gs : List (Nat × BitVec 16 × BitVec 128)),
     let t := s.tellGrans place gs
     let mine := Store.get 0 s.lamport s.here.core
     t = { s.storeGrans place gs with lamport := t.lamport } ∧
     ∀ n, Store.get 0 t.lamport n =
       if gs ≠ [] ∧ n = (s.placeWg place).core ∧ precedes (Store.get 0 s.lamport n) mine then mine else Store.get 0 s.lamport n)

/-- 09 R160-R166: every matrix form, where legal, gives each accumulator element of the quarters that take part its new value. 09 R164, 06 R96: mma.i8 and mma.mod: an accumulator element becomes itself plus the sum of the 32 products of block bs,
modulo 2^32, or modulo %mq. -/
def Obligations.MatrixMultiply : Prop :=
  (∀ (s : State) (k : BitVec 3) (bs : BitVec 2) (tA tB tM : BitVec 4) (v vA vB : BitVec 7),
     let go := fun (i : Instr) (F : MmaForm) (acc : Fmt) (m : BitVec 4) (a b : BitVec 7) =>
       mmaLegal F s bs tA tB m → MmaResult (exec i s) s F.wide k v
         (fun q r c => mmaFloat F acc s bs.toNat tA.toNat tB.toNat m.toNat v.toNat a.toNat b.toNat q r c)
     go (.mmaB8 k bs tB tA v) ⟨0x10, fmtB8, false, false, false⟩ fmt32 0 0 0 ∧
     go (.mmaB8Scl k bs tB tA v vA vB) ⟨0x11, fmtB8, false, true, false⟩ fmt32 0 vA vB ∧
     go (.mmaB8Sp k bs tM tB tA v) ⟨0x12, fmtB8, true, false, false⟩ fmt32 tM 0 0 ∧
     go (.mmaB8SclSp k bs tM tB tA v vA vB) ⟨0x13, fmtB8, true, true, false⟩ fmt32 tM vA vB ∧
     go (.mmaBf16 k bs tB tA v) ⟨0x14, fun f => f == 0x09, false, false, false⟩ fmt32 0 0 0 ∧
     go (.mmaF16 k bs tB tA v) ⟨0x15, fun f => f == 0x08, false, false, false⟩ fmt32 0 0 0 ∧
     go (.mmaF32 k bs tB tA v) ⟨0x16, fun f => f == 0x0A, false, false, false⟩ fmt32 0 0 0 ∧
     go (.mmaF64 k bs tB tA v) ⟨0x17, fun f => f == 0x0B, false, false, true⟩ fmt64 0 0 0) ∧
  (∀ (s : State) (k : BitVec 3) (bs : BitVec 2) (tA tB : BitVec 4) (v : BitVec 7),
     let a := s.here.cfg tA.toNat
     let b := s.here.cfg tB.toNat
     let ra := fun q r => (if tcRows a = 32 then 8 * q else 0) + r
     let cb := fun q c => (if tcCols b = 32 then 8 * q else 0) + c
     let A := fun q r i => s.here.tElem tA.toNat (ra q r) (32 * bs.toNat + i)
     let B := fun q c i => s.here.tElem tB.toNat (32 * bs.toNat + i) (cb q c)
     let sg := fun (x : Dword) (n : Nat) => if tcFmt x = 0 then (BitVec.ofNat 8 n).toInt else (n : Int)
     (mmaLegal ⟨0x18, fun f => f == 0x00 || f == 0x04, false, false, false⟩ s bs tA tB 0 →
       MmaResult (exec (.mmaI8 k bs tB tA v) s) s false k v (fun q r c => (BitVec.ofInt 32
         (((s.span.vr (v.toNat + r) (8 * q + c)).toNat : Int) +
           ((List.range 32).map (fun i => sg a (A q r i) * sg b (B q c i))).sum)).setWidth 64)) ∧
     (s.span.mq ≠ 0 → mmaLegal ⟨0x19, fun f => f == 0x0E, false, false, true⟩ s bs tA tB 0 →
       MmaResult (exec (.mmaMod k bs tB tA v) s) s true k v (fun q r c => BitVec.ofNat 64
         (((s.span.pair (v.toNat + 2 * r) (8 * q + c)).toNat + ((List.range 32).map (fun i => A q r i * B q c i)).sum) %
           s.span.mq.toNat))))

/-! ## Class 3: memory -/

/-- 11 R187, 13 R239: a load of lanes that share one line, which the core holds, or nobody holds, or others hold: each lane gets its bytes,
of the core's own copy where it holds one (13 R231), extended as its type says, and memory reads as before. Orders that take an sc stamp, and the read-only path, have statements of their own. 11 R190: a load
on the read-only path, whose core has no copy of the line for its launch, reads the line's present data, of a drift line the values of its
merge, and keeps a copy; with a copy it reads the copy, whatever the line holds now. -/
def Obligations.LoadsRead : Prop :=
  (∀ (s : State) (k : BitVec 3) (i d : BitVec 7) (b : BitVec 6) (m : MemMod) (pa : Nat → Nat) (line : Nat),
     let ok := fun (size : Nat) => OneLine s s.lanes (s.laneAddr b i m.off) size .read false pa line
     let now := if s.holds s.here.core line then (s.cacheAt s.here.core line).data else s.lineView line
     let x := fun (size l : Nat) => lineBytes now (pa l % 128) size
     let readable := s.holds s.here.core line ∨ LineFree s line ∨ (Settled s line ∧ (s.dirAt line).state ≠ .I)
     State.stamped m = false → m.order ≠ 5#3 → readable →
     (k = 7#3 ∨ (k.toNat < 6 ∧ s.span.kc k.toNat < 63)) →
     (ok 1 → LoadResult (exec (.ldN8 k i b d m) s) s k d 1 (fun _ l => BitVec.ofNat 32 (x 1 l)) ∧
       LoadResult (exec (.ldI8 k i b d m) s) s k d 1 (fun _ l => (BitVec.ofNat 8 (x 1 l)).signExtend 32)) ∧
     (ok 2 → LoadResult (exec (.ldN16 k i b d m) s) s k d 1 (fun _ l => BitVec.ofNat 32 (x 2 l)) ∧
       LoadResult (exec (.ldI16 k i b d m) s) s k d 1 (fun _ l => (BitVec.ofNat 16 (x 2 l)).signExtend 32)) ∧
     (ok 4 → LoadResult (exec (.ld32 k i b d m) s) s k d 1 (fun _ l => BitVec.ofNat 32 (x 4 l))) ∧
     (ok 8 → LoadResult (exec (.ld64 k i b d m) s) s k d 2 (fun j l => BitVec.ofNat 32 (x 8 l / 2 ^ (32 * j)))) ∧
     (ok 16 → LoadResult (exec (.ld128 k i b d m) s) s k d 4 (fun j l => BitVec.ofNat 32 (x 16 l / 2 ^ (32 * j))))) ∧
  (∀ (s : State) (i d : BitVec 7) (b : BitVec 6) (m : MemMod) (pa : Nat → Nat) (line : Nat),
     m.order = 5#3 → OneLine s s.lanes (s.laneAddr b i m.off) 4 .read false pa line →
     let mine := fun (c : RoCopy) => c.core == s.here.core && c.line == line && c.launch == s.here.launchKey
     let now := if (s.dirAt line).state = .D then accsLine (s.dirAt line).tag (s.driftSum line) else s.lineView line
     (∀ c, s.ro.find? mine = some c →
       LoadResult (exec (.ld32 7 i b d m) s) s 7 d 1 (fun _ l => BitVec.ofNat 32 (lineBytes c.data (pa l % 128) 4))) ∧
     (s.ro.find? mine = none → s.atHand line = true →
       LoadResult (exec (.ld32 7 i b d m) s) s 7 d 1 (fun _ l => BitVec.ofNat 32 (lineBytes now (pa l % 128) 4))))

/-- 11 R187, R188: a store of lanes that share one line whose home is quiet and which no drift line is: the bytes that each
lane stores are the line's, at one address the highest lane's, and every other byte of memory is as it was. 11 R189, 13 R236: a store of all
128 bytes of another device's line leaves as one WrLine for its pod home, and the instruction waits for the answer. -/
def Obligations.StoresWrite : Prop :=
  ∀ (s : State) (i d : BitVec 7) (b : BitVec 6) (m : MemMod) (pa : Nat → Nat) (line : Nat),
    let ok := fun (size : Nat) => OneLine s s.lanes (s.laneAddr b i m.off) size .write false pa line
    let V := fun (j l : Nat) => (s.span.vr (d.toNat + j) l).toNat * 2 ^ (32 * j)
    let done := fun (ins : Instr) (size : Nat) (val : Nat → Nat) =>
      ∃ y, Stored (s.lineView line) y s.lanes pa size val ∧ LineResult (exec ins s) s line y d 0 (fun _ _ => 0)
    let covers := fun (size : Nat) => ∀ x, x < 128 → ∃ l, l < 32 ∧ laneIn s.lanes l ∧ pa l % 128 ≤ x ∧ x < pa l % 128 + size
    let go := fun (ins : Instr) (size : Nat) (val : Nat → Nat) => ok size →
      (isPod line = false ∨ ¬covers size → done ins size val) ∧
      (isPod line = true → s.podHome line ≠ s.mySlot → covers size →
        ∃ y, Stored (s.lineView line) y s.lanes pa size val ∧ Asked (exec ins s) s 7 line (.wrLine y))
    State.stamped m = false → Settled s line →
    go (.st8 i b d m) 1 (V 0) ∧ go (.st16 i b d m) 2 (V 0) ∧ go (.st32 i b d m) 4 (V 0) ∧
    go (.st64 i b d m) 8 (fun l => V 0 l + V 1 l) ∧ go (.st128 i b d m) 16 (fun l => V 0 l + V 1 l + V 2 l + V 3 l)

/-- 11 R192: sld.64 and sst.64 make one access for the whole issue set; the value loaded is written at once, or outstanding under a
counter. -/
def Obligations.ScalarMemory : Prop :=
  ∀ (s : State) (k : BitVec 3) (b r : BitVec 6) (m : MemMod) (pa line : Nat),
    let a := s.span.sr b + m.off.signExtend 64
    let S := BitVec.twoPow 32 s.lowLane
    let now := if s.holds s.here.core line then (s.cacheAt s.here.core line).data else s.lineView line
    let x := BitVec.ofNat 64 (lineBytes now (pa % 128) 8)
    let readable := s.holds s.here.core line ∨ LineFree s line ∨ (Settled s line ∧ (s.dirAt line).state ≠ .I)
    State.stamped m = false →
    (m.order ≠ 5#3 → readable → (k = 7#3 ∨ (k.toNat < 6 ∧ s.span.kc k.toNat < 63)) →
      OneLine s S (fun _ => a) 8 .read false (fun _ => pa) line →
      ∃ t, exec (.sld64 k b r m) s = .next t ∧ ReadsOnly s t ∧
        (k = 7#3 → t.span = Span.movedOn { s.span with s := t.span.s } s.lanes s.focus.next ∧
          ∀ n, t.span.sr n = if n = r ∧ r ≠ 63#6 then x else s.span.sr n) ∧
        (k ≠ 7#3 → t.span = (s.span.addPending k.toNat s.lanes (sR r) [.s r.toNat x]).movedOn s.lanes s.focus.next)) ∧
    (Settled s line → OneLine s S (fun _ => a) 8 .write false (fun _ => pa) line →
      ∃ y, Stored (s.lineView line) y S (fun _ => pa) 8 (fun _ => (s.span.sr r).toNat) ∧
        LineResult (exec (.sst64 b r m) s) s line y 0 0 (fun _ _ => 0))

/-- 11 R195: the new value of each atomic operation: m the old value, x the operand, c the compare value; 32-bit forms act on the
low halves. 11 R195, R197: every atomic and every reduction, of lanes that share one line of this device whose home is quiet and which no
drift line is, completes: the lanes act one after the other in lane order on the line, and an atomic gives each lane the value that it
found, at once or under its counter. 13 R236: one on a line of another device leaves as one request for its pod home. 11 R196:
amo.fadd.f32 on one line of memory, away from the launch's status word: as the other atomics, and the launch is marked as one whose results
hang on timing. -/
def Obligations.AtomicsAct : Prop :=
  (∀ m x c : Dword,
     let lo := fun v : Dword => (v.setWidth 32 : Word)
     let up := fun v : Word => (v.setWidth 64 : Dword)
     State.amoResult .add32 m x c = BitVec.ofNat 64 ((m.toNat + x.toNat) % 2 ^ 32) ∧
     State.amoResult .add64 m x c = BitVec.ofNat 64 (m.toNat + x.toNat) ∧
     State.amoResult .min32 m x c = up (if (lo m).toInt ≤ (lo x).toInt then lo m else lo x) ∧
     State.amoResult .minn32 m x c = up (if (lo m).toNat ≤ (lo x).toNat then lo m else lo x) ∧
     State.amoResult .min64 m x c = (if m.toInt ≤ x.toInt then m else x) ∧
     State.amoResult .max32 m x c = up (if (lo m).toInt ≤ (lo x).toInt then lo x else lo m) ∧
     State.amoResult .maxn32 m x c = up (if (lo m).toNat ≤ (lo x).toNat then lo x else lo m) ∧
     State.amoResult .max64 m x c = (if m.toInt ≤ x.toInt then x else m) ∧
     State.amoResult .and32 m x c = up (lo m &&& lo x) ∧ State.amoResult .or32 m x c = up (lo m ||| lo x) ∧
     State.amoResult .xor32 m x c = up (lo m ^^^ lo x) ∧ State.amoResult .swap32 m x c = up (lo x) ∧
     State.amoResult .cas32 m x c = up (if lo m = lo c then lo x else lo m) ∧
     State.amoResult .cas64 m x c = (if m = c then x else m) ∧
     State.amoResult .fadd32 m x c = up (toF32 ((f32Of (lo m)).add (f32Of (lo x))))) ∧
  (∀ (s : State) (k : BitVec 3) (i d : BitVec 7) (b : BitVec 6) (m : MemMod) (pa : Nat → Nat) (line : Nat),
     let ok := fun (size : Nat) => OneLine s s.lanes (s.laneAddr b i m.off) size .write false pa line
     let rs := fun (op : AmoOp) => (lanesOf s.lanes).map (fun l => amoReq op s.span d.toNat l (pa l % 128))
     let seq := fun (op : AmoOp) => State.amoLine (rs op) (s.lineView line)
     let old := fun (op : AmoOp) (l : Nat) => (seq op).2.getD ((lanesOf s.lanes).idxOf l) 0
     let amo := fun (r : Res) (op : AmoOp) =>
       AtomicResult r s k line (seq op).1 d (State.amoSize op / 4) (fun j l => BitVec.ofNat 32 (old op l / 2 ^ (32 * j)))
     let red := fun (r : Res) (op : AmoOp) => LineResult r s line (seq op).1 d 0 (fun _ _ => 0)
     State.stamped m = false → (k = 7#3 ∨ (k.toNat < 6 ∧ s.span.kc k.toNat < 63)) → Settled s line →
     (isPod line = false →
       (ok 4 → ∃ t, exec (.amoAddI32 k i b d m) s = .next t ∧ amo (.next t) .add32) ∧
       (ok 8 → ∃ t, exec (.amoAddI64 k i b d m) s = .next t ∧ amo (.next t) .add64) ∧
       (ok 4 → ∃ t, exec (.amoMinI32 k i b d m) s = .next t ∧ amo (.next t) .min32) ∧
       (ok 4 → ∃ t, exec (.amoMinN32 k i b d m) s = .next t ∧ amo (.next t) .minn32) ∧
       (ok 8 → ∃ t, exec (.amoMinI64 k i b d m) s = .next t ∧ amo (.next t) .min64) ∧
       (ok 4 → ∃ t, exec (.amoMaxI32 k i b d m) s = .next t ∧ amo (.next t) .max32) ∧
       (ok 4 → ∃ t, exec (.amoMaxN32 k i b d m) s = .next t ∧ amo (.next t) .maxn32) ∧
       (ok 8 → ∃ t, exec (.amoMaxI64 k i b d m) s = .next t ∧ amo (.next t) .max64) ∧
       (ok 4 → ∃ t, exec (.amoAnd k i b d m) s = .next t ∧ amo (.next t) .and32) ∧
       (ok 4 → ∃ t, exec (.amoOr k i b d m) s = .next t ∧ amo (.next t) .or32) ∧
       (ok 4 → ∃ t, exec (.amoXor k i b d m) s = .next t ∧ amo (.next t) .xor32) ∧
       (ok 4 → ∃ t, exec (.amoSwap k i b d m) s = .next t ∧ amo (.next t) .swap32) ∧
       (ok 4 → ∃ t, exec (.amoCas32 k i b d m) s = .next t ∧ amo (.next t) .cas32) ∧
       (ok 8 → ∃ t, exec (.amoCas64 k i b d m) s = .next t ∧ amo (.next t) .cas64) ∧
       (ok 4 → ∃ t, exec (.redAddI32 i b d m) s = .next t ∧ red (.next t) .add32) ∧
       (ok 8 → ∃ t, exec (.redAddI64 i b d m) s = .next t ∧ red (.next t) .add64) ∧
       (ok 4 → ∃ t, exec (.redMin i b d m) s = .next t ∧ red (.next t) .min32) ∧
       (ok 4 → ∃ t, exec (.redMax i b d m) s = .next t ∧ red (.next t) .max32) ∧
       (ok 4 → ∃ t, exec (.redAnd i b d m) s = .next t ∧ red (.next t) .and32) ∧
       (ok 4 → ∃ t, exec (.redOr i b d m) s = .next t ∧ red (.next t) .or32) ∧
       (ok 4 → ∃ t, exec (.redXor i b d m) s = .next t ∧ red (.next t) .xor32)) ∧
     (isPod line = true → s.podHome line ≠ s.mySlot →
       (ok 4 → Asked (exec (.amoAddI32 k i b d m) s) s k.toNat line (.amo (rs .add32)) ∧
         Asked (exec (.amoSwap k i b d m) s) s k.toNat line (.amo (rs .swap32)) ∧
         Asked (exec (.amoCas32 k i b d m) s) s k.toNat line (.amo (rs .cas32)) ∧
         Asked (exec (.amoFaddF32 k i b d m) s) s k.toNat line (.amo (rs .fadd32)) ∧
         Asked (exec (.redAddI32 i b d m) s) s 7 line (.redOp (rs .add32) 1)) ∧
       (ok 8 → Asked (exec (.amoAddI64 k i b d m) s) s k.toNat line (.amo (rs .add64)) ∧
         Asked (exec (.amoCas64 k i b d m) s) s k.toNat line (.amo (rs .cas64)) ∧
         Asked (exec (.redAddI64 i b d m) s) s 7 line (.redOp (rs .add64) 1)))) ∧
  (∀ (s : State) (k : BitVec 3) (i d : BitVec 7) (b : BitVec 6) (m : MemMod) (pa : Nat → Nat) (line : Nat),
     let seq := State.amoLine ((lanesOf s.lanes).map (fun l => amoReq .fadd32 s.span d.toNat l (pa l % 128))) (s.lineView line)
     let old := fun (l : Nat) => BitVec.ofNat 32 (seq.2.getD ((lanesOf s.lanes).idxOf l) 0)
     State.stamped m = false → (k = 7#3 ∨ (k.toNat < 6 ∧ s.span.kc k.toNat < 63)) → Settled s line → isPod line = false →
     OneLine s s.lanes (s.laneAddr b i m.off) 4 .write false pa line → s.launchHere.record = [] →
     ∃ t, exec (.amoFaddF32 k i b d m) s = .next t ∧ t.lineView line = seq.1 ∧ t.launchHere.timing = true ∧
       (∀ n, n ≠ line → t.lineView n = s.lineView n) ∧
       (k = 7#3 → (∀ l, l < 32 → laneIn s.lanes l → (s.span.laneAt l).ended = false) →
         t.span = Span.movedOn { s.span with v := t.span.v, mon := t.span.mon } s.lanes s.focus.next ∧
         ∀ n l, l < 32 → t.span.vr n l = if n = d.toNat ∧ laneIn s.lanes l then old l else s.span.vr n l) ∧
       (k ≠ 7#3 → t.span = Span.movedOn { s.span with
         k := t.span.k, mon := t.span.mon
         pending := s.span.pending ++ [⟨k.toNat, (s.span.laneAt (State.lowest s.lanes)).lastIssue, s.lanes, vN 1 d,
           (lanesOf s.lanes).map (fun l => .v d.toNat l (old l))⟩] } s.lanes s.focus.next ∧
         ∀ n, t.span.kc n = if n = k.toNat ∧ n < 6 then s.span.kc n + 1 else s.span.kc n))

/-- 11 R198, 13 R241: a drift reduction of lanes that share one line: each lane's value is added into the core's accumulators
under the operator's tag; a line that nobody holds enters drift with its base value at the home. Memory reads as before. 06 R98, R99: partials of one drift operator combine to the same accumulator in whatever order they come. 13 R243: the merge of a drift
line of this device's memory without a lost holder: nobody holds the line, what a core waits for alone still comes, the home is in I, and
the line's bytes are the values of its base and every partial combined; every other byte of memory is as it was. 11 R203: values that a
cinv.discard drops are written nowhere. 13 R246: where peers hold the line in drift as well, the sum joins theirs. -/
def Obligations.DriftReductions : Prop :=
  (∀ (s : State) (i d : BitVec 7) (b : BitVec 6) (m : MemMod) (pa : Nat → Nat) (line : Nat),
     let W := fun l => ((s.span.vr d.toNat l).setWidth 64 : Dword)
     let P := fun l => s.span.vr (d.toNat + 1) l ++ s.span.vr d.toNat l
     let B8 := fun l => let x := s.span.vr d.toNat l
       ((toF32 (if fmtB8 (x.extractLsb' 8 6).toNat then b8Value (x.extractLsb' 8 6) (x.extractLsb' 0 8) else .nan)).setWidth 64 : Dword)
     let go := fun (ins : Instr) (g : DTag) (val : Nat → Dword) =>
       let add := fun (a : Store Acc) => (lanesOf s.lanes).foldl (fun a l =>
         Store.set 0 a (pa l % 128 / dtagWidth g) (accAdd g (Store.get 0 a (pa l % 128 / dtagWidth g)) (accOf g (val l)))) a
       let c := s.cacheAt s.here.core line
       OneLine s s.lanes (s.laneAddr b i m.off) (dtagWidth g) .write false pa line →
       (c.state = .D → c.tag = g → ∃ t, exec ins s = .next t ∧ ReadsOnly s t ∧ t.span = s.span.movedOn s.lanes s.focus.next ∧
         t.cacheAt s.here.core line = { c with accs := add c.accs } ∧ ∀ n, t.dirAt n = s.dirAt n) ∧
       (LineFree s line → s.driftFull s.here.core = false → s.driftRoom line = true →
         ∃ t, exec ins s = .next t ∧ ReadsOnly s t ∧ t.span = s.span.movedOn s.lanes s.focus.next ∧
         t.cacheAt s.here.core line = { CacheLine.none with state := .D, tag := g, accs := add [] } ∧
         t.dirAt line = State.addParty { DirEntry.idle with state := .D, tag := g, accs := baseAccs g (s.memLine line) }
           (BitVec.ofNat 13 s.here.core))
     go (.dredAddI64 i b d m) ⟨0, 0⟩ P ∧ go (.dredFaddF32 i b d m) ⟨1, 0⟩ W ∧ go (.dredFaddB8 i b d m) ⟨2, 0⟩ B8 ∧
     (s.span.mq ≠ 0 → go (.dredModadd i b d m) ⟨3, s.span.mq⟩ P) ∧ go (.dredMinF32 i b d m) ⟨4, 0⟩ W ∧
     go (.dredMaxF32 i b d m) ⟨5, 0⟩ W ∧ go (.dredOr i b d m) ⟨6, 0⟩ W) ∧
  (∀ (g : DTag) (xs ys : List Acc), xs.Perm ys → xs.foldl (accAdd g) 0 = ys.foldl (accAdd g) 0) ∧
  (∀ (s : State) (line : Nat) (pk : Option Nat), (s.dirAt line).lostHolder = false → isPod line = false →
     let d := s.dirAt line
     let q := s.podAt line
     let t := s.mergeHome line pk
     let sum := (s.copiesOf line).foldl (fun a e => if e.2.state = .D then addAccs d.tag a e.2.accs else a) d.accs
     let alone := q.state ≠ .D ∧ q.state ≠ .BMrg
     (∀ e ∈ t.copiesOf line, e.2.state.moving = true) ∧ t.dirAt line = { DirEntry.idle with queue := d.queue, held := d.held } ∧
     (alone → d.drop = false → t.memLine line = accsLine d.tag sum ∧ ∀ a, a / 128 ≠ line → t.byte a = s.byte a) ∧
     (alone → d.drop = true → ∀ a, t.byte a = s.byte a) ∧
     (¬alone → (∀ a, t.byte a = s.byte a) ∧ t.podAt line = { q with accs := addAccs d.tag q.accs sum }))

/-- 11 R199, R200, 12 R223: a fence that takes no stamp only completes; an sc fence of device scope or wider takes the next Lamport
stamp of its core, where the lead limit allows it; fence.ro drops the core's read-only copies. 11 R202: pref of one lane asks the home for a line that the core does not hold, with .l2only the pod home for a line that the device does
not hold, and otherwise only completes; it never faults. 11 R201, R203: on lanes that share one settled line: cflush writes it back and keeps it, cinv writes it back and takes the
copies that its scope chooses away, cinv.discard of a clean line or of a page marked D takes them away unwritten; a dirty line of a page
without D is code 0B, and nothing else changes. -/
def Obligations.FencesAndCaches : Prop :=
  ((∀ (s : State) (m : MemMod),
      let c := Store.get 0 s.lamport s.here.core + 1
      (State.stamped m = false → ∃ t, exec (.fence m) s = .next t ∧ Retired s t s.span) ∧
      (State.stamped m = true → (m.scope.toNat < 4 ∨ s.ptpEver) → (c - s.beacon).toNat ≤ 2 ^ 44 →
        ∃ t, exec (.fence m) s = .next t ∧ Retired { s with lamport := t.lamport } t s.span ∧
          ∀ n, Store.get 0 t.lamport n = if n = s.here.core then c else Store.get 0 s.lamport n) ∧
      ∃ t, exec (.fenceRo m) s = .next t ∧ Retired { s with ro := t.ro } t s.span ∧
        ∀ x, x ∈ t.ro ↔ x ∈ s.ro ∧ x.core ≠ s.here.core) ∧
   (∀ (s : State) (i : BitVec 7) (b : BitVec 6) (m : MemMod) (l : Nat), lanesOf s.lanes = [l] →
      let a := s.laneAddr b i m.off l
      let r := s.checkAddr s.here.core s.here.paddock s.asid a 1 1 .read s.privileged false
      ((∀ x w, r.2 ≠ .ok (.phys x w)) → ∃ t, exec (.pref i b m) s = .next t ∧ Retired s t s.span) ∧
      ∀ x w, r = (s, .ok (.phys x w)) →
        let line := x.pa / 128
        let c := (s.cacheAt s.here.core line).state
        let served := s.unreachable x.pa = false ∧ (s.dirAt line).state ≠ .P
        (¬served ∨ (m.hint ≠ 3#3 ∧ (c ≠ .I ∨ s.l1Full s.here.core = true ∨ s.sentOut s.here.core line = true)) ∨
            (m.hint = 3#3 ∧ (isPod line = false ∨ (s.proxyAt line).state ≠ .I)) →
          ∃ t, exec (.pref i b m) s = .next t ∧ Retired s t s.span) ∧
        (c = .I → m.hint ≠ 3#3 → served → s.l1Full s.here.core = false → s.sentOut s.here.core line = false →
          ∃ t h, exec (.pref i b m) s = .next t ∧ Retired { s with cache := t.cache, msgs := s.msgs ++ [(h, .getS)] } t s.span ∧
          h.src = BitVec.ofNat 13 s.here.core ∧ h.dst = 0x1FFF ∧ h.line = line ∧
          (t.cacheAt s.here.core line).state = .IS) ∧
        (m.hint = 3#3 → isPod line = true → (s.proxyAt line).state = .I → served → s.sentOut 0 line = false →
          s.podHome line ≠ s.mySlot →
          ∃ t h, exec (.pref i b m) s = .next t ∧
          Retired { s with proxy := t.proxy, outbox := s.outbox ++ [.coh h .getS] } t s.span ∧
          h.src = s.mySlot ∧ h.dst = s.podHome line ∧ h.pod = true ∧ h.line = line ∧ (t.proxyAt line).state = .IS))) ∧
  (∀ (s : State) (i : BitVec 7) (b : BitVec 6) (m : MemMod) (pa : Nat → Nat) (line : Nat),
     let addr := s.laneAddr b i m.off
     let page := fun (v : Bool) => ∀ l x, l < 32 → laneIn s.lanes l → AtHand s (addr l) .read true x → x.d = v
     SettledHere s line →
     (OneLine s s.lanes addr 1 .read false pa line →
       (∃ t, exec (.cflush i b m) s = .next t ∧ t.span = s.span.movedOn s.lanes s.focus.next ∧ (∀ n, t.lineView n = s.lineView n) ∧
         (2 < m.scope.toNat → t.memLine line = s.lineView line ∧
           ∀ e ∈ t.copiesOf line, e.2.state ≠ .M ∧ e.2.state ≠ .O) ∧
         (t.cacheAt s.here.core line).state ≠ .M) ∧
       ∃ t, exec (.cinv i b m) s = .next t ∧ t.span = s.span.movedOn s.lanes s.focus.next ∧ (∀ n, t.lineView n = s.lineView n) ∧
         (2 < m.scope.toNat → t.copiesOf line = [] ∧ t.dirAt line = DirEntry.idle ∧ t.memLine line = s.lineView line) ∧
         t.cacheAt s.here.core line = CacheLine.none) ∧
     (OneLine s s.lanes addr 1 .read true pa line →
       ((∀ e ∈ s.copiesOf line, e.2.state ≠ .M) ∨ page true →
         ∃ t, exec (.cinvDiscard i b m) s = .next t ∧ t.span = s.span.movedOn s.lanes s.focus.next ∧
           t.cacheAt s.here.core line = CacheLine.none ∧ (2 < m.scope.toNat → t.copiesOf line = [] ∧ t.dirAt line = DirEntry.idle) ∧
           ∀ a, t.byte a = s.byte a) ∧
       ((∃ e ∈ s.copiesOf line, e.2.state = .M) → page false → exec (.cinvDiscard i b m) s = .next (s.raise s.lanes 0x0B addr))))

/-! ## Class 4: asynchronous operations -/

/-- 11 R204-R212: a class 4 operation whose active lanes pass their checks, with room on its timeline, is in flight with the
units that its lanes name, for cp, cpr, put, get and cpchute one unit a lane from its source to its destination; it takes the
next number of the timeline, and the clause moves on. 11 R212: cpchute through a sibling's handle, or where the issuing stage is not the
producer of a chute of its launch on the handle, is code 07 to the active lanes (said where every lane is active). -/
def Obligations.AsyncOperationsIssue : Prop :=
  ∀ (s : State) (p : BitVec 3) (sz : BitVec 2) (tl : BitVec 3) (dst src : ASide) (m : AMod),
    let size := 4 * 2 ^ sz.toNat
    let A := s.lanes &&& s.span.pr p
    let T := s.here.tlAt tl.toNat
    let own := fun l => State.newUnit (s.sideAt src l) (s.sideAt dst l) size
    let alone := ∀ l, l < 32 → laneIn A l →
      s.checkSides (s.sideAt src l) (s.sideAt dst l) size size false [own l] = (s, .ok [own l])
    let go := fun (i : Instr) (kind : AsyncKind) (us : Nat → List AUnit) =>
      ∃ t, exec i s = .next t ∧ Issued s t kind tl.toNat m ((lanesOf A).flatMap us) ∧ t.chute = s.chute
    let many := fun (i : Instr) (kind : AsyncKind) => ∀ us : Nat → List AUnit,
      (∀ l, l < 32 → laneIn A l → us l ≠ [] ∧ s.laneUnits kind size dst src l = (s, .ok (us l))) → go i kind us
    A ≠ 0 → T.i - (T.c + T.done.length) < 4096 → s.penBad src = false → s.penBad dst = false →
    (alone → go (.cp p sz tl dst src m) .cp (fun l => [own l]) ∧ go (.cpr p sz tl dst src m) (.cpr m.hint.toNat) (fun l => [own l]) ∧
      go (.put p sz tl dst src m) .put (fun l => [own l]) ∧ go (.get p sz tl dst src m) .get (fun l => [own l])) ∧
    many (.cpm p sz tl dst src m) .cpm ∧ many (.gth p sz tl dst src m) .gth ∧ many (.sct p sz tl dst src m) .sct ∧
    ∀ h ref c, dst = .tile h ref c →
      let key := s.chuteFor s.here.paddock s.here.serial s.here.core h.toNat s.here.stage
      let q := s.chuteAt key
      let into := fun l => UnitSide.chute key (c.row s.span l) (c.col s.span l)
      let unit := fun l => State.newUnit (s.sideAt src l) (into l) size
      let mine := ref.sib = 0#1 ∧ q.live = true ∧ q.fromStage = s.here.stage
      (¬mine → A = s.lanes → exec (.cpchute p sz tl dst src m) s = .next (s.raise A 0x07 (fun _ => 0))) ∧
      (mine → (∀ l, l < 32 → laneIn A l → s.checkSides (s.sideAt src l) (into l) size size false [unit l] = (s, .ok [unit l])) →
        ∃ t, exec (.cpchute p sz tl dst src m) s = .next t ∧
        Issued s t (.cpchute key none) tl.toNat m ((lanesOf A).map unit) ∧
        t.chuteAt key = { q with prodWait := q.prodWait ++ [(2 ^ 50 + s.opSeq, 0, 0)] } ∧
        ∀ k, k ≠ key → t.chuteAt k = s.chuteAt k)

/-- 11 R212, 14 R253, 19 R335: launch checks the record's address and is then in flight; LAUNCH_PLACEMENT puts the record that
it has read into the paddock's queue; so does a write of the launch window, with result 0, 1 while the queues are full, 2 for an
address that is no multiple of 64; one that must wait for a line is taken up again. -/
def Obligations.LaunchesArePlaced : Prop :=
  (∀ (s : State) (p tl : BitVec 3) (src : BitVec 7) (m : AMod),
    let A := s.lanes &&& s.span.pr p
    let T := s.here.tlAt tl.toNat
    let l := State.lowest A
    let a := s.span.vr (src.toNat + 1) l ++ s.span.vr src.toNat l
    A ≠ 0 → T.i - (T.c + T.done.length) < 4096 →
    (bits a 63 48 ≠ 0 → exec (.launch p tl src m) s = .next (s.raise A 0x04 (fun _ => a))) ∧
    (bits a 63 48 = 0 → a.toNat % 64 ≠ 0 → exec (.launch p tl src m) s = .next (s.raise A 0x03 (fun _ => a))) ∧
    (s.recordCheck s.here.core s.asid s.privileged a = (s, .ok ()) →
      ∃ t, exec (.launch p tl src m) s = .next t ∧ Issued s t (.launch a false) tl.toNat m [] ∧ t.chute = s.chute)) ∧
  (∀ (s s1 : State) (a : AsyncOp) (addr : Dword) (ds : List Dword) (pa : Nat),
    s.launchReady = some a → a.kind = .launch addr false → a.noBegin = false →
    s.readRecord a.core a.asid a.priv addr.toNat = (s1, .ok ds pa) →
    ∃ t, exec .launchPlacement s = .next t ∧
      Queued s1 t a.id.paddock (if bits (ds.getD 2 0) 63 48 = 0 then a.asid else bits (ds.getD 2 0) 63 48) ds ∧
      t.async = s1.async.map (fun x => if x.uid = a.uid then { x with kind := .launch addr true } else x)) ∧
  ∀ (s : State) (n : Nat) (addr : Dword), (s.pk n).cfg.valid = true →
    let asid := ((s.pk n).cfg.asids.head?.map Prod.fst).getD 0
    let answer := fun (r : Nat) => ∃ t, exec (.launchWindowPlace n addr) s = .next t ∧ t = { s with paddock := t.paddock } ∧
      t.pk n = { s.pk n with placeResult := r } ∧ ∀ k, k ≠ n → t.pk k = s.pk k
    (4096 ≤ (s.pk n).queue.length → answer 1) ∧
    ((s.pk n).queue.length < 4096 → bits addr 63 48 = 0 → addr.toNat % 64 ≠ 0 → answer 2) ∧
    (∀ s1 m, (s.pk n).queue.length < 4096 → s.recordCheck 0 asid false addr = (s1, .wait m) →
      exec (.launchWindowPlace n addr) s = .next { s1 with placing := s1.placing ++ [(n, addr)] }) ∧
    ∀ s1 s2 ds pa, (s.pk n).queue.length < 4096 → s.recordCheck 0 asid false addr = (s1, .ok ()) →
      s1.readRecord 0 asid false addr.toNat = (s2, .ok ds pa) →
      ∃ t, exec (.launchWindowPlace n addr) s = .next t ∧ (t.pk n).placeResult = 0 ∧
        Queued s2 t n (if bits (ds.getD 2 0) 63 48 = 0 then asid else bits (ds.getD 2 0) 63 48) ds

/-- 11 R205, R207, R212: a unit whose source can be read and whose destination can be written lands: its bytes are at their destination,
the operation keeps it as landed while another unit is pending, and is over with its last one. The engine that waits first on a chute with a free slot claims the slot, and its rows are the slot's. -/
def Obligations.AsyncUnitsLand : Prop :=
  (∀ (s : State) (n u v : Nat) (a : AsyncOp) (x : AUnit),
    s.asyncAt n = some a → a.suspended = false → a.noBegin = false → a.units[u]? = some x → x.st = .pending → x.sent = none →
    x.row = false → x.size ∈ [4, 8, 16] → (∀ key, a.kind ≠ .cpchute key none) → (∀ k, a.kind ≠ .cpr k) → s.landWhole a x = none →
    laneIn s.carriage (u % 32) = false → UnitReads s a x.size x.src v → UnitWrites s a x.size x.dst →
    let us := a.units.modify u (fun y => { y with st := .landed, sent := none })
    ∃ t, exec (.asyncUnitLand n u) s = .next t ∧
      (∀ addr y, x.dst = .mem addr → OpReach s a addr x.size .write y → ∀ j, j < x.size →
        lineByte (t.lineView (y.pa / 128)) (y.pa % 128 + j) = BitVec.ofNat 8 (v / 256 ^ j)) ∧
      (∀ g i h r c sib place e, x.dst = .tile g i h r c sib → s.tileNow g i h sib = .ok place e → ∀ j, j < x.size →
        t.placeByte place (eOff e r c + j) = BitVec.ofNat 8 (v / 256 ^ j)) ∧
      (∀ key r c, x.dst = .chute key r c → ∀ j, j < x.size →
        t.placeByte (chutePlace key) (eOff (chuteEntry (s.chuteAt key)) r c + j) = BitVec.ofNat 8 (v / 256 ^ j)) ∧
      ((∃ y ∈ us, y.st = .pending) → (t.asyncAt n).map (·.units) = some us) ∧
      ((∀ y ∈ us, y.st ≠ .pending) → t.asyncAt n = none)) ∧
  ∀ (s : State) (key : Nat) (c : Chute), s.engineClaim = some (key, c) → s.chuteAt key = c →
    let bit : BitVec 64 := BitVec.twoPow 64 c.wptr.toNat
    ∃ t, exec .cpchuteClaim s = .next t ∧ t = { s with chute := t.chute, async := t.async } ∧
      t.chuteAt key = { c with
        claimed := c.claimed ||| bit, engine := c.engine ||| bit
        wptr := BitVec.ofNat 6 ((c.wptr.toNat + 1) % (c.slotsM1.toNat + 1)), prodWait := c.prodWait.tail } ∧
      (∀ k, k ≠ key → t.chuteAt k = s.chuteAt k) ∧
      ∀ a ∈ t.async, a.uid = (c.prodWait.headD (0, 0, 0)).1 - 2 ^ 50 → a.kind = .cpchute key (some c.wptr.toNat) ∧
        ∀ y ∈ a.units, ∀ k r col, y.dst = .chute k r col → r = c.wptr.toNat

/-! ## Class 5: waits and queues -/

/-- 14 R259, 03 R54: a barrier instruction holds the threads of its issue set, and counts its arrival; once every party has
arrived or has ended, every thread held at it goes on after its word, and the generation has risen. bar.launch in a staged launch
or one without the grid-barrier flag is code 02. -/
def Obligations.Barriers : Prop :=
  ∀ (s : State), Canonical s → s.here.res = .resident → s.lanes ≠ 0 → s.launchHere.key = s.here.launchKey →
    let l := s.launchHere
    let party := fun (k : BarKind) (e : Nat × Wg) => match k with
      | .wg => e.1 = s.focus.g
      | .pen => e.2.launchKey = s.here.launchKey ∧ e.2.stage = s.here.stage ∧ e.2.pen l = s.here.pen l ∧ e.2.res ≠ .none
      | .launch => e.2.launchKey = s.here.launchKey ∧ e.2.res ≠ .none
    let stands := fun (k : BarKind) (e : Nat × Wg) => e.2.res = .ended ∨ ((e.2.res = .resident ∨ e.2.res = .parked) ∧
      ∀ n, n < e.2.nspans → ∀ i, i < 32 →
        let la := (e.2.spanAt n).laneAt i
        la.ended = true ∨
          (la.level = 0 ∧ (la.hold = .barrier k ∨ (e.1 = s.focus.g ∧ n = s.focus.sp ∧ laneIn s.lanes i))))
    let full := fun (k : BarKind) => (∀ e ∈ s.wg, party k e → stands k e) ∧ (k = .launch →
      (s.wg.filter (fun e => e.2.launchKey == s.here.launchKey && e.2.res != .none && e.2.res != .ended)).length + l.ended = l.total)
    let gen := fun (t : State) (k : BarKind) => match k with
      | .wg => t.here.wgGen
      | .pen => Store.get 0 t.launchHere.penGen (s.here.pen l)
      | .launch => t.launchHere.launchGen
    let go := fun (i : Instr) (k : BarKind) => ∃ t, exec i s = .next t ∧ t.here.progBar = s.here.progBar + 1 ∧
      t.span = { s.span with lane := t.span.lane, clauses := t.span.clauses, wait := t.span.wait } ∧ (∀ a, t.byte a = s.byte a) ∧
      (¬full k → gen t k = gen s k ∧ t = { s with wg := t.wg } ∧ t.span.wait = .barrier k ∧
        (∀ n, n < 32 → t.span.laneAt n = if laneIn s.lanes n then { s.span.laneAt n with hold := .barrier k } else s.span.laneAt n) ∧
        ∀ c, s.span.clauseOf s.lanes = some c → t.span.clauseOf s.lanes = some { c with waiting := true }) ∧
      (full k → gen t k = gen s k + 1 ∧
        (∀ n, n < 32 → t.span.laneAt n = if laneIn s.lanes n ∨ (s.span.laneAt n).hold = .barrier k
          then { s.span.laneAt n with hold := .free } else s.span.laneAt n) ∧
        ∀ c, s.span.clauseOf s.lanes = some c →
          t.span.clauseOf s.lanes = some { c with pos := c.pos + 1, waiting := false })
    go .barWg .wg ∧ go .barPen .pen ∧
    (l.staged = false → l.gridBar = true → go .barLaunch .launch) ∧
    (l.staged = true ∨ l.gridBar = false → Faults (exec .barLaunch s) s 0x02 0)

/-- 16 R289, R290, R292: tlwait on complete operations without a mark that it covers, with a covered launch outcome, with a covered
error, and on operations that are not complete; the four views of tlread; wcread, wcwait, and code 06 for a region not held, or freed
while the instruction waited. 14 R251: an instruction that waits keeps the operand that it has read. -/
def Obligations.TimelinesAndWindowCounters : Prop :=
  ∀ (s : State) (n : BitVec 3) (b : SOp) (d : BitVec 6) (kind : BitVec 1) (r : BitVec 5),
    let T := s.here.tlAt n.toNat
    let k := (s.argOr (s.span.opB b)).toNat
    let kept := fun (t : State) (T' : Timeline) => HereRetired s t { s.here with tl := t.here.tl } ∧
      ∀ m, t.here.tlAt m = if m = n.toNat then T' else s.here.tlAt m
    (k ≤ T.c → (∀ m, T.mark = some m → k < m.op) → ∃ t, exec (.tlwait n b) s = .next t ∧ kept t T) ∧
    (∀ m, k ≤ T.c → T.mark = some m → m.op ≤ k → m.code = 0xFF#8 → T.errors = [] →
      ∃ t, exec (.tlwait n b) s = .next t ∧ kept t { T with mark := none }) ∧
    (∀ m, k ≤ T.c → T.mark = some m → m.op ≤ k → m.code ≠ 0xFF#8 → T.errors = [] →
      ∃ u : State, exec (.tlwait n b) s = .next (u.dropArg.raiseAll m.code m.addr) ∧ u = { s with wg := u.wg } ∧
        (∀ g, g ≠ s.focus.g → u.wgAt g = s.wgAt g) ∧ u.here = { s.here with tl := u.here.tl } ∧
        ∀ i, u.here.tlAt i = if i = n.toNat then { T with mark := none } else s.here.tlAt i) ∧
    (T.c < k → Waits (exec (.tlwait n b) s) s (.timeline n.toNat k) (BitVec.ofNat 64 k)) ∧
    ScalarResult (exec (.tlread d n 0) s) s d (BitVec.ofNat 64 T.c) ∧
    ScalarResult (exec (.tlread d n 1) s) s d (BitVec.ofNat 64 T.i) ∧
    (∀ m, T.mark = some m →
      ScalarResult (exec (.tlread d n 2) s) s d (BitVec.ofNat 64 (2 ^ 63 + m.code.toNat * 2 ^ 48 + m.op % 2 ^ 48)) ∧
      ScalarResult (exec (.tlread d n 3) s) s d m.addr) ∧
    (T.mark = none → ScalarResult (exec (.tlread d n 2) s) s d 0 ∧ ScalarResult (exec (.tlread d n 3) s) s d 0) ∧
    (s.staleHere = true → Faults (exec (.wcwait kind r b) s) s.dropArg 0x06 0) ∧
    (s.windowOf s.here.paddock s.here.serial r.toNat = none →
      Faults (exec (.wcwait kind r b) s) s.dropArg 0x06 0 ∧ Faults (exec (.wcread d r kind) s) s 0x06 0) ∧
    ∀ i w, s.windowOf s.here.paddock s.here.serial r.toNat = some (i, w) →
      let c := if kind = 1#1 then w.acked else w.landed
      ScalarResult (exec (.wcread d r kind) s) s d c ∧
      (s.staleHere = false → k ≤ c.toNat → ∃ t, exec (.wcwait kind r b) s = .next t ∧ Retired s t s.span) ∧
      (s.staleHere = false → c.toNat < k → Waits (exec (.wcwait kind r b) s) s (.window r.toNat k) (BitVec.ofNat 64 k))

/-- 14 R255, R260: a chute instruction acts on the one chute of its launch on its core and the handle of which its stage is the producer or
the consumer. 14 R260: claim and wait of an issue set that nobody precedes give the next slot in ring order; pub of a filling slot and rel of
a slot in use set and clear the full bits of its row; else code 07, and the chute is as it was. -/
def Obligations.Chutes : Prop :=
  ∀ (s : State) (d h : BitVec 6) (b : SOp),
    let key := s.chuteHere h
    let keyOf := chuteKey s.here.paddock s.here.serial s.here.core h.toNat
    let ours := fun (c : Chute) => c.live = true ∧ (c.fromStage = s.here.stage ∨ c.toStage = s.here.stage)
    let c := s.chuteAt key
    let k := (s.span.opB b).toNat
    let row := ((c.colsM1 + 1) * c.width + 15) / 16
    let bit := fun (n : Nat) => BitVec.twoPow 64 n
    let nextOf := fun (x : BitVec 6) => BitVec.ofNat 6 ((x.toNat + 1) % (c.slotsM1.toNat + 1))
    let first := fun (q : List (Nat × Nat × Nat)) => q = [] ∨ q.head? = some (s.focus.g, s.focus.sp, s.lanes.toNat)
    let filled := fun (m : Store Granule) (f : Bool) => ∀ i, Store.get Granule.empty m i =
      if k * row ≤ i ∧ i < (k + 1) * row then { Store.get Granule.empty c.granule i with full := f } else Store.get Granule.empty c.granule i
    (∀ st, st < 8 → (∀ x, x < 8 → (ours (s.chuteAt (keyOf x)) ↔ x = st)) → key = keyOf st) ∧
    (c.live = false ∨ c.fromStage ≠ s.here.stage → Faults (exec (.chqClaim d h) s) s 0x07 0 ∧ Faults (exec (.chqPub h b) s) s 0x07 0) ∧
    (c.live = false ∨ c.toStage ≠ s.here.stage → Faults (exec (.chqWait d h) s) s 0x07 0 ∧ Faults (exec (.chqRel h b) s) s 0x07 0) ∧
    (c.slotsM1.toNat < k ∨ c.claimed.getLsbD k = false ∨ c.full.getLsbD k ∨ c.engine.getLsbD k →
      Faults (exec (.chqPub h b) s) s 0x07 0) ∧
    (c.slotsM1.toNat < k ∨ c.taken.getLsbD k = false → Faults (exec (.chqRel h b) s) s 0x07 0) ∧
    (c.live = true → c.fromStage = s.here.stage →
      (s.lanes ≠ 0 → first c.prodWait → c.claimed.getLsbD c.wptr.toNat = false → ∃ t, exec (.chqClaim d h) s = .next t ∧
        ScalarIs s t d (c.wptr.setWidth 64) ∧ ChuteDone s t key { c with
          claimed := c.claimed ||| bit c.wptr.toNat, engine := c.engine &&& ~~~(bit c.wptr.toNat), wptr := nextOf c.wptr
          prodWait := c.prodWait.tail } { s.span with s := t.span.s }) ∧
      (k ≤ c.slotsM1.toNat → c.claimed.getLsbD k = true → c.full.getLsbD k = false → c.engine.getLsbD k = false →
        ∃ t, exec (.chqPub h b) s = .next t ∧ filled (t.chuteAt key).granule true ∧
          ChuteDone s t key { c with full := c.full ||| bit k, granule := (t.chuteAt key).granule } s.span)) ∧
    (c.live = true → c.toStage = s.here.stage →
      (s.lanes ≠ 0 → first c.consWait → c.full.getLsbD c.rptr.toNat = true → c.taken.getLsbD c.rptr.toNat = false →
        ∃ t, exec (.chqWait d h) s = .next t ∧ ScalarIs s t d (c.rptr.setWidth 64) ∧ ChuteDone s t key { c with
          taken := c.taken ||| bit c.rptr.toNat, rptr := nextOf c.rptr, consWait := c.consWait.tail } { s.span with s := t.span.s }) ∧
      (k ≤ c.slotsM1.toNat → c.taken.getLsbD k = true → ∃ t, exec (.chqRel h b) s = .next t ∧
        filled (t.chuteAt key).granule false ∧ ChuteDone s t key { c with
          taken := c.taken &&& ~~~(bit k), full := c.full &&& ~~~(bit k), claimed := c.claimed &&& ~~~(bit k)
          engine := c.engine &&& ~~~(bit k), granule := (t.chuteAt key).granule } s.span))

/-- 14 R262, R264, R265, for words of this device: waitq gives 0 when the word differs, 2 when the waiter table is full, 1 after a wake;
else its node stands last in the word's queue. wake releases the first nodes and gives their number. mon arms the span's monitor on the line
of its address, or is code 09 where that cannot be reached; mwait gives 0 with no monitor or with a timeout of 0, 1 with a triggered one. -/
def Obligations.WaitersAndMonitors : Prop :=
  ∀ (s : State) (d a : BitVec 6) (b : SOp),
    let addr := s.span.sr a
    let x := (s.span.opB b).toNat % 2 ^ 32
    let job := if (s.pk s.here.paddock).cfg.job = 0 then 65536 + s.here.paddock else (s.pk s.here.paddock).cfg.job.toNat
    let me := State.corePtr s.here.core
    s.waiterAnswer = none →
    (∀ (s1 : State) (pa : Nat), s.span.node = none → s.waiterWord addr = (s, .ok pa) → isPod (pa / 128) = false →
      s.loadHome me (pa / 128) (some s.here.paddock) = .ok s1 → (s1.dirAt (pa / 128)).state ≠ .P →
      let key := pa * 2 ^ 17 + job
      let counted := { s1.here with progWaiter := s1.here.progWaiter + 1 }
      let mine := (s1.waitq.filter (fun q => q.paddock == s.here.paddock)).length
      let gives := fun (v : Dword) => ∃ t, exec (.waitq d a b) s = .next t ∧ ScalarIs s1 t d v ∧
        HereMoved s1 t counted { s1.span with s := t.span.s }
      (s1.viewBytes pa 4 ≠ x → gives 0) ∧
      (s1.viewBytes pa 4 = x → s1.queueAt key = none → 1024 ≤ mine → gives 2) ∧
      (s1.viewBytes pa 4 = x → s1.queueAt key = none → mine < 1024 → ∃ t, exec (.waitq d a b) s = .next t ∧
        t.waitq = s1.waitq ++ [⟨key, pa, job, s.here.paddock, [(s.focus.g, s.focus.sp)]⟩] ∧
        t.span.node = some ⟨key, s.lanes, false⟩ ∧ t.span.wait = .waiter key ∧ t = { s1 with wg := t.wg, waitq := t.waitq }) ∧
      (s1.viewBytes pa 4 = x → s1.queueAt key ≠ none → ∃ t, exec (.waitq d a b) s = .next t ∧
        t.waitq = s1.waitq.map (fun q => if q.key = key then { q with nodes := q.nodes ++ [(s.focus.g, s.focus.sp)] } else q) ∧
        t.span.node = some ⟨key, s.lanes, false⟩ ∧ t.span.wait = .waiter key ∧ t = { s1 with wg := t.wg, waitq := t.waitq })) ∧
    (∀ n, s.span.node = some n → n.lanes &&& s.lanes ≠ 0 → n.released = true → ∃ t, exec (.waitq d a b) s = .next t ∧
      ScalarIs s t d 1 ∧ HereMoved s t { s.here with progWaiter := s.here.progWaiter + 1 } { s.span with s := t.span.s, node := none }) ∧
    (∀ pa, s.waiterWord addr = (s, .ok pa) → isPod (pa / 128) = false →
      let key := pa * 2 ^ 17 + job
      let nodes := ((s.queueAt key).map (·.nodes)).getD []
      let k := min x nodes.length
      (∀ e ∈ nodes, State.nodePeer e = none) →
      ∃ t, exec (.wake d a b) s = .next t ∧ ScalarIs s t d (BitVec.ofNat 64 k) ∧
        t = { s with wg := t.wg, waitq := t.waitq, lamport := t.lamport } ∧
        t.here.progWaiter = s.here.progWaiter + BitVec.ofNat 32 k ∧
        t.waitq = (s.waitq.map (fun q => if q.key = key then { q with nodes := q.nodes.drop k } else q)).filter (fun q => q.nodes ≠ []) ∧
        (∀ e ∈ nodes.take k, (s.wgAt e.1).res ≠ .none →
          (t.spanAt e.1 e.2).node = (s.spanAt e.1 e.2).node.map (fun n => { n with released := true })) ∧
        ∀ g n, (g, n) ∉ nodes.take k → (t.spanAt g n).node = (s.spanAt g n).node) ∧
    (∀ y w, s.checkAddr s.here.core s.here.paddock s.asid addr 1 1 .read s.privileged false = (s, .ok (.phys y w)) →
      (s.unreachable y.pa = false → ∃ t, exec (.mon a) s = .next t ∧ Retired s t { s.span with mon := some ⟨y.pa / 128, false⟩ }) ∧
      (s.unreachable y.pa = true →
        exec (.mon a) s = .next ((s.errLine addr (y.pa / 128) 9 (State.downKind y.pa)).raiseAll 0x09 addr))) ∧
    (s.span.mon = none → ScalarResult (exec (.mwait d b) s) s d 0) ∧
    (∀ l, s.span.mon = some ⟨l, true⟩ → ∃ t, exec (.mwait d b) s = .next t ∧ ScalarIs s t d 1 ∧
      Retired s t { s.span with s := t.span.s, mon := none }) ∧
    (∀ l, s.span.mon = some ⟨l, false⟩ → let t0 := s.argOr (s.span.opB b)
      (t0 = 0 → ScalarResult (exec (.mwait d b) s) s d 0) ∧ (t0 ≠ 0 → Waits (exec (.mwait d b) s) s .mwait t0))

/-! ## Class 6 -/

/-- 15 R270, R271, 03 R49: talloc of a legal descriptor on an unbound handle: code 0D beyond the stage's level-0 maximum, s[d] 1 with no
room at level 1, or at level 2 in the pool's share of the die (10 R174), else s[d] 0, and the entry is the descriptor with its allocated bit, every granule empty; code 07 for a bound
handle or a descriptor that is not legal. tfree unbinds a handle, and operations lose the sides that name it; it waits while a tile access
of another issue set of the span waits; tquery gives the descriptor, or 0. -/
def Obligations.TileTable : Prop :=
  ∀ (s : State) (d h b : BitVec 6),
    let x := s.span.sr b
    let w := s.here
    let l := s.launchHere
    let level := bits x 63 62
    let bytes := (bits x 58 47 + 1) * (((bits x 46 35 + 1) * 2 ^ bits x 61 59 + 15) / 16 * 16)
    let e := w.entryOf h.toNat
    let legal := bits x 34 0 = 0 ∧ level < 3 ∧ bits x 61 59 ≤ 4
    let tooBig := level = 0 ∧ l.level0 w.stage < State.level0Used w + bytes
    let short := (level = 1 ∧ ∃ c ∈ s.penCores w, s.tileFree c < l.stripe bytes) ∨
      (level = 2 ∧ s.pool2FreeOn w.paddock (State.dieOf w.core) < (bytes + 127) / 128)
    (¬legal ∨ e.getLsbD 0 = true → Faults (exec (.talloc d h b) s) s 0x07 0) ∧
    (legal → e.getLsbD 0 = false → tooBig → Faults (exec (.talloc d h b) s) s 0x0D 0) ∧
    (legal → e.getLsbD 0 = false → ¬tooBig → short → ScalarResult (exec (.talloc d h b) s) s d 1) ∧
    (legal → e.getLsbD 0 = false → ¬tooBig → ¬short → ∃ t, exec (.talloc d h b) s = .next t ∧ ScalarIs s t d 0 ∧
      HereMoved { s with bindings := s.bindings + 1 } t { w with handle := t.here.handle, granule := t.here.granule }
        { s.span with s := t.span.s } ∧
      (t.here.entryOf h.toNat).setWidth 64 = x ||| 1 ∧ (∀ n, n ≠ h.toNat → t.here.entryOf n = w.entryOf n) ∧
      ∀ n i, i < 2 ^ 24 → t.here.granuleAt n i = if n = h.toNat then Granule.empty else w.granuleAt n i) ∧
    (e.getLsbD 0 = false ∨ e.getLsbD 2 = true → Faults (exec (.tfree h) s) s 0x07 0) ∧
    (e.getLsbD 0 = true → e.getLsbD 2 = false → (∃ x ∈ s.span.tileWait, x.own ≠ s.lanes) → exec (.tfree h) s = .next s) ∧
    (e.getLsbD 0 = true → e.getLsbD 2 = false → (∀ x ∈ s.span.tileWait, x.own = s.lanes) →
      ∃ t, exec (.tfree h) s = .next t ∧
      HereRetired { s with async := t.async } t { w with handle := t.here.handle, granule := t.here.granule } ∧
      (∀ n, t.here.entryOf n = if n = h.toNat then 0 else w.entryOf n) ∧
      (∀ n i, i < 2 ^ 24 → t.here.granuleAt n i = if n = h.toNat then Granule.empty else w.granuleAt n i) ∧
      t.async.map (fun a => { a with units := [] }) = s.async.map (fun a => { a with units := [] }) ∧
      ∀ a ∈ t.async, ∀ u ∈ a.units, ∀ g i r c sib, u.src = .tile g i h.toNat r c sib ∨ u.dst = .tile g i h.toNat r c sib →
        g ≠ s.focus.g ∨ g = State.noWg) ∧
    ScalarResult (exec (.tquery d h) s) s d (if e.getLsbD 0 then e.setWidth 64 else 0)

/-- 15 R277, R278, R274: winreg checks its words, its base and its alignment, and enters a window with both counts zero in the first
free entry: 0, or 1 for a region held and 2 for a full table; winfree frees the entry: 0, or 1 with none, and the
clauses of the launch that wait on the region learn it (16 R292). rankq gives scope, pod,
group and slot of a rank, and scope 3 alone for what names none. 15 R273, R275: a rank of a paddock with a job resolves by the first of: a cached resolution of the die, an exception entry, a
range entry with the pod's group and slot maps; in a paddock without a job nothing resolves. -/
def Obligations.WindowsAndRanks : Prop :=
  (∀ (s : State) (d a b : BitVec 6) (c : SOp),
     let base := s.span.sr a
     let x := s.span.sr b
     let n := s.here.paddock
     let size := bits x 47 8 * 256
     let held := s.windowOf n s.here.serial (bits x 4 0)
     let r := exec (.winreg d a b) s
     let entry := fun (i : Nat) => Store.get Window.none (s.pk n).window i
     let set := fun (res : Res) (i : Nat) (w : Window) => ∃ t, res = .next t ∧ ScalarIs s t d 0 ∧
       HereMoved { s with paddock := t.paddock } t s.here { s.span with s := t.span.s } ∧
       t.pk n = { s.pk n with window := (t.pk n).window } ∧ (∀ k, k ≠ n → t.pk k = s.pk k) ∧
       ∀ j, Store.get Window.none (t.pk n).window j = if j = i then w else entry j
     let bad := bits x 63 48 ≠ 0 ∨ bits x 7 5 ≠ 0 ∨ size = 0 ∨ 2 ^ 36 < size
     (bad → Faults r s 0x02 0) ∧ (¬bad → bits base 63 48 ≠ 0 → Faults r s 0x04 base) ∧
     (¬bad → bits base 63 48 = 0 → base.toNat % 256 ≠ 0 → Faults r s 0x03 base) ∧
     (¬bad → bits base 63 48 = 0 → base.toNat % 256 = 0 →
       (held ≠ none → ScalarResult r s d 1) ∧
       (held = none → (∀ i, i < 1024 → (entry i).valid = true) → ScalarResult r s d 2) ∧
       ∀ i, held = none → i < 1024 → (entry i).valid = false → (∀ j, j < i → (entry j).valid = true) →
         set r i { valid := true, serial := s.here.serial, region := BitVec.ofNat 5 (bits x 4 0), base := base, size := size,
                   landed := 0, acked := 0, key := 0, oldKey := none }) ∧
     (let k := (s.span.opB c).toNat
      (31 < k ∨ s.windowOf n s.here.serial k = none → ScalarResult (exec (.winfree d c) s) s d 1) ∧
      ∀ i w, k ≤ 31 → s.windowOf n s.here.serial k = some (i, w) → Canonical s →
        let stale := fun (q : Span) => { q with clauses := q.clauses.map (fun x => if waitsWindow x k then { x with stale := some x.pos } else x) }
        ∃ t, exec (.winfree d c) s = .next t ∧ t = { s with wg := t.wg, paddock := t.paddock } ∧ ScalarIs s t d 0 ∧
          t.pk n = { s.pk n with window := (t.pk n).window } ∧ (∀ m, m ≠ n → t.pk m = s.pk m) ∧
          (∀ j, Store.get Window.none (t.pk n).window j = if j = i then Window.none else entry j) ∧
          (∀ g, t.wgAt g = { s.wgAt g with span := (t.wgAt g).span }) ∧
          t.span = Span.movedOn { stale s.span with s := t.span.s } s.lanes s.focus.next ∧
          ∀ g m, (g ≠ s.focus.g ∨ m ≠ s.focus.sp) → t.spanAt g m = if (s.wgAt g).launchKey = s.here.launchKey then stale (s.spanAt g m) else s.spanAt g m) ∧
     (let q := s.resolve s.here.core n (bits base 21 0)
      (bits base 63 22 ≠ 0 → ScalarResult (exec (.rankq d a) s) s d (3#2 ++ 0#62)) ∧
      (bits base 63 22 = 0 → q.2 = none → ScalarResult (exec (.rankq d a) s) q.1 d (3#2 ++ 0#62)) ∧
      ∀ p, bits base 63 22 = 0 → q.2 = some p → p.pod < 4096 → p.group < 32 → p.slot < 32 →
        ScalarResult (exec (.rankq d a) s) q.1 d (BitVec.ofNat 64
          ((if p.pod ≠ s.podId then 2 else if p.group = s.groupId ∧ p.slot = s.slotId then 0 else 1) * 2 ^ 62 +
            p.pod * 2 ^ 50 + p.group * 2 ^ 45 + p.slot * 2 ^ 40)))) ∧
  (∀ (s : State) (core n r : Nat),
     let p := s.pk n
     let gone := fun (e : BitVec 64) => ¬(e.getLsbD 63 = true ∧ bits e 21 0 = r)
     let answer := (s.resolve core n r).2
     let c := Store.get 0 p.rankCache (2 ^ 22 * State.dieOf core + r)
     (p.cfg.job = 0 → s.resolve core n r = (s, none)) ∧
     (p.cfg.job ≠ 0 → c.getLsbD 63 = true → s.resolve core n r = (s, some ⟨bits c 21 10, bits c 9 5, bits c 4 0⟩)) ∧
     (p.cfg.job ≠ 0 → (∀ k, Store.get 0 p.rankCache k = 0) →
       (∀ i e, p.rankExc = [(i, e)] → e.getLsbD 63 = true → bits e 21 0 = r →
         answer = some ⟨bits e 33 22, bits e 38 34, bits e 43 39⟩) ∧
       ∀ i e, (∀ x ∈ p.rankExc, gone x.2) → p.rankRange = [(i, e)] → e.getLsbD 127 = true → bits e 21 0 ≤ r →
         (r < bits e 21 0 + bits e 44 22 →
           let rpp := bits e 66 57 + 1
           let pod := bits e 56 45 + (r - bits e 21 0) / rpp
           let k := (r - bits e 21 0) % rpp
           let m := Store.get 0 p.rankMap pod
           answer = some ⟨pod, bits m (5 * (k / 32) + 4) (5 * (k / 32)), bits m (160 + 5 * (k % 32) + 4) (160 + 5 * (k % 32))⟩) ∧
         (bits e 21 0 + bits e 44 22 ≤ r → s.resolve core n r = (s, none))))

/-- 16 R298, 05 R78, R79, 17 R314: sprd of each system register; spwr of a legal modulus sets %mq and its Barrett constant, of %tpc in a
handler sets every lane's; code 02 for a modulus that is not legal and for a reserved number, 06 for a register that may not be
written. evt makes a record of its type with the scalar's value. -/
def Obligations.SystemRegisters : Prop :=
  ∀ (s : State) (d a n : BitVec 6),
    let w := s.here
    let la := s.span.laneAt (State.lowest s.lanes)
    let x := s.span.sr a
    let read := fun (k : BitVec 12) (v : Dword) => ScalarResult (exec (.sprd d k) s) s d v
    let nat := fun (k : BitVec 12) (v : Nat) => read k (BitVec.ofNat 64 v)
    let odd := x.toNat % 2 = 1 ∧ 3 ≤ x.toNat ∧ x.toNat < 2 ^ 62
    (nat 0x00 (State.lowest s.lanes) ∧ nat 0x01 s.focus.sp ∧ nat 0x02 w.wx ∧ nat 0x03 w.wy ∧ nat 0x04 w.wz ∧ nat 0x05 (w.core % 64) ∧
      nat 0x06 (w.core / 64) ∧ nat 0x07 s.launchHere.orgX ∧ nat 0x08 s.launchHere.orgY ∧ nat 0x09 s.launchHere.pw ∧
      nat 0x0A s.launchHere.ph ∧ nat 0x0B w.stage ∧ nat 0x0C w.paddock) ∧
    (read 0x10 s.cycle ∧ read 0x11 (s.dieTime (State.dieOf w.core) - (s.pk w.paddock).cfg.traceEpoch) ∧ read 0x20 s.span.mq ∧
      read 0x21 s.span.mqr ∧ read 0x30 (s.span.tmask.setWidth 64) ∧ read 0x31 (la.tcode.setWidth 64) ∧ read 0x32 la.tpc ∧
      read 0x33 la.tvaddr) ∧
    (∀ k : BitVec 12, k.toNat ∉ [0x00, 0x01, 0x02, 0x03, 0x04, 0x05, 0x06, 0x07, 0x08, 0x09, 0x0A, 0x0B, 0x0C, 0x10, 0x11, 0x20, 0x21,
      0x30, 0x31, 0x32, 0x33] → Faults (exec (.sprd d k) s) s 0x02 0 ∧ Faults (exec (.spwr a k) s) s 0x02 0) ∧
    (∀ k : BitVec 12, k.toNat ∈ [0x00, 0x01, 0x02, 0x03, 0x04, 0x05, 0x06, 0x07, 0x08, 0x09, 0x0A, 0x0B, 0x0C, 0x10, 0x11, 0x21, 0x30,
      0x31, 0x33] → Faults (exec (.spwr a k) s) s 0x06 0) ∧
    (¬odd → Faults (exec (.spwr a 0x20) s) s 0x02 0) ∧
    (odd → ∃ t, exec (.spwr a 0x20) s = .next t ∧ Retired s t { s.span with mq := x, mqr := t.span.mqr } ∧
      ∀ k, 2 ^ k ≤ x.toNat → x.toNat < 2 ^ (k + 1) → t.span.mqr.toNat = 2 ^ (k + 1 + 63) / x.toNat) ∧
    (la.level = 0 → Faults (exec (.spwr a 0x32) s) s 0x06 0) ∧
    (la.level ≠ 0 → ∃ t, exec (.spwr a 0x32) s = .next t ∧ Retired s t { s.span with lane := t.span.lane } ∧
      ∀ l, l < 32 → t.span.laneAt l = if laneIn s.lanes l then { s.span.laneAt l with tpc := x } else s.span.laneAt l) ∧
    ∃ t, exec (.evt a n) s = .next t ∧ Retired (s.traced t) t s.span ∧
      Recorded s t (0xC0 + n.toNat) 0 w.core x
        (BitVec.ofNat 26 w.lin ++ BitVec.ofNat 3 w.stage ++ BitVec.ofNat 3 s.focus.sp ++ s.lanes)

/-- 15 R272, 04 R71: tlbinv outside the privileged handler is code 06; in it, every cached translation that its kind names goes, and
the L1 lines under such a tag, a dirty one written back first; with no such line nothing else changes. tlbinv.rank takes the cached
resolutions of a rank, .rankall those of the issuing paddock with its hot destinations. Which L1 lines a page without a cached translation
has is the model's choice (log 28). -/
def Obligations.TranslationInvalidation : Prop :=
  ∀ (s : State) (a : BitVec 6) (b : SOp),
    let asid := bits (s.span.sr a) 15 0
    let va := bits (s.span.opB b) 47 0
    let n := s.here.paddock
    let r := bits (s.span.sr a) 21 0
    let own := fun (y : Nat) => ∃ e ∈ (s.pk n).cfg.asids, e.1 = y
    let lv := (s.span.laneAt (State.lowest s.lanes)).level
    let go := fun (i : Instr) (f : TcEntry → Prop) (g : L1Tag → Prop) =>
      (lv ≠ 2 → Faults (exec i s) s 0x06 0) ∧
      (lv = 2 → (∀ e ∈ s.cache, ∀ y ∈ e.2.tags, ¬g y) → ∃ t, exec i s = .next t ∧ Retired { s with tc := t.tc } t s.span ∧
        ∀ e, e ∈ t.tc ↔ e ∈ s.tc ∧ ¬f e) ∧
      ∀ core line c, lv = 2 → line < 2 ^ 53 → s.cache = [(State.cacheKey core line, c)] → c.state = .M → (s.dirAt line).state = .X →
        (s.dirAt line).queue = [] → (s.dirAt line).held = [] → (∀ m ∈ s.msgs, m.1.line ≠ line) → (∃ y ∈ c.tags, g y) → ∃ t, exec i s = .next t ∧ (∀ e, e ∈ t.tc ↔ e ∈ s.tc ∧ ¬f e) ∧ t.cache = [] ∧
          t.memLine line = c.data ∧ t.dirAt line = DirEntry.idle ∧ (∀ p, p / 128 ≠ line → t.byte p = s.byte p) ∧
          t.span = s.span.movedOn s.lanes s.focus.next
    let ranks := fun (i : Instr) (hot : List Nat → List Nat) (out : Nat → Nat → Prop) =>
      (lv ≠ 2 → Faults (exec i s) s 0x06 0) ∧
      (lv = 2 → Store.wf Paddock.none s.paddock = true →
        ∃ t, exec i s = .next t ∧ Retired { s with paddock := t.paddock, hotDest := hot s.hotDest } t s.span ∧
        ∀ m, t.pk m = { s.pk m with rankCache := (t.pk m).rankCache } ∧
          ∀ k, (out m k → Store.get 0 (t.pk m).rankCache k = 0) ∧
            (¬out m k → Store.get 0 (t.pk m).rankCache k = Store.get 0 (s.pk m).rankCache k))
    let covers := fun (e : TcEntry) => e.asid = asid ∧ e.vpage = va / 2 ^ e.log2
    go (.tlbinvPage a b) covers (fun y => y.asid = asid ∧ ((∃ e ∈ s.tc, covers e ∧ y.vline / 2 ^ (e.log2 - 7) = va / 2 ^ e.log2) ∨
      ((∀ e ∈ s.tc, ¬covers e) ∧ y.vline / 2 ^ 24 = va / 2 ^ 31))) ∧
    go (.tlbinvAsid a b) (fun e => e.asid = asid) (fun y => y.asid = asid) ∧
    go (.tlbinvPaddock a b) (fun e => own e.asid) (fun y => own y.asid) ∧
    ranks (.tlbinvRank a) id (fun _ k => k % 2 ^ 22 = r) ∧
    ranks (.tlbinvRankall a) (fun x => x.filter (fun y => y / 2 ^ 22 ≠ n)) (fun m _ => m = n)

/-! ## Exceptions -/

/-- 18 R316-R319: a raised exception of a span whose results are written and whose lanes are at the innermost level is taken by the
table of R319: trap in ordinary code and in a handler with the mask clear enters the user handler at level 1; a fault enters the
privileged handler at level 2 with the frame stored and s62 set to it, and stays raised while a line of the frame must be waited for; a
timeout in a handler is kept; an entry that cannot be made kills the workgroup. Every entry and every kill is recorded. 04 R70, R74, 18 R319: a fault on lanes F of the issue set names the instruction's word, with a code and an address of each lane; F
leaves the clause, which stands suspended at that word, and the other lanes go on after it. It is then taken as TRAP_ENTRY does. -/
def Obligations.TakingAnException : Prop :=
  (∀ (s : State) (g n : Nat) (p : PendingTrap),
     let sp := s.spanAt g n
     let lv := (sp.laneAt (State.lowest p.lanes)).level
     let c := State.trapCode p
     let r := exec (.trapEntry g n) s
     let user := (s.launchAt (s.wgAt g).launchKey).handler
     let priv := (s.pk (s.wgAt g).paddock).cfg.handler
     let f := (s.pk (s.wgAt g).paddock).cfg.trapFrame.toNat + 524288 * (s.wgAt g).core + 8192 * (s.wgAt g).entry + 1024 * n
     let gone := s.updSpanAt g n (fun q => { q with traps := [] })
     let kept := fun (t : State) (q : Span) => OnlySpanAt (s.traced t) t g n ∧ t.spanAt g n = q
     let inUser := ∃ t, r = .next t ∧ Entered s t g n p 1 user ∧ EntryRecord s t g n p ∧
       kept t { sp with lane := (t.spanAt g n).lane, tmask := p.lanes, trapMask := true, wait := .none, traps := [] }
     let killed := ∃ u, r = .next (State.killWg u g) ∧ EntryRecord s u g n p ∧ kept u { sp with traps := [] }
     sp.traps = [p] → sp.pending = [] → lv = sp.openLevel →
     (c = 0x10#8 → ∀ x ∈ sp.clauses, x.suspended = true ∨ x.waiting = true ∨ (sp.laneAt (State.lowest x.lanes)).level ≠ sp.openLevel) →
     (c = 0x11#8 → lv = 0 ∨ (lv = 1 ∧ sp.trapMask = false) → user ≠ 0 → inUser) ∧
     (c = 0x10#8 → lv = 0 ∨ (lv = 1 ∧ sp.trapMask = false) → user ≠ 0 → inUser) ∧
     (c = 0x10#8 → lv = 2 ∨ (lv = 1 ∧ sp.trapMask = true) → ∃ t, r = .next t ∧ OnlySpanAt s t g n ∧
       t.spanAt g n = { sp with traps := [], deferred := sp.deferred ++ [p] }) ∧
     (c = 0x11#8 → lv = 1 ∧ sp.trapMask = true → killed) ∧
     (c ≠ 0x10#8 → lv = 2 → killed) ∧
     (c = 0x10#8 ∨ c = 0x11#8 → lv = 0 ∨ (lv = 1 ∧ sp.trapMask = false) → user = 0 → killed) ∧
     (c ≠ 0x10#8 → c ≠ 0x11#8 → lv < 2 → priv = 0 → killed) ∧
     let frame := if lv = 1 then (gone.storeOuter g n f).then' (fun a _ => a.storeFrame g n f) else gone.storeFrame g n f
     (∀ s1, c ≠ 0x10#8 → c ≠ 0x11#8 → lv < 2 → priv ≠ 0 → frame = .bad s1 →
       ∃ u, r = .next (State.killWg u g) ∧ EntryRecord s1 u g n p ∧ u = s1.traced u) ∧
     (∀ s1, c ≠ 0x10#8 → c ≠ 0x11#8 → lv < 2 → priv ≠ 0 → frame = .wait s1 →
       ∃ t, r = .next t ∧ OnlySpanAt s1 t g n ∧ t.spanAt g n = { s1.spanAt g n with traps := p :: (s1.spanAt g n).traps }) ∧
     ∀ s1, c ≠ 0x10#8 → c ≠ 0x11#8 → lv < 2 → priv ≠ 0 → frame = .ok s1 () → s1.spanAt g n = gone.spanAt g n → s1.wgAt g = gone.wgAt g →
       ∃ t, r = .next t ∧ Entered s t g n p 2 priv ∧ EntryRecord s1 t g n p ∧ OnlySpanAt (s1.traced t) t g n ∧
         (∀ k, (t.spanAt g n).sr k = if k = 62#6 then BitVec.ofNat 64 f else sp.sr k) ∧
         t.spanAt g n = { sp with lane := (t.spanAt g n).lane, tmask := p.lanes, trapMask := true, wait := .none, traps := [],
                                  s := (t.spanAt g n).s, nested := decide (lv = 1) }) ∧
  (∀ (s : State) (F : Lanes) (codes : Nat → Byte) (addr : Nat → Dword) (c : Clause) (cs : List Clause),
     s.span.clauses = c :: cs → c.lanes = s.lanes → c.suspended = false → F ≠ 0 → F &&& s.lanes = F →
     ∃ (u : State) (p : PendingTrap), exec (.trapEntry s.focus.g s.focus.sp) u = .next (s.raiseL F codes addr) ∧ OnlySpan s u ∧
       u.span = { s.span with wait := .none, traps := s.span.traps ++ [p]
                              clauses := { c with lanes := F, pos := s.focus.pos, suspended := true, waiting := false } ::
                                (if s.lanes = F then [] else
                                  [{ c with lanes := s.lanes &&& ~~~F, pos := s.focus.next, waiting := false }]) ++ cs } ∧
       p.lanes = F ∧ p.tpc = s.focus.hdrPc + BitVec.ofNat 64 (4 * s.focus.pos) ∧
       ∀ l, l < 32 → laneIn F l → Store.get 0 p.codes l = codes l ∧ Store.get 0 p.tvaddr l = addr l)

/-- 18 R320: the trap frame of a span whose page one cached translation maps, with no line of memory held or in flight: s56-s62 from
its start, p0-p6 from +038; a nested entry's outer %tmask and mask bit at +080, %tcode, %tpc and %tvaddr of each lane from +088, +188
and +288; every other byte is as it was. 18 R324: the end of an activation: at level 1 the mask clears and what was deferred stands ready; at level 2 s56-s62 and p0-p6
are loaded from the frame, and a nested activation takes back the outer %tmask, mask, %tcode, %tpc and %tvaddr, and where it leaves no lane
at level 1 the outer activation has ended with it; a frame that cannot be read kills the workgroup. -/
def Obligations.TrapFrames : Prop :=
  (∀ (s : State) (g n f : Nat) (e : TcEntry),
     let sp := s.spanAt g n
     let pf := s.leafPa e.leaf e.log2 f
     Canonical s → s.cache = [] → s.msgs = [] → s.dir = [] → s.pod = [] → s.late = [] → (∀ i, i < 0x30 → s.ready i = true) →
     s.tc = [e] → e.die = State.dieOf (s.wgAt g).core → e.asid = (s.launchAt (s.wgAt g).launchKey).asid →
     12 ≤ e.log2 → e.log2 ≤ 31 → e.vpage = f / 2 ^ e.log2 → e.leaf.getLsbD 2 = true → e.leaf.getLsbD 8 = true →
     bits e.leaf 59 56 = 0 → f % 1024 = 0 → f < 2 ^ 47 →
     (∃ t, s.storeFrame g n f = .ok t () ∧
       (∀ i, i < 7 → t.bytesAt (pf + 8 * i) 8 = (sp.sr (BitVec.ofNat 6 (56 + i))).toNat) ∧
       (∀ i, i < 7 → t.bytesAt (pf + 0x38 + 4 * i) 4 = (sp.pr (BitVec.ofNat 3 i)).toNat) ∧
       ∀ a, (a < pf ∨ pf + 0x54 ≤ a) → t.byte a = s.byte a) ∧
     ∃ t, s.storeOuter g n f = .ok t () ∧
       t.bytesAt (pf + 0x80) 8 = sp.tmask.toNat + (if sp.trapMask then 2 ^ 32 else 0) ∧
       (∀ l, l < 32 → t.bytesAt (pf + 0x88 + 8 * l) 8 = (sp.laneAt l).tcode.toNat ∧
         t.bytesAt (pf + 0x188 + 8 * l) 8 = (sp.laneAt l).tpc.toNat ∧
         t.bytesAt (pf + 0x288 + 8 * l) 8 = (sp.laneAt l).tvaddr.toNat) ∧
       ∀ a, (a < pf + 0x80 ∨ pf + 0x388 ≤ a) → t.byte a = s.byte a) ∧
  (∀ (s s1 s2 : State) (g n : Nat) (ss ps : List Nat),
     let sp := s.spanAt g n
     let f := (s.pk (s.wgAt g).paddock).cfg.trapFrame.toNat + 524288 * (s.wgAt g).core + 8192 * (s.wgAt g).entry + 1024 * n
     let ready := { sp with trapMask := false, traps := sp.traps ++ sp.deferred, deferred := [] }
     let loaded := fun (q : Span) => (∀ k, q.sr k = if 56 ≤ k.toNat ∧ k.toNat < 63 then BitVec.ofNat 64 (ss.getD (k.toNat - 56) 0) else sp.sr k) ∧
       ∀ k, q.pr k = if k.toNat < 7 then BitVec.ofNat 32 (ps.getD k.toNat 0) else allLanes
     sp.alive ≠ 0 →
     (OnlySpanAt s (s.endActivation g n 1) g n ∧ (s.endActivation g n 1).spanAt g n = ready) ∧
     (State.frameLoad g n 8 s f 7 = .bad s1 → s.endActivation g n 2 = s1.killWg g) ∧
     (State.frameLoad g n 8 s f 7 = .wait s1 → s.endActivation g n 2 = s1) ∧
     (State.frameLoad g n 8 s f 7 = .ok s1 ss → State.frameLoad g n 4 s1 (f + 0x38) 7 = .bad s2 → s.endActivation g n 2 = s2.killWg g) ∧
     (State.frameLoad g n 8 s f 7 = .ok s1 ss → State.frameLoad g n 4 s1 (f + 0x38) 7 = .ok s2 ps → s2.spanAt g n = sp →
       let t := s.endActivation g n 2
       (sp.nested = false → OnlySpanAt s2 t g n ∧ loaded (t.spanAt g n) ∧
         t.spanAt g n = { ready with s := (t.spanAt g n).s, p := (t.spanAt g n).p }) ∧
       (∀ s3, sp.nested = true → State.frameLoad g n 8 s2 (f + 0x80) 97 = .bad s3 → t = s3.killWg g) ∧
       ∀ s3 xs, sp.nested = true → State.frameLoad g n 8 s2 (f + 0x80) 97 = .ok s3 xs → s3.spanAt g n = sp →
         let q := t.spanAt g n
         let x := fun (i : Nat) => xs.getD i 0
         OnlySpanAt s3 t g n ∧ loaded q ∧ q.nested = false ∧ q.tmask = BitVec.ofNat 32 (x 0) ∧
           (q.trapMask = true ↔ sp.atLevel 1 ≠ 0 ∧ x 0 / 2 ^ 32 % 2 = 1) ∧
           (q.traps = if q.trapMask then sp.traps else sp.traps ++ sp.deferred) ∧
           ∀ l, l < 32 → q.laneAt l = { sp.laneAt l with
             tcode := BitVec.ofNat 8 (x (1 + l)), tpc := BitVec.ofNat 64 (x (33 + l)), tvaddr := BitVec.ofNat 64 (x (65 + l)) }))

/-- 18 R321-R324: tret of lanes in a handler puts them a level lower (to level 1 from a nested activation), with a record; a
lane whose fault's clause stands suspended resumes in it, at the faulting word or past that instruction, or after the clause; any
other lane resumes at its %tpc. The activation ends with its last lane. While the frame that it ends with, or a header that it goes past,
must be waited for, it stands at its word. Outside a handler it is code 02. -/
def Obligations.TrapReturn : Prop :=
  ∀ (s : State) (skip : Bool),
    let i : Instr := if skip then .tretSkip else .tretRetry
    let lv := (s.span.laneAt (State.lowest s.lanes)).level
    let up := if s.span.nested = true ∧ lv = 2 then 1 else 0
    let leftBy := fun (u : State) => State.retire (if (u.spanAt s.focus.g s.focus.sp).atLevel lv = 0
      then u.endActivation s.focus.g s.focus.sp lv else u)
    let lanesOf' := fun (u : State) => ∀ l, l < 32 → u.span.laneAt l =
      if laneIn s.lanes l then { s.span.laneAt l with level := up } else s.span.laneAt l
    let goes := fun (u : State) => exec i s = .next (leftBy u) ∧ OnlySpan (s.traced u) u ∧
      u.span = { s.span with lane := u.span.lane, clauses := u.span.clauses } ∧ lanesOf' u ∧
      Recorded s u 0x49 0 s.here.core (State.workWord s.here s.focus.sp)
        (BitVec.ofNat 64 (s.lanes.toNat + (if skip then 2 ^ 32 else 0)))
    let takes := fun (a b : Clause) (f : Nat → Dword) => b = { a with targets := b.targets } ∧
      ∀ l, l < 32 → b.target l = if laneIn s.lanes l then some (f l) else a.target l
    (lv = 0 → Faults (exec i s) s 0x02 0) ∧
    (∀ s1, lv ≠ 0 → s.returnWaits skip = some s1 → exec i s = .next s1) ∧
    (∀ h cs, lv ≠ 0 → s.returnWaits skip = none → s.span.clauses = h :: cs → h.lanes = s.lanes → h.suspended = false →
      (∀ c ∈ cs, c.suspended = true → c.lanes &&& s.lanes = 0) →
      ∃ u h', goes u ∧ u.span.clauses = h' :: cs ∧ takes h h' (fun l => (s.span.laneAt l).tpc)) ∧
    ∀ h c, lv ≠ 0 → s.returnWaits skip = none → s.span.clauses = [c, h] → h.lanes = s.lanes → c.lanes = s.lanes → h.suspended = false → c.suspended = true →
      s.lanes ≠ 0 → h.hdrPc ≠ c.hdrPc → (∀ l, l < 32 → laneIn s.lanes l → (s.span.laneAt l).tpc = c.hdrPc + BitVec.ofNat 64 (4 * c.pos)) →
      let past := fun (a : Dword) => s.afterClause s.focus.g a
      let resumed := fun (p : Nat) => ∃ u h', goes u ∧ takes h h' (fun _ => c.hdrPc) ∧
        u.span.clauses = [h', { c with pos := p, suspended := false, waiting := false }]
      let leaves := fun (a : Dword) => ∃ u h', goes u ∧ takes h h' (fun _ => a) ∧ u.span.clauses = [h']
      (c.pos ≠ 0 → skip = false → resumed c.pos) ∧
      (∀ e, c.pos ≠ 0 → skip = true → extraWords (bits c.hdr 6 4) (c.words.getD (c.pos - 1) 0) = some e →
        (c.pos + 1 + e ≤ bits c.hdr 3 0 → resumed (c.pos + 1 + e)) ∧
        (bits c.hdr 3 0 < c.pos + 1 + e → leaves (past c.hdrPc))) ∧
      (c.pos = 0 → skip = false → leaves c.hdrPc) ∧ (c.pos = 0 → skip = true → leaves (past c.hdrPc))

/-- 18 R323, R325-R327: trap raises code 11; tret.kill kills the workgroup; tmask and tunmask set and clear the mask bit, in a handler
only; brk sets the stop-next flag where a debugger is attached; halt in the privileged handler ends the launch in error and frees it;
the debugger's resume lets a stopped clause go on. -/
def Obligations.TrapInstructions : Prop :=
  (∀ (s : State),
    let lv := (s.span.laneAt (State.lowest s.lanes)).level
    let on := fun (i : Instr) (q : Span) => ∃ t, exec i s = .next t ∧ Retired s t q
    let k := s.here.launchKey
    Faults (exec .trap s) s 0x11 0 ∧
    (lv = 0 → Faults (exec .tretKill s) s 0x02 0 ∧ Faults (exec .tmask s) s 0x06 0 ∧ Faults (exec .tunmask s) s 0x06 0) ∧
    (lv ≠ 0 → (∃ u, exec .tretKill s = .next (State.killWg u s.focus.g) ∧ OnlySpan (s.traced u) u ∧ u.span = s.span ∧
        Recorded s u 0x49 0 s.here.core (State.workWord s.here s.focus.sp) (BitVec.ofNat 64 (s.lanes.toNat + 2 ^ 33))) ∧
      on .tmask { s.span with trapMask := true } ∧
      on .tunmask { s.span with trapMask := false, traps := s.span.traps ++ s.span.deferred, deferred := [] }) ∧
    ((s.pk s.here.paddock).cfg.debugger = true → on .brk { s.span with stopNext := true }) ∧
    ((s.pk s.here.paddock).cfg.debugger = false → on .brk s.span) ∧
    (lv ≠ 2 → Faults (exec .halt s) s 0x06 0) ∧
    (lv = 2 → (s.launchAt k).live = true → (s.launchAt k).admitted = true → ∃ t, exec .halt s = .next t ∧
      (t.launchAt k).live = false ∧ (t.launchAt k).state = 5 ∧ (t.launchAt k).ended = (s.launchAt k).total ∧
      ∀ e ∈ t.wg, ¬(e.2.paddock = (s.launchAt k).paddock ∧ e.2.serial = (s.launchAt k).serial))) ∧
  ∀ (s : State) (q : SpanRef) (c : Clause) (cs : List Clause),
    (s.spanAt q.g q.sp).clauses = c :: cs → c.lanes = q.lanes → c.suspended = false →
    ∃ t, exec (.debuggerResume q) s = .next t ∧ OnlySpanAt s t q.g q.sp ∧
      t.spanAt q.g q.sp = { s.spanAt q.g q.sp with clauses := { c with stopped := false } :: cs }

/-- 03 R38, R59, 14 R252: a workgroup that ends frees its handles and registers and is counted, as killed and the launch in
error where it was killed; a launch all of whose workgroups have ended ends in state 4, or 5 in error, with its windows, chutes and
workgroups freed and a record. 18 R328: one that is being drained is drained, with a record, where none of its workgroups is resident. -/
def Obligations.WorkgroupsAndLaunchesEnd : Prop :=
  (∀ (s : State) (g : Nat) (killed tret : Bool),
    let w := s.wgAt g
    let t := s.endWg g killed tret
    let l := s.launchAt w.launchKey
    (w.res = .ended ∨ w.res = .none → t = s) ∧
    (w.res ≠ .ended → w.res ≠ .none →
      ((t.wgAt g).res = .ended ∧ (t.wgAt g).killed = killed ∧ (t.wgAt g).handle = [] ∧ (t.wgAt g).granule = [] ∧ (t.wgAt g).t = [] ∧
        (t.wgAt g).tl = w.tl) ∧
      ((t.launchAt w.launchKey).ended = l.ended + 1 ∧ (t.launchAt w.launchKey).killed = l.killed + (if killed then 1 else 0) ∧
        (t.launchAt w.launchKey).inError = (l.inError || killed) ∧ (t.launchAt w.launchKey).live = l.live) ∧
      (∀ a, t.byte a = s.byte a) ∧ ∀ h, h ≠ g → (t.wgAt h).res = (s.wgAt h).res)) ∧
  ∀ (s : State) (k : Nat),
    let l := s.launchAt k
    let t := s.launchCheck k
    let rest := ∃ e ∈ s.wg, e.2.launchKey = k ∧ e.2.res = .resident
    (l.live = false → t = s) ∧
    (l.admitted = false ∨ l.ended < l.total → (l.preempt ≠ .draining ∨ rest → t = s) ∧
      (l.live = true → l.preempt = .draining → ¬rest → t.launchAt k = { l with preempt := .drained } ∧
        t = { s.traced t with launch := t.launch } ∧ (∀ j, j ≠ k → t.launchAt j = s.launchAt j) ∧
        Recorded s t 0x53 1 l.home (l.serial.setWidth 64) 1)) ∧
    (l.live = true → l.admitted = true → l.total ≤ l.ended → l.record = [] → l.issuer = none →
      t.launchAt k = { l with live := false, state := if l.inError then 5 else 4 } ∧
      (∀ j, j ≠ k → t.launchAt j = s.launchAt j) ∧
      (∀ e ∈ t.wg, ¬(e.2.paddock = l.paddock ∧ e.2.serial = l.serial)) ∧
      (∀ e ∈ t.chute, e.2.live = true → ¬(e.2.paddock = l.paddock ∧ e.2.serial = l.serial)) ∧
      (∀ e ∈ (t.pk l.paddock).window, e.2.valid = true → e.2.serial ≠ l.serial) ∧
      Recorded s t 0x19 1 l.home (l.serial.setWidth 64)
        (BitVec.ofNat 64 ((if l.inError then 5 else 4) + 256 * l.reason + 65536 * min l.killed 65535)) ∧
      ∀ a, t.byte a = s.byte a)

/-! ## Events of a span -/

/-- 03 R34, 04 R60, R61, R70, R72, 15 R280, 18 R327: a clause issues for an issue set: the idle threads of one pc; its words are
fetched, its wait mask met; the clause then stands open at its first instruction, past a stop site, whose passage is recorded and at
which a comparator or the stop-next flag stops it. A clause of a wrong form is code 01 at its header. 07 R110, R114, R115, 04 R72: a clause past its last word with no uncounted result outstanding leaves issue: each lane goes to the
target it took, or to pc + 4 (N + 1), and a yielded clause's lanes count as the latest to issue; an exiting clause's lanes end. -/
def Obligations.ClausesIssueAndEnd : Prop :=
  ((∀ (sp : Span) (S : Lanes), S ∈ sp.issueSets ↔ ∃ l, l < 32 ∧ laneIn sp.idleLanes l = true ∧
     ∀ m, m < 32 → (laneIn S m = true ↔ laneIn sp.idleLanes m = true ∧ (sp.laneAt m).pc = (sp.laneAt l).pc)) ∧
   (∀ (hdr : Word) (words : List Word),
     bits hdr 31 29 ≠ 5 ∨ bits hdr 6 4 = 7 ∨ bits hdr 3 0 = 0 ∨ (hdr.getLsbD 7 = true ∧ bits hdr 3 0 = 1) ∨
       (∃ i, bits hdr 3 0 < i ∧ i ≤ 15 ∧ hdr.getLsbD (13 + i) = true) → clauseLegal hdr words = false) ∧
   ∀ (s u : State) (q : SpanRef) (hdr : Word) (words : List Word),
     let sp := s.spanAt q.g q.sp
     let pc := (sp.laneAt (State.lowest q.lanes)).pc
     let s0 := { s with focus := ⟨q.g, q.sp, q.lanes, pc, 0, 0⟩ }
     let r := exec (.clauseIssue q) s
     (s.wgAt q.g).res = .resident → q.lanes ∈ sp.issueSets →
     (∀ c a, s0.fetchClause pc = .bad u c a → r = .next (u.headerFault c a)) ∧ (s0.fetchClause pc = .wait u → r = .next u) ∧
     (s0.fetchClause pc = .ok u (hdr, words) → u.focus = s0.focus →
       (clauseLegal hdr words = false → r = .next (u.headerFault 0x01 0)) ∧
       (clauseLegal hdr words = true → (∃ k, k < 6 ∧ hdr.getLsbD (8 + k) = true ∧ u.span.kc k ≠ 0) → r = .next u) ∧
       (clauseLegal hdr words = true → (∀ k, k < 6 → hdr.getLsbD (8 + k) = true → u.span.kc k = 0) →
         let site := hdr.getLsbD 7
         let ord : BitVec 20 := (words.getD 0 0).extractLsb' 0 20
         let cfg := (u.pk u.here.paddock).cfg
         let stop : Bool := site && (cfg.stops.contains ord.toNat || (cfg.debugger && u.span.stopNext))
         let key := (u.here.core * 8 + bits hdr 6 4) * 64 + u.launchHere.prio
         ∃ t, r = .next t ∧ OnlySpan { u.traced t with floorCnt := t.floorCnt } t ∧
           t.span = { u.span with
             lane := t.span.lane, lastStop := (if site then ord else u.span.lastStop), stopNext := (u.span.stopNext && !stop),
             clauses := u.span.clauses ++
               [⟨q.lanes, pc, hdr, words, (if site then 2 else 1), [], false, false, stop, false, false, none, none⟩] } ∧
           (∀ l, l < 32 → t.span.laneAt l =
             if laneIn q.lanes l then { u.span.laneAt l with lastIssue := u.steps + 1 } else u.span.laneAt l) ∧
           Store.get 0 t.floorCnt key = Store.get 0 u.floorCnt key + 1 ∧
           t.records.map (fun x => (x.typ, x.ordinal, x.w2, x.w3)) = u.records.map (fun x => (x.typ, x.ordinal, x.w2, x.w3)) ++
             (if site then [(0x10, ord, State.workWord u.here q.sp, q.lanes.setWidth 64)] else []) ++
             (if stop then [(0x12, ord, State.workWord u.here q.sp, q.lanes.setWidth 64)] else [])))) ∧
  (∀ (s : State) (q : SpanRef) (c : Clause) (cs : List Clause),
     let sp := s.spanAt q.g q.sp
     let r := exec (.clauseEnd q) s
     sp.clauses = c :: cs → c.lanes = q.lanes → c.suspended = false →
     (c.pos ≤ bits c.hdr 3 0 → r = .next s) ∧
     (bits c.hdr 3 0 < c.pos → (∀ p ∈ sp.pending, p.ctr ≠ 7 ∨ p.lanes &&& c.lanes = 0) → (∀ n, n < 8 → (sp.jm n).enrol = 0) →
       (c.exiting = false → (∀ l, l < 32 → laneIn c.lanes l → (sp.laneAt l).mr = allOnes64) →
         let go := fun (l : Nat) => (c.target l).getD (c.hdrPc + BitVec.ofNat 64 (4 * (bits c.hdr 3 0 + 1)))
         (∀ l, l < 32 → laneIn c.lanes l → go l ≠ allOnes64) →
         ∃ t, r = .next t ∧ OnlySpanAt s t q.g q.sp ∧
           t.spanAt q.g q.sp = { sp with clauses := cs, lane := (t.spanAt q.g q.sp).lane } ∧
           ∀ l, l < 32 → (t.spanAt q.g q.sp).laneAt l = if laneIn c.lanes l ∧ (sp.laneAt l).ended = false
             then { sp.laneAt l with pc := go l, lastIssue := if c.yielded then s.steps + 1 else (sp.laneAt l).lastIssue }
             else sp.laneAt l) ∧
       (c.exiting = true → (sp.laneAt (State.lowest q.lanes)).level = 0 → (∃ l, l < 32 ∧ laneIn c.lanes l = false ∧ (sp.laneAt l).ended = false) →
         q.sp < (s.wgAt q.g).nspans → (∀ e ∈ s.wg, ∀ n l, ∀ k, ((e.2.spanAt n).laneAt l).hold ≠ .barrier k) →
         ∃ t, r = .next t ∧ OnlySpanAt s t q.g q.sp ∧
           t.spanAt q.g q.sp = { sp with clauses := cs, lane := (t.spanAt q.g q.sp).lane, j := (t.spanAt q.g q.sp).j } ∧
           (∀ n, n < 8 → ((t.spanAt q.g q.sp).jm n).enrol = 0) ∧
           ∀ l, l < 32 → (t.spanAt q.g q.sp).laneAt l = if laneIn c.lanes l
             then { sp.laneAt l with ended := true, hold := .free, level := 0 } else sp.laneAt l) ∧
       (c.exiting = true → (sp.laneAt (State.lowest q.lanes)).level ≠ 2 →
         (∀ l, l < 32 → laneIn c.lanes l = false → (sp.laneAt l).ended = true) → (s.wgAt q.g).nspans = 1 → q.sp = 0 →
         (s.wgAt q.g).res ≠ .ended → ∃ u, r = .next ((State.endWg u q.g false false).launchCheck (s.wgAt q.g).launchKey) ∧
           OnlySpanAt s u q.g q.sp ∧ (u.spanAt q.g q.sp).alive = 0)))

/-- 04 R72: COUNTED_RESULT_WRITE: the result's registers take their values, save those of lanes that have ended, it leaves the list, and its
counter falls; a scalar register is written whichever lanes live on (log 62). 14 R265, 18 R317, 03 R50: a timeout of an mwait whose monitor is
not triggered raises code 10 on its set and takes the monitor away; one with an endless timeout has none. The watchdog raises code 08 on the
lanes of a tile instruction that wait, beside the codes of those that have failed; one that waits for nothing is not touched. The quantum's end
marks a resident workgroup for parking, for the candidates of at least its priority that wait then. No time passes for these while the paddock
is in the icehouse or a lossless stall stops it, nor while a debugger's stop holds a span (17 R313, 18 R327, R331). -/
def Obligations.CountedResults : Prop :=
  (∀ (s : State) (g n i : Nat) (p : Pending),
     let sp := s.spanAt g n
     let r := exec (.countedResultWrite g n i) s
     let falls := fun (t : State) => ∀ k, (t.spanAt g n).kc k = if k = p.ctr ∧ k < 6 then sp.kc k - 1 else sp.kc k
     (sp.pending[i]? = none → r = .next s) ∧
     (sp.pending[i]? = some p →
       ((∀ w ∈ p.ws, ∃ d l x, w = .v d l x ∧ l < 32) → ∃ t, r = .next t ∧ OnlySpanAt s t g n ∧ falls t ∧
         t.spanAt g n = { sp with pending := sp.pending.eraseIdx i, v := (t.spanAt g n).v, k := (t.spanAt g n).k } ∧
         ∀ d l, l < 32 → (t.spanAt g n).vr d l = if (sp.laneAt l).ended then sp.vr d l else
           (p.ws.reverse.findSome? (fun w => match w with
             | .v d' l' x => if d' = d ∧ l' = l then some x else none
             | _ => none)).getD (sp.vr d l)) ∧
       (∀ d x, d < 64 → p.ws = [.s d x] → ∃ t, r = .next t ∧ OnlySpanAt s t g n ∧ falls t ∧
         t.spanAt g n = { sp with pending := sp.pending.eraseIdx i, s := (t.spanAt g n).s, k := (t.spanAt g n).k } ∧
         ∀ k : BitVec 6, (t.spanAt g n).sr k = if k.toNat = d ∧ d ≠ 63 then x else sp.sr k))) ∧
  ((∀ (s : State) (q : SpanRef) (c : Clause) (d : BitVec 6) (b : SOp) (m : Monitor),
     let sp := s.spanAt q.g q.sp
     let held := s.timersHeld (s.wgAt q.g).paddock || s.spanStopped q.g q.sp
     let until' : Dword := match c.arg with
       | some (p, v) => if p = c.pos then v else sp.opB b
       | none => sp.opB b
     sp.clauseOf q.lanes = some c → c.waiting = true → c.instr = some (.mwait d b) → sp.mon = some m →
     (until' = allOnes64 ∨ m.triggered = true ∨ held = true → exec (.mwaitTimeout q) s = .next s) ∧
     (until' ≠ allOnes64 → m.triggered = false → held = false → ∃ u, exec (.mwaitTimeout q) s = .next (State.raiseAll u 0x10 0) ∧
       u.focus = ⟨q.g, q.sp, q.lanes, c.hdrPc, c.pos, c.pos + c.len⟩ ∧ OnlySpanAt s { u with focus := s.focus } q.g q.sp ∧
       u.spanAt q.g q.sp = { sp.updClause q.lanes (fun x => { x with arg := none, stale := none }) with mon := none })) ∧
   (∀ (s : State) (q : SpanRef) (c : Clause) (t : TileWait),
     let sp := s.spanAt q.g q.sp
     let r := exec (.watchdogExpiry (.set q)) s
     sp.clauseOf q.lanes = some c → t.own = q.lanes → sp.tileWait = [t] → s.timersHeld (s.wgAt q.g).paddock = false →
     s.spanStopped q.g q.sp = false → (sp.laneAt (State.lowest q.lanes)).level = sp.openLevel →
     ∃ (u : State) (F : Lanes) (code : Nat → Byte), r = .next (u.raiseL F code (fun _ => 0)) ∧
       u.focus = ⟨q.g, q.sp, q.lanes, c.hdrPc, c.pos, c.pos + c.len⟩ ∧ (∀ g, g ≠ q.g → u.wgAt g = s.wgAt g) ∧
       u = { s with focus := u.focus, wg := u.wg } ∧ u.wgAt q.g = { s.wgAt q.g with span := (u.wgAt q.g).span, progFe := (s.wgAt q.g).progFe + (match t.on with
         | .granule _ _ => 1
         | _ => 0) } ∧
       (∀ n, n ≠ q.sp → u.spanAt q.g n = s.spanAt q.g n) ∧ u.spanAt q.g q.sp = { sp with tileWait := [], k := (u.spanAt q.g q.sp).k } ∧
       (∀ k, (u.spanAt q.g q.sp).kc k = if k = t.ctr ∧ k < 6 then sp.kc k - 1 else sp.kc k) ∧
       (∀ l, l < 32 → laneIn F l = (laneIn t.lanes l || t.failed.any (fun e => e.1 == l))) ∧
       ∀ l, code l = if laneIn t.lanes l then 0x08#8 else Store.get 0 t.failed l) ∧
   (∀ (s : State) (q : SpanRef), ((∀ t ∈ (s.spanAt q.g q.sp).tileWait, t.own ≠ q.lanes) ∨ s.timersHeld (s.wgAt q.g).paddock = true ∨
       s.spanStopped q.g q.sp = true ∨ ((s.spanAt q.g q.sp).laneAt (State.lowest q.lanes)).level ≠ (s.spanAt q.g q.sp).openLevel) →
     exec (.watchdogExpiry (.set q)) s = .next s) ∧
   ∀ (s : State) (g : Nat),
     let w := s.wgAt g
     let waits := fun (e : Nat × Wg) => e ∈ s.candidates w.core ∧ s.prioOf w ≤ s.prioOf e.2 ∧ ∀ k ∈ s.kept w.core, k.1 ≠ e.1
     let stopped := ∃ n ∈ w.spanNums, s.spanStopped g n = true
     (w.res = .resident → w.parkWanted ≠ some .preempt → (∃ e, waits e) → s.timersHeld w.paddock = false → ¬stopped →
       ∃ t, exec (.quantumExpiry g) s = .next t ∧ t = { s with wg := t.wg } ∧ (∀ h, h ≠ g → t.wgAt h = s.wgAt h) ∧
         t.wgAt g = { w with parkWanted := some .quantum, expiry := (t.wgAt g).expiry } ∧
         ∀ x, x ∈ (t.wgAt g).expiry ↔ x ∈ w.expiry ∨ ∃ e, waits e ∧ x = State.choiceWord e.2) ∧
     (w.res ≠ .resident ∨ w.parkWanted = some .preempt ∨ (∀ e, ¬waits e) ∨ s.timersHeld w.paddock = true ∨ stopped → exec (.quantumExpiry g) s = .next s))

/-! ## The yard -/

/-- 03 R31, R47, R50, R51, R53, 14 R256, 23 R359: a workgroup of a resident paddock that fits its core starts, every lane of each span at its
stage's entry; a parked one goes on, its level-0 handles at new places; a resident one that stands still, its results all written, is parked, for
a pre-emption, or where the yard parks it for the candidate that it has chosen, for its quantum or its own wait; with the last of a draining
launch the launch is drained. Each with its record. A resident of at most the priority of a core's one candidate, which does not fit without its
room, is the one to park, and the candidate stays chosen. -/
def Obligations.YardResidency : Prop :=
  ∀ (s : State) (g : Nat),
    let w := s.wgAt g
    let l := s.launchAt w.launchKey
    let p := s.pk w.paddock
    let fits := (w.spanNums.filter (fun n => !w.spanEnded n)).length ≤ 8 - s.slotsUsed w.core ∧
      l.tregs w.stage ≤ 16 - s.tregsUsed w.core ∧ l.level0 w.stage ≤ s.tileFree w.core
    let stays := fun (t : State) => t = { s.traced t with wg := t.wg, bindings := t.bindings, chosen := t.chosen } ∧ ∀ h, h ≠ g → t.wgAt h = s.wgAt h
    let noted := fun (t : State) (typ : Nat) (x : Dword) => Recorded s t typ 1 w.core (State.workWord w 0) x
    let moved := fun (t : State) => ∀ h, (t.wgAt g).entryOf h =
      let e := w.entryOf h
      if e.getLsbD 0 = true ∧ e.getLsbD 2 = false ∧ bits e 63 62 = 0 then ((t.wgAt g).entryOf h).extractLsb' 64 64 ++ e.setWidth 64 else e
    let still := ∀ n, n < w.nspans →
      let sp := w.spanAt n
      sp.pending = [] ∧ (w.spanEnded n = true ∨ ((sp.trapMask = false ∨ sp.openLevel = 0) ∧ ∀ c ∈ sp.clauses, c.suspended = true ∨
        (c.stopped = false ∧ (c.waiting = true ∨ (sp.laneAt (State.lowest c.lanes)).level ≠ sp.openLevel))))
    let image := { w with res := .parked, parkWanted := none, expiry := [], since := s.steps + 1, image := Config.place s.bindings }
    let parks := fun (x : Dword) => ∃ t, exec (.park g) s = .next t ∧ stays t ∧ moved t ∧ noted t 0x1B x ∧
      t.wgAt g = { image with handle := (t.wgAt g).handle }
    (w.res = .unstarted → p.resident = true → l.preempt = .none → fits →
      ∃ t, exec (.workgroupStart g) s = .next t ∧ (t.wgAt g).res = .resident ∧ (t.wgAt g).since = s.steps + 1 ∧
        (t.launchAt w.launchKey).state = (if l.state = 2 then 3 else l.state) ∧
        (∀ n, n < w.nspans → ∃ r, t.spanAt g n = { Span.fresh with lane := r, mon := (t.spanAt g n).mon } ∧
          ∀ i, i < 32 → (t.spanAt g n).laneAt i = { Lane.fresh with pc := l.entryPc w.stage }) ∧
        noted t 0x1A 0 ∧ (∀ c, Store.get 0 t.lamport c = if c = w.core ∧ precedes (Store.get 0 s.lamport c) l.clock = true then l.clock
          else Store.get 0 s.lamport c) ∧
        (l.state ≠ 2 → t = { s.traced t with wg := t.wg, chosen := t.chosen, lamport := t.lamport } ∧ ∀ h, h ≠ g → t.wgAt h = s.wgAt h)) ∧
    (w.res = .parked → p.resident = true → l.preempt = .none → State.wgAtBarrier w = false → fits → Store.wf 0 w.handle = true →
      ∃ t, exec (.makeResident g) s = .next t ∧ stays t ∧ moved t ∧ noted t 0x1C 0 ∧
        t.wgAt g = { w with res := .resident, since := s.steps + 1, image := 0, handle := (t.wgAt g).handle }) ∧
    (w.res ≠ .unstarted ∨ p.resident = false ∨ l.preempt ≠ .none ∨ ¬fits → exec (.workgroupStart g) s = .next s) ∧
    (w.res ≠ .parked ∨ p.resident = false ∨ l.preempt ≠ .none ∨ ¬fits → exec (.makeResident g) s = .next s) ∧
    (¬still ∨ w.res ≠ .resident → exec (.park g) s = .next s) ∧
    (still → w.res = .resident → Store.wf 0 w.handle = true →
      (l.preempt ≠ .draining →
        (w.parkWanted = some .preempt → parks 2) ∧ (w.parkWanted = some .quantum → s.toPark g = true → s.expiredFor w = true → parks 0) ∧
        (w.parkWanted = some .quantum → s.toPark g = true → s.expiredFor w = false → parks 1) ∧
        (w.parkWanted = none → State.wgParkWaits w = true → s.toPark g = true → parks 1)) ∧
      (w.parkWanted = some .preempt → l.preempt = .draining → l.live = true → Store.wf Wg.none s.wg = true →
        ∃ t, exec (.park g) s = .next t ∧ moved t ∧ t.wgAt g = { image with handle := (t.wgAt g).handle } ∧ (∀ h, h ≠ g → t.wgAt h = s.wgAt h) ∧
          ((∃ h, h ≠ g ∧ (s.wgAt h).launchKey = w.launchKey ∧ (s.wgAt h).res = .resident) → t.launch = s.launch ∧ noted t 0x1B 2) ∧
          ((∀ h, h ≠ g → (s.wgAt h).launchKey = w.launchKey → (s.wgAt h).res ≠ .resident) →
            t.launchAt w.launchKey = { l with preempt := .drained } ∧ t.records.length = s.records.length + 2)) ∧
      (w.parkWanted = some .quantum ∨ w.parkWanted = none → s.toPark g = false → exec (.park g) s = .next s) ∧
      (w.parkWanted = none → State.wgParkWaits w = false → exec (.park g) s = .next s)) ∧
    ∀ h c, s.wgAt h = c → s.kept w.core = [] → s.candidates w.core = [(h, c)] → s.parkOrder w.core = [(g, w)] → s.prioOf w ≤ s.prioOf c →
      s.penAllows w = true →
      ((w.parkWanted = some .quantum ∧ State.choiceWord c ∈ w.expiry) ∨ (State.wgParkWaits w = true ∧ State.wgParkable w = true)) →
      State.fitsIn (s.needs c) (s.freeOn w.core) = false → State.fitsIn (s.needs c) (State.plus (s.freeOn w.core) (s.needs w)) = true →
      s.toPark g = true ∧ (w.parkWanted ≠ some .preempt → State.wgParkable w = true → l.preempt ≠ .draining → Store.wf 0 w.handle = true →
        ∃ t, exec (.park g) s = .next t ∧ Store.get 0 t.chosen w.core = State.choiceWord c)

/-- 03 R37, R40-R44, R47, R54, 15 R269, 14 R252: a pen that is next at its place and has room is admitted, the pens of a launch with the grid-barrier
flag all together: each member stands unstarted in the lowest free entry of its core, with its place in the grid, and the declared handles of its
stage are bound as declared. 03 R40: pen n at a place of the rectangle, in a launch whose rectangle is one pen wide and high: the pens of the grid
by stage, then x, y and z. -/
def Obligations.PenAdmission : Prop :=
  (∀ (s : State) (k pen : Nat),
     let l := s.launchAt k
     let can := l.live = true ∧ l.admitted = true ∧ l.unstartedKilled = false ∧ (s.pk l.paddock).resident = true ∧ s.leaving l.paddock = false
     let r := exec (.penAdmission k pen) s
     let here := fun (d : Dword) (st : Nat) => dFrom d = st ∨ (dChute d = true ∧ dTo d = st)
     let clear := fun (st : Nat) => ∀ d ∈ l.decls, ∀ d' ∈ l.decls, here d st → here d' st → dHandle d = dHandle d' → d = d'
     let stands := fun (t : State) (p : PenPos) => ∀ m ∈ l.membersOf p, ∃ e, e < 64 ∧
       let key := 2 ^ 18 * l.paddock + 64 * l.coreFor m.1 m.2 + e
       let w := t.wgAt key
       ((s.wgAt key).res = .none ∨ (s.wgAt key).res = .ended) ∧
       (w.res = .unstarted ∧ w.paddock = l.paddock ∧ w.serial = l.serial ∧ w.stage = p.stage ∧ w.wx = m.1 ∧ w.wy = m.2 ∧
         w.wz = p.wz ∧ w.lin = m.1 + l.gx * (m.2 + l.gy * p.wz) ∧ w.core = l.coreFor m.1 m.2 ∧ w.entry = e ∧
         w.nspans = l.nspans p.stage ∧ w.span = [] ∧ w.granule = []) ∧
       ∀ d ∈ l.decls, (dChute d = false → dFrom d = p.stage →
           (w.entryOf (dHandle d)).setWidth 64 = BitVec.ofNat 64 (bits d 49 21 * 2 ^ 35 + 3)) ∧
         (dChute d = true → dFrom d = p.stage ∨ dTo d = p.stage →
           (w.entryOf (dHandle d)).setWidth 64 = BitVec.ofNat 64 (bits d 47 21 * 2 ^ 35 + 5))
     let enters := fun (t : State) => r = .next t ∧ t = { s with wg := t.wg, launch := t.launch, bindings := t.bindings } ∧
       t.launchAt k = { l with nextPen := (t.launchAt k).nextPen } ∧ ∀ j, j ≠ k → t.launchAt j = s.launchAt j
     (¬can → r = .next s) ∧
     (∀ q p, can → l.gridBar = false → l.key = k → q ∈ l.positions → l.nextAt q = some p → l.penNum p = pen →
       (∀ q' ∈ l.positions, ∀ p', l.nextAt q' = some p' → l.penNum p' = pen → q' = q) →
       (s.pensFit l [p] = false → r = .next s) ∧
       (s.pensFit l [p] = true → clear p.stage → ∃ t, enters t ∧ stands t p ∧
         (t.launchAt k).nextPen = Store.upd 0 l.nextPen q.1 (fun n => n + 1))) ∧
     (can → l.gridBar = true → l.key = k →
       let ps := l.positions.flatMap (fun q => (List.range l.total).filterMap (fun n => (l.penAt q.2.1 q.2.2 n).map (fun p => (q.1, p))))
       (l.nextPen ≠ [] ∨ s.pensFit l (ps.map Prod.snd) = false → r = .next s) ∧
       (l.nextPen = [] → s.pensFit l (ps.map Prod.snd) = true → (∀ st, clear st) → ∃ t, enters t ∧ (∀ e ∈ ps, stands t e.2) ∧
         ∀ i, Store.get 0 (t.launchAt k).nextPen i = (ps.filter (fun e => e.1 == i)).length))) ∧
  (∀ (l : Launch) (n : Nat), l.rectW = l.pw → l.rectH = l.ph → 0 < l.gx / l.pw → 0 < l.gy / l.ph →
     let nx := l.gx / l.pw
     let ny := l.gy / l.ph
     (n < l.stages * (nx * ny * l.gz) → l.penAt 0 0 n =
       some ⟨n % l.stages, n / l.stages % nx, n / l.stages / nx % ny, n / l.stages / (nx * ny)⟩) ∧
     (l.stages * (nx * ny * l.gz) ≤ n → l.penAt 0 0 n = none))

/-- 14 R254, R255, R252: the first record of the highest level of a resident paddock's queues: refused with the lowest reason that
applies, state 6; or left while its storage is not free; or admitted, state 2, with its chutes on every core of its rectangle. -/
def Obligations.LaunchAdmission : Prop :=
  ∀ (s : State) (n : Nat) (q : QueuedLaunch) (xs ys : List QueuedLaunch),
    let p := s.pk n
    let k := 2 ^ 32 * n + q.serial.toNat
    let l := s.launchAt k
    let r := exec (.launchAdmission n) s
    let mb := 4194304
    let left := fun (t : State) => (t.pk n).queue = xs ++ ys
    (p.resident = false ∨ s.leaving n = true ∨ p.queue = [] → r = .next s) ∧
    (p.resident = true → s.leaving n = false → p.queue = xs ++ q :: ys → (∀ x ∈ xs, x.prio < q.prio) → (∀ y ∈ ys, y.prio ≤ q.prio) →
      l.paddock = n → l.serial = q.serial →
      (s.refusal l ≠ 0 → l.issuer = none → ∃ t, r = .next t ∧ left t ∧ (t.launchAt k).state = 6 ∧
        (t.launchAt k).reason = s.refusal l ∧ (t.launchAt k).live = false ∧
        Recorded s t 0x19 1 l.home (l.serial.setWidth 64) (BitVec.ofNat 64 (6 + 256 * s.refusal l))) ∧
      (s.refusal l = 0 → s.parkFree n < l.images ∨ (∃ c ∈ l.cores, s.tileFree c < l.chuteBytes) → r = .next s) ∧
      (s.refusal l = 0 → l.images ≤ s.parkFree n → (∀ c ∈ l.cores, l.chuteBytes ≤ s.tileFree c) → ∃ t, r = .next t ∧ left t ∧
        (t.launchAt k).state = 2 ∧ (t.launchAt k).admitted = true ∧ (t.launchAt k).record = l.record ∧
        Recorded s t 0x18 1 l.home (l.serial.setWidth 64 ||| BitVec.ofNat 64 (2 ^ 32 * l.prio)) 2 ∧
        ∀ d ∈ l.chutes, ∀ core ∈ l.cores, core < 4096 → (∀ d' ∈ l.chutes, dHandle d' = dHandle d → dFrom d' = dFrom d → d' = d) →
          t.chuteAt (chuteKey n l.serial core (dHandle d) (dFrom d)) = { Chute.none with
            live := true, paddock := n, serial := l.serial, core := core, handle := dHandle d, fromStage := dFrom d, toStage := dTo d,
            slotsM1 := BitVec.ofNat 6 (dRows d - 1), width := dWidth d, colsM1 := dCols d - 1 })) ∧
    (let c := (s.pk l.paddock).cfg
     let geo := 1 ≤ l.rectW ∧ l.rectW ≤ 64 ∧ 1 ≤ l.rectH ∧ l.rectH ≤ 64 ∧ c.ox ≤ l.orgX ∧ l.orgX + l.rectW ≤ c.ox + c.w ∧
       c.oy ≤ l.orgY ∧ l.orgY + l.rectH ≤ c.oy + c.h ∧ 1 ≤ l.gx ∧ 1 ≤ l.gy ∧ 1 ≤ l.gz ∧ l.pw ≤ 16 ∧ l.ph ≤ 16 ∧
       l.rectW % l.pw = 0 ∧ l.gx % l.pw = 0 ∧ l.rectH % l.ph = 0 ∧ l.gy % l.ph = 0 ∧ l.stages ≤ 8 ∧
       ∀ st, st < l.stages → 1 ≤ l.nspans st ∧ l.nspans st ≤ 8
     let most := (l.gx + l.rectW - 1) / l.rectW * ((l.gy + l.rectH - 1) / l.rectH) * l.gz * l.stages
     (s.refusal l = 1 ↔ ¬geo) ∧ (s.refusal l = 2 ↔ geo ∧ c.parkArea * mb < l.images) ∧
     (s.refusal l = 3 ↔ geo ∧ l.images ≤ c.parkArea * mb ∧ l.gridBar = true ∧ 64 < most) ∧
     (geo → l.images ≤ c.parkArea * mb → (l.gridBar = false ∨ most ≤ 64) → (∃ st, st < l.stages ∧ l.entryPc st = 0) → s.refusal l = 4))

/-- 18 R328, 19 R335: a pre-emption request marks an admitted launch as draining and its resident workgroups for parking; with
none resident it is drained at once; a resume lets a drained launch take cores again; the deadline ends a launch that still drains in
error, the time in the icehouse, in a lossless stall and at a debugger's stop not counted. A serial that names no such launch changes nothing.
18 R330, R331: a swap between a resident paddock and a held one of the same rectangle, all of whose icehouse banks are ready and of which no
swap is under way, begins; once the one that leaves stands still, the exchange suspends its operations and holds it, and runs the other, whose
operations go on, with the icehouse's records for both. A swap that a rule forbids changes nothing. -/
def Obligations.PreemptionAndSwaps : Prop :=
  (∀ (s : State) (n : Nat) (serial : Word),
     let k := 2 ^ 32 * n + serial.toNat
     let l := s.launchAt k
     let mine := fun (e : Nat × Wg) => e.2.launchKey = k ∧ e.2.res = .resident
     let quiet := fun (t : State) => t = { s.traced t with wg := t.wg, launch := t.launch }
     (l.live = false ∨ l.admitted = false ∨ l.preempt ≠ .none → exec (.preemptionRequest n serial) s = .next s) ∧
     (l.live = true → l.admitted = true → l.preempt = .none → Store.wf Wg.none s.wg = true →
       ∃ t, exec (.preemptionRequest n serial) s = .next t ∧ quiet t ∧
         ((∃ e ∈ s.wg, mine e) → t.launchAt k = { l with preempt := .draining } ∧
           Recorded s t 0x53 1 l.home (l.serial.setWidth 64) 0) ∧
         ((∀ e ∈ s.wg, ¬mine e) → t.launchAt k = { l with preempt := .drained } ∧ t.records.length = s.records.length + 2) ∧
         ∀ g, t.wgAt g = if (s.wgAt g).launchKey = k ∧ (s.wgAt g).res = .resident then { s.wgAt g with parkWanted := some .preempt }
           else s.wgAt g) ∧
     (l.live = true → l.admitted = true → l.preempt = .drained → ∃ t, exec (.preemptionResume n serial) s = .next t ∧
       t = { s with launch := t.launch } ∧ t.launchAt k = { l with preempt := .none } ∧ ∀ j, j ≠ k → t.launchAt j = s.launchAt j) ∧
     (l.live = false ∨ l.admitted = false ∨ l.preempt ≠ .drained → exec (.preemptionResume n serial) s = .next s) ∧
     let stopped := ∃ e ∈ s.wg, e.2.launchKey = k ∧ ∃ i ∈ e.2.spanNums, s.spanStopped e.1 i = true
     (l.live = true → l.admitted = true → l.preempt = .draining → s.timersHeld n = false → ¬stopped → ∃ t, exec (.preemptionDeadline n serial) s = .next t ∧
       (t.launchAt k).live = false ∧ (t.launchAt k).state = 5 ∧ (t.launchAt k).ended = l.total ∧
       ∀ e ∈ t.wg, ¬(e.2.paddock = l.paddock ∧ e.2.serial = l.serial)) ∧
     (l.live = false ∨ l.preempt ≠ .draining ∨ s.timersHeld n = true ∨ stopped → exec (.preemptionDeadline n serial) s = .next s)) ∧
  (∀ (s : State) (a b : Nat),
     let A := (s.pk a).cfg
     let B := (s.pk b).cfg
     let ok := A.valid = true ∧ (s.pk a).resident = true ∧ B.valid = true ∧ (s.pk b).held = true ∧
       (A.ox = B.ox ∧ A.oy = B.oy ∧ A.w = B.w ∧ A.h = B.h) ∧
       ∀ x y, x < A.w → y < A.h → s.ready (0x100 + (A.ox + x + 64 * (A.oy + y))) = true
     let moves := fun (n : Nat) (y : AsyncOp) => y.id.paddock = n ∧ ∀ at' p, y.kind ≠ .launch at' p
     let quiet := fun (n : Nat) => (∀ e ∈ s.wg, e.2.paddock = n → ∀ q ∈ e.2.span, q.2.pending = [] ∧ q.2.memWait = []) ∧
       ∀ y ∈ s.async, moves n y → ∀ u ∈ y.units, u.sent = none
     let free := ∀ q ∈ s.swap, ∀ n, (q.1 = some n ∨ q.2 = some n) →
       ¬((s.pk n).cfg.ox < A.ox + A.w ∧ A.ox < (s.pk n).cfg.ox + (s.pk n).cfg.w ∧ (s.pk n).cfg.oy < A.oy + A.h ∧
         A.oy < (s.pk n).cfg.oy + (s.pk n).cfg.h)
     (¬ok ∨ ¬free → exec (.paddockSwap (some a) (some b)) s = .next s) ∧
     exec (.paddockSwap none none) s = .next s ∧
     (ok → free → exec (.paddockSwap (some a) (some b)) s = .next { s with swap := s.swap ++ [(some a, some b)] }) ∧
     ((∀ q ∈ s.swap, ∃ n, q.1 = some n ∧ ¬quiet n) → exec .icehouseExchange s = .next s) ∧
     (∀ rest, s.swap = (some a, some b) :: rest → quiet a → ¬ok → exec .icehouseExchange s = .next { s with swap := rest }) ∧
     (∀ rest, s.swap = (some a, some b) :: rest → a ≠ b → quiet a → ok → ∃ t : State, exec .icehouseExchange s = .next t ∧ t.swap = rest ∧
       (∀ x y n typ, x < A.w → y < A.h → n = a ∨ n = b → typ = 0x50 ∨ typ = 0x51 → ∃ r ∈ t.records, r.typ = typ ∧ r.unit = 0x0C ∧
         r.idx = A.ox + x + 64 * (A.oy + y) ∧ r.paddock = some n ∧ r.w2 = BitVec.ofNat 64 (a + 256 * b)) ∧
       ((t.pk a).resident = false ∧ (t.pk a).held = true ∧ (t.pk a).cfg = { A with away := true }) ∧
       ((t.pk b).resident = true ∧ (t.pk b).held = false ∧ (t.pk b).cfg = { B with away := false }) ∧ t.async.length = s.async.length ∧
       ∀ (i : Nat) (y : AsyncOp), s.async[i]? = some y → (moves a y → t.async[i]? = some { y with suspended := true }) ∧
         (moves b y → t.async[i]? = some { y with suspended := false }) ∧ (¬moves a y → ¬moves b y → t.async[i]? = some y)))

/-! ## Coherence messages -/

/-- 13 R239, R233-R235, R237, R242, R248: a request of this device at the home of a line of its own that no peer holds, by the line's home state: I
and S serve and grant, X and O forward or recall, D joins a holder of the same tag or merges, P answers Err but takes a whole-line write; a busy
line queues, and so does one with a put notice held or with requests of its class waiting, or a DrGet without room; a full queue turns away
with Err-retry, one of reductions leaves them in the network. A refused party is answered Err, with an entry in the error logs; an unreachable
line, or data that fail their carriage check, Err. 12 R223: an sc event behind a greater one is turned away, another becomes the greatest. -/
def Obligations.HomeRequests : Prop :=
  ∀ (s : State) (h : Hdr) (tag : DTag) (r : List AmoReq) (n : Nat) (v : LineData),
    let line := h.line
    let q := h.src
    let d := s.dirAt line
    let x := s.memLine line
    let idle := DirEntry.idle
    let own : DirEntry := { idle with state := .X, owner := q }
    let all : List (Instr × Msg) := [(.gets h, .getS), (.getx h, .getX), (.upg h, .upg), (.drget h tag, .drGet tag), (.amoMsg h r, .amo r),
      (.redop h r n, .redOp r n), (.wrline h v, .wrLine v)]
    let stores : List (Instr × Msg) := [(.getx h, .getX), (.upg h, .upg)]
    let rest : List (Instr × Msg) := [(.drget h tag, .drGet tag), (.amoMsg h r, .amo r), (.redop h r n, .redOp r n), (.wrline h v, .wrLine v)]
    let moves := fun (e : Instr × Msg) (d' : DirEntry) (out : List (BitVec 13 × Msg)) => HomeMoves (exec e.1 s) s h e.2 h 1 d' out
    let errs := fun (e : Instr × Msg) (kind : Nat) => HomeMoves (exec e.1 s) s h e.2 h kind d [(q, .err false)]
    let plain := fun (e : Instr × Msg) => ∀ c ∈ s.combined, c.1 ≠ (h, e.2)
    let key := Store.get 0 s.homeKey line
    let stale := key ≠ 0 ∧ (precedes h.clock (key.extractLsb' 13 48) ∨ (h.clock = key.extractLsb' 13 48 ∧ q.toNat < (key.extractLsb' 0 13).toNat))
    let keys := if h.sc then Store.set 0 s.homeKey line (h.clock ++ q) else s.homeKey
    let works : List (Instr × Msg) := [(.amoMsg h r, .amo r), (.redop h r n, .redOp r n), (.wrline h v, .wrLine v)]
    let performs := (h.sc = true → stale → ∀ e ∈ works, moves e idle [(q, .err true)]) ∧
      (h.sc = false ∨ ¬stale →
        HomeWrites (exec (.amoMsg h r) s) s h (.amo r) keys true (State.amoLine r x).1 idle [(q, .data x false)] ∧
        HomeWrites (exec (.redop h r n) s) s h (.redOp r n) keys true (State.amoLine r x).1 idle [(q, .redAck n)] ∧
        HomeWrites (exec (.wrline h v) s) s h (.wrLine v) keys true v idle [(q, .putAck)])
    let busy := d.state = .BInv ∨ d.state = .BFwd ∨ d.state = .BMrg
    let waits := fun (m : Msg) => busy ∨ d.held ≠ [] ∨ (∃ y ∈ d.queue, y.2.isRed = m.isRed) ∨
      (m = .drGet tag ∧ d.state ≠ .D ∧ s.driftRoom line = false)
    let ask := fun (st : HomeState) (k : Nat) (to' : Option (BitVec 13)) (h' : Hdr) (m : Msg) =>
      { d with state := st, acks := k, requester := if q = 0x1FFF#13 then 0 else q, fwdTo := to', replied := [], serving := some (h', m)
               before := d.state, stamp := h.stamp }
    let others := s.recipients false d (some q)
    h.pod = false → isPod line = false → s.podAt line = idle →
    let logs := fun (e : Instr × Msg) (kind : Nat) => ∃ t, exec e.1 s = .next t ∧
      HomeSends ((s.take h e.2).hearSlice line h.clock) t line h.req kind [(q, .err false)] ∧
      (∀ k, t.dirAt k = s.dirAt k) ∧ (∀ k, t.podAt k = s.podAt k) ∧
      ∀ k, Store.wf Paddock.none s.paddock = true → (s.pk k).cfg.valid = true → ((s.pk k).errHead - (s.pk k).errTail).toNat ≠ 4096 →
        s.hbmDown (((s.pk k).cfg.errBase + 32 * ((s.pk k).errHead.toNat % 4096)) / 128) = false → (t.pk k).errHead = (s.pk k).errHead + 1
    (s.revokedFor false q line false = true → ∀ e ∈ all, plain e → logs e 2) ∧
    (s.revokedFor false q line false = false →
      (s.unreachable (128 * line) = true → ∀ e ∈ all, plain e → errs e (if 128 * line / 2 ^ 56 = 1 then 3 else 4)) ∧
      (s.unreachable (128 * line) = false → laneIn s.carriage 0 = true → ∀ e ∈ works, plain e →
        (h.pk.isSome = true → errs e 0) ∧ (h.pk = none → logs e 0))) ∧
    (s.revokedFor false q line false = false → s.unreachable (128 * line) = false → laneIn s.carriage 0 = false →
      (∀ e ∈ all, d.state ≠ .P → waits e.2 → e.2 ≠ .redOp r n →
        (queuedAt s (homeSlice line) false < 1024 → moves e { d with queue := d.queue ++ [(h, e.2)] } []) ∧
        (1024 ≤ queuedAt s (homeSlice line) false → moves e d [(q, .err true)])) ∧
      (d.state ≠ .P → waits (.redOp r n) →
        (queuedAt s (homeSlice line) true < 256 → moves (.redop h r n, .redOp r n) { d with queue := d.queue ++ [(h, .redOp r n)] } []) ∧
        (256 ≤ queuedAt s (homeSlice line) true →
          exec (.redop h r n) s = .next { (s.hearSlice line h.clock) with msgs := (h, .redOp r n) :: s.msgs.erase (h, .redOp r n) })) ∧
      (d.state = .P →
        (∀ e ∈ all, e.2 ≠ .wrLine v → plain e → errs e 1) ∧
        (h.sc = false ∨ ¬stale →
          HomeWrites (exec (.wrline h v) s) s h (.wrLine v) keys true v { idle with queue := d.queue, held := d.held } [(q, .putAck)])) ∧
      (d.queue = [] → d.held = [] → (d.state = .D ∨ s.driftRoom line = true) →
      (d.state = .I →
        moves (.gets h, .getS) own [(q, .data x true)] ∧ (∀ e ∈ stores, moves e own [(q, .data x true), (q, .grant)]) ∧
        moves (.drget h tag, .drGet tag) { idle with state := .D, tag := tag, accs := baseAccs tag x, ptrs := [q] } [(q, .grantD tag)] ∧
        performs) ∧
      (d.state = .S →
        moves (.gets h, .getS) (State.addParty d q) [(q, .data x false)] ∧
        (others = [] → moves (.getx h, .getX) own [(q, .data x true), (q, .grant)] ∧
          moves (.upg h, .upg) own (if q ∈ State.members d then [(q, .grant)] else [(q, .data x true), (q, .grant)]) ∧
          (s.copiesOf line = [] → performs)) ∧
        (others ≠ [] →
          moves (.getx h, .getX) (ask .BInv others.length none h .getX) (others.map (fun p => (p, .inv))) ∧
          moves (.upg h, .upg) (ask .BInv others.length none h (if q ∈ State.members d then .upg else .getX)) (others.map (fun p => (p, .inv))) ∧
          ∀ e ∈ rest, moves e (ask .BInv others.length none h e.2) (others.map (fun p => (p, .inv))))) ∧
      (d.state = .X →
        moves (.gets h, .getS) (ask .BFwd 0 (some d.owner) h .getS) [(d.owner, .fwdS q)] ∧
        (∀ e ∈ stores, moves e (ask .BFwd 0 (some d.owner) h e.2) [(d.owner, .fwdX q)]) ∧
        ∀ e ∈ rest, moves e (ask .BInv 1 (some d.owner) h e.2) [(d.owner, .recall)]) ∧
      (d.state = .O →
        moves (.gets h, .getS) (State.addParty d q) [(d.owner, .fwdS q)] ∧
        (∀ e ∈ stores,
          (d.owner = q → others = [] → moves e own [(q, .grant)]) ∧
          (d.owner = q → others ≠ [] → moves e (ask .BInv others.length none h .upg) (others.map (fun p => (p, .inv)))) ∧
          (d.owner ≠ q → moves e (ask .BInv (others.length + 1) (some d.owner) h .upg)
            (others.map (fun p => (p, .inv)) ++ [(d.owner, .fwdX q)]))) ∧
        ∀ e ∈ rest, moves e (ask .BInv (others.length + 1) (some d.owner) h e.2) (others.map (fun p => (p, .inv)) ++ [(d.owner, .recall)])) ∧
      (d.state = .D →
        let hs := s.recipients false d none
        (d.tag = tag → moves (.drget h tag, .drGet tag) (State.addParty d q) [(q, .grantD tag)]) ∧
        ∀ e ∈ all, e.2 ≠ .drGet d.tag → hs ≠ [] →
          moves e { ask .BMrg hs.length none h e.2 with lostHolder := d.lostHolder || (State.members d).any s.isLost }
            (hs.map (fun p => (p, .merge))))))

/-- 13 R239, R240, R243: put notices: the owner's gives the line back, with its data where it brings them, and poisons it where they fail
their carriage check (11 R188); one from a party that a forward is on its way to waits; any other is only answered. Replies: InvAck, FwdAck and DrPart count against what the home awaits, a combined
DrPart for each of its contributors, and the last concludes the request. -/
def Obligations.HomeNotices : Prop :=
  (∀ (s : State) (h : Hdr) (v : LineData),
    let d := s.dirAt h.line
    let q := h.src
    let own := (d.state = .X ∨ d.state = .O) ∧ d.owner = q
    let travels := s.fwdTravels h = true ∨ d.fwdTo = some q
    let left := if d.state = .X ∨ (d.ptrs = [] ∧ d.coarse = false) then { DirEntry.idle with queue := d.queue, held := d.held }
      else { d with state := .S, owner := 0 }
    h.pod = false →
    let notices : List (Instr × Msg) := [(.pute h, .putE), (.putm h v, .putM v), (.puto h v, .putO v)]
    let refused := d.state = .P ∧ s.revokedFor false q h.line false = true
    (own → ¬travels → HomeMoves (exec (.pute h) s) s h .putE h 1 left [(q, .putAck)] ∧
      (isPod h.line = false → laneIn s.carriage 0 = false →
        HomeWrites (exec (.putm h v) s) s h (.putM v) s.homeKey (State.isAgent q) v left [(q, .putAck)] ∧
        HomeWrites (exec (.puto h v) s) s h (.putO v) s.homeKey (State.isAgent q) v left [(q, .putAck)]) ∧
      (isPod h.line = false → laneIn s.carriage 0 = true → s.podAt h.line = DirEntry.idle → d.queue = [] → d.serving = none →
        ∀ e ∈ notices, e.2 ≠ .putE → ∃ t, exec e.1 s = .next t ∧ t.dirAt h.line = { DirEntry.idle with state := .P })) ∧
    ∀ e ∈ notices,
      (refused → HomeMoves (exec e.1 s) s h e.2 h 2 d [(q, .err false)]) ∧
      (¬refused → travels → HomeMoves (exec e.1 s) s h e.2 h 1 { d with held := d.held ++ [(h, e.2)] } []) ∧
      (¬refused → ¬travels → ¬own → HomeMoves (exec e.1 s) s h e.2 h 1 d [(q, .putAck)])) ∧
  (∀ (s : State) (h : Hdr) (nil : Bool),
    let d := s.dirAt h.line
    let r := exec (.invack h nil) s
    let x := s.memLine h.line
    h.pod = false →
    let refused := d.state = .P ∧ s.revokedFor false h.src h.line false = true
    (d.state ≠ .BInv → (¬refused → HomeMoves r s h (.invAck nil) h 1 d []) ∧ (refused → HomeMoves r s h (.invAck nil) h 2 d [(h.src, .err false)])) ∧
    (d.state = .BInv → 1 < d.acks → HomeMoves r s h (.invAck nil) h 1
      { d with acks := d.acks - 1, replied := h.src :: d.replied, stamp := State.maxD d.stamp h.stamp } []) ∧
    ∀ h0 : Hdr, d.state = .BInv → d.acks = 1 → d.queue = [] → d.held = [] → h0.line = h.line → h0.pod = false →
      let own : DirEntry := { DirEntry.idle with state := .X, owner := h0.src }
      (d.serving = some (h0, .getX) → HomeMoves r s h (.invAck nil) h0 1 own [(h0.src, .data x true), (h0.src, .grant)]) ∧
      (d.serving = some (h0, .upg) → HomeMoves r s h (.invAck nil) h0 1 own [(h0.src, .grant)])) ∧
  (∀ (s : State) (h h0 : Hdr) (dirty : Option LineData),
    let d := s.dirAt h.line
    let r := exec (.fwdack h dirty) s
    let base : DirEntry := { DirEntry.idle with state := if dirty = none then .S else .O, owner := if dirty = none then 0 else d.owner }
    let refused := d.state = .P ∧ s.revokedFor false h.src h.line false = true
    h.pod = false →
    (refused → HomeMoves r s h (.fwdAck dirty) h 2 d [(h.src, .err false)]) ∧
    (¬refused → s.fwdTravels h = true ∨ (d.fwdTo ≠ some h.src ∧ ∀ e ∈ d.held, e.1.src ≠ h.src) →
      HomeMoves r s h (.fwdAck dirty) h 1 d []) ∧
    (s.fwdTravels h = false → d.state = .BFwd → d.fwdTo = some h.src → d.queue = [] → d.held = [] → h0.line = h.line → h0.pod = false →
      s.isLost h0.src = false →
      (d.serving = some (h0, .getS) → HomeMoves r s h (.fwdAck dirty) h0 1
        (State.addParty (if dirty = none then State.addParty base d.owner else base) h0.src) []) ∧
      (d.serving = some (h0, .getX) ∨ d.serving = some (h0, .upg) → HomeMoves r s h (.fwdAck dirty) h0 1
        { DirEntry.idle with state := .X, owner := h0.src } [(h0.src, .grant)])) ∧
    ∀ v, s.fwdTravels h = false → d.state = .BInv → d.fwdTo = some h.src → 1 < d.acks → isPod h.line = false → d.drop = false →
      (∀ y, d.serving = some y → y.2 ≠ .getX ∧ y.2 ≠ .upg) →
      HomeWrites (exec (.fwdack h (some v)) s) s h (.fwdAck (some v)) s.homeKey (State.isAgent h.src) v
        { d with fwdTo := none, acks := d.acks - 1, replied := h.src :: d.replied, stamp := State.maxD d.stamp h.stamp } []) ∧
  ∀ (s : State) (h : Hdr) (tag : DTag) (parts : Store Acc) (n : Nat),
    let d := s.dirAt h.line
    let r := exec (.drpart h tag parts n) s
    let who := ((s.contributors (h, .drPart tag parts n)).filter (fun c => decide (c.2 ≠ 0))).map (fun c => c.1.src)
    let added : DirEntry := { d with accs := addAccs d.tag d.accs parts, stamp := State.maxD d.stamp h.stamp }
    let refused := d.state = .P ∧ s.revokedFor false h.src h.line false = true
    h.pod = false →
    ((∀ c ∈ s.combined, c.1 ≠ (h, .drPart tag parts n)) → 0 < n → who = [h.src]) ∧
    (d.state = .D → HomeMoves r s h (.drPart tag parts n) h 1 added []) ∧
    (d.state = .BMrg → n < d.acks → HomeMoves r s h (.drPart tag parts n) h 1
      (if n = 0 then added else { added with acks := d.acks - n, replied := who ++ d.replied }) []) ∧
    (d.state ≠ .D → d.state ≠ .BMrg → refused → HomeMoves r s h (.drPart tag parts n) h 2 d [(h.src, .err false)]) ∧
    (d.state ≠ .D → d.state ≠ .BMrg → ¬refused → HomeMoves r s h (.drPart tag parts n) h 1 d [])

/-- 13 R238, R240, R241, R243: a message for an agent leaves the device. Messages at a core's cache, for a line that no instruction of the core
waits for, by the state of its copy: an invalidation is answered, forwards and recalls send the data on and leave the state that the table
gives, a merge sends the partials, responses fill, grant and free, or answer the instructions that sent a request of their number; an
acknowledgement of a combined reduction is split to its contributors; an eviction sends its notice, a slice's takes the line back, and the
repetition of a refused request sends it again. -/
def Obligations.CacheMessages : Prop :=
  ∀ (s : State) (h : Hdr) (rq : BitVec 13) (v : LineData) (excl retry : Bool) (tag : DTag) (n : Nat),
    let core := h.dst.toNat
    let c := s.cacheAt core h.line
    let home : BitVec 13 := 0x1FFF
    let gone := CacheLine.none
    let to' := fun (st : CacheState) => { c with state := st }
    let kept := fun (dirty : Bool) => { c with state := CacheState.II, haveData := dirty }
    let at' := fun (i : Instr) (m : Msg) (c' : CacheLine) (out : List (BitVec 13 × Msg)) => CacheMoves (exec i s) s h m core c' out
    let ins := [CacheState.IS, .IM, .SM, .OM]
    let alone := ∀ c ∈ s.combined, c.1 ≠ (h, .redAck n)
    let leaves := fun (i : Instr) (m : Msg) => exec i s = .next { s with msgs := s.msgs.erase (h, m), outbox := s.outbox ++ [.coh h m] }
    h.pod = false →
    (4096 ≤ core → (leaves (.inv h) .inv ∧ leaves (.fwds h rq) (.fwdS rq) ∧ leaves (.fwdx h rq) (.fwdX rq) ∧
      (h.dst ≠ home → leaves (.recall h) .recall) ∧ leaves (.merge h) .merge) ∧
      (leaves (.data h v excl) (.data v excl) ∧ leaves (.grant h) .grant ∧ leaves (.grantd h tag) (.grantD tag) ∧
      leaves (.putack h) .putAck ∧ (alone → leaves (.redack h n) (.redAck n)) ∧ (h.dst ≠ home → leaves (.err h retry) (.err retry)))) ∧
    (∀ who, s.combined = [((h, .redAck n), who)] →
      let split := who.map (fun p => (({ h with dst := p.1.src, pod := p.1.pod, req := p.1.req }, .redAck p.2) : Hdr × Msg))
      let away := fun (y : Hdr × Msg) => if y.1.pod then decide (y.1.dst ≠ s.mySlot) else decide (4096 ≤ y.1.dst.toNat ∧ y.1.dst ≠ home)
      exec (.redack h n) s = .next { s with
        combined := [], msgs := s.msgs.erase (h, .redAck n) ++ split.filter (fun y => !away y)
        outbox := s.outbox ++ (split.filter away).map (fun y => .coh y.1 y.2) }) ∧
    (core < 4096 → h.req ≠ 0 → s.async = [] →
      let heard := fun (i : Instr) (m : Msg) (f : Sent → Option Sent) => ∃ t, exec i s = .next t ∧
        t = { s with wg := t.wg, lamport := t.lamport, msgs := s.msgs.erase (h, m) } ∧
        ∀ g k, t.spanAt g k = { s.spanAt g k with memWait := (s.spanAt g k).memWait.map (fun w => { w with sent := w.sent.filterMap f }) }
      let mine := fun (y : Sent) => y.line = h.line ∧ y.req = h.req
      let told := fun (i : Instr) (m : Msg) (x : Answer) => heard i m (fun y => some (if mine y then { y with resp := some x } else y))
      told (.data h v excl) (.data v excl) (.data v) ∧ told (.putack h) .putAck .ack ∧ (alone → told (.redack h n) (.redAck n) .ack) ∧
        told (.err h false) (.err false) (.err h.kind) ∧ heard (.err h true) (.err true) (fun y => if mine y then none else some y)) ∧
    (core < 4096 → rq.toNat < 4096 → c.defer = none → s.awaited core h.line = false →
    ((c.state = .S → at' (.inv h) .inv gone [(home, .invAck false)]) ∧
      (c.state = .IS → at' (.inv h) .inv { c with fillDead := true } [(home, .invAck false)]) ∧
      (c.state = .IM → at' (.inv h) .inv c [(home, .invAck false)]) ∧
      (c.state = .SM → at' (.inv h) .inv { c with state := .IM, haveData := false, haveGrant := false } [(home, .invAck false)]) ∧
      (c.state ∉ [CacheState.S, .IS, .IM, .SM] → at' (.inv h) .inv c [(home, .invAck true)])) ∧
    ((c.state = .E → at' (.fwds h rq) (.fwdS rq) (to' .S) [(rq, .data c.data false), (home, .fwdAck none)]) ∧
      (c.state = .M → at' (.fwds h rq) (.fwdS rq) (to' .O) [(rq, .data c.data false), (home, .fwdAck (some c.data))]) ∧
      (c.state = .O → at' (.fwds h rq) (.fwdS rq) c [(rq, .data c.data false)]) ∧
      (c.state = .MI → at' (.fwds h rq) (.fwdS rq) (kept true) [(rq, .data c.data false), (home, .fwdAck (some c.data))]) ∧
      (c.state = .EI → at' (.fwds h rq) (.fwdS rq) (kept false) [(rq, .data c.data false), (home, .fwdAck none)]) ∧
      (c.state = .II → at' (.fwds h rq) (.fwdS rq) c [(rq, .data c.data false), (home, .fwdAck (if c.haveData then some c.data else none))])) ∧
    ((c.state ∈ [CacheState.E, .M, .O] → at' (.fwdx h rq) (.fwdX rq) gone [(rq, .data c.data true), (home, .fwdAck none)]) ∧
      (c.state = .MI → at' (.fwdx h rq) (.fwdX rq) (kept true) [(rq, .data c.data true), (home, .fwdAck (some c.data))]) ∧
      (c.state = .EI → at' (.fwdx h rq) (.fwdX rq) (kept false) [(rq, .data c.data true), (home, .fwdAck none)])) ∧
    ((c.state = .E → at' (.recall h) .recall gone [(home, .fwdAck none)]) ∧
      (c.state ∈ [CacheState.M, .O] → at' (.recall h) .recall gone [(home, .fwdAck (some c.data))]) ∧
      (c.state = .MI → at' (.recall h) .recall (kept true) [(home, .fwdAck (some c.data))]) ∧
      (c.state = .EI → at' (.recall h) .recall (kept false) [(home, .fwdAck none)])) ∧
    ((∀ e ∈ ([(.fwds h rq, .fwdS rq), (.fwdx h rq, .fwdX rq), (.recall h, .recall)] : List (Instr × Msg)),
        c.state ∈ ins ∨ c.state = .ID → at' e.1 e.2 { c with defer := some (h, e.2) } []) ∧
      (c.state = .D → at' (.merge h) .merge gone [(home, .drPart c.tag c.accs 1)]) ∧
      (c.state = .ID → at' (.merge h) .merge { c with defer := some (h, .merge) } []) ∧
      (c.state ≠ .D → c.state ≠ .ID → at' (.merge h) .merge c [(home, .drPart c.tag [] 1)])) ∧
    (h.req = 0 → (c.state = .IS → c.fillDead = false → at' (.data h v excl) (.data v excl)
        { c with state := if excl then .E else .S, data := v, fillDead := false, owed := false, refused := false } []) ∧
      (c.state = .IS → c.fillDead = true → at' (.data h v excl) (.data v excl) { c with haveData := true, data := v } []) ∧
      (c.state = .IM → at' (.data h v excl) (.data v excl)
        { c with state := if c.haveGrant then .M else .IM, data := v, haveData := !c.haveGrant, haveGrant := false
                 owed := false, refused := false } [])) ∧
    ((c.state = .IM → at' (.grant h) .grant
        { c with state := if c.haveData then .M else .IM, haveGrant := !c.haveData, haveData := false, owed := false, refused := false } []) ∧
      (c.state ∈ [CacheState.SM, .OM] → at' (.grant h) .grant { c with state := .M, owed := false, refused := false } []) ∧
      (c.state = .ID → at' (.grantd h tag) (.grantD tag) { gone with state := .D, tag := tag } [])) ∧
    (h.req = 0 → (c.state ∈ [CacheState.MI, .EI, .II] → at' (.putack h) .putAck gone []) ∧
      (c.state ∉ [CacheState.MI, .EI, .II] → at' (.putack h) .putAck c []) ∧
      (alone → at' (.redack h n) (.redAck n) c []) ∧
      (c.state ∈ ins ∨ c.state = .ID → at' (.err h retry) (.err retry)
        (if retry then { c with refused := true } else { gone with failed := some h.kind, asker := c.asker }) []) ∧
      (c.state ∉ ins → c.state ≠ .ID → at' (.err h retry) (.err retry) c []))) ∧
    ∀ (k : Nat),
      let y := s.cacheAt k h.line
      let own := fun (i : Instr) (g : Hdr) (c' : CacheLine) (out : List Msg) => ∃ t, exec i s = .next t ∧
        t = { s with cache := t.cache, perf := t.perf, msgs := s.msgs ++ out.map (fun m => (g, m)) } ∧
        t.cacheAt k h.line = c' ∧
        ∀ j n, n < 2 ^ 53 → h.line < 2 ^ 53 → (j ≠ k ∨ n ≠ h.line) → t.cacheAt j n = s.cacheAt j n
      let away := fun (c' : CacheLine) (out : List Msg) => own (.cacheEviction k h.line) (s.fromCore k home h.line) c' out
      let again := fun (m : Msg) => own (.requestRetry k h.line) (s.fromCoreFor k h.line y.asker) { y with refused := false } [m]
      let d := s.dirAt h.line
      (k < 4096 → s.awaited k h.line = true → exec (.cacheEviction k h.line) s = .next s) ∧
      (k < 4096 → s.awaited k h.line = false →
        (y.state = .S → away gone []) ∧ (y.state = .E → away { y with state := .EI } [.putE]) ∧
        (y.state = .M → away { y with state := .MI } [.putM y.data]) ∧ (y.state = .O → away { y with state := .MI } [.putO y.data]) ∧
        (y.state = .D → away gone [.drPart y.tag y.accs 0])) ∧
      (4096 ≤ k → isPod h.line = false → s.podAt h.line = DirEntry.idle →
        let ps := (State.members d).filter (fun p => !s.isLost p)
        let owned := d.state = .X ∨ d.state = .O
        (d.state ∈ [HomeState.S, .X, .O] → ∃ t, exec (.cacheEviction k h.line) s = .next t ∧
          t = { s with dir := t.dir, msgs := t.msgs, outbox := t.outbox, driftOrder := t.driftOrder } ∧
          (∀ j, j ≠ h.line → t.dirAt j = s.dirAt j) ∧
          t.dirAt h.line = (if ps = [] ∧ ¬owned then { DirEntry.idle with queue := d.queue, held := d.held } else
            { d with state := .BInv, acks := ps.length + (if owned then 1 else 0), serving := none, requester := 0
                     fwdTo := if owned then some d.owner else none, replied := [], before := d.state }) ∧
          HomeSends s t h.line 0 1 (ps.map (fun p => (p, .inv)) ++ (if owned then [(d.owner, .recall)] else []))) ∧
        (d.state ∉ [HomeState.S, .X, .O] → exec (.cacheEviction k h.line) s = .next s)) ∧
      (k < 4096 → y.refused = false → exec (.requestRetry k h.line) s = .next s) ∧
      (k < 4096 → y.refused = true → (y.state = .IS → again .getS) ∧ (y.state = .IM → again .getX) ∧
        (y.state ∈ [CacheState.SM, .OM] → again .upg) ∧ (y.state = .ID → again (.drGet y.tag)))

/-- 13 R247, R248, R233: a core or agent that misses five heartbeats, or that the firmware reports, is lost: a line that it owned is
poisoned, it leaves the sharers of a line in S, and a line in D keeps the mark of a lost holder; a lost device the same in the pod directory.
A lost device's slot is no longer reachable, and its waiters go. A party already lost changes nothing. 13 R248: an extent revoked from a host:
its new requests there meet Err, and the line that it owns is recalled; when it has not answered in time the line is poisoned. A timeout with no
such revocation changes nothing. 11 R188: a line or a granule whose data prove wrong is poisoned. -/
def Obligations.LostPartiesAndRevocations : Prop :=
  (∀ (s : State) (p : Party) (line : Nat) (d : DirEntry),
     let both := fun (f : Res → Prop) => f (exec (.heartbeatMiss p) s) ∧ f (exec (.firmwareReportsLost p) s)
     let still := d.queue = [] ∧ d.held = [] ∧ d.serving = none ∧ d.fwdTo = none ∧ d.coarse = false ∧ isPod line = false ∧
       ∀ m ∈ s.msgs, m.1.line ≠ line
     let idle := DirEntry.idle
     (p ∈ s.lost → both (fun r => r = .next s)) ∧
     (∀ n, p ∉ s.lost → p = .device n → (∀ r ∈ s.remote, (∀ x, r.packet.kind ≠ .waitq x) ∧ ∀ x, r.packet.kind ≠ .wake x) →
       let q : BitVec 13 := BitVec.ofNat 13 n
       let gone := fun (t : State) => t.lost = s.lost ++ [p] ∧ (∀ k, k ∈ t.slotDown ↔ k ∈ s.slotDown ∨ k = n) ∧
         (∀ w ∈ t.waitq, ∀ x ∈ w.nodes, State.nodePeer x ≠ some n) ∧ t.msgs = s.msgs.filter (fun m => !(m.1.pod && m.1.src == q))
       (s.pod = [] → s.dir = [] → both (fun r => ∃ t, r = .next t ∧ gone t ∧
         t = { s with lost := t.lost, slotDown := t.slotDown, waitq := t.waitq, msgs := t.msgs })) ∧
       (s.pod = [(line, d)] → still → s.dirAt line = idle → q ≠ s.mySlot → (∀ e ∈ s.dir, ∀ x ∈ e.2.queue, x.1.pod = false) →
         let to' := fun (x y : DirEntry) => both (fun r => ∃ t, r = .next t ∧ gone t ∧ t.podAt line = x ∧ t.dirAt line = y ∧ ∀ k, k ≠ line → t.dirAt k = s.dirAt k)
         ((d.state = .X ∨ d.state = .O) → d.owner = q → to' idle { idle with state := .P }) ∧
         (d.state = .S → q ∈ d.ptrs → to' { d with ptrs := d.ptrs.filter (fun x => x ≠ q), state := if ∀ x ∈ d.ptrs, x = q then .I else .S } idle) ∧
         (d.state = .D → q ∈ d.ptrs → to' { d with lostHolder := true } idle))) ∧
     ∀ q, p ∉ s.lost → partyPtr p = some q → s.dir = [(line, d)] → still → s.podAt line = idle →
       let to' := fun (d' : DirEntry) => both (fun r => ∃ t : State, r = .next t ∧ t.lost = s.lost ++ [p] ∧ t.dirAt line = d' ∧
         t.msgs = s.msgs.filter (fun m => m.1.pod || (m.1.src ≠ q && m.1.dst ≠ q)) ∧ ∀ n, n ≠ line → t.dirAt n = s.dirAt n)
       ((d.state = .X ∨ d.state = .O) → d.owner = q → to' { idle with state := .P }) ∧
       (d.state = .S → q ∈ d.ptrs →
         to' { d with ptrs := d.ptrs.filter (fun x => x ≠ q), state := if ∀ x ∈ d.ptrs, x = q then .I else .S }) ∧
       (d.state = .D → q ∈ d.ptrs → to' { d with lostHolder := true })) ∧
  (∀ (s : State) (host first count line : Nat) (d : DirEntry),
     let p := BitVec.ofNat 13 host
     let pod := State.hostPod host
     let r := exec (.extentRevoke host first count) s
     let late := exec (.revocationTimeout host first count) s
     let none' := ∀ n, first ≤ n → n < first + count → s.recordsHost pod n p = false
     (∃ t, r = .next t ∧ t.revoked = s.revoked ++ [⟨host, first, count, false⟩] ∧
       (pod = true ∨ 0x1000 ≤ p.toNat → ∀ n, first ≤ n → n < first + count → t.revokedFor pod p n false = true)) ∧
     (none' → ∃ t, r = .next t ∧ t = { s with revoked := t.revoked }) ∧
     (s.dir = [(line, d)] → pod = false → first ≤ line → line < first + count → d.state = .X → d.owner = p → d.ptrs = [] → d.coarse = false →
       s.podAt line = DirEntry.idle → ∃ t, r = .next t ∧
         t.dirAt line = { d with state := .BInv, acks := 1, serving := none, before := .X, fwdTo := some p, replied := [] } ∧
         HomeSends s t line 0 1 [(p, .recall)]) ∧
     ((∀ x ∈ s.revoked, ¬(x.host = host ∧ x.first = first ∧ x.count = count ∧ x.lapsed = false)) → late = .next s) ∧
     ((⟨host, first, count, false⟩ : Revoked) ∈ s.revoked →
       (none' → ∃ t, late = .next t ∧ t = { s with revoked := t.revoked } ∧ (⟨host, first, count, true⟩ : Revoked) ∈ t.revoked) ∧
       (s.dir = [(line, d)] → pod = false → isPod line = false → s.podAt line = DirEntry.idle → first ≤ line → line < first + count → d.queue = [] → d.serving = none →
         s.recordsHost pod line p = true → ∃ t, late = .next t ∧ t.dirAt line = { DirEntry.idle with state := .P } ∧
         (⟨host, first, count, true⟩ : Revoked) ∈ t.revoked))) ∧
  (∀ (s : State) (n k : Nat), let d := s.dirAt n
     s.podAt n = DirEntry.idle → d.queue = [] → d.serving = none → ∃ t, perform s (.lineFails n k) = .next t ∧
       (isPod n = false → t.dirAt n = { DirEntry.idle with state := .P }) ∧
       (isPod n = true → t.dirAt n = DirEntry.idle ∧ t.proxyAt n = CacheLine.none ∧ ∃ h, OutMsg.coh h (.err false) ∈ t.outbox ++ t.msgs.map (fun e => .coh e.1 e.2) ∧
         h.line = n ∧ h.dst = s.podHome n ∧ h.pod = true) ∧
       ∀ core, core < 4096 → n < 2 ^ 53 → t.cacheAt core n = CacheLine.none) ∧
  ∀ (s : State) (place i : Nat), ∃ t, perform s (.granFails place i) = .next t ∧ t.gran place i = { s.gran place i with poison := true }

/-! ## The pod, scale-out, tables and sinks -/

/-- 19 R334, R336-R338, R341, R342, R346, 15 R276, 17 R306: a link that goes down or comes up has its state and its record, its bit of the
path bitmap, and the parties behind it lost or back, and a new hop-mode key where the pod is one trust domain; at 2^48 flits under a key the link
is trained again under a new one; an unacknowledged scale-out packet is sent again; a window's key is replaced with a time of grace, and its
packets are counted anew; a tray window doubles after 1,024 responses of low load, up to its limit. -/
def Obligations.LinksAndKeys : Prop :=
  ∀ (s : State) (n : Nat),
    let P := fun (t : State) => Store.get Port.reset t.port n
    let u := if n < 72 then (10, n) else (11, n - 72)
    let slot := 32 * s.groupId + (if n / 2 < s.slotId then n / 2 else n / 2 + 1)
    let bit := 10 * s.slotId + (n - 62)
    let bits' := fun (t : State) (v : Bool) => ∀ k i, i < 320 →
      (Store.get 0 t.pathBits k).getLsbD i = if k = s.groupId ∧ i = bit then v else (Store.get 0 s.pathBits k).getLsbD i
    let down := exec (.linkDown n) s
    let up := exec (.linkUp n) s
    (92 ≤ n ∨ (P s).link = 0 → down = .next s) ∧
    ((P s).link ≠ 0 →
      (n < 88 → ∃ t, down = .next t ∧ P t = { P s with link := 0 } ∧
        (62 ≤ n ∨ (s.pod = [] ∧ s.remote = []) → Recorded s t 0x40 u.1 u.2 0 0)) ∧
      (62 ≤ n → n < 72 → bit < 320 → ∃ t, down = .next t ∧ bits' t false ∧ t.lost = s.lost) ∧
      (n < 62 → (s.portUp (2 * (n / 2)) = true ∧ 2 * (n / 2) ≠ n) ∨ (s.portUp (2 * (n / 2) + 1) = true ∧ 2 * (n / 2) + 1 ≠ n) →
        ∃ t, down = .next t ∧ t.lost = s.lost ∧ t.slotDown = s.slotDown) ∧
      (n < 62 → ¬((s.portUp (2 * (n / 2)) = true ∧ 2 * (n / 2) ≠ n) ∨ (s.portUp (2 * (n / 2) + 1) = true ∧ 2 * (n / 2) + 1 ≠ n)) →
        Party.device slot ∉ s.lost → ∃ t, down = .next t ∧ Party.device slot ∈ t.lost ∧ slot ∈ t.slotDown) ∧
      (88 ≤ n → n < 92 → ∃ t, down = .next t ∧ P t = { P s with link := 0 } ∧ ∀ i, i < 4 → Party.agent (4 * (n - 88) + i) ∈ t.lost)) ∧
    (92 ≤ n → up = .next s) ∧
    (n < 72 → ∃ t, up = .next t ∧ P t = ⟨2, if s.hopOn = true then (P s).hopKey + 1 else 0, 0⟩ ∧ Recorded s t 0x40 u.1 u.2 2 0 ∧
      (n < 62 → Party.device slot ∉ t.lost ∧ (Party.device slot ∈ s.lost → slot ∉ t.slotDown)) ∧ (62 ≤ n → bit < 320 → bits' t true)) ∧
    (72 ≤ n → n < 88 → ∃ t, up = .next t ∧ P t = { P s with link := 2 } ∧ Recorded s t 0x40 u.1 u.2 2 0) ∧
    (88 ≤ n → n < 92 → ∃ t, up = .next t ∧ P t = { P s with link := 2 } ∧ ∀ i, i < 4 → Party.agent (4 * (n - 88) + i) ∉ t.lost) ∧
    (72 ≤ n ∨ (P s).hopKey = 0 ∨ (P s).flits < 2 ^ 48 → exec (.hopKeyChange n) s = .next s) ∧
    (n < 72 → (P s).hopKey ≠ 0 → 2 ^ 48 ≤ (P s).flits → ∃ t, exec (.hopKeyChange n) s = .next t ∧ t = { s.traced t with port := t.port } ∧ P t = ⟨2, (P s).hopKey + 1, 0⟩ ∧
      ∃ a b, t.records = s.records ++ [a, b] ∧ (a.typ, a.idx, a.w2) = (0x40, n, 1) ∧ (b.typ, b.idx, b.w2) = (0x40, n, 2)) ∧
    (∀ die r, s.remote = [r] → (r.tag = n ∧ r.die = die ∧ r.scaleOut = true → ∃ t, exec (.retransmission die n) s = .next t ∧
        t = { s.traced t with outbox := s.outbox ++ [.packet r.packet] } ∧
        Recorded s t 0x41 11 die (BitVec.ofNat 64 n) (r.packet.rank.setWidth 64)) ∧
      (r.tag ≠ n ∨ r.die ≠ die ∨ r.scaleOut = false → exec (.retransmission die n) s = .next s)) ∧
    (∀ k key,
      let w := Store.get Window.none (s.pk k).window n
      let set := fun (r : Res) (w' : Window) (counts : Store Nat) => ∃ t, r = .next t ∧ t = { s with paddock := t.paddock, pktCount := counts } ∧
        (∀ j, j ≠ k → t.pk j = s.pk j) ∧ t.pk k = { s.pk k with window := (t.pk k).window } ∧
        ∀ j, Store.get Window.none (t.pk k).window j = if j = n then w' else Store.get Window.none (s.pk k).window j
      (w.valid = true → set (exec (.windowKeyReplace k n key) s) { w with oldKey := some w.key, key := key }
          (s.pktCount.filter (fun e => e.1 ≠ key.toNat)) ∧
        set (exec (.oldKeyTimeout k n) s) { w with oldKey := none } s.pktCount) ∧
      (w.valid = false → exec (.windowKeyReplace k n key) s = .next s ∧ exec (.oldKeyTimeout k n) s = .next s)) ∧
    ((Store.get TrayWindow.reset s.tray n).lows < 1024 → exec (.trayWindowDouble n) s = .next s) ∧
    (1024 ≤ (Store.get TrayWindow.reset s.tray n).lows → ∃ t, exec (.trayWindowDouble n) s = .next t ∧ t = { s with tray := t.tray } ∧
      ∀ k, Store.get TrayWindow.reset t.tray k =
        let x := Store.get TrayWindow.reset s.tray k
        if k = n then ⟨x.limit, min x.limit (2 * x.size), 0⟩ else x)

/-- 10 R180, 19 R339-R341, 16 R291: a packet for no admitted launch, no window, or with a wrong key, size, mode or end is refused with code 0A
and changes nothing else; one with a wrong tag is logged as well; at the setup of a connection reliable unordered delivery alone is accepted. A
packet that passes walks by the target's tables, page by page; while a line of it is busy it waits; a write whose carriage check fails is
refused and poisons its line; else it writes or reads its bytes, acts as its atomics or adds to a drift line, checks a waiter word or wakes
waiters (14 R262), and is acknowledged; a write counts as landed, and so does a pod peer's notice, which is not answered. 11 R212, R188, 16
R291, 15 R281: an acknowledgement of a kept packet frees it: a store's bytes count where they count, a refused store is logged, with a record; a
unit of an operation lands with it, or fails with code 0A; data of a read become the unit's source; the answer to a load, or for a peer's waiter
word, reaches the instruction that waits for it. -/
def Obligations.RemoteTraffic : Prop :=
  (∀ (s : State) (p : Packet),
     let s0 := { s with inbox := s.inbox.erase p }
     let r := exec (.remotePacket p) s
     let n := packetSize p
     let owner := s0.ownerLaunch p.job p.rank.toNat
     let silent : Bool := match p.kind with
       | .landed _ | .unwait _ => true
       | _ => false
     let answers := fun (u : State) (c : Byte) (kind : Nat) (data : List Byte) => ∃ x, (p.far = true → x = 0) ∧
       r = .next (if silent then u else { u with outbox := u.outbox ++ [.ack p.peer p.tag c kind x data] })
     let refused := fun (kind : Nat) => answers s0 0x0A kind []
     let fits := 1 ≤ n ∧ n ≤ 4096 ∧ p.off / 4096 = (p.off + n - 1) / 4096 ∧ packetAligned p = true
     let sealed := fun (w : Window) => (p.mode = .page ∧ (p.key = w.key ∨ w.oldKey = some p.key)) ∨
       (p.mode = .hop ∧ p.far = false ∧ s.hopOn = true) ∨ (p.mode = .clear ∧ p.far = false)
     (p.kind = .connect 0 → ∃ u, answers u 0 0 [] ∧ u = { s0 with connected := u.connected } ∧ ∀ x, x ∈ u.connected ↔ x ∈ s.connected ∨ x = p.peer) ∧
     (∀ k, p.kind = .connect k → k ≠ 0 → refused 5) ∧
     ((∀ k, p.kind ≠ .connect k) → p.auth = false → ∃ u, answers u 0x0A 0 [] ∧ u.launch = s.launch ∧ ∀ k,
       Store.wf Paddock.none s.paddock = true → (s.pk k).cfg.valid = true → (∀ l, owner = some l → k = l.paddock) →
         ((s.pk k).errHead - (s.pk k).errTail).toNat ≠ 4096 →
         s.hbmDown (((s.pk k).cfg.errBase + 32 * ((s.pk k).errHead.toNat % 4096)) / 128) = false → (u.pk k).errHead = (s.pk k).errHead + 1) ∧
     ((∀ k, p.kind ≠ .connect k) → p.auth = true → (owner = none → refused 5) ∧ ∀ l, owner = some l →
       (s0.windowOf l.paddock l.serial p.region.toNat = none → refused 5) ∧
       ∀ i w, s0.windowOf l.paddock l.serial p.region.toNat = some (i, w) →
         let base := w.base.toNat + p.off
         let walk := fun (va : Nat) => s0.translateL2 (State.dieOf l.home) l.asid va (packetAccess p.kind) false
         let go := s0.packetPieces l base n (packetAccess p.kind)
         let first := 2 ^ 19 - base % 2 ^ 19
         (∀ x : Xlat, n ≤ first → walk base = (s0, .ok x) → go = (s0, .ok (State.pieces 34 x.pa n))) ∧
         (∀ x y : Xlat, first < n → walk base = (s0, .ok x) → walk (base + first) = (s0, .ok y) →
           go = (s0, .ok (State.pieces 34 x.pa first ++ State.pieces 34 y.pa (n - first)))) ∧
         (¬fits ∨ w.size < p.off + n ∨ ¬sealed w → refused 5) ∧
         (∀ s1 c, fits → p.off + n ≤ w.size → sealed w → go = (s1, .error c) → answers s1 0x0A 5 []) ∧
         ∀ pa, fits → p.off + n ≤ w.size → sealed w → go = (s0, .ok [(pa, n)]) → pa % 128 + n ≤ 128 →
           let line := pa / 128
           let y := s.lineView line
           let key := State.waiterKey pa (State.packetJob p)
           let others := fun (u : State) => ∀ k, k ≠ line → u.lineView k = s.lineView k
           let placed := fun (u : State) => (Store.get Window.none (u.pk l.paddock).window i).landed
           (s.unreachable pa = true → refused (if pa / 2 ^ 56 = 1 then 3 else 4)) ∧
           (s.unreachable pa = false →
             (∀ k, p.kind = .landed k → ∃ u, answers u 0 0 [] ∧ u = { s0 with paddock := u.paddock } ∧ placed u = placed s + BitVec.ofNat 64 n) ∧
             (∀ k, p.kind = .wake k → ∃ u, answers u 0 0 (wordBytes (min k (((s.queueAt key).map (fun q => q.nodes.length)).getD 0)))) ∧
             ((s.dirAt line).state = .BFwd ∨ (s.dirAt line).state = .BMrg → (∀ k, p.kind ≠ .landed k ∧ p.kind ≠ .wake k ∧ p.kind ≠ .unwait k) →
               ∃ t, r = .next t ∧ t.inbox = s.inbox.erase p ++ [p] ∧ t.outbox = s.outbox ∧ t.mem = s.mem) ∧
             (SettledHere s0 line →
               (∀ bs, p.kind = .write bs → State.badGranules p bs [(pa, n)] = [] → ∃ u, answers u 0 0 [] ∧ placed u = placed s + BitVec.ofNat 64 n ∧
                 (∀ b, b < 128 → lineByte (u.lineView line) b = if pa % 128 ≤ b ∧ b < pa % 128 + n then bs.getD (b - pa % 128) 0 else lineByte y b) ∧
                 others u) ∧
               (∀ bs, p.kind = .write bs → State.badGranules p bs [(pa, n)] ≠ [] → ∃ u, answers u 0x0A 0 [] ∧ (u.dirAt line).state = .P ∧
                 placed u = placed s) ∧
               (∀ k, p.kind = .read k → ∃ u, answers u 0 0 ((List.range n).map (fun j => lineByte y (pa % 128 + j))) ∧
                 ∀ k, u.lineView k = s.lineView k) ∧
               (∀ rs, p.kind = .amo rs → ∃ u, answers u 0 0 ((rs.zip (State.amoLine rs y).2).flatMap (fun e =>
                   (List.range (State.amoSize e.1.op)).map (fun j => BitVec.ofNat 8 (e.2 / 256 ^ j % 256)))) ∧
                 u.lineView line = (State.amoLine rs y).1 ∧ others u) ∧
               (∀ x, p.kind = .waitq x →
                 (lineBytes y (pa % 128) 4 ≠ x.toNat → ∃ u, answers u 0 0 [0] ∧ u.waitq = s.waitq) ∧
                 (lineBytes y (pa % 128) 4 = x.toNat → s.queueAt key = none → (s.waitq.filter (fun q => q.paddock == l.paddock)).length < 1024 →
                   ∃ t, r = .next t ∧ t.waitq = s.waitq ++ [⟨key, pa, State.packetJob p, l.paddock, [State.peerNode p.peer p.tag]⟩])) ∧
               ∀ g o v, p.kind = .dred g o v → s.driftRoom line = true → s.podAt line = DirEntry.idle → ∃ u, answers u 0 0 [] ∧
                 (u.dirAt line).state = .D ∧ (u.dirAt line).tag = g ∧ ∀ e, e < 128 / dtagWidth g →
                   Store.get 0 (u.dirAt line).accs e = let b := Store.get 0 (baseAccs g y) e
                     if e = pa % 128 / dtagWidth g then accAdd g b (accOf g v) else b)))) ∧
  (∀ (s : State) (r : RemoteReq) (code : Byte) (kind : Nat) (stamp : Dword) (data : List Byte),
     let ack := fun (c : Byte) (b : AckBody) => exec (.remoteAck ⟨r.tag, c, kind, stamp, b⟩) s
     let left := { s with remote := s.remote.filter (fun x => x.tag ≠ r.tag) }
     let counted := if r.counts then left.acked r.paddock r.serial (bits r.addr 40 36) r.size else left
     let asked := fun (p : Nat) => some (p, BitVec.ofNat 64 (2 ^ 62 + r.tag % 2 ^ 62))
     (∀ b, (∀ x ∈ s.remote, x.tag ≠ r.tag) → ack code b = .next s) ∧
     (s.remote.head? = some r →
       (∃ t, ack 0 .store = .next t ∧ t = { counted with congestion := t.congestion }) ∧
       (code ≠ 0 → ∃ t, ack code .store = .next t ∧ t.remote = left.remote ∧
         (((s.pk r.paddock).errHead - (s.pk r.paddock).errTail).toNat ≠ 4096 →
           s.hbmDown (((s.pk r.paddock).cfg.errBase + 32 * ((s.pk r.paddock).errHead.toNat % 4096)) / 128) = false →
           (t.pk r.paddock).errHead = (s.pk r.paddock).errHead + 1) ∧
         ∃ x, t.records = s.records ++ [x] ∧ x.typ = 0x4B ∧ x.w2 = r.addr ∧ x.w3 = BitVec.ofNat 64 (10 + 256 * kind)) ∧
       (∀ v, Canonical s → ∃ t, ack code (.waiter v) = .next t ∧ t.remote = left.remote ∧ t.mem = s.mem ∧
         ∀ g k c p, c ∈ (s.spanAt g k).clauses → c.arg = asked p →
           { c with arg := some (p, BitVec.ofNat 64 (2 ^ 63 + 2 ^ 40 * code.toNat + v % 2 ^ 32)) } ∈ (t.spanAt g k).clauses) ∧
       (∃ t, ack code (.load data) = .next t ∧ t.remote = left.remote ∧ t.mem = s.mem ∧ ∀ g k, t.spanAt g k = { s.spanAt g k with
         memWait := (s.spanAt g k).memWait.map (fun w => { w with sent := w.sent.map (fun y => if 2 ^ 58 ≤ y.line ∧ y.req = r.tag then
           { y with resp := some (if code = 0 then .bytes data else .err kind) } else y) }) }) ∧
       ∀ n u op x, s.asyncAt n = some op → op.units[u]? = some x → x.sent = some r.tag →
         (code ≠ 0 → op.err = none → (∃ y ∈ op.units.eraseIdx u, y.st = .pending) → ∃ t, ack code (.unit n u data) = .next t ∧
           t.remote = left.remote ∧ ∃ op', t.asyncAt n = some op' ∧ op'.err = some ⟨op.num, 0x0A, r.addr⟩ ∧
             op'.units = op.units.modify u (fun y => { y with st := .failed, sent := none })) ∧
         (∀ k, r.packet.kind = .read k → ∃ t, ack 0 (.unit n u data) = .next t ∧ t = { left with async := t.async, congestion := t.congestion } ∧
           ∃ op', t.asyncAt n = some op' ∧ op'.units = op.units.modify u (fun y => { y with src := .data (bytesNat data), sent := none })) ∧
         ((∀ k, r.packet.kind ≠ .read k) → (∃ y ∈ op.units.eraseIdx u, y.st = .pending) →
           ∃ t, ack 0 (.unit n u data) = .next t ∧ t.remote = left.remote ∧
             ∃ op', t.asyncAt n = some op' ∧ op'.units = op.units.modify u (fun y => { y with st := .landed, sent := none }))))

/-- 15 R279, 01 R16, 15 R285: an entry of the paddock table is applied between clauses of the paddock, and waits until then. It is taken whole when it
obeys the limits, its ASIDs are free and the paddock may stand where it says, resident or held; else it changes nothing; reserved filter bits stay
zero. 15 R281: the error log's tail stays within the ring. 15 R273, R276, 16 R296, 17 R307, 19 R336, R342, 00 R5: each table is written within
its limits, RC fields are cleared by a read, WO fields read as zero. 15 R283: a readback gives eight bytes of a unit's state and changes nothing
that it reads; an unused unit class reads as zero; it waits for an outstanding register (04 R62). Which item an offset names is free (log 23). -/
def Obligations.TablesAndRegisters : Prop :=
  ∀ (s : State) (n i : Nat),
    let p := s.pk n
    let only := fun (r : Res) (q : Paddock) => ∃ t, r = .next t ∧ t = { s with paddock := t.paddock } ∧ t.pk n = q ∧ ∀ k, k ≠ n → t.pk k = s.pk k
    let same := fun (r : Res) => r = .next s
    let reg := fun (w : RegWriteReq) => exec (.registerWrite w) s
    (∀ c0 : PaddockCfg,
      let r := exec (.paddockTableWrite n c0) s
      let c := cfgWritten c0
      let others := s.paddock.filter (fun e => e.1 != n && e.2.cfg.valid && overlaps e.2.cfg c)
      let between := s.betweenAll n = true ∧ ∀ e ∈ s.cfgWait, e.1 ≠ n
      let swapping := ∃ q ∈ s.swap, q.1 = some n ∨ q.2 = some n
      let stands := ((∀ e ∈ s.wg, e.2.paddock = n → e.2.res = .none ∨ e.2.res = .ended) ∧ ¬swapping ∧ s.inSwap c = false) ∨
        (sameRect p.cfg c = true ∧ p.held = c.away)
      (c = { c0 with rimeFilter := c.rimeFilter } ∧
        ∀ k, k < 128 → c.rimeFilter.getLsbD k = if k ≤ 48 ∨ 124 ≤ k then false else c0.rimeFilter.getLsbD k) ∧
      (64 ≤ n → same r) ∧
      (n < 64 → ¬between → r = .next { s with cfgWait := s.cfgWait ++ [(n, c)] }) ∧
      (n < 64 → between →
        (s.pinnedChange n c = true ∨ cfgLegal c = false → same r) ∧
        (s.pinnedChange n c = false → cfgLegal c = true →
          (c.valid = false → (swapping → same r) ∧ (¬swapping → only r { p with cfg := c, resident := false, held := false })) ∧
          (c.valid = true → s.asidsFree n c = false ∨ 2 ≤ others.length → same r) ∧
          (c.valid = true → s.asidsFree n c = true → ¬stands → same r) ∧
          (c.valid = true → s.asidsFree n c = true → stands →
            (others = [] → only r { p with cfg := c, resident := !c.away, held := c.away }) ∧
            ∀ e, others = [e] →
              (sameRect e.2.cfg c = true → e.2.resident = c.away → only r { p with cfg := c, resident := !c.away, held := c.away }) ∧
              (sameRect e.2.cfg c = false ∨ e.2.resident ≠ c.away → same r))))) ∧
    (∀ v : Word, ((p.errHead - v).toNat ≤ 4096 → only (exec (.errorLogTailWrite n v) s) { p with errTail := v }) ∧
      (4096 < (p.errHead - v).toNat → same (exec (.errorLogTailWrite n v) s))) ∧
    (∀ e : Dword, (i < 4096 → only (reg (.rankException n i e)) { p with rankExc := Store.set 0 p.rankExc i e }) ∧
      (4096 ≤ i → same (reg (.rankException n i e)))) ∧
    (∀ e : BitVec 128, (i < 256 → (∀ x ∈ p.rankRange, x.1 ≠ i → rangesOverlap x.2 e = false) →
        only (reg (.rankRange n i e)) { p with rankRange := Store.set 0 p.rankRange i e }) ∧
      (256 ≤ i ∨ (∃ x ∈ p.rankRange, x.1 ≠ i ∧ rangesOverlap x.2 e = true) → same (reg (.rankRange n i e)))) ∧
    (∀ e : BitVec 320, (i < 4096 → only (reg (.rankMap n i e)) { p with rankMap := Store.set 0 p.rankMap i e }) ∧
      (4096 ≤ i → same (reg (.rankMap n i e))) ∧
      (i < 32 → reg (.pathBitmap i e) = .next { s with pathBits := Store.set 0 s.pathBits i e }) ∧ (32 ≤ i → same (reg (.pathBitmap i e)))) ∧
    (∀ e : BitVec 256, (i < 4 → reg (.entropy i e) = .next { s with entropy := Store.set 0 s.entropy i e }) ∧ (4 ≤ i → same (reg (.entropy i e))) ∧
      only (reg (.codeLoaded n e)) { p with codeHashes := p.codeHashes ++ [e] }) ∧
    (∀ c, (i < 256 → c < 4 → only (reg (.distanceClass n i c)) { p with rankClass := Store.set 0 p.rankClass i c }) ∧
      (256 ≤ i ∨ 4 ≤ c → same (reg (.distanceClass n i c)))) ∧
    ((12 ≤ i → i ≤ 26 → reg (.perfPeriod i) = .next { s with perfPeriod := i }) ∧ (i < 12 ∨ 26 < i → same (reg (.perfPeriod i)))) ∧
    (∀ limit, ∃ t, reg (.trayLimit i limit) = .next t ∧ t = { s with tray := t.tray } ∧
      ∀ k, Store.get TrayWindow.reset t.tray k = if k = i then ⟨limit, limit, 0⟩ else Store.get TrayWindow.reset s.tray k) ∧
    (∀ up, (1024 ≤ i → same (reg (.slotReachable i up))) ∧
      (i < 1024 → ∃ t, reg (.slotReachable i up) = .next t ∧ t = { s with slotDown := t.slotDown } ∧
        ∀ k, k ∈ t.slotDown ↔ (k ∈ s.slotDown ∧ k ≠ i) ∨ (k = i ∧ up = false))) ∧
    (∀ pod group slot, (pod < 4096 → group < 32 → slot < 32 →
        reg (.identity pod group slot) = .next { s with podId := pod, groupId := group, slotId := slot }) ∧
      (4096 ≤ pod ∨ 32 ≤ group ∨ 32 ≤ slot → same (reg (.identity pod group slot)))) ∧
    (∀ base, reg (.perfRingProvider base i) = .next { s with perfRingBase := base, perfRingLog2 := i, perfRingHead := 0 }) ∧
    (∀ l off, (i < 32 → 310 ≤ l → l < 320 → off < 32 → reg (.spareLink i l off) = .next { s with spareLink := Store.set 0 s.spareLink (320 * i + l) off }) ∧
      (32 ≤ i ∨ l < 310 ∨ 320 ≤ l ∨ 32 ≤ off → same (reg (.spareLink i l off)))) ∧
    (∀ a v, same (reg (.readOnly a v))) ∧
    (let reads := fun (w : RegWriteReq) (vs : List Dword) (t : State) => reg w = .next t ∧
       t = { s with readOut := s.readOut ++ vs, paddock := t.paddock, sink := t.sink }
     let k := s.sinkAt i
     (∃ t, reads (.readErrorLog n) [p.errTail ++ p.errHead, p.errLost.setWidth 64] t ∧ t.sink = s.sink ∧ t.pk n = { p with errLost := 0 } ∧
       ∀ j, j ≠ n → t.pk j = s.pk j) ∧
     (∃ t x, reads (.readSink i) [x, k.drops ++ k.limits, k.head ++ k.tail, k.base] t ∧ t.paddock = s.paddock ∧
       t.sinkAt i = { k with drops := 0, limits := 0 } ∧ (∀ j, j ≠ i → t.sinkAt j = s.sinkAt j) ∧
       bits x 55 40 = k.stallLimit.toNat ∧ bits x 39 32 = k.log2 % 256 ∧ bits x 31 9 = k.threshold % 2 ^ 23 ∧ x.getLsbD 8 = k.provider ∧
       bits x 7 2 = k.paddock % 64 ∧ x.getLsbD 1 = k.lossless ∧ x.getLsbD 0 = k.enable) ∧
     ∀ off, ∃ t, reads (.readLaunchWindow n off) [if off = 8 then BitVec.ofNat 64 p.placeResult else 0] t ∧ t.paddock = s.paddock ∧ t.sink = s.sink) ∧
    ∀ addr : Dword,
      let cls := bits addr 63 56
      let core := bits addr 55 44
      let item := Config.readbackItem addr
      (s.readbackHeld addr = true → exec (.readback addr) s = .next { s with readWait := s.readWait ++ [addr] }) ∧
      (s.readbackHeld addr = false → ∃ t v, exec (.readback addr) s = .next t ∧ t = { s with readOut := s.readOut ++ [v], paddock := t.paddock } ∧
        (14 < cls → v = 0 ∧ t.paddock = s.paddock) ∧ (cls = 9 → item < 2 ^ 43 → v.toNat = s.bytesAt (8 * item) 8) ∧
        v = BitVec.ofNat 64 (s.unitItem cls core item) ∧
        (∀ q e m x, s.unitPk 0 core = some q → e < 64 → m < 8 → x < 4096 → s.unitItem 0 core (2 ^ 27 * e + 2 ^ 24 * m + x) =
          (((s.wgAt (State.wgKey q core e)).spanAt m).vr (x / 32) (x % 32)).toNat) ∧
        ∀ k, t.pk k = if s.readbackOf addr = some k then { s.pk k with readbacks := (s.pk k).readbacks + 1 } else s.pk k)

/-- 19 R344, R345, 15 R282: power-good with verified images releases the dies, and halts without; a function reports its readiness once they
are released, no HBM stack before the spill area is reserved; a power cap within its limits is set; a die is throttled; a trip puts every
compute die's readiness to 4 and no launch lives. -/
def Obligations.BringUpAndHeat : Prop :=
  ∀ (s : State) (n : Nat) (st : BitVec 4),
    exec (.powerGood true) s = .next { s with powered := true, spillReserved := true, halted := false } ∧
    exec (.powerGood false) s = .next { s with halted := true } ∧
    (let r := exec (.readinessReport n st) s
     let is := n < 0x88 ∨ (0x100 ≤ n ∧ n < 0x1140)
     let hbm := 0x10 ≤ n ∧ n < 0x30
     (s.powered = true → is → st.toNat ≤ 4 → (s.spillReserved = true ∨ ¬hbm) → r = .next { s with readiness := Store.set 0 s.readiness n st }) ∧
     (s.powered = false ∨ ¬is ∨ 4 < st.toNat ∨ (s.spillReserved = false ∧ hbm) → r = .next s)) ∧
    (6000 ≤ n → n ≤ 11500 → exec (.powerCapSet n) s = .next { s with powerCap := n }) ∧
    (n < 6000 ∨ 11500 < n → exec (.powerCapSet n) s = .next s) ∧
    (n < 16 → ∃ t, exec (.thermalThrottle n) s = .next t ∧ t = { s with throttled := t.throttled } ∧
      ∀ k, k ∈ t.throttled ↔ k ∈ s.throttled ∨ k = n) ∧
    (16 ≤ n → exec (.thermalThrottle n) s = .next s) ∧
    ∃ t, exec .thermalTrip s = .next t ∧ t = { s with tripped := true, readiness := t.readiness, launch := t.launch } ∧
      (∀ k, Store.get 0 t.readiness k = if k < 16 then 4#4 else Store.get 0 s.readiness k) ∧
      ∀ k, (t.launchAt k).live = false ∧ (Store.wf Launch.none s.launch = true → t.launchAt k = { s.launchAt k with live := false })

/-- 17 R304, R307, R308, R310-R312, R315: the oldest record reaches the one enabled provider sink with room: its 32 bytes stand in the head's
slot, little-endian, the head rises and is mirrored; a full ring drops and counts it; a disabled one counts nothing. A descriptor and a
tail are taken within their limits or refused whole; a stall limit releases the stopped sources, and is counted. -/
def Obligations.RecordsReachSinks : Prop :=
  (∀ (r : Record) (e : Dword),
    let f := fun (b : Bool) (k : Nat) => if b then 2 ^ k else 0
    r.typ < 256 → r.unit < 256 → r.idx < 4096 → r.die < 16 → r.paddock.getD 0 < 64 →
    recBytes r e = (r.stamp - e).toNat + 2 ^ 64 * (r.typ + 2 ^ 8 * r.unit + 2 ^ 16 * r.idx + 2 ^ 28 * r.die + 2 ^ 32 * r.paddock.getD 0 +
      2 ^ 38 * r.ordinal.toNat + f r.raised 58 + f r.stalled 59 + f r.timing 60 + f r.paddock.isNone 61) +
      2 ^ 128 * r.w2.toNat + 2 ^ 192 * r.w3.toNat) ∧
  (∀ (s : State) (r : Record) (rs : List Record) (n : Nat) (k : Sink),
    s.records = r :: rs → s.sink = [(n, k)] → k.provider = true → s.cache = [] → s.msgs = [] → s.dir = [] → s.pod = [] → s.late = [] →
    Canonical s → k.base.toNat % 4096 = 0 → k.base.toNat < 2 ^ 55 → k.log2 ≤ 26 → k.lossless = false → k.gap = 0 → s.ready (0x1100 + n) = true →
    let used := (k.head - k.tail).toNat
    let at' := k.base.toNat + 128 + 32 * (k.head.toNat % 2 ^ k.log2)
    let x := exec .rimeRecord s
    s.hbmDown (k.base.toNat / 128) = false → s.hbmDown (at' / 128) = false →
    (k.enable = false → x = .next { s with records := rs }) ∧
    (k.enable = true → used < 2 ^ k.log2 → ∃ t, x = .next t ∧ t.records = rs ∧ t.bytesAt at' 32 = recBytes r s.deviceEpoch % 2 ^ 256 ∧
      t.bytesAt k.base.toNat 8 = (k.head + 1).toNat ∧ t.sinkAt n = { k with head := k.head + 1 } ∧
      ∀ a, (a < at' ∨ at' + 32 ≤ a) → (a < k.base.toNat ∨ k.base.toNat + 8 ≤ a) → t.byte a = s.byte a) ∧
    (k.enable = true → 2 ^ k.log2 ≤ used → ∃ t, x = .next t ∧ t = { s with records := rs, sink := t.sink } ∧
      t.sinkAt n = { k with drops := State.satInc k.drops, gap := 1, gapStamp := r.stamp })) ∧
  (∀ s : State, s.records = [] → exec .rimeRecord s = .next s) ∧
  ∀ (s : State) (n : Nat) (d : BitVec 256) (v : Word),
    let k := s.sinkAt n
    let base := bits d 255 192
    let limit := bits d 55 40
    let log2 := bits d 39 32
    let thr := bits d 31 9
    let legal := base % 4096 = 0 ∧ 1 ≤ limit ∧ limit ≤ 10000 ∧ 10 ≤ log2 ∧ log2 ≤ 26 ∧
      (d.getLsbD 1 = true → 13 ≤ log2 ∧ 4096 ≤ thr ∧ thr ≤ 2 ^ (log2 - 1))
    let one := fun (r : Res) (q : Sink) => ∃ t, r = .next t ∧ t = { s with sink := t.sink } ∧ t.sinkAt n = q ∧ ∀ j, j ≠ n → t.sinkAt j = s.sinkAt j
    (n < 64 → legal → k.stalling = false → k.released = false → one (exec (.sinkDescriptorWrite n d) s) { k with
      base := BitVec.ofNat 64 base, tail := BitVec.ofNat 32 (bits d 159 128), stallLimit := BitVec.ofNat 16 limit, log2 := log2, threshold := thr
      provider := d.getLsbD 8, paddock := bits d 7 2, lossless := d.getLsbD 1, enable := d.getLsbD 0 }) ∧
    (64 ≤ n ∨ ¬legal → exec (.sinkDescriptorWrite n d) s = .next s) ∧
    (n < 64 → (v - k.tail).toNat ≤ (k.head - k.tail).toNat → k.stalling = false → k.released = false →
      one (exec (.sinkTailWrite n v) s) { k with tail := v }) ∧
    (64 ≤ n ∨ (k.head - k.tail).toNat < (v - k.tail).toNat → exec (.sinkTailWrite n v) s = .next s) ∧
    (k.stalling = false → exec (.stallLimit n) s = .next s) ∧
    (k.stalling = true → ∃ t, exec (.stallLimit n) s = .next t ∧ (t.sinkAt n).stalling = false ∧ (t.sinkAt n).released = true ∧
      (t.sinkAt n).limits = State.satInc k.limits ∧ (t.sinkAt n).stalled = [])

/-- 17 R301, 16 R294-R297, 14 R258: the first PTP lock sets the beacon and the device epoch; lock and loss are flags, with an epoch
record for every enabled sink; a correction above 1 ms steps the time, whose wraps count, and a smaller one does not; the beacon never falls and lifts every core's clock; a latch takes
the next sample and every counter restarts; a progress sample keeps the four counters and the last issue of each workgroup; a floor window's
counts restart for its pipe alone. -/
def Obligations.ClocksAndSamples : Prop :=
  ∀ (s : State) (ns : Dword) (delta : Int) (core pipe : Nat),
    let later := fun (a b : BitVec 48) => if precedes a b then b else a
    (∃ t, exec .ptpLockLoss s = .next t ∧ t.ptpLocked = false ∧ t.time = s.time ∧ t.beacon = s.beacon ∧ t.ptpEver = s.ptpEver) ∧
    (∃ t, exec (.ptpLock ns) s = .next t ∧ t.ptpLocked = true ∧ t.ptpEver = true ∧
      t.absTime = (if 256000000 < (256 * ns.toNat : Int) - s.absTime then 256 * ns.toNat else s.absTime) ∧
      (s.ptpEver = false → t.beacon = later s.beacon (BitVec.ofNat 48 ns.toNat) ∧ t.deviceEpoch = t.time) ∧
      (s.ptpEver = true → t.beacon = s.beacon ∧ t.deviceEpoch = s.deviceEpoch)) ∧
    exec (.ptpCorrection delta) s = .next (if 256000000 < delta then
      { s with time := BitVec.ofNat 64 (s.absTime + delta.toNat), timeHigh := (s.absTime + delta.toNat) / 2 ^ 64 } else s) ∧
    (let b := later s.beacon (BitVec.ofNat 48 (s.absTime / 256))
     ∃ t, exec .beacon s = .next t ∧ t = { s with beacon := b, lamport := t.lamport } ∧
       ∀ c, c < 4096 → Store.get 0 t.lamport c = later (Store.get 0 s.lamport c) b) ∧
    (∃ t, exec .perfLatch s = .next t ∧ t.perfUnit = [] ∧ t.perf = [] ∧
      ((∀ e ∈ s.paddock, e.2.cfg.valid = false ∨ e.2.resident = false) → 2 ^ s.perfRingLog2 ≤ s.perfRingHead.toNat →
        t = { s with perfRingLost := t.perfRingLost, perf := [], perfUnit := [] } ∧
        t.perfRingLost.toNat = min (2 ^ 32 - 1) (s.perfRingLost.toNat + 4472))) ∧
    ((∀ e ∈ s.paddock, (s.pk e.1).cfg.valid = false ∨ s.timersHeld e.1 = true ∨
      s.absTime < (s.pk e.1).sampledAt + 256000 * (s.pk e.1).cfg.sampleUs) → exec .progressSample s = .next s) ∧
    (∀ n p, s.paddock = [(n, p)] → p.cfg.valid = true → s.timersHeld n = false → p.sampledAt + 256000 * p.cfg.sampleUs ≤ s.absTime → Store.wf Wg.none s.wg = true →
      (∀ g, (s.wgAt g).paddock = n → State.allWait (s.wgAt g) = false) → ∃ t, exec .progressSample s = .next t ∧
        t = { s with paddock := t.paddock } ∧ t.pk n = { p with samples := (t.pk n).samples, sampledAt := s.absTime } ∧
        ∀ g, let w := s.wgAt g
          w.paddock = n → w.res = .resident ∨ w.res = .parked →
            Store.get [] (t.pk n).samples g = [w.progBar.toNat, w.progChute.toNat, w.progFe.toNat, w.progWaiter.toNat,
              (w.spanNums.map (fun m => (w.spanAt m).lastIssueOf allLanes)).foldl max 0, 0, 0]) ∧
    let held := ∃ e ∈ s.paddock, e.2.resident = true ∧ inRect e.2.cfg core = true ∧ s.sourceStopped e.1 = true
    (held → exec (.floorWindow core pipe) s = .next s) ∧
    (¬held → ∃ t, exec (.floorWindow core pipe) s = .next t ∧ t = { s with floorCnt := t.floorCnt } ∧
      ∀ c k level, k < 8 → pipe < 8 → level < 64 → Store.get 0 t.floorCnt ((c * 8 + k) * 64 + level) =
        if c = core ∧ k = pipe then 0 else Store.get 0 s.floorCnt ((c * 8 + k) * 64 + level))

/-- 19 R343: each SPDM request of a responder that is there is answered where its stage allows it, and moves the stage; any other answer is an
error. The reply's bytes are free where the spec gives none (log 21). -/
def Obligations.SpdmRequests : Prop :=
  ∀ (s : State) (r : Responder) (asym kem : BitVec 32) (slot off len i m : Nat) (nonce : BitVec 256),
    let x := s.spdmAt r
    let there := s.powered = true ∧ ∀ n, r = some n → (s.pk n).cfg.valid = true
    let open' := ∃ k, (x.sessions.find? (fun e => e.1 == m)) = some (m, true, k)
    let half := ∃ k, (x.sessions.find? (fun e => e.1 == m)) = some (m, false, k)
    let fresh := ∀ e ∈ x.sessions, e.1 ≠ m
    let case := fun (q : Instr) (name : String) (ok : Prop) (vals : List (BitVec 256) → Prop) (y : Spdm) =>
      (there → ok → ∃ t vs, exec q s = .next t ∧ t = { s with spdm := t.spdm, spdmOut := s.spdmOut ++ [⟨r, name, true, vs⟩] } ∧ vals vs ∧
        t.spdmAt r = y ∧ ∀ r', r' ≠ r → t.spdmAt r' = s.spdmAt r') ∧
      (¬there ∨ ¬ok → exec q s = .next { s with spdmOut := s.spdmOut ++ [⟨r, name, false, []⟩] })
    let any := fun (k : Nat) (vs : List (BitVec 256)) => vs.length = k
    let agreed := x.phase = .negotiated
    case (.getVersion r) "GET_VERSION" True (fun vs => vs = [0x13]) ⟨.version, 0, 0, []⟩ ∧
    case (.getCapabilities r) "GET_CAPABILITIES" (x.phase = .version) (any 1) { x with phase := .capabilities } ∧
    case (.negotiateAlgorithms r asym kem) "NEGOTIATE_ALGORITHMS" (x.phase = .capabilities) (fun vs => vs = [asym.setWidth 256, kem.setWidth 256])
      { x with phase := .negotiated, asym := asym, kem := kem } ∧
    case (.getDigests r) "GET_DIGESTS" agreed (any 1) x ∧
    case (.getCertificate r slot off len) "GET_CERTIFICATE" (agreed ∧ slot < 8 ∧ off < 65536) (any ((len + 31) / 32)) x ∧
    case (.challenge r nonce) "CHALLENGE" agreed (fun vs => vs.head? = some nonce ∧ vs.length = 2) x ∧
    case (.getMeasurements r i nonce) "GET_MEASUREMENTS" (agreed ∧ ((1 ≤ i ∧ i ≤ 3) ∨ (r ≠ none ∧ 16 ≤ i ∧ i ≤ 20)))
      (fun vs => vs.head? = some nonce ∧ vs.length = 2) x ∧
    case (.keyExchange r m len) "KEY_EXCHANGE" (agreed ∧ fresh ∧ len = x.kem.toNat) (any 1) { x with sessions := x.sessions ++ [(m, false, 0)] } ∧
    case (.finish r m) "FINISH" half (any 0)
      { x with sessions := x.sessions.map (fun e => if e.1 = m then (m, true, e.2.2) else e) } ∧
    case (.keyUpdate r m) "KEY_UPDATE" open' (any 0)
      { x with sessions := x.sessions.map (fun e => if e.1 = m then (m, e.2.1, e.2.2 + 1) else e) } ∧
    case (.endSession r m) "END_SESSION" open' (any 0) { x with sessions := x.sessions.filter (fun e => e.1 ≠ m) }

/-! ## Encoding, checks, the step -/

/-- 04 R69-R71: the encoding of a well-formed instruction, whatever words follow it, decodes to that instruction in its class, with every
operand at every value the encoding admits; and what decodes is well formed and has exactly those words. -/
def Obligations.DecodeEncode : Prop :=
  (∀ i : Instr, i.wf = true → encode i ≠ [] → ∃ c, c < 7 ∧ ∀ rest, decode c (encode i ++ rest) = .ok i) ∧
  ∀ (c : Nat) (ws : List Word) (i : Instr), decode c ws = .ok i →
    i.wf = true ∧ encode i ≠ [] ∧ encode i = ws.take (encode i).length

/-- Words that the spec spells out (07 R105, R121, 08, 09, 11, 14, 15, 16, 18) decode to the instructions that they stand for. -/
def Obligations.DecodeWords : Prop :=
  decode 0 [0x04714509#32] = .ok (.sshl 5 5 (.imm 7)) ∧ decode 1 [0xE1820542#32] = .ok (.vmulF32 7 5 4 6) ∧
  decode 6 [0x00000506#32, 0x00000002#32] = .ok (.sprd 5 2) ∧ decode 6 [0x0001000D#32, 0x00000001#32] = .ok (.evt 4 1) ∧
  decode 0 [0x00050025#32] = .ok (.ret 20) ∧ decode 5 [0x00000000#32] = .ok .barWg ∧ decode 6 [0x00000008#32] = .ok .trap

/-- 04 R72, R71, R74, 19 R344: one step performs one thing: the outside event that is due; else the enabled action that the choice names;
else only time goes on. An issue set's action is its clause's instruction at its word position, decoded in the clause's class, and a
word that spells none is code 02, or, for the word of a supervisor instruction outside the privileged handler, code 06. Every step
completes. -/
def Obligations.StepRunsDecodedInstruction : Prop :=
  ∀ s : State,
    (∃ t, step s = .next t) ∧
    (∀ n i rest, s.agenda = (n, i) :: rest → n ≤ s.steps → step s = exec i { s.tick with agenda := rest }) ∧
    (s.due = none →
      (s.powered = false ∨ s.halted = true → step s = .next s.tick) ∧
      (s.pick = none → step s = .next s.tick) ∧
      (∀ a, s.enabled = [a] → s.pick = some a) ∧
      (∀ i, s.pick = some (.event i) → step s = exec i s.tick) ∧
      (∀ p, s.pick = some (.packet p) → step s = exec (.remotePacket p) s.tick) ∧
      (∀ h d e t, (s.pick = some (.message h .getS) → step s = exec (.gets h) s.tick) ∧
        (s.pick = some (.message h (.drGet t)) → step s = exec (.drget h t) s.tick) ∧
        (s.pick = some (.message h (.data d e)) → step s = exec (.data h d e) s.tick) ∧
        (s.pick = some (.message h .inv) → step s = exec (.inv h) s.tick)) ∧
      (∀ core n, s.pick = some (.evict core n) → step s = exec (.cacheEviction core n) s.tick) ∧
      (∀ p a, s.pick = some (.place p a) → step s = exec (.launchWindowPlace p a) { s.tick with placing := s.tick.placing.erase (p, a) }) ∧
      (∀ a, s.pick = some (.read a) → step s = .next (State.answerRead { s.tick with readWait := s.tick.readWait.erase a } a)) ∧
      (∀ p c, s.pick = some (.config p c) → step s = .next (State.applyCfg { s.tick with cfgWait := s.tick.cfgWait.erase (p, c) } p c)) ∧
      ∀ q c, s.pick = some (.instr q) → (s.tick.spanAt q.g q.sp).clauseOf q.lanes = some c →
        (∀ i, decode (bits c.hdr 6 4) (c.words.drop (c.pos - 1)) = .ok i → step s = exec i
          { s.tick with focus := ⟨q.g, q.sp, q.lanes, c.hdrPc, c.pos, c.pos + (encode i).length⟩ }) ∧
        ∀ e, decode (bits c.hdr 6 4) (c.words.drop (c.pos - 1)) = .error e →
          let u := { s.tick with focus := ⟨q.g, q.sp, q.lanes, c.hdrPc, c.pos, c.pos + 1⟩ }
          let w := bits (c.words.getD (c.pos - 1) 0) 7 0
          step s = .next (u.raiseAll (if bits c.hdr 6 4 = 6 ∧ (w = 0x0E ∨ w = 0x0F) ∧ u.privileged = false then 0x06 else 0x02) 0))

/-- 11 R186, R74, 15 R273, R277, 10 R180: the first check that an address fails gives its code: misaligned 03, non-canonical 04, a rank that does
not resolve 0C, then the walk's or the window's: 06 where no launch of this device owns the rank, 0A where a pod peer refuses, which the peer
decides (log 67). A load, store, atomic or reduction all of whose lanes fail writes nothing, and raises each lane's code with its address; a scalar access raises one code on
every lane. -/
def Obligations.AccessChecks : Prop :=
  (∀ (s : State) (core pkn asid size align : Nat) (a : Dword) (acc : State.Access) (priv page : Bool), 0 < align →
    let r := s.checkAddr core pkn asid a size align acc priv page
    (a.toNat % align ≠ 0 → r = (s, .error 0x03)) ∧
    (a.toNat % align = 0 → a.getLsbD 63 = false → bits a 62 48 ≠ 0 → r = (s, .error 0x04)) ∧
    (∀ s1, a.toNat % align = 0 → a.getLsbD 63 = true → s.resolve core pkn (bits a 62 41) = (s1, none) → r = (s1, .error 0x0C)) ∧
    (∀ s1 p, a.toNat % align = 0 → a.getLsbD 63 = true → s.resolve core pkn (bits a 62 41) = (s1, some p) →
      (p.pod ≠ s1.podId → r = (s1, .ok (.far 2))) ∧
      (p.pod = s1.podId → p.group ≠ s1.groupId ∨ p.slot ≠ s1.slotId → r = (s1,
        if s1.podRefuses (s1.pk pkn).cfg.job a then .error 0x0A else .ok (.phys (s1.podTarget (s1.pk pkn).cfg.job a p) none))) ∧
      (p.pod = s1.podId → p.group = s1.groupId → p.slot = s1.slotId → s1.ownerLaunch (s1.pk pkn).cfg.job (bits a 62 41) = none →
        r = (s1, .error 0x06))) ∧
    ∀ s1 c, a.toNat < 2 ^ 48 → a.toNat % align = 0 → s.translate core asid a.toNat acc priv page = (s1, .error c) → r = (s1, .error c)) ∧
  ∀ (s : State) (k : BitVec 3) (i d : BitVec 7) (b r : BitVec 6) (m : MemMod) (c : Nat → Byte),
    let addr := s.laneAddr b i m.off
    let chk := fun (a : Dword) (size : Nat) (acc : State.Access) => s.checkAddr s.here.core s.here.paddock s.asid a size size acc s.privileged false
    let bad := fun (size : Nat) (acc : State.Access) => ∀ l, l < 32 → laneIn s.lanes l → chk (addr l) size acc = (s, .error (c l))
    let f := fun (x : Instr) => exec x s = .next (s.raiseL s.lanes c addr)
    let one := s.span.sr b + m.off.signExtend 64
    s.memProg = none → (∀ l, c l ≠ 0x0A) → s.lanes ≠ 0 → (k = 7#3 ∨ (k.toNat < 6 ∧ s.span.kc k.toNat < 63)) →
    (bad 1 .read → f (.ldN8 k i b d m) ∧ f (.ldI8 k i b d m) ∧ f (.cflush i b m) ∧ f (.cinv i b m)) ∧
    (bad 2 .read → f (.ldN16 k i b d m) ∧ f (.ldI16 k i b d m)) ∧ (bad 4 .read → f (.ld32 k i b d m)) ∧
    (bad 8 .read → f (.ld64 k i b d m)) ∧ (bad 16 .read → f (.ld128 k i b d m)) ∧
    (bad 1 .write → f (.st8 i b d m)) ∧ (bad 2 .write → f (.st16 i b d m)) ∧ (bad 16 .write → f (.st128 i b d m)) ∧
    (bad 4 .write → f (.st32 i b d m) ∧ f (.amoAddI32 k i b d m) ∧ f (.amoMinI32 k i b d m) ∧ f (.amoMinN32 k i b d m) ∧
      f (.amoMaxI32 k i b d m) ∧ f (.amoMaxN32 k i b d m) ∧ f (.amoAnd k i b d m) ∧ f (.amoOr k i b d m) ∧ f (.amoXor k i b d m) ∧
      f (.amoSwap k i b d m) ∧ f (.amoCas32 k i b d m) ∧ f (.amoFaddF32 k i b d m) ∧ f (.redAddI32 i b d m) ∧ f (.redMin i b d m) ∧
      f (.redMax i b d m) ∧ f (.redAnd i b d m) ∧ f (.redOr i b d m) ∧ f (.redXor i b d m) ∧ f (.dredFaddF32 i b d m) ∧
      f (.dredFaddB8 i b d m) ∧ f (.dredMinF32 i b d m) ∧ f (.dredMaxF32 i b d m) ∧ f (.dredOr i b d m)) ∧
    (bad 8 .write → f (.st64 i b d m) ∧ f (.amoAddI64 k i b d m) ∧ f (.amoMinI64 k i b d m) ∧ f (.amoMaxI64 k i b d m) ∧
      f (.amoCas64 k i b d m) ∧ f (.redAddI64 i b d m) ∧ f (.dredAddI64 i b d m) ∧ (s.span.mq ≠ 0 → f (.dredModadd i b d m))) ∧
    (∀ e, e ≠ 0x0A → (chk one 8 .read = (s, .error e) → Faults (exec (.sld64 k b r m) s) s e one) ∧
      (chk one 8 .write = (s, .error e) → Faults (exec (.sst64 b r m) s) s e one))

/-- 05 R79: %mq takes an odd q with 3 ≤ q < 2^62, and %mqr its Barrett constant; any other value is code 02 and changes neither; while %mq
holds 0 every modular instruction is code 02. -/
def Obligations.ModulusRegister : Prop :=
  ∀ (s : State) (a : BitVec 6) (k p : BitVec 3) (d x y : BitVec 7) (bs : BitVec 2) (tA tB : BitVec 4),
    let q := s.span.sr a
    let r := exec (.spwr a 0x20) s
    let two := fun (i : Instr) => Faults (exec i s) s 0x02 0
    (q.toNat % 2 = 1 → 3 ≤ q.toNat → q.toNat < 2 ^ 62 → ∃ t, r = .next t ∧ Retired s t { s.span with mq := q, mqr := t.span.mqr } ∧
      (∀ b, 2 ^ (b - 1) ≤ q.toNat → q.toNat < 2 ^ b → t.span.mqr.toNat = 2 ^ (b + 63) / q.toNat) ∧
      2 ^ 63 ≤ t.span.mqr.toNat ∧ (q = 97 → t.span.mqr.toNat = 2 ^ 70 / 97)) ∧
    (q.toNat % 2 = 0 ∨ q.toNat < 3 ∨ 2 ^ 62 ≤ q.toNat → two (.spwr a 0x20) ∧
      (s.span.pending ≠ [] → ∃ t, r = .next t ∧ t.span.mq = s.span.mq ∧ t.span.mqr = s.span.mqr)) ∧
    (s.span.mq = 0 → two (.vmodadd p d x y) ∧ two (.vmodsub p d x y) ∧ two (.vmodmul p d x y) ∧ two (.vmodred p d x) ∧
      two (.vnttCt p d x y) ∧ two (.vnttGs p d x y) ∧ two (.mmaMod k bs tB tA x))

/-- 05 R76, R77, 03 R31: what a span holds when its workgroup starts; s63 reads zero and p7 all ones, and writes to them are ignored.
15 R282, 16, 05 R78: at die reset no function is ready, every clock is at zero, nothing runs, and the collections are in canonical form; until
the dies are released a step counts itself, and only what the outside decides may change (logs 36 and 67). -/
def Obligations.ResetState : Prop :=
  (∀ (entry : Dword) (l : Nat), l < 32 →
    let q := State.startSpan entry
    (q.laneAt l).pc = entry ∧ (q.laneAt l).mr = allOnes64 ∧ (q.laneAt l).tcode = 0 ∧ (q.laneAt l).tpc = 0 ∧ (q.laneAt l).tvaddr = 0 ∧
    (∀ r, q.vr r l = 0 ∧ q.kc r = 0) ∧ (∀ r, q.sr r = 0) ∧ (∀ r : BitVec 3, r ≠ 7 → q.pr r = 0) ∧
    q.j = [] ∧ q.mq = 0 ∧ q.mqr = 0 ∧ q.tmask = 0) ∧
  (∀ (q : Span) (x : Dword) (S y : Lanes), q.sr 63 = 0 ∧ q.pr 7 = allLanes ∧ q.setS 63 x = q ∧ q.setP 7 S y = q) ∧
  let r := State.reset
  Canonical r ∧ r.powered = false ∧ r.cycle = 0 ∧ r.time = 0 ∧ r.beacon = 0 ∧ (∀ c, Store.get 0 r.lamport c = 0) ∧
  (∀ i, r.ready i = false ∧ Store.get 0 r.readiness i = 0) ∧ (∀ n, (r.pk n).cfg = PaddockCfg.reset) ∧ r.wg = [] ∧ r.launch = [] ∧
  ∃ t, step r = .next t ∧ t = { r with steps := 1, carriage := t.carriage, podMap := t.podMap }

/-- 15 R282 and the form of memory: every step keeps the memory's canonical form, and never writes a readiness state above 4. -/
def Obligations.StepKeepsInvariant : Prop :=
  ∀ s t : State, Memory.wf s.mem → (∀ i, (Store.get 0 s.readiness i).toNat ≤ 4) → step s = .next t →
    Memory.wf t.mem ∧ ∀ i, (Store.get 0 t.readiness i).toNat ≤ 4
end

