-- ==== Sys2Proof/Laws/Store.lean ====
section
/-!
SUPPORT. Laws/Store.lean: what the operations of the canonical sparse maps do, said by the value at each key, and that they
keep the canonical form.
-/

set_option Elab.async false

namespace Sys2Proof.Store

variable {α : Type}

@[simp] theorem get_nil (d : α) (k : Nat) : get d [] k = d := rfl

theorem get_cons (d : α) (e : Nat × α) (m : Store α) (k : Nat) : get d (e :: m) k = if k = e.1 then e.2 else get d m k := rfl

theorem get_erase (d : α) (m : Store α) (k j : Nat) : get d (erase m k) j = if j = k then d else get d m j := by
  induction m with
  | nil => simp [erase]
  | cons e m ih =>
    obtain ⟨k', v⟩ := e
    by_cases h : k = k'
    · subst h
      simp only [erase, if_true, ih, get_cons]
      split <;> simp_all
    · simp only [erase, if_neg h, get_cons, ih]
      split <;> split <;> simp_all

theorem get_insert (d : α) (m : Store α) (k j : Nat) (v : α) (h : ∀ e ∈ m, e.1 ≠ k) :
    get d (insert m k v) j = if j = k then v else get d m j := by
  induction m with
  | nil => simp [insert, get_cons]
  | cons e m ih =>
    obtain ⟨k', w⟩ := e
    have hk : k' ≠ k := h (k', w) (by simp)
    have ih := ih (fun e he => h e (by simp [he]))
    by_cases hlt : k < k'
    · simp only [insert, if_pos hlt, get_cons]
    · simp only [insert, if_neg hlt, get_cons, ih]
      by_cases h1 : j = k' <;> by_cases h2 : j = k <;> simp_all

theorem mem_erase (m : Store α) (k : Nat) : ∀ e ∈ erase m k, e.1 ≠ k := by
  induction m with
  | nil => simp [erase]
  | cons e m ih =>
    obtain ⟨k', v⟩ := e
    by_cases h : k = k'
    · rw [erase, if_pos h]; exact ih
    · simp only [erase, if_neg h, List.mem_cons]
      rintro e (rfl | he)
      · exact fun h' => h h'.symm
      · exact ih e he

/-- A read after a write gives the value written at that key, and the old one at any other. -/
theorem get_set [DecidableEq α] (d : α) (m : Store α) (k j : Nat) (v : α) :
    get d (set d m k v) j = if j = k then v else get d m j := by
  unfold set
  split
  · rename_i h; subst h; exact get_erase v m k j
  · rw [get_insert _ _ _ _ _ (mem_erase m k), get_erase]
    split <;> simp_all

@[simp] theorem get_set_self [DecidableEq α] (d : α) (m : Store α) (k : Nat) (v : α) : get d (set d m k v) k = v := by
  simp [get_set]

theorem get_set_ne [DecidableEq α] (d : α) (m : Store α) {k j : Nat} (v : α) (h : j ≠ k) :
    get d (set d m k v) j = get d m j := by simp [get_set, h]

theorem get_upd [DecidableEq α] (d : α) (m : Store α) (k j : Nat) (f : α → α) :
    get d (upd d m k f) j = if j = k then f (get d m k) else get d m j := get_set ..

@[simp] theorem get_upd_self [DecidableEq α] (d : α) (m : Store α) (k : Nat) (f : α → α) :
    get d (upd d m k f) k = f (get d m k) := get_set_self ..

theorem get_upd_ne [DecidableEq α] (d : α) (m : Store α) {k j : Nat} (f : α → α) (h : j ≠ k) :
    get d (upd d m k f) j = get d m j := get_set_ne d m _ h

/-! ## The canonical form -/

/-- The canonical form as a pairwise order and a condition on every entry. -/
theorem wf_iff [DecidableEq α] (d : α) (m : Store α) :
    wf d m = true ↔ m.Pairwise (fun a b => a.1 < b.1) ∧ ∀ e ∈ m, e.2 ≠ d := by
  induction m with
  | nil => simp [wf]
  | cons e m ih =>
    obtain ⟨k, v⟩ := e
    cases m with
    | nil => simp [wf]
    | cons e' m' =>
      obtain ⟨k', v'⟩ := e'
      simp only [wf, Bool.and_eq_true, decide_eq_true_eq, ih, List.pairwise_cons, List.mem_cons]
      constructor
      · rintro ⟨⟨h1, h2⟩, ⟨h3, h4⟩, h5⟩
        refine ⟨⟨?_, h3, h4⟩, ?_⟩
        · rintro e (rfl | he)
          · exact h1
          · exact lt_trans h1 (h3 e he)
        · rintro e (rfl | rfl | he)
          · exact h2
          · exact h5 _ (.inl rfl)
          · exact h5 e (.inr he)
      · rintro ⟨⟨h1, h2, h3⟩, h4⟩
        exact ⟨⟨h1 _ (.inl rfl), h4 _ (.inl rfl)⟩, ⟨h2, h3⟩, fun e he => h4 e (.inr he)⟩

theorem erase_eq_filter (m : Store α) (k : Nat) : erase m k = m.filter (fun e => e.1 ≠ k) := by
  induction m with
  | nil => rfl
  | cons e m ih =>
    obtain ⟨k', v⟩ := e
    by_cases h : k = k'
    · simp [erase, h, h ▸ ih]
    · simp [erase, if_neg h, ih, Ne.symm h]

theorem mem_insert (m : Store α) (k : Nat) (v : α) (e : Nat × α) : e ∈ insert m k v ↔ e = (k, v) ∨ e ∈ m := by
  induction m with
  | nil => simp [insert]
  | cons a m ih =>
    obtain ⟨k', w⟩ := a
    by_cases h : k < k'
    · simp [insert, h]
    · simp only [insert, if_neg h, List.mem_cons, ih]
      tauto

theorem pairwise_insert (m : Store α) (k : Nat) (v : α) (hm : m.Pairwise (fun a b => a.1 < b.1))
    (hk : ∀ e ∈ m, e.1 ≠ k) : (insert m k v).Pairwise (fun a b => a.1 < b.1) := by
  induction m with
  | nil => simp [insert]
  | cons a m ih =>
    obtain ⟨k', w⟩ := a
    rw [List.pairwise_cons] at hm
    by_cases h : k < k'
    · simp only [insert, if_pos h, List.pairwise_cons, List.mem_cons]
      refine ⟨?_, hm⟩
      rintro e (rfl | he)
      · exact h
      · exact lt_trans h (hm.1 e he)
    · simp only [insert, if_neg h, List.pairwise_cons]
      refine ⟨?_, ih hm.2 (fun e he => hk e (by simp [he]))⟩
      intro e he
      rcases (mem_insert m k v e).1 he with rfl | he
      · have := hk (k', w) (by simp)
        simp only [] at this ⊢
        omega
      · exact hm.1 e he

theorem wf_nil [DecidableEq α] (d : α) : wf d ([] : Store α) = true := rfl

theorem wf_filter [DecidableEq α] (d : α) (m : Store α) (p : Nat × α → Bool) (h : wf d m = true) :
    wf d (m.filter p) = true := by
  rw [wf_iff] at h ⊢
  exact ⟨h.1.filter _, fun e he => h.2 e (List.mem_of_mem_filter he)⟩

/-- A write keeps the canonical form. -/
theorem wf_set [DecidableEq α] (d : α) (m : Store α) (k : Nat) (v : α) (h : wf d m = true) : wf d (set d m k v) = true := by
  unfold set
  split
  · rw [erase_eq_filter]; exact wf_filter d m _ h
  · rename_i hv
    have he : wf d (erase m k) = true := by rw [erase_eq_filter]; exact wf_filter d m _ h
    rw [wf_iff] at he ⊢
    refine ⟨pairwise_insert _ _ _ he.1 (mem_erase m k), fun e hm => ?_⟩
    rcases (mem_insert _ k v e).1 hm with rfl | hm
    · exact hv
    · exact he.2 e hm

theorem wf_upd [DecidableEq α] (d : α) (m : Store α) (k : Nat) (f : α → α) (h : wf d m = true) : wf d (upd d m k f) = true :=
  wf_set d m k _ h

theorem get_of_not_mem (d : α) (m : Store α) (k : Nat) (h : ∀ e ∈ m, e.1 ≠ k) : get d m k = d := by
  induction m with
  | nil => rfl
  | cons e m ih =>
    rw [get_cons, if_neg (fun hk => h e (by simp) hk.symm)]
    exact ih (fun e he => h e (by simp [he]))

/-- Two collections in canonical form that read alike are the same list. -/
theorem ext_of_get [DecidableEq α] (d : α) (m n : Store α) (hm : wf d m = true) (hn : wf d n = true)
    (h : ∀ k, get d m k = get d n k) : m = n := by
  rw [wf_iff] at hm hn
  induction m generalizing n with
  | nil =>
    cases n with
    | nil => rfl
    | cons e n =>
      have := h e.1
      simp only [get_nil, get_cons, if_true] at this
      exact absurd this.symm (hn.2 e (by simp))
  | cons a m ih =>
    cases n with
    | nil =>
      have := h a.1
      simp only [get_nil, get_cons, if_true] at this
      exact absurd this (hm.2 a (by simp))
    | cons b n =>
      have hm1 := hm.1; have hn1 := hn.1
      rw [List.pairwise_cons] at hm1 hn1
      have key : a.1 = b.1 := by
        rcases lt_trichotomy a.1 b.1 with hlt | heq | hlt
        · exfalso
          have := h a.1
          rw [get_cons, if_pos rfl, get_of_not_mem] at this
          · exact hm.2 a (by simp) this
          · rintro e he
            rcases List.mem_cons.1 he with rfl | he
            · omega
            · have := hn1.1 e he; omega
        · exact heq
        · exfalso
          have := h b.1
          rw [get_cons d b, if_pos rfl, get_of_not_mem] at this
          · exact hn.2 b (by simp) this.symm
          · rintro e he
            rcases List.mem_cons.1 he with rfl | he
            · omega
            · have := hm1.1 e he; omega
      have val : a.2 = b.2 := by
        have := h a.1
        rwa [get_cons, if_pos rfl, get_cons, if_pos key] at this
      have rest : m = n := by
        refine ih n ⟨hm1.2, fun e he => hm.2 e (by simp [he])⟩ ⟨hn1.2, fun e he => hn.2 e (by simp [he])⟩ (fun k => ?_)
        by_cases hk : k = a.1
        · rw [get_of_not_mem, get_of_not_mem]
          · intro e he; have := hn1.1 e he; omega
          · intro e he; have := hm1.1 e he; omega
        · have := h k
          rwa [get_cons, if_neg hk, get_cons, if_neg (key ▸ hk)] at this
      rw [rest, Prod.ext key val]

end Sys2Proof.Store
end

