-- ==== Sys2Proof/Laws/State.lean ====
section
/-!
SUPPORT. Laws/State.lean: one lemma per field per update of the state, of a workgroup and of a span, and what the named reads
of workgroups, spans, registers and bytes see after an update.
-/

set_option Elab.async false

namespace Sys2Proof.Machine

/-! ## Fields of the state that an update leaves -/

namespace State

@[simp] theorem updWg_mem (s : State) (g : Nat) (f : Wg → Wg) : (s.updWg g f).mem = s.mem := rfl
@[simp] theorem updWg_launch (s : State) (g : Nat) (f : Wg → Wg) : (s.updWg g f).launch = s.launch := rfl
@[simp] theorem updWg_chute (s : State) (g : Nat) (f : Wg → Wg) : (s.updWg g f).chute = s.chute := rfl
@[simp] theorem updWg_paddock (s : State) (g : Nat) (f : Wg → Wg) : (s.updWg g f).paddock = s.paddock := rfl
@[simp] theorem updWg_async (s : State) (g : Nat) (f : Wg → Wg) : (s.updWg g f).async = s.async := rfl
@[simp] theorem updWg_opSeq (s : State) (g : Nat) (f : Wg → Wg) : (s.updWg g f).opSeq = s.opSeq := rfl
@[simp] theorem updWg_dir (s : State) (g : Nat) (f : Wg → Wg) : (s.updWg g f).dir = s.dir := rfl
@[simp] theorem updWg_pod (s : State) (g : Nat) (f : Wg → Wg) : (s.updWg g f).pod = s.pod := rfl
@[simp] theorem updWg_cache (s : State) (g : Nat) (f : Wg → Wg) : (s.updWg g f).cache = s.cache := rfl
@[simp] theorem updWg_proxy (s : State) (g : Nat) (f : Wg → Wg) : (s.updWg g f).proxy = s.proxy := rfl
@[simp] theorem updWg_podMap (s : State) (g : Nat) (f : Wg → Wg) : (s.updWg g f).podMap = s.podMap := rfl
@[simp] theorem updWg_msgs (s : State) (g : Nat) (f : Wg → Wg) : (s.updWg g f).msgs = s.msgs := rfl
@[simp] theorem updWg_combined (s : State) (g : Nat) (f : Wg → Wg) : (s.updWg g f).combined = s.combined := rfl
@[simp] theorem updWg_late (s : State) (g : Nat) (f : Wg → Wg) : (s.updWg g f).late = s.late := rfl
@[simp] theorem updWg_outbox (s : State) (g : Nat) (f : Wg → Wg) : (s.updWg g f).outbox = s.outbox := rfl
@[simp] theorem updWg_ro (s : State) (g : Nat) (f : Wg → Wg) : (s.updWg g f).ro = s.ro := rfl
@[simp] theorem updWg_tc (s : State) (g : Nat) (f : Wg → Wg) : (s.updWg g f).tc = s.tc := rfl
@[simp] theorem updWg_waitq (s : State) (g : Nat) (f : Wg → Wg) : (s.updWg g f).waitq = s.waitq := rfl
@[simp] theorem updWg_lamport (s : State) (g : Nat) (f : Wg → Wg) : (s.updWg g f).lamport = s.lamport := rfl
@[simp] theorem updWg_sliceClock (s : State) (g : Nat) (f : Wg → Wg) : (s.updWg g f).sliceClock = s.sliceClock := rfl
@[simp] theorem updWg_beacon (s : State) (g : Nat) (f : Wg → Wg) : (s.updWg g f).beacon = s.beacon := rfl
@[simp] theorem updWg_ptpLocked (s : State) (g : Nat) (f : Wg → Wg) : (s.updWg g f).ptpLocked = s.ptpLocked := rfl
@[simp] theorem updWg_ptpEver (s : State) (g : Nat) (f : Wg → Wg) : (s.updWg g f).ptpEver = s.ptpEver := rfl
@[simp] theorem updWg_homeKey (s : State) (g : Nat) (f : Wg → Wg) : (s.updWg g f).homeKey = s.homeKey := rfl
@[simp] theorem updWg_time (s : State) (g : Nat) (f : Wg → Wg) : (s.updWg g f).time = s.time := rfl
@[simp] theorem updWg_timeHigh (s : State) (g : Nat) (f : Wg → Wg) : (s.updWg g f).timeHigh = s.timeHigh := rfl
@[simp] theorem updWg_deviceEpoch (s : State) (g : Nat) (f : Wg → Wg) : (s.updWg g f).deviceEpoch = s.deviceEpoch := rfl
@[simp] theorem updWg_cycle (s : State) (g : Nat) (f : Wg → Wg) : (s.updWg g f).cycle = s.cycle := rfl
@[simp] theorem updWg_records (s : State) (g : Nat) (f : Wg → Wg) : (s.updWg g f).records = s.records := rfl
@[simp] theorem updWg_lastStamp (s : State) (g : Nat) (f : Wg → Wg) : (s.updWg g f).lastStamp = s.lastStamp := rfl
@[simp] theorem updWg_stallFlag (s : State) (g : Nat) (f : Wg → Wg) : (s.updWg g f).stallFlag = s.stallFlag := rfl
@[simp] theorem updWg_sink (s : State) (g : Nat) (f : Wg → Wg) : (s.updWg g f).sink = s.sink := rfl
@[simp] theorem updWg_readiness (s : State) (g : Nat) (f : Wg → Wg) : (s.updWg g f).readiness = s.readiness := rfl
@[simp] theorem updWg_floorCnt (s : State) (g : Nat) (f : Wg → Wg) : (s.updWg g f).floorCnt = s.floorCnt := rfl
@[simp] theorem updWg_readySince (s : State) (g : Nat) (f : Wg → Wg) : (s.updWg g f).readySince = s.readySince := rfl
@[simp] theorem updWg_perfPeriod (s : State) (g : Nat) (f : Wg → Wg) : (s.updWg g f).perfPeriod = s.perfPeriod := rfl
@[simp] theorem updWg_perfRingBase (s : State) (g : Nat) (f : Wg → Wg) : (s.updWg g f).perfRingBase = s.perfRingBase := rfl
@[simp] theorem updWg_perfRingLog2 (s : State) (g : Nat) (f : Wg → Wg) : (s.updWg g f).perfRingLog2 = s.perfRingLog2 := rfl
@[simp] theorem updWg_perfRingHead (s : State) (g : Nat) (f : Wg → Wg) : (s.updWg g f).perfRingHead = s.perfRingHead := rfl
@[simp] theorem updWg_perfRingLost (s : State) (g : Nat) (f : Wg → Wg) : (s.updWg g f).perfRingLost = s.perfRingLost := rfl
@[simp] theorem updWg_perf (s : State) (g : Nat) (f : Wg → Wg) : (s.updWg g f).perf = s.perf := rfl
@[simp] theorem updWg_perfUnit (s : State) (g : Nat) (f : Wg → Wg) : (s.updWg g f).perfUnit = s.perfUnit := rfl
@[simp] theorem updWg_port (s : State) (g : Nat) (f : Wg → Wg) : (s.updWg g f).port = s.port := rfl
@[simp] theorem updWg_spareLink (s : State) (g : Nat) (f : Wg → Wg) : (s.updWg g f).spareLink = s.spareLink := rfl
@[simp] theorem updWg_pktCount (s : State) (g : Nat) (f : Wg → Wg) : (s.updWg g f).pktCount = s.pktCount := rfl
@[simp] theorem updWg_connected (s : State) (g : Nat) (f : Wg → Wg) : (s.updWg g f).connected = s.connected := rfl
@[simp] theorem updWg_pathBits (s : State) (g : Nat) (f : Wg → Wg) : (s.updWg g f).pathBits = s.pathBits := rfl
@[simp] theorem updWg_entropy (s : State) (g : Nat) (f : Wg → Wg) : (s.updWg g f).entropy = s.entropy := rfl
@[simp] theorem updWg_hotDest (s : State) (g : Nat) (f : Wg → Wg) : (s.updWg g f).hotDest = s.hotDest := rfl
@[simp] theorem updWg_tray (s : State) (g : Nat) (f : Wg → Wg) : (s.updWg g f).tray = s.tray := rfl
@[simp] theorem updWg_slotDown (s : State) (g : Nat) (f : Wg → Wg) : (s.updWg g f).slotDown = s.slotDown := rfl
@[simp] theorem updWg_congestion (s : State) (g : Nat) (f : Wg → Wg) : (s.updWg g f).congestion = s.congestion := rfl
@[simp] theorem updWg_podId (s : State) (g : Nat) (f : Wg → Wg) : (s.updWg g f).podId = s.podId := rfl
@[simp] theorem updWg_groupId (s : State) (g : Nat) (f : Wg → Wg) : (s.updWg g f).groupId = s.groupId := rfl
@[simp] theorem updWg_slotId (s : State) (g : Nat) (f : Wg → Wg) : (s.updWg g f).slotId = s.slotId := rfl
@[simp] theorem updWg_lost (s : State) (g : Nat) (f : Wg → Wg) : (s.updWg g f).lost = s.lost := rfl
@[simp] theorem updWg_revoked (s : State) (g : Nat) (f : Wg → Wg) : (s.updWg g f).revoked = s.revoked := rfl
@[simp] theorem updWg_remote (s : State) (g : Nat) (f : Wg → Wg) : (s.updWg g f).remote = s.remote := rfl
@[simp] theorem updWg_remoteTag (s : State) (g : Nat) (f : Wg → Wg) : (s.updWg g f).remoteTag = s.remoteTag := rfl
@[simp] theorem updWg_inbox (s : State) (g : Nat) (f : Wg → Wg) : (s.updWg g f).inbox = s.inbox := rfl
@[simp] theorem updWg_spdm (s : State) (g : Nat) (f : Wg → Wg) : (s.updWg g f).spdm = s.spdm := rfl
@[simp] theorem updWg_spdmOut (s : State) (g : Nat) (f : Wg → Wg) : (s.updWg g f).spdmOut = s.spdmOut := rfl
@[simp] theorem updWg_readOut (s : State) (g : Nat) (f : Wg → Wg) : (s.updWg g f).readOut = s.readOut := rfl
@[simp] theorem updWg_readWait (s : State) (g : Nat) (f : Wg → Wg) : (s.updWg g f).readWait = s.readWait := rfl
@[simp] theorem updWg_powered (s : State) (g : Nat) (f : Wg → Wg) : (s.updWg g f).powered = s.powered := rfl
@[simp] theorem updWg_halted (s : State) (g : Nat) (f : Wg → Wg) : (s.updWg g f).halted = s.halted := rfl
@[simp] theorem updWg_powerCap (s : State) (g : Nat) (f : Wg → Wg) : (s.updWg g f).powerCap = s.powerCap := rfl
@[simp] theorem updWg_throttled (s : State) (g : Nat) (f : Wg → Wg) : (s.updWg g f).throttled = s.throttled := rfl
@[simp] theorem updWg_tripped (s : State) (g : Nat) (f : Wg → Wg) : (s.updWg g f).tripped = s.tripped := rfl
@[simp] theorem updWg_spillReserved (s : State) (g : Nat) (f : Wg → Wg) : (s.updWg g f).spillReserved = s.spillReserved := rfl
@[simp] theorem updWg_spilled (s : State) (g : Nat) (f : Wg → Wg) : (s.updWg g f).spilled = s.spilled := rfl
@[simp] theorem updWg_driftOrder (s : State) (g : Nat) (f : Wg → Wg) : (s.updWg g f).driftOrder = s.driftOrder := rfl
@[simp] theorem updWg_carriage (s : State) (g : Nat) (f : Wg → Wg) : (s.updWg g f).carriage = s.carriage := rfl
@[simp] theorem updWg_swap (s : State) (g : Nat) (f : Wg → Wg) : (s.updWg g f).swap = s.swap := rfl
@[simp] theorem updWg_bindings (s : State) (g : Nat) (f : Wg → Wg) : (s.updWg g f).bindings = s.bindings := rfl
@[simp] theorem updWg_chosen (s : State) (g : Nat) (f : Wg → Wg) : (s.updWg g f).chosen = s.chosen := rfl
@[simp] theorem updWg_cfgWait (s : State) (g : Nat) (f : Wg → Wg) : (s.updWg g f).cfgWait = s.cfgWait := rfl
@[simp] theorem updWg_placing (s : State) (g : Nat) (f : Wg → Wg) : (s.updWg g f).placing = s.placing := rfl
@[simp] theorem updWg_agenda (s : State) (g : Nat) (f : Wg → Wg) : (s.updWg g f).agenda = s.agenda := rfl
@[simp] theorem updWg_focus (s : State) (g : Nat) (f : Wg → Wg) : (s.updWg g f).focus = s.focus := rfl
@[simp] theorem updWg_steps (s : State) (g : Nat) (f : Wg → Wg) : (s.updWg g f).steps = s.steps := rfl

@[simp] theorem updSpan_mem (s : State) (f : Span → Span) : (s.updSpan f).mem = s.mem := rfl
@[simp] theorem updSpan_launch (s : State) (f : Span → Span) : (s.updSpan f).launch = s.launch := rfl
@[simp] theorem updSpan_chute (s : State) (f : Span → Span) : (s.updSpan f).chute = s.chute := rfl
@[simp] theorem updSpan_paddock (s : State) (f : Span → Span) : (s.updSpan f).paddock = s.paddock := rfl
@[simp] theorem updSpan_async (s : State) (f : Span → Span) : (s.updSpan f).async = s.async := rfl
@[simp] theorem updSpan_opSeq (s : State) (f : Span → Span) : (s.updSpan f).opSeq = s.opSeq := rfl
@[simp] theorem updSpan_dir (s : State) (f : Span → Span) : (s.updSpan f).dir = s.dir := rfl
@[simp] theorem updSpan_pod (s : State) (f : Span → Span) : (s.updSpan f).pod = s.pod := rfl
@[simp] theorem updSpan_cache (s : State) (f : Span → Span) : (s.updSpan f).cache = s.cache := rfl
@[simp] theorem updSpan_proxy (s : State) (f : Span → Span) : (s.updSpan f).proxy = s.proxy := rfl
@[simp] theorem updSpan_podMap (s : State) (f : Span → Span) : (s.updSpan f).podMap = s.podMap := rfl
@[simp] theorem updSpan_msgs (s : State) (f : Span → Span) : (s.updSpan f).msgs = s.msgs := rfl
@[simp] theorem updSpan_combined (s : State) (f : Span → Span) : (s.updSpan f).combined = s.combined := rfl
@[simp] theorem updSpan_late (s : State) (f : Span → Span) : (s.updSpan f).late = s.late := rfl
@[simp] theorem updSpan_outbox (s : State) (f : Span → Span) : (s.updSpan f).outbox = s.outbox := rfl
@[simp] theorem updSpan_ro (s : State) (f : Span → Span) : (s.updSpan f).ro = s.ro := rfl
@[simp] theorem updSpan_tc (s : State) (f : Span → Span) : (s.updSpan f).tc = s.tc := rfl
@[simp] theorem updSpan_waitq (s : State) (f : Span → Span) : (s.updSpan f).waitq = s.waitq := rfl
@[simp] theorem updSpan_lamport (s : State) (f : Span → Span) : (s.updSpan f).lamport = s.lamport := rfl
@[simp] theorem updSpan_sliceClock (s : State) (f : Span → Span) : (s.updSpan f).sliceClock = s.sliceClock := rfl
@[simp] theorem updSpan_beacon (s : State) (f : Span → Span) : (s.updSpan f).beacon = s.beacon := rfl
@[simp] theorem updSpan_ptpLocked (s : State) (f : Span → Span) : (s.updSpan f).ptpLocked = s.ptpLocked := rfl
@[simp] theorem updSpan_ptpEver (s : State) (f : Span → Span) : (s.updSpan f).ptpEver = s.ptpEver := rfl
@[simp] theorem updSpan_homeKey (s : State) (f : Span → Span) : (s.updSpan f).homeKey = s.homeKey := rfl
@[simp] theorem updSpan_time (s : State) (f : Span → Span) : (s.updSpan f).time = s.time := rfl
@[simp] theorem updSpan_timeHigh (s : State) (f : Span → Span) : (s.updSpan f).timeHigh = s.timeHigh := rfl
@[simp] theorem updSpan_deviceEpoch (s : State) (f : Span → Span) : (s.updSpan f).deviceEpoch = s.deviceEpoch := rfl
@[simp] theorem updSpan_cycle (s : State) (f : Span → Span) : (s.updSpan f).cycle = s.cycle := rfl
@[simp] theorem updSpan_records (s : State) (f : Span → Span) : (s.updSpan f).records = s.records := rfl
@[simp] theorem updSpan_lastStamp (s : State) (f : Span → Span) : (s.updSpan f).lastStamp = s.lastStamp := rfl
@[simp] theorem updSpan_stallFlag (s : State) (f : Span → Span) : (s.updSpan f).stallFlag = s.stallFlag := rfl
@[simp] theorem updSpan_sink (s : State) (f : Span → Span) : (s.updSpan f).sink = s.sink := rfl
@[simp] theorem updSpan_readiness (s : State) (f : Span → Span) : (s.updSpan f).readiness = s.readiness := rfl
@[simp] theorem updSpan_floorCnt (s : State) (f : Span → Span) : (s.updSpan f).floorCnt = s.floorCnt := rfl
@[simp] theorem updSpan_readySince (s : State) (f : Span → Span) : (s.updSpan f).readySince = s.readySince := rfl
@[simp] theorem updSpan_perfPeriod (s : State) (f : Span → Span) : (s.updSpan f).perfPeriod = s.perfPeriod := rfl
@[simp] theorem updSpan_perfRingBase (s : State) (f : Span → Span) : (s.updSpan f).perfRingBase = s.perfRingBase := rfl
@[simp] theorem updSpan_perfRingLog2 (s : State) (f : Span → Span) : (s.updSpan f).perfRingLog2 = s.perfRingLog2 := rfl
@[simp] theorem updSpan_perfRingHead (s : State) (f : Span → Span) : (s.updSpan f).perfRingHead = s.perfRingHead := rfl
@[simp] theorem updSpan_perfRingLost (s : State) (f : Span → Span) : (s.updSpan f).perfRingLost = s.perfRingLost := rfl
@[simp] theorem updSpan_perf (s : State) (f : Span → Span) : (s.updSpan f).perf = s.perf := rfl
@[simp] theorem updSpan_perfUnit (s : State) (f : Span → Span) : (s.updSpan f).perfUnit = s.perfUnit := rfl
@[simp] theorem updSpan_port (s : State) (f : Span → Span) : (s.updSpan f).port = s.port := rfl
@[simp] theorem updSpan_spareLink (s : State) (f : Span → Span) : (s.updSpan f).spareLink = s.spareLink := rfl
@[simp] theorem updSpan_pktCount (s : State) (f : Span → Span) : (s.updSpan f).pktCount = s.pktCount := rfl
@[simp] theorem updSpan_connected (s : State) (f : Span → Span) : (s.updSpan f).connected = s.connected := rfl
@[simp] theorem updSpan_pathBits (s : State) (f : Span → Span) : (s.updSpan f).pathBits = s.pathBits := rfl
@[simp] theorem updSpan_entropy (s : State) (f : Span → Span) : (s.updSpan f).entropy = s.entropy := rfl
@[simp] theorem updSpan_hotDest (s : State) (f : Span → Span) : (s.updSpan f).hotDest = s.hotDest := rfl
@[simp] theorem updSpan_tray (s : State) (f : Span → Span) : (s.updSpan f).tray = s.tray := rfl
@[simp] theorem updSpan_slotDown (s : State) (f : Span → Span) : (s.updSpan f).slotDown = s.slotDown := rfl
@[simp] theorem updSpan_congestion (s : State) (f : Span → Span) : (s.updSpan f).congestion = s.congestion := rfl
@[simp] theorem updSpan_podId (s : State) (f : Span → Span) : (s.updSpan f).podId = s.podId := rfl
@[simp] theorem updSpan_groupId (s : State) (f : Span → Span) : (s.updSpan f).groupId = s.groupId := rfl
@[simp] theorem updSpan_slotId (s : State) (f : Span → Span) : (s.updSpan f).slotId = s.slotId := rfl
@[simp] theorem updSpan_lost (s : State) (f : Span → Span) : (s.updSpan f).lost = s.lost := rfl
@[simp] theorem updSpan_revoked (s : State) (f : Span → Span) : (s.updSpan f).revoked = s.revoked := rfl
@[simp] theorem updSpan_remote (s : State) (f : Span → Span) : (s.updSpan f).remote = s.remote := rfl
@[simp] theorem updSpan_remoteTag (s : State) (f : Span → Span) : (s.updSpan f).remoteTag = s.remoteTag := rfl
@[simp] theorem updSpan_inbox (s : State) (f : Span → Span) : (s.updSpan f).inbox = s.inbox := rfl
@[simp] theorem updSpan_spdm (s : State) (f : Span → Span) : (s.updSpan f).spdm = s.spdm := rfl
@[simp] theorem updSpan_spdmOut (s : State) (f : Span → Span) : (s.updSpan f).spdmOut = s.spdmOut := rfl
@[simp] theorem updSpan_readOut (s : State) (f : Span → Span) : (s.updSpan f).readOut = s.readOut := rfl
@[simp] theorem updSpan_readWait (s : State) (f : Span → Span) : (s.updSpan f).readWait = s.readWait := rfl
@[simp] theorem updSpan_powered (s : State) (f : Span → Span) : (s.updSpan f).powered = s.powered := rfl
@[simp] theorem updSpan_halted (s : State) (f : Span → Span) : (s.updSpan f).halted = s.halted := rfl
@[simp] theorem updSpan_powerCap (s : State) (f : Span → Span) : (s.updSpan f).powerCap = s.powerCap := rfl
@[simp] theorem updSpan_throttled (s : State) (f : Span → Span) : (s.updSpan f).throttled = s.throttled := rfl
@[simp] theorem updSpan_tripped (s : State) (f : Span → Span) : (s.updSpan f).tripped = s.tripped := rfl
@[simp] theorem updSpan_spillReserved (s : State) (f : Span → Span) : (s.updSpan f).spillReserved = s.spillReserved := rfl
@[simp] theorem updSpan_spilled (s : State) (f : Span → Span) : (s.updSpan f).spilled = s.spilled := rfl
@[simp] theorem updSpan_driftOrder (s : State) (f : Span → Span) : (s.updSpan f).driftOrder = s.driftOrder := rfl
@[simp] theorem updSpan_carriage (s : State) (f : Span → Span) : (s.updSpan f).carriage = s.carriage := rfl
@[simp] theorem updSpan_swap (s : State) (f : Span → Span) : (s.updSpan f).swap = s.swap := rfl
@[simp] theorem updSpan_bindings (s : State) (f : Span → Span) : (s.updSpan f).bindings = s.bindings := rfl
@[simp] theorem updSpan_chosen (s : State) (f : Span → Span) : (s.updSpan f).chosen = s.chosen := rfl
@[simp] theorem updSpan_cfgWait (s : State) (f : Span → Span) : (s.updSpan f).cfgWait = s.cfgWait := rfl
@[simp] theorem updSpan_placing (s : State) (f : Span → Span) : (s.updSpan f).placing = s.placing := rfl
@[simp] theorem updSpan_agenda (s : State) (f : Span → Span) : (s.updSpan f).agenda = s.agenda := rfl
@[simp] theorem updSpan_focus (s : State) (f : Span → Span) : (s.updSpan f).focus = s.focus := rfl
@[simp] theorem updSpan_steps (s : State) (f : Span → Span) : (s.updSpan f).steps = s.steps := rfl

@[simp] theorem retire_mem (s : State)  : (s.retire).mem = s.mem := rfl
@[simp] theorem retire_launch (s : State)  : (s.retire).launch = s.launch := rfl
@[simp] theorem retire_chute (s : State)  : (s.retire).chute = s.chute := rfl
@[simp] theorem retire_paddock (s : State)  : (s.retire).paddock = s.paddock := rfl
@[simp] theorem retire_async (s : State)  : (s.retire).async = s.async := rfl
@[simp] theorem retire_opSeq (s : State)  : (s.retire).opSeq = s.opSeq := rfl
@[simp] theorem retire_dir (s : State)  : (s.retire).dir = s.dir := rfl
@[simp] theorem retire_pod (s : State)  : (s.retire).pod = s.pod := rfl
@[simp] theorem retire_cache (s : State)  : (s.retire).cache = s.cache := rfl
@[simp] theorem retire_proxy (s : State)  : (s.retire).proxy = s.proxy := rfl
@[simp] theorem retire_podMap (s : State)  : (s.retire).podMap = s.podMap := rfl
@[simp] theorem retire_msgs (s : State)  : (s.retire).msgs = s.msgs := rfl
@[simp] theorem retire_combined (s : State)  : (s.retire).combined = s.combined := rfl
@[simp] theorem retire_late (s : State)  : (s.retire).late = s.late := rfl
@[simp] theorem retire_outbox (s : State)  : (s.retire).outbox = s.outbox := rfl
@[simp] theorem retire_ro (s : State)  : (s.retire).ro = s.ro := rfl
@[simp] theorem retire_tc (s : State)  : (s.retire).tc = s.tc := rfl
@[simp] theorem retire_waitq (s : State)  : (s.retire).waitq = s.waitq := rfl
@[simp] theorem retire_lamport (s : State)  : (s.retire).lamport = s.lamport := rfl
@[simp] theorem retire_sliceClock (s : State)  : (s.retire).sliceClock = s.sliceClock := rfl
@[simp] theorem retire_beacon (s : State)  : (s.retire).beacon = s.beacon := rfl
@[simp] theorem retire_ptpLocked (s : State)  : (s.retire).ptpLocked = s.ptpLocked := rfl
@[simp] theorem retire_ptpEver (s : State)  : (s.retire).ptpEver = s.ptpEver := rfl
@[simp] theorem retire_homeKey (s : State)  : (s.retire).homeKey = s.homeKey := rfl
@[simp] theorem retire_time (s : State)  : (s.retire).time = s.time := rfl
@[simp] theorem retire_timeHigh (s : State)  : (s.retire).timeHigh = s.timeHigh := rfl
@[simp] theorem retire_deviceEpoch (s : State)  : (s.retire).deviceEpoch = s.deviceEpoch := rfl
@[simp] theorem retire_cycle (s : State)  : (s.retire).cycle = s.cycle := rfl
@[simp] theorem retire_records (s : State)  : (s.retire).records = s.records := rfl
@[simp] theorem retire_lastStamp (s : State)  : (s.retire).lastStamp = s.lastStamp := rfl
@[simp] theorem retire_stallFlag (s : State)  : (s.retire).stallFlag = s.stallFlag := rfl
@[simp] theorem retire_sink (s : State)  : (s.retire).sink = s.sink := rfl
@[simp] theorem retire_readiness (s : State)  : (s.retire).readiness = s.readiness := rfl
@[simp] theorem retire_floorCnt (s : State)  : (s.retire).floorCnt = s.floorCnt := rfl
@[simp] theorem retire_readySince (s : State)  : (s.retire).readySince = s.readySince := rfl
@[simp] theorem retire_perfPeriod (s : State)  : (s.retire).perfPeriod = s.perfPeriod := rfl
@[simp] theorem retire_perfRingBase (s : State)  : (s.retire).perfRingBase = s.perfRingBase := rfl
@[simp] theorem retire_perfRingLog2 (s : State)  : (s.retire).perfRingLog2 = s.perfRingLog2 := rfl
@[simp] theorem retire_perfRingHead (s : State)  : (s.retire).perfRingHead = s.perfRingHead := rfl
@[simp] theorem retire_perfRingLost (s : State)  : (s.retire).perfRingLost = s.perfRingLost := rfl
@[simp] theorem retire_perf (s : State)  : (s.retire).perf = s.perf := rfl
@[simp] theorem retire_perfUnit (s : State)  : (s.retire).perfUnit = s.perfUnit := rfl
@[simp] theorem retire_port (s : State)  : (s.retire).port = s.port := rfl
@[simp] theorem retire_spareLink (s : State)  : (s.retire).spareLink = s.spareLink := rfl
@[simp] theorem retire_pktCount (s : State)  : (s.retire).pktCount = s.pktCount := rfl
@[simp] theorem retire_connected (s : State)  : (s.retire).connected = s.connected := rfl
@[simp] theorem retire_pathBits (s : State)  : (s.retire).pathBits = s.pathBits := rfl
@[simp] theorem retire_entropy (s : State)  : (s.retire).entropy = s.entropy := rfl
@[simp] theorem retire_hotDest (s : State)  : (s.retire).hotDest = s.hotDest := rfl
@[simp] theorem retire_tray (s : State)  : (s.retire).tray = s.tray := rfl
@[simp] theorem retire_slotDown (s : State)  : (s.retire).slotDown = s.slotDown := rfl
@[simp] theorem retire_congestion (s : State)  : (s.retire).congestion = s.congestion := rfl
@[simp] theorem retire_podId (s : State)  : (s.retire).podId = s.podId := rfl
@[simp] theorem retire_groupId (s : State)  : (s.retire).groupId = s.groupId := rfl
@[simp] theorem retire_slotId (s : State)  : (s.retire).slotId = s.slotId := rfl
@[simp] theorem retire_lost (s : State)  : (s.retire).lost = s.lost := rfl
@[simp] theorem retire_revoked (s : State)  : (s.retire).revoked = s.revoked := rfl
@[simp] theorem retire_remote (s : State)  : (s.retire).remote = s.remote := rfl
@[simp] theorem retire_remoteTag (s : State)  : (s.retire).remoteTag = s.remoteTag := rfl
@[simp] theorem retire_inbox (s : State)  : (s.retire).inbox = s.inbox := rfl
@[simp] theorem retire_spdm (s : State)  : (s.retire).spdm = s.spdm := rfl
@[simp] theorem retire_spdmOut (s : State)  : (s.retire).spdmOut = s.spdmOut := rfl
@[simp] theorem retire_readOut (s : State)  : (s.retire).readOut = s.readOut := rfl
@[simp] theorem retire_readWait (s : State)  : (s.retire).readWait = s.readWait := rfl
@[simp] theorem retire_powered (s : State)  : (s.retire).powered = s.powered := rfl
@[simp] theorem retire_halted (s : State)  : (s.retire).halted = s.halted := rfl
@[simp] theorem retire_powerCap (s : State)  : (s.retire).powerCap = s.powerCap := rfl
@[simp] theorem retire_throttled (s : State)  : (s.retire).throttled = s.throttled := rfl
@[simp] theorem retire_tripped (s : State)  : (s.retire).tripped = s.tripped := rfl
@[simp] theorem retire_spillReserved (s : State)  : (s.retire).spillReserved = s.spillReserved := rfl
@[simp] theorem retire_spilled (s : State)  : (s.retire).spilled = s.spilled := rfl
@[simp] theorem retire_driftOrder (s : State)  : (s.retire).driftOrder = s.driftOrder := rfl
@[simp] theorem retire_carriage (s : State)  : (s.retire).carriage = s.carriage := rfl
@[simp] theorem retire_swap (s : State)  : (s.retire).swap = s.swap := rfl
@[simp] theorem retire_bindings (s : State)  : (s.retire).bindings = s.bindings := rfl
@[simp] theorem retire_chosen (s : State)  : (s.retire).chosen = s.chosen := rfl
@[simp] theorem retire_cfgWait (s : State)  : (s.retire).cfgWait = s.cfgWait := rfl
@[simp] theorem retire_placing (s : State)  : (s.retire).placing = s.placing := rfl
@[simp] theorem retire_agenda (s : State)  : (s.retire).agenda = s.agenda := rfl
@[simp] theorem retire_focus (s : State)  : (s.retire).focus = s.focus := rfl
@[simp] theorem retire_steps (s : State)  : (s.retire).steps = s.steps := rfl

@[simp] theorem setByte_wg (s : State) (i : Nat) (x : Byte) : (s.setByte i x).wg = s.wg := rfl
@[simp] theorem setByte_launch (s : State) (i : Nat) (x : Byte) : (s.setByte i x).launch = s.launch := rfl
@[simp] theorem setByte_chute (s : State) (i : Nat) (x : Byte) : (s.setByte i x).chute = s.chute := rfl
@[simp] theorem setByte_paddock (s : State) (i : Nat) (x : Byte) : (s.setByte i x).paddock = s.paddock := rfl
@[simp] theorem setByte_async (s : State) (i : Nat) (x : Byte) : (s.setByte i x).async = s.async := rfl
@[simp] theorem setByte_opSeq (s : State) (i : Nat) (x : Byte) : (s.setByte i x).opSeq = s.opSeq := rfl
@[simp] theorem setByte_dir (s : State) (i : Nat) (x : Byte) : (s.setByte i x).dir = s.dir := rfl
@[simp] theorem setByte_pod (s : State) (i : Nat) (x : Byte) : (s.setByte i x).pod = s.pod := rfl
@[simp] theorem setByte_cache (s : State) (i : Nat) (x : Byte) : (s.setByte i x).cache = s.cache := rfl
@[simp] theorem setByte_proxy (s : State) (i : Nat) (x : Byte) : (s.setByte i x).proxy = s.proxy := rfl
@[simp] theorem setByte_podMap (s : State) (i : Nat) (x : Byte) : (s.setByte i x).podMap = s.podMap := rfl
@[simp] theorem setByte_msgs (s : State) (i : Nat) (x : Byte) : (s.setByte i x).msgs = s.msgs := rfl
@[simp] theorem setByte_combined (s : State) (i : Nat) (x : Byte) : (s.setByte i x).combined = s.combined := rfl
@[simp] theorem setByte_late (s : State) (i : Nat) (x : Byte) : (s.setByte i x).late = s.late := rfl
@[simp] theorem setByte_outbox (s : State) (i : Nat) (x : Byte) : (s.setByte i x).outbox = s.outbox := rfl
@[simp] theorem setByte_ro (s : State) (i : Nat) (x : Byte) : (s.setByte i x).ro = s.ro := rfl
@[simp] theorem setByte_tc (s : State) (i : Nat) (x : Byte) : (s.setByte i x).tc = s.tc := rfl
@[simp] theorem setByte_waitq (s : State) (i : Nat) (x : Byte) : (s.setByte i x).waitq = s.waitq := rfl
@[simp] theorem setByte_lamport (s : State) (i : Nat) (x : Byte) : (s.setByte i x).lamport = s.lamport := rfl
@[simp] theorem setByte_sliceClock (s : State) (i : Nat) (x : Byte) : (s.setByte i x).sliceClock = s.sliceClock := rfl
@[simp] theorem setByte_beacon (s : State) (i : Nat) (x : Byte) : (s.setByte i x).beacon = s.beacon := rfl
@[simp] theorem setByte_ptpLocked (s : State) (i : Nat) (x : Byte) : (s.setByte i x).ptpLocked = s.ptpLocked := rfl
@[simp] theorem setByte_ptpEver (s : State) (i : Nat) (x : Byte) : (s.setByte i x).ptpEver = s.ptpEver := rfl
@[simp] theorem setByte_homeKey (s : State) (i : Nat) (x : Byte) : (s.setByte i x).homeKey = s.homeKey := rfl
@[simp] theorem setByte_time (s : State) (i : Nat) (x : Byte) : (s.setByte i x).time = s.time := rfl
@[simp] theorem setByte_timeHigh (s : State) (i : Nat) (x : Byte) : (s.setByte i x).timeHigh = s.timeHigh := rfl
@[simp] theorem setByte_deviceEpoch (s : State) (i : Nat) (x : Byte) : (s.setByte i x).deviceEpoch = s.deviceEpoch := rfl
@[simp] theorem setByte_cycle (s : State) (i : Nat) (x : Byte) : (s.setByte i x).cycle = s.cycle := rfl
@[simp] theorem setByte_records (s : State) (i : Nat) (x : Byte) : (s.setByte i x).records = s.records := rfl
@[simp] theorem setByte_lastStamp (s : State) (i : Nat) (x : Byte) : (s.setByte i x).lastStamp = s.lastStamp := rfl
@[simp] theorem setByte_stallFlag (s : State) (i : Nat) (x : Byte) : (s.setByte i x).stallFlag = s.stallFlag := rfl
@[simp] theorem setByte_sink (s : State) (i : Nat) (x : Byte) : (s.setByte i x).sink = s.sink := rfl
@[simp] theorem setByte_readiness (s : State) (i : Nat) (x : Byte) : (s.setByte i x).readiness = s.readiness := rfl
@[simp] theorem setByte_floorCnt (s : State) (i : Nat) (x : Byte) : (s.setByte i x).floorCnt = s.floorCnt := rfl
@[simp] theorem setByte_readySince (s : State) (i : Nat) (x : Byte) : (s.setByte i x).readySince = s.readySince := rfl
@[simp] theorem setByte_perfPeriod (s : State) (i : Nat) (x : Byte) : (s.setByte i x).perfPeriod = s.perfPeriod := rfl
@[simp] theorem setByte_perfRingBase (s : State) (i : Nat) (x : Byte) : (s.setByte i x).perfRingBase = s.perfRingBase := rfl
@[simp] theorem setByte_perfRingLog2 (s : State) (i : Nat) (x : Byte) : (s.setByte i x).perfRingLog2 = s.perfRingLog2 := rfl
@[simp] theorem setByte_perfRingHead (s : State) (i : Nat) (x : Byte) : (s.setByte i x).perfRingHead = s.perfRingHead := rfl
@[simp] theorem setByte_perfRingLost (s : State) (i : Nat) (x : Byte) : (s.setByte i x).perfRingLost = s.perfRingLost := rfl
@[simp] theorem setByte_perf (s : State) (i : Nat) (x : Byte) : (s.setByte i x).perf = s.perf := rfl
@[simp] theorem setByte_perfUnit (s : State) (i : Nat) (x : Byte) : (s.setByte i x).perfUnit = s.perfUnit := rfl
@[simp] theorem setByte_port (s : State) (i : Nat) (x : Byte) : (s.setByte i x).port = s.port := rfl
@[simp] theorem setByte_spareLink (s : State) (i : Nat) (x : Byte) : (s.setByte i x).spareLink = s.spareLink := rfl
@[simp] theorem setByte_pktCount (s : State) (i : Nat) (x : Byte) : (s.setByte i x).pktCount = s.pktCount := rfl
@[simp] theorem setByte_connected (s : State) (i : Nat) (x : Byte) : (s.setByte i x).connected = s.connected := rfl
@[simp] theorem setByte_pathBits (s : State) (i : Nat) (x : Byte) : (s.setByte i x).pathBits = s.pathBits := rfl
@[simp] theorem setByte_entropy (s : State) (i : Nat) (x : Byte) : (s.setByte i x).entropy = s.entropy := rfl
@[simp] theorem setByte_hotDest (s : State) (i : Nat) (x : Byte) : (s.setByte i x).hotDest = s.hotDest := rfl
@[simp] theorem setByte_tray (s : State) (i : Nat) (x : Byte) : (s.setByte i x).tray = s.tray := rfl
@[simp] theorem setByte_slotDown (s : State) (i : Nat) (x : Byte) : (s.setByte i x).slotDown = s.slotDown := rfl
@[simp] theorem setByte_congestion (s : State) (i : Nat) (x : Byte) : (s.setByte i x).congestion = s.congestion := rfl
@[simp] theorem setByte_podId (s : State) (i : Nat) (x : Byte) : (s.setByte i x).podId = s.podId := rfl
@[simp] theorem setByte_groupId (s : State) (i : Nat) (x : Byte) : (s.setByte i x).groupId = s.groupId := rfl
@[simp] theorem setByte_slotId (s : State) (i : Nat) (x : Byte) : (s.setByte i x).slotId = s.slotId := rfl
@[simp] theorem setByte_lost (s : State) (i : Nat) (x : Byte) : (s.setByte i x).lost = s.lost := rfl
@[simp] theorem setByte_revoked (s : State) (i : Nat) (x : Byte) : (s.setByte i x).revoked = s.revoked := rfl
@[simp] theorem setByte_remote (s : State) (i : Nat) (x : Byte) : (s.setByte i x).remote = s.remote := rfl
@[simp] theorem setByte_remoteTag (s : State) (i : Nat) (x : Byte) : (s.setByte i x).remoteTag = s.remoteTag := rfl
@[simp] theorem setByte_inbox (s : State) (i : Nat) (x : Byte) : (s.setByte i x).inbox = s.inbox := rfl
@[simp] theorem setByte_spdm (s : State) (i : Nat) (x : Byte) : (s.setByte i x).spdm = s.spdm := rfl
@[simp] theorem setByte_spdmOut (s : State) (i : Nat) (x : Byte) : (s.setByte i x).spdmOut = s.spdmOut := rfl
@[simp] theorem setByte_readOut (s : State) (i : Nat) (x : Byte) : (s.setByte i x).readOut = s.readOut := rfl
@[simp] theorem setByte_readWait (s : State) (i : Nat) (x : Byte) : (s.setByte i x).readWait = s.readWait := rfl
@[simp] theorem setByte_powered (s : State) (i : Nat) (x : Byte) : (s.setByte i x).powered = s.powered := rfl
@[simp] theorem setByte_halted (s : State) (i : Nat) (x : Byte) : (s.setByte i x).halted = s.halted := rfl
@[simp] theorem setByte_powerCap (s : State) (i : Nat) (x : Byte) : (s.setByte i x).powerCap = s.powerCap := rfl
@[simp] theorem setByte_throttled (s : State) (i : Nat) (x : Byte) : (s.setByte i x).throttled = s.throttled := rfl
@[simp] theorem setByte_tripped (s : State) (i : Nat) (x : Byte) : (s.setByte i x).tripped = s.tripped := rfl
@[simp] theorem setByte_spillReserved (s : State) (i : Nat) (x : Byte) : (s.setByte i x).spillReserved = s.spillReserved := rfl
@[simp] theorem setByte_spilled (s : State) (i : Nat) (x : Byte) : (s.setByte i x).spilled = s.spilled := rfl
@[simp] theorem setByte_driftOrder (s : State) (i : Nat) (x : Byte) : (s.setByte i x).driftOrder = s.driftOrder := rfl
@[simp] theorem setByte_carriage (s : State) (i : Nat) (x : Byte) : (s.setByte i x).carriage = s.carriage := rfl
@[simp] theorem setByte_swap (s : State) (i : Nat) (x : Byte) : (s.setByte i x).swap = s.swap := rfl
@[simp] theorem setByte_bindings (s : State) (i : Nat) (x : Byte) : (s.setByte i x).bindings = s.bindings := rfl
@[simp] theorem setByte_chosen (s : State) (i : Nat) (x : Byte) : (s.setByte i x).chosen = s.chosen := rfl
@[simp] theorem setByte_cfgWait (s : State) (i : Nat) (x : Byte) : (s.setByte i x).cfgWait = s.cfgWait := rfl
@[simp] theorem setByte_placing (s : State) (i : Nat) (x : Byte) : (s.setByte i x).placing = s.placing := rfl
@[simp] theorem setByte_agenda (s : State) (i : Nat) (x : Byte) : (s.setByte i x).agenda = s.agenda := rfl
@[simp] theorem setByte_focus (s : State) (i : Nat) (x : Byte) : (s.setByte i x).focus = s.focus := rfl
@[simp] theorem setByte_steps (s : State) (i : Nat) (x : Byte) : (s.setByte i x).steps = s.steps := rfl

@[simp] theorem updPk_mem (s : State) (n : Nat) (f : Paddock → Paddock) : (s.updPk n f).mem = s.mem := rfl
@[simp] theorem updPk_wg (s : State) (n : Nat) (f : Paddock → Paddock) : (s.updPk n f).wg = s.wg := rfl
@[simp] theorem updPk_launch (s : State) (n : Nat) (f : Paddock → Paddock) : (s.updPk n f).launch = s.launch := rfl
@[simp] theorem updPk_chute (s : State) (n : Nat) (f : Paddock → Paddock) : (s.updPk n f).chute = s.chute := rfl
@[simp] theorem updPk_async (s : State) (n : Nat) (f : Paddock → Paddock) : (s.updPk n f).async = s.async := rfl
@[simp] theorem updPk_opSeq (s : State) (n : Nat) (f : Paddock → Paddock) : (s.updPk n f).opSeq = s.opSeq := rfl
@[simp] theorem updPk_dir (s : State) (n : Nat) (f : Paddock → Paddock) : (s.updPk n f).dir = s.dir := rfl
@[simp] theorem updPk_pod (s : State) (n : Nat) (f : Paddock → Paddock) : (s.updPk n f).pod = s.pod := rfl
@[simp] theorem updPk_cache (s : State) (n : Nat) (f : Paddock → Paddock) : (s.updPk n f).cache = s.cache := rfl
@[simp] theorem updPk_proxy (s : State) (n : Nat) (f : Paddock → Paddock) : (s.updPk n f).proxy = s.proxy := rfl
@[simp] theorem updPk_podMap (s : State) (n : Nat) (f : Paddock → Paddock) : (s.updPk n f).podMap = s.podMap := rfl
@[simp] theorem updPk_msgs (s : State) (n : Nat) (f : Paddock → Paddock) : (s.updPk n f).msgs = s.msgs := rfl
@[simp] theorem updPk_combined (s : State) (n : Nat) (f : Paddock → Paddock) : (s.updPk n f).combined = s.combined := rfl
@[simp] theorem updPk_late (s : State) (n : Nat) (f : Paddock → Paddock) : (s.updPk n f).late = s.late := rfl
@[simp] theorem updPk_outbox (s : State) (n : Nat) (f : Paddock → Paddock) : (s.updPk n f).outbox = s.outbox := rfl
@[simp] theorem updPk_ro (s : State) (n : Nat) (f : Paddock → Paddock) : (s.updPk n f).ro = s.ro := rfl
@[simp] theorem updPk_tc (s : State) (n : Nat) (f : Paddock → Paddock) : (s.updPk n f).tc = s.tc := rfl
@[simp] theorem updPk_waitq (s : State) (n : Nat) (f : Paddock → Paddock) : (s.updPk n f).waitq = s.waitq := rfl
@[simp] theorem updPk_lamport (s : State) (n : Nat) (f : Paddock → Paddock) : (s.updPk n f).lamport = s.lamport := rfl
@[simp] theorem updPk_sliceClock (s : State) (n : Nat) (f : Paddock → Paddock) : (s.updPk n f).sliceClock = s.sliceClock := rfl
@[simp] theorem updPk_beacon (s : State) (n : Nat) (f : Paddock → Paddock) : (s.updPk n f).beacon = s.beacon := rfl
@[simp] theorem updPk_ptpLocked (s : State) (n : Nat) (f : Paddock → Paddock) : (s.updPk n f).ptpLocked = s.ptpLocked := rfl
@[simp] theorem updPk_ptpEver (s : State) (n : Nat) (f : Paddock → Paddock) : (s.updPk n f).ptpEver = s.ptpEver := rfl
@[simp] theorem updPk_homeKey (s : State) (n : Nat) (f : Paddock → Paddock) : (s.updPk n f).homeKey = s.homeKey := rfl
@[simp] theorem updPk_time (s : State) (n : Nat) (f : Paddock → Paddock) : (s.updPk n f).time = s.time := rfl
@[simp] theorem updPk_timeHigh (s : State) (n : Nat) (f : Paddock → Paddock) : (s.updPk n f).timeHigh = s.timeHigh := rfl
@[simp] theorem updPk_deviceEpoch (s : State) (n : Nat) (f : Paddock → Paddock) : (s.updPk n f).deviceEpoch = s.deviceEpoch := rfl
@[simp] theorem updPk_cycle (s : State) (n : Nat) (f : Paddock → Paddock) : (s.updPk n f).cycle = s.cycle := rfl
@[simp] theorem updPk_records (s : State) (n : Nat) (f : Paddock → Paddock) : (s.updPk n f).records = s.records := rfl
@[simp] theorem updPk_lastStamp (s : State) (n : Nat) (f : Paddock → Paddock) : (s.updPk n f).lastStamp = s.lastStamp := rfl
@[simp] theorem updPk_stallFlag (s : State) (n : Nat) (f : Paddock → Paddock) : (s.updPk n f).stallFlag = s.stallFlag := rfl
@[simp] theorem updPk_sink (s : State) (n : Nat) (f : Paddock → Paddock) : (s.updPk n f).sink = s.sink := rfl
@[simp] theorem updPk_readiness (s : State) (n : Nat) (f : Paddock → Paddock) : (s.updPk n f).readiness = s.readiness := rfl
@[simp] theorem updPk_floorCnt (s : State) (n : Nat) (f : Paddock → Paddock) : (s.updPk n f).floorCnt = s.floorCnt := rfl
@[simp] theorem updPk_readySince (s : State) (n : Nat) (f : Paddock → Paddock) : (s.updPk n f).readySince = s.readySince := rfl
@[simp] theorem updPk_perfPeriod (s : State) (n : Nat) (f : Paddock → Paddock) : (s.updPk n f).perfPeriod = s.perfPeriod := rfl
@[simp] theorem updPk_perfRingBase (s : State) (n : Nat) (f : Paddock → Paddock) : (s.updPk n f).perfRingBase = s.perfRingBase := rfl
@[simp] theorem updPk_perfRingLog2 (s : State) (n : Nat) (f : Paddock → Paddock) : (s.updPk n f).perfRingLog2 = s.perfRingLog2 := rfl
@[simp] theorem updPk_perfRingHead (s : State) (n : Nat) (f : Paddock → Paddock) : (s.updPk n f).perfRingHead = s.perfRingHead := rfl
@[simp] theorem updPk_perfRingLost (s : State) (n : Nat) (f : Paddock → Paddock) : (s.updPk n f).perfRingLost = s.perfRingLost := rfl
@[simp] theorem updPk_perf (s : State) (n : Nat) (f : Paddock → Paddock) : (s.updPk n f).perf = s.perf := rfl
@[simp] theorem updPk_perfUnit (s : State) (n : Nat) (f : Paddock → Paddock) : (s.updPk n f).perfUnit = s.perfUnit := rfl
@[simp] theorem updPk_port (s : State) (n : Nat) (f : Paddock → Paddock) : (s.updPk n f).port = s.port := rfl
@[simp] theorem updPk_spareLink (s : State) (n : Nat) (f : Paddock → Paddock) : (s.updPk n f).spareLink = s.spareLink := rfl
@[simp] theorem updPk_pktCount (s : State) (n : Nat) (f : Paddock → Paddock) : (s.updPk n f).pktCount = s.pktCount := rfl
@[simp] theorem updPk_connected (s : State) (n : Nat) (f : Paddock → Paddock) : (s.updPk n f).connected = s.connected := rfl
@[simp] theorem updPk_pathBits (s : State) (n : Nat) (f : Paddock → Paddock) : (s.updPk n f).pathBits = s.pathBits := rfl
@[simp] theorem updPk_entropy (s : State) (n : Nat) (f : Paddock → Paddock) : (s.updPk n f).entropy = s.entropy := rfl
@[simp] theorem updPk_hotDest (s : State) (n : Nat) (f : Paddock → Paddock) : (s.updPk n f).hotDest = s.hotDest := rfl
@[simp] theorem updPk_tray (s : State) (n : Nat) (f : Paddock → Paddock) : (s.updPk n f).tray = s.tray := rfl
@[simp] theorem updPk_slotDown (s : State) (n : Nat) (f : Paddock → Paddock) : (s.updPk n f).slotDown = s.slotDown := rfl
@[simp] theorem updPk_congestion (s : State) (n : Nat) (f : Paddock → Paddock) : (s.updPk n f).congestion = s.congestion := rfl
@[simp] theorem updPk_podId (s : State) (n : Nat) (f : Paddock → Paddock) : (s.updPk n f).podId = s.podId := rfl
@[simp] theorem updPk_groupId (s : State) (n : Nat) (f : Paddock → Paddock) : (s.updPk n f).groupId = s.groupId := rfl
@[simp] theorem updPk_slotId (s : State) (n : Nat) (f : Paddock → Paddock) : (s.updPk n f).slotId = s.slotId := rfl
@[simp] theorem updPk_lost (s : State) (n : Nat) (f : Paddock → Paddock) : (s.updPk n f).lost = s.lost := rfl
@[simp] theorem updPk_revoked (s : State) (n : Nat) (f : Paddock → Paddock) : (s.updPk n f).revoked = s.revoked := rfl
@[simp] theorem updPk_remote (s : State) (n : Nat) (f : Paddock → Paddock) : (s.updPk n f).remote = s.remote := rfl
@[simp] theorem updPk_remoteTag (s : State) (n : Nat) (f : Paddock → Paddock) : (s.updPk n f).remoteTag = s.remoteTag := rfl
@[simp] theorem updPk_inbox (s : State) (n : Nat) (f : Paddock → Paddock) : (s.updPk n f).inbox = s.inbox := rfl
@[simp] theorem updPk_spdm (s : State) (n : Nat) (f : Paddock → Paddock) : (s.updPk n f).spdm = s.spdm := rfl
@[simp] theorem updPk_spdmOut (s : State) (n : Nat) (f : Paddock → Paddock) : (s.updPk n f).spdmOut = s.spdmOut := rfl
@[simp] theorem updPk_readOut (s : State) (n : Nat) (f : Paddock → Paddock) : (s.updPk n f).readOut = s.readOut := rfl
@[simp] theorem updPk_readWait (s : State) (n : Nat) (f : Paddock → Paddock) : (s.updPk n f).readWait = s.readWait := rfl
@[simp] theorem updPk_powered (s : State) (n : Nat) (f : Paddock → Paddock) : (s.updPk n f).powered = s.powered := rfl
@[simp] theorem updPk_halted (s : State) (n : Nat) (f : Paddock → Paddock) : (s.updPk n f).halted = s.halted := rfl
@[simp] theorem updPk_powerCap (s : State) (n : Nat) (f : Paddock → Paddock) : (s.updPk n f).powerCap = s.powerCap := rfl
@[simp] theorem updPk_throttled (s : State) (n : Nat) (f : Paddock → Paddock) : (s.updPk n f).throttled = s.throttled := rfl
@[simp] theorem updPk_tripped (s : State) (n : Nat) (f : Paddock → Paddock) : (s.updPk n f).tripped = s.tripped := rfl
@[simp] theorem updPk_spillReserved (s : State) (n : Nat) (f : Paddock → Paddock) : (s.updPk n f).spillReserved = s.spillReserved := rfl
@[simp] theorem updPk_spilled (s : State) (n : Nat) (f : Paddock → Paddock) : (s.updPk n f).spilled = s.spilled := rfl
@[simp] theorem updPk_driftOrder (s : State) (n : Nat) (f : Paddock → Paddock) : (s.updPk n f).driftOrder = s.driftOrder := rfl
@[simp] theorem updPk_carriage (s : State) (n : Nat) (f : Paddock → Paddock) : (s.updPk n f).carriage = s.carriage := rfl
@[simp] theorem updPk_swap (s : State) (n : Nat) (f : Paddock → Paddock) : (s.updPk n f).swap = s.swap := rfl
@[simp] theorem updPk_bindings (s : State) (n : Nat) (f : Paddock → Paddock) : (s.updPk n f).bindings = s.bindings := rfl
@[simp] theorem updPk_chosen (s : State) (n : Nat) (f : Paddock → Paddock) : (s.updPk n f).chosen = s.chosen := rfl
@[simp] theorem updPk_cfgWait (s : State) (n : Nat) (f : Paddock → Paddock) : (s.updPk n f).cfgWait = s.cfgWait := rfl
@[simp] theorem updPk_placing (s : State) (n : Nat) (f : Paddock → Paddock) : (s.updPk n f).placing = s.placing := rfl
@[simp] theorem updPk_agenda (s : State) (n : Nat) (f : Paddock → Paddock) : (s.updPk n f).agenda = s.agenda := rfl
@[simp] theorem updPk_focus (s : State) (n : Nat) (f : Paddock → Paddock) : (s.updPk n f).focus = s.focus := rfl
@[simp] theorem updPk_steps (s : State) (n : Nat) (f : Paddock → Paddock) : (s.updPk n f).steps = s.steps := rfl

@[simp] theorem updLaunch_mem (s : State) (k : Nat) (f : Launch → Launch) : (s.updLaunch k f).mem = s.mem := rfl
@[simp] theorem updLaunch_wg (s : State) (k : Nat) (f : Launch → Launch) : (s.updLaunch k f).wg = s.wg := rfl
@[simp] theorem updLaunch_chute (s : State) (k : Nat) (f : Launch → Launch) : (s.updLaunch k f).chute = s.chute := rfl
@[simp] theorem updLaunch_paddock (s : State) (k : Nat) (f : Launch → Launch) : (s.updLaunch k f).paddock = s.paddock := rfl
@[simp] theorem updLaunch_async (s : State) (k : Nat) (f : Launch → Launch) : (s.updLaunch k f).async = s.async := rfl
@[simp] theorem updLaunch_opSeq (s : State) (k : Nat) (f : Launch → Launch) : (s.updLaunch k f).opSeq = s.opSeq := rfl
@[simp] theorem updLaunch_dir (s : State) (k : Nat) (f : Launch → Launch) : (s.updLaunch k f).dir = s.dir := rfl
@[simp] theorem updLaunch_pod (s : State) (k : Nat) (f : Launch → Launch) : (s.updLaunch k f).pod = s.pod := rfl
@[simp] theorem updLaunch_cache (s : State) (k : Nat) (f : Launch → Launch) : (s.updLaunch k f).cache = s.cache := rfl
@[simp] theorem updLaunch_proxy (s : State) (k : Nat) (f : Launch → Launch) : (s.updLaunch k f).proxy = s.proxy := rfl
@[simp] theorem updLaunch_podMap (s : State) (k : Nat) (f : Launch → Launch) : (s.updLaunch k f).podMap = s.podMap := rfl
@[simp] theorem updLaunch_msgs (s : State) (k : Nat) (f : Launch → Launch) : (s.updLaunch k f).msgs = s.msgs := rfl
@[simp] theorem updLaunch_combined (s : State) (k : Nat) (f : Launch → Launch) : (s.updLaunch k f).combined = s.combined := rfl
@[simp] theorem updLaunch_late (s : State) (k : Nat) (f : Launch → Launch) : (s.updLaunch k f).late = s.late := rfl
@[simp] theorem updLaunch_outbox (s : State) (k : Nat) (f : Launch → Launch) : (s.updLaunch k f).outbox = s.outbox := rfl
@[simp] theorem updLaunch_ro (s : State) (k : Nat) (f : Launch → Launch) : (s.updLaunch k f).ro = s.ro := rfl
@[simp] theorem updLaunch_tc (s : State) (k : Nat) (f : Launch → Launch) : (s.updLaunch k f).tc = s.tc := rfl
@[simp] theorem updLaunch_waitq (s : State) (k : Nat) (f : Launch → Launch) : (s.updLaunch k f).waitq = s.waitq := rfl
@[simp] theorem updLaunch_lamport (s : State) (k : Nat) (f : Launch → Launch) : (s.updLaunch k f).lamport = s.lamport := rfl
@[simp] theorem updLaunch_sliceClock (s : State) (k : Nat) (f : Launch → Launch) : (s.updLaunch k f).sliceClock = s.sliceClock := rfl
@[simp] theorem updLaunch_beacon (s : State) (k : Nat) (f : Launch → Launch) : (s.updLaunch k f).beacon = s.beacon := rfl
@[simp] theorem updLaunch_ptpLocked (s : State) (k : Nat) (f : Launch → Launch) : (s.updLaunch k f).ptpLocked = s.ptpLocked := rfl
@[simp] theorem updLaunch_ptpEver (s : State) (k : Nat) (f : Launch → Launch) : (s.updLaunch k f).ptpEver = s.ptpEver := rfl
@[simp] theorem updLaunch_homeKey (s : State) (k : Nat) (f : Launch → Launch) : (s.updLaunch k f).homeKey = s.homeKey := rfl
@[simp] theorem updLaunch_time (s : State) (k : Nat) (f : Launch → Launch) : (s.updLaunch k f).time = s.time := rfl
@[simp] theorem updLaunch_timeHigh (s : State) (k : Nat) (f : Launch → Launch) : (s.updLaunch k f).timeHigh = s.timeHigh := rfl
@[simp] theorem updLaunch_deviceEpoch (s : State) (k : Nat) (f : Launch → Launch) : (s.updLaunch k f).deviceEpoch = s.deviceEpoch := rfl
@[simp] theorem updLaunch_cycle (s : State) (k : Nat) (f : Launch → Launch) : (s.updLaunch k f).cycle = s.cycle := rfl
@[simp] theorem updLaunch_records (s : State) (k : Nat) (f : Launch → Launch) : (s.updLaunch k f).records = s.records := rfl
@[simp] theorem updLaunch_lastStamp (s : State) (k : Nat) (f : Launch → Launch) : (s.updLaunch k f).lastStamp = s.lastStamp := rfl
@[simp] theorem updLaunch_stallFlag (s : State) (k : Nat) (f : Launch → Launch) : (s.updLaunch k f).stallFlag = s.stallFlag := rfl
@[simp] theorem updLaunch_sink (s : State) (k : Nat) (f : Launch → Launch) : (s.updLaunch k f).sink = s.sink := rfl
@[simp] theorem updLaunch_readiness (s : State) (k : Nat) (f : Launch → Launch) : (s.updLaunch k f).readiness = s.readiness := rfl
@[simp] theorem updLaunch_floorCnt (s : State) (k : Nat) (f : Launch → Launch) : (s.updLaunch k f).floorCnt = s.floorCnt := rfl
@[simp] theorem updLaunch_readySince (s : State) (k : Nat) (f : Launch → Launch) : (s.updLaunch k f).readySince = s.readySince := rfl
@[simp] theorem updLaunch_perfPeriod (s : State) (k : Nat) (f : Launch → Launch) : (s.updLaunch k f).perfPeriod = s.perfPeriod := rfl
@[simp] theorem updLaunch_perfRingBase (s : State) (k : Nat) (f : Launch → Launch) : (s.updLaunch k f).perfRingBase = s.perfRingBase := rfl
@[simp] theorem updLaunch_perfRingLog2 (s : State) (k : Nat) (f : Launch → Launch) : (s.updLaunch k f).perfRingLog2 = s.perfRingLog2 := rfl
@[simp] theorem updLaunch_perfRingHead (s : State) (k : Nat) (f : Launch → Launch) : (s.updLaunch k f).perfRingHead = s.perfRingHead := rfl
@[simp] theorem updLaunch_perfRingLost (s : State) (k : Nat) (f : Launch → Launch) : (s.updLaunch k f).perfRingLost = s.perfRingLost := rfl
@[simp] theorem updLaunch_perf (s : State) (k : Nat) (f : Launch → Launch) : (s.updLaunch k f).perf = s.perf := rfl
@[simp] theorem updLaunch_perfUnit (s : State) (k : Nat) (f : Launch → Launch) : (s.updLaunch k f).perfUnit = s.perfUnit := rfl
@[simp] theorem updLaunch_port (s : State) (k : Nat) (f : Launch → Launch) : (s.updLaunch k f).port = s.port := rfl
@[simp] theorem updLaunch_spareLink (s : State) (k : Nat) (f : Launch → Launch) : (s.updLaunch k f).spareLink = s.spareLink := rfl
@[simp] theorem updLaunch_pktCount (s : State) (k : Nat) (f : Launch → Launch) : (s.updLaunch k f).pktCount = s.pktCount := rfl
@[simp] theorem updLaunch_connected (s : State) (k : Nat) (f : Launch → Launch) : (s.updLaunch k f).connected = s.connected := rfl
@[simp] theorem updLaunch_pathBits (s : State) (k : Nat) (f : Launch → Launch) : (s.updLaunch k f).pathBits = s.pathBits := rfl
@[simp] theorem updLaunch_entropy (s : State) (k : Nat) (f : Launch → Launch) : (s.updLaunch k f).entropy = s.entropy := rfl
@[simp] theorem updLaunch_hotDest (s : State) (k : Nat) (f : Launch → Launch) : (s.updLaunch k f).hotDest = s.hotDest := rfl
@[simp] theorem updLaunch_tray (s : State) (k : Nat) (f : Launch → Launch) : (s.updLaunch k f).tray = s.tray := rfl
@[simp] theorem updLaunch_slotDown (s : State) (k : Nat) (f : Launch → Launch) : (s.updLaunch k f).slotDown = s.slotDown := rfl
@[simp] theorem updLaunch_congestion (s : State) (k : Nat) (f : Launch → Launch) : (s.updLaunch k f).congestion = s.congestion := rfl
@[simp] theorem updLaunch_podId (s : State) (k : Nat) (f : Launch → Launch) : (s.updLaunch k f).podId = s.podId := rfl
@[simp] theorem updLaunch_groupId (s : State) (k : Nat) (f : Launch → Launch) : (s.updLaunch k f).groupId = s.groupId := rfl
@[simp] theorem updLaunch_slotId (s : State) (k : Nat) (f : Launch → Launch) : (s.updLaunch k f).slotId = s.slotId := rfl
@[simp] theorem updLaunch_lost (s : State) (k : Nat) (f : Launch → Launch) : (s.updLaunch k f).lost = s.lost := rfl
@[simp] theorem updLaunch_revoked (s : State) (k : Nat) (f : Launch → Launch) : (s.updLaunch k f).revoked = s.revoked := rfl
@[simp] theorem updLaunch_remote (s : State) (k : Nat) (f : Launch → Launch) : (s.updLaunch k f).remote = s.remote := rfl
@[simp] theorem updLaunch_remoteTag (s : State) (k : Nat) (f : Launch → Launch) : (s.updLaunch k f).remoteTag = s.remoteTag := rfl
@[simp] theorem updLaunch_inbox (s : State) (k : Nat) (f : Launch → Launch) : (s.updLaunch k f).inbox = s.inbox := rfl
@[simp] theorem updLaunch_spdm (s : State) (k : Nat) (f : Launch → Launch) : (s.updLaunch k f).spdm = s.spdm := rfl
@[simp] theorem updLaunch_spdmOut (s : State) (k : Nat) (f : Launch → Launch) : (s.updLaunch k f).spdmOut = s.spdmOut := rfl
@[simp] theorem updLaunch_readOut (s : State) (k : Nat) (f : Launch → Launch) : (s.updLaunch k f).readOut = s.readOut := rfl
@[simp] theorem updLaunch_readWait (s : State) (k : Nat) (f : Launch → Launch) : (s.updLaunch k f).readWait = s.readWait := rfl
@[simp] theorem updLaunch_powered (s : State) (k : Nat) (f : Launch → Launch) : (s.updLaunch k f).powered = s.powered := rfl
@[simp] theorem updLaunch_halted (s : State) (k : Nat) (f : Launch → Launch) : (s.updLaunch k f).halted = s.halted := rfl
@[simp] theorem updLaunch_powerCap (s : State) (k : Nat) (f : Launch → Launch) : (s.updLaunch k f).powerCap = s.powerCap := rfl
@[simp] theorem updLaunch_throttled (s : State) (k : Nat) (f : Launch → Launch) : (s.updLaunch k f).throttled = s.throttled := rfl
@[simp] theorem updLaunch_tripped (s : State) (k : Nat) (f : Launch → Launch) : (s.updLaunch k f).tripped = s.tripped := rfl
@[simp] theorem updLaunch_spillReserved (s : State) (k : Nat) (f : Launch → Launch) : (s.updLaunch k f).spillReserved = s.spillReserved := rfl
@[simp] theorem updLaunch_spilled (s : State) (k : Nat) (f : Launch → Launch) : (s.updLaunch k f).spilled = s.spilled := rfl
@[simp] theorem updLaunch_driftOrder (s : State) (k : Nat) (f : Launch → Launch) : (s.updLaunch k f).driftOrder = s.driftOrder := rfl
@[simp] theorem updLaunch_carriage (s : State) (k : Nat) (f : Launch → Launch) : (s.updLaunch k f).carriage = s.carriage := rfl
@[simp] theorem updLaunch_swap (s : State) (k : Nat) (f : Launch → Launch) : (s.updLaunch k f).swap = s.swap := rfl
@[simp] theorem updLaunch_bindings (s : State) (k : Nat) (f : Launch → Launch) : (s.updLaunch k f).bindings = s.bindings := rfl
@[simp] theorem updLaunch_chosen (s : State) (k : Nat) (f : Launch → Launch) : (s.updLaunch k f).chosen = s.chosen := rfl
@[simp] theorem updLaunch_cfgWait (s : State) (k : Nat) (f : Launch → Launch) : (s.updLaunch k f).cfgWait = s.cfgWait := rfl
@[simp] theorem updLaunch_placing (s : State) (k : Nat) (f : Launch → Launch) : (s.updLaunch k f).placing = s.placing := rfl
@[simp] theorem updLaunch_agenda (s : State) (k : Nat) (f : Launch → Launch) : (s.updLaunch k f).agenda = s.agenda := rfl
@[simp] theorem updLaunch_focus (s : State) (k : Nat) (f : Launch → Launch) : (s.updLaunch k f).focus = s.focus := rfl
@[simp] theorem updLaunch_steps (s : State) (k : Nat) (f : Launch → Launch) : (s.updLaunch k f).steps = s.steps := rfl

@[simp] theorem updChute_mem (s : State) (k : Nat) (f : Chute → Chute) : (s.updChute k f).mem = s.mem := rfl
@[simp] theorem updChute_wg (s : State) (k : Nat) (f : Chute → Chute) : (s.updChute k f).wg = s.wg := rfl
@[simp] theorem updChute_launch (s : State) (k : Nat) (f : Chute → Chute) : (s.updChute k f).launch = s.launch := rfl
@[simp] theorem updChute_paddock (s : State) (k : Nat) (f : Chute → Chute) : (s.updChute k f).paddock = s.paddock := rfl
@[simp] theorem updChute_async (s : State) (k : Nat) (f : Chute → Chute) : (s.updChute k f).async = s.async := rfl
@[simp] theorem updChute_opSeq (s : State) (k : Nat) (f : Chute → Chute) : (s.updChute k f).opSeq = s.opSeq := rfl
@[simp] theorem updChute_dir (s : State) (k : Nat) (f : Chute → Chute) : (s.updChute k f).dir = s.dir := rfl
@[simp] theorem updChute_pod (s : State) (k : Nat) (f : Chute → Chute) : (s.updChute k f).pod = s.pod := rfl
@[simp] theorem updChute_cache (s : State) (k : Nat) (f : Chute → Chute) : (s.updChute k f).cache = s.cache := rfl
@[simp] theorem updChute_proxy (s : State) (k : Nat) (f : Chute → Chute) : (s.updChute k f).proxy = s.proxy := rfl
@[simp] theorem updChute_podMap (s : State) (k : Nat) (f : Chute → Chute) : (s.updChute k f).podMap = s.podMap := rfl
@[simp] theorem updChute_msgs (s : State) (k : Nat) (f : Chute → Chute) : (s.updChute k f).msgs = s.msgs := rfl
@[simp] theorem updChute_combined (s : State) (k : Nat) (f : Chute → Chute) : (s.updChute k f).combined = s.combined := rfl
@[simp] theorem updChute_late (s : State) (k : Nat) (f : Chute → Chute) : (s.updChute k f).late = s.late := rfl
@[simp] theorem updChute_outbox (s : State) (k : Nat) (f : Chute → Chute) : (s.updChute k f).outbox = s.outbox := rfl
@[simp] theorem updChute_ro (s : State) (k : Nat) (f : Chute → Chute) : (s.updChute k f).ro = s.ro := rfl
@[simp] theorem updChute_tc (s : State) (k : Nat) (f : Chute → Chute) : (s.updChute k f).tc = s.tc := rfl
@[simp] theorem updChute_waitq (s : State) (k : Nat) (f : Chute → Chute) : (s.updChute k f).waitq = s.waitq := rfl
@[simp] theorem updChute_lamport (s : State) (k : Nat) (f : Chute → Chute) : (s.updChute k f).lamport = s.lamport := rfl
@[simp] theorem updChute_sliceClock (s : State) (k : Nat) (f : Chute → Chute) : (s.updChute k f).sliceClock = s.sliceClock := rfl
@[simp] theorem updChute_beacon (s : State) (k : Nat) (f : Chute → Chute) : (s.updChute k f).beacon = s.beacon := rfl
@[simp] theorem updChute_ptpLocked (s : State) (k : Nat) (f : Chute → Chute) : (s.updChute k f).ptpLocked = s.ptpLocked := rfl
@[simp] theorem updChute_ptpEver (s : State) (k : Nat) (f : Chute → Chute) : (s.updChute k f).ptpEver = s.ptpEver := rfl
@[simp] theorem updChute_homeKey (s : State) (k : Nat) (f : Chute → Chute) : (s.updChute k f).homeKey = s.homeKey := rfl
@[simp] theorem updChute_time (s : State) (k : Nat) (f : Chute → Chute) : (s.updChute k f).time = s.time := rfl
@[simp] theorem updChute_timeHigh (s : State) (k : Nat) (f : Chute → Chute) : (s.updChute k f).timeHigh = s.timeHigh := rfl
@[simp] theorem updChute_deviceEpoch (s : State) (k : Nat) (f : Chute → Chute) : (s.updChute k f).deviceEpoch = s.deviceEpoch := rfl
@[simp] theorem updChute_cycle (s : State) (k : Nat) (f : Chute → Chute) : (s.updChute k f).cycle = s.cycle := rfl
@[simp] theorem updChute_records (s : State) (k : Nat) (f : Chute → Chute) : (s.updChute k f).records = s.records := rfl
@[simp] theorem updChute_lastStamp (s : State) (k : Nat) (f : Chute → Chute) : (s.updChute k f).lastStamp = s.lastStamp := rfl
@[simp] theorem updChute_stallFlag (s : State) (k : Nat) (f : Chute → Chute) : (s.updChute k f).stallFlag = s.stallFlag := rfl
@[simp] theorem updChute_sink (s : State) (k : Nat) (f : Chute → Chute) : (s.updChute k f).sink = s.sink := rfl
@[simp] theorem updChute_readiness (s : State) (k : Nat) (f : Chute → Chute) : (s.updChute k f).readiness = s.readiness := rfl
@[simp] theorem updChute_floorCnt (s : State) (k : Nat) (f : Chute → Chute) : (s.updChute k f).floorCnt = s.floorCnt := rfl
@[simp] theorem updChute_readySince (s : State) (k : Nat) (f : Chute → Chute) : (s.updChute k f).readySince = s.readySince := rfl
@[simp] theorem updChute_perfPeriod (s : State) (k : Nat) (f : Chute → Chute) : (s.updChute k f).perfPeriod = s.perfPeriod := rfl
@[simp] theorem updChute_perfRingBase (s : State) (k : Nat) (f : Chute → Chute) : (s.updChute k f).perfRingBase = s.perfRingBase := rfl
@[simp] theorem updChute_perfRingLog2 (s : State) (k : Nat) (f : Chute → Chute) : (s.updChute k f).perfRingLog2 = s.perfRingLog2 := rfl
@[simp] theorem updChute_perfRingHead (s : State) (k : Nat) (f : Chute → Chute) : (s.updChute k f).perfRingHead = s.perfRingHead := rfl
@[simp] theorem updChute_perfRingLost (s : State) (k : Nat) (f : Chute → Chute) : (s.updChute k f).perfRingLost = s.perfRingLost := rfl
@[simp] theorem updChute_perf (s : State) (k : Nat) (f : Chute → Chute) : (s.updChute k f).perf = s.perf := rfl
@[simp] theorem updChute_perfUnit (s : State) (k : Nat) (f : Chute → Chute) : (s.updChute k f).perfUnit = s.perfUnit := rfl
@[simp] theorem updChute_port (s : State) (k : Nat) (f : Chute → Chute) : (s.updChute k f).port = s.port := rfl
@[simp] theorem updChute_spareLink (s : State) (k : Nat) (f : Chute → Chute) : (s.updChute k f).spareLink = s.spareLink := rfl
@[simp] theorem updChute_pktCount (s : State) (k : Nat) (f : Chute → Chute) : (s.updChute k f).pktCount = s.pktCount := rfl
@[simp] theorem updChute_connected (s : State) (k : Nat) (f : Chute → Chute) : (s.updChute k f).connected = s.connected := rfl
@[simp] theorem updChute_pathBits (s : State) (k : Nat) (f : Chute → Chute) : (s.updChute k f).pathBits = s.pathBits := rfl
@[simp] theorem updChute_entropy (s : State) (k : Nat) (f : Chute → Chute) : (s.updChute k f).entropy = s.entropy := rfl
@[simp] theorem updChute_hotDest (s : State) (k : Nat) (f : Chute → Chute) : (s.updChute k f).hotDest = s.hotDest := rfl
@[simp] theorem updChute_tray (s : State) (k : Nat) (f : Chute → Chute) : (s.updChute k f).tray = s.tray := rfl
@[simp] theorem updChute_slotDown (s : State) (k : Nat) (f : Chute → Chute) : (s.updChute k f).slotDown = s.slotDown := rfl
@[simp] theorem updChute_congestion (s : State) (k : Nat) (f : Chute → Chute) : (s.updChute k f).congestion = s.congestion := rfl
@[simp] theorem updChute_podId (s : State) (k : Nat) (f : Chute → Chute) : (s.updChute k f).podId = s.podId := rfl
@[simp] theorem updChute_groupId (s : State) (k : Nat) (f : Chute → Chute) : (s.updChute k f).groupId = s.groupId := rfl
@[simp] theorem updChute_slotId (s : State) (k : Nat) (f : Chute → Chute) : (s.updChute k f).slotId = s.slotId := rfl
@[simp] theorem updChute_lost (s : State) (k : Nat) (f : Chute → Chute) : (s.updChute k f).lost = s.lost := rfl
@[simp] theorem updChute_revoked (s : State) (k : Nat) (f : Chute → Chute) : (s.updChute k f).revoked = s.revoked := rfl
@[simp] theorem updChute_remote (s : State) (k : Nat) (f : Chute → Chute) : (s.updChute k f).remote = s.remote := rfl
@[simp] theorem updChute_remoteTag (s : State) (k : Nat) (f : Chute → Chute) : (s.updChute k f).remoteTag = s.remoteTag := rfl
@[simp] theorem updChute_inbox (s : State) (k : Nat) (f : Chute → Chute) : (s.updChute k f).inbox = s.inbox := rfl
@[simp] theorem updChute_spdm (s : State) (k : Nat) (f : Chute → Chute) : (s.updChute k f).spdm = s.spdm := rfl
@[simp] theorem updChute_spdmOut (s : State) (k : Nat) (f : Chute → Chute) : (s.updChute k f).spdmOut = s.spdmOut := rfl
@[simp] theorem updChute_readOut (s : State) (k : Nat) (f : Chute → Chute) : (s.updChute k f).readOut = s.readOut := rfl
@[simp] theorem updChute_readWait (s : State) (k : Nat) (f : Chute → Chute) : (s.updChute k f).readWait = s.readWait := rfl
@[simp] theorem updChute_powered (s : State) (k : Nat) (f : Chute → Chute) : (s.updChute k f).powered = s.powered := rfl
@[simp] theorem updChute_halted (s : State) (k : Nat) (f : Chute → Chute) : (s.updChute k f).halted = s.halted := rfl
@[simp] theorem updChute_powerCap (s : State) (k : Nat) (f : Chute → Chute) : (s.updChute k f).powerCap = s.powerCap := rfl
@[simp] theorem updChute_throttled (s : State) (k : Nat) (f : Chute → Chute) : (s.updChute k f).throttled = s.throttled := rfl
@[simp] theorem updChute_tripped (s : State) (k : Nat) (f : Chute → Chute) : (s.updChute k f).tripped = s.tripped := rfl
@[simp] theorem updChute_spillReserved (s : State) (k : Nat) (f : Chute → Chute) : (s.updChute k f).spillReserved = s.spillReserved := rfl
@[simp] theorem updChute_spilled (s : State) (k : Nat) (f : Chute → Chute) : (s.updChute k f).spilled = s.spilled := rfl
@[simp] theorem updChute_driftOrder (s : State) (k : Nat) (f : Chute → Chute) : (s.updChute k f).driftOrder = s.driftOrder := rfl
@[simp] theorem updChute_carriage (s : State) (k : Nat) (f : Chute → Chute) : (s.updChute k f).carriage = s.carriage := rfl
@[simp] theorem updChute_swap (s : State) (k : Nat) (f : Chute → Chute) : (s.updChute k f).swap = s.swap := rfl
@[simp] theorem updChute_bindings (s : State) (k : Nat) (f : Chute → Chute) : (s.updChute k f).bindings = s.bindings := rfl
@[simp] theorem updChute_chosen (s : State) (k : Nat) (f : Chute → Chute) : (s.updChute k f).chosen = s.chosen := rfl
@[simp] theorem updChute_cfgWait (s : State) (k : Nat) (f : Chute → Chute) : (s.updChute k f).cfgWait = s.cfgWait := rfl
@[simp] theorem updChute_placing (s : State) (k : Nat) (f : Chute → Chute) : (s.updChute k f).placing = s.placing := rfl
@[simp] theorem updChute_agenda (s : State) (k : Nat) (f : Chute → Chute) : (s.updChute k f).agenda = s.agenda := rfl
@[simp] theorem updChute_focus (s : State) (k : Nat) (f : Chute → Chute) : (s.updChute k f).focus = s.focus := rfl
@[simp] theorem updChute_steps (s : State) (k : Nat) (f : Chute → Chute) : (s.updChute k f).steps = s.steps := rfl

@[simp] theorem setDir_mem (s : State) (n : Nat) (d : DirEntry) : (s.setDir n d).mem = s.mem := rfl
@[simp] theorem setDir_wg (s : State) (n : Nat) (d : DirEntry) : (s.setDir n d).wg = s.wg := rfl
@[simp] theorem setDir_launch (s : State) (n : Nat) (d : DirEntry) : (s.setDir n d).launch = s.launch := rfl
@[simp] theorem setDir_chute (s : State) (n : Nat) (d : DirEntry) : (s.setDir n d).chute = s.chute := rfl
@[simp] theorem setDir_paddock (s : State) (n : Nat) (d : DirEntry) : (s.setDir n d).paddock = s.paddock := rfl
@[simp] theorem setDir_async (s : State) (n : Nat) (d : DirEntry) : (s.setDir n d).async = s.async := rfl
@[simp] theorem setDir_opSeq (s : State) (n : Nat) (d : DirEntry) : (s.setDir n d).opSeq = s.opSeq := rfl
@[simp] theorem setDir_pod (s : State) (n : Nat) (d : DirEntry) : (s.setDir n d).pod = s.pod := rfl
@[simp] theorem setDir_cache (s : State) (n : Nat) (d : DirEntry) : (s.setDir n d).cache = s.cache := rfl
@[simp] theorem setDir_proxy (s : State) (n : Nat) (d : DirEntry) : (s.setDir n d).proxy = s.proxy := rfl
@[simp] theorem setDir_podMap (s : State) (n : Nat) (d : DirEntry) : (s.setDir n d).podMap = s.podMap := rfl
@[simp] theorem setDir_msgs (s : State) (n : Nat) (d : DirEntry) : (s.setDir n d).msgs = s.msgs := rfl
@[simp] theorem setDir_combined (s : State) (n : Nat) (d : DirEntry) : (s.setDir n d).combined = s.combined := rfl
@[simp] theorem setDir_late (s : State) (n : Nat) (d : DirEntry) : (s.setDir n d).late = s.late := rfl
@[simp] theorem setDir_outbox (s : State) (n : Nat) (d : DirEntry) : (s.setDir n d).outbox = s.outbox := rfl
@[simp] theorem setDir_ro (s : State) (n : Nat) (d : DirEntry) : (s.setDir n d).ro = s.ro := rfl
@[simp] theorem setDir_tc (s : State) (n : Nat) (d : DirEntry) : (s.setDir n d).tc = s.tc := rfl
@[simp] theorem setDir_waitq (s : State) (n : Nat) (d : DirEntry) : (s.setDir n d).waitq = s.waitq := rfl
@[simp] theorem setDir_lamport (s : State) (n : Nat) (d : DirEntry) : (s.setDir n d).lamport = s.lamport := rfl
@[simp] theorem setDir_sliceClock (s : State) (n : Nat) (d : DirEntry) : (s.setDir n d).sliceClock = s.sliceClock := rfl
@[simp] theorem setDir_beacon (s : State) (n : Nat) (d : DirEntry) : (s.setDir n d).beacon = s.beacon := rfl
@[simp] theorem setDir_ptpLocked (s : State) (n : Nat) (d : DirEntry) : (s.setDir n d).ptpLocked = s.ptpLocked := rfl
@[simp] theorem setDir_ptpEver (s : State) (n : Nat) (d : DirEntry) : (s.setDir n d).ptpEver = s.ptpEver := rfl
@[simp] theorem setDir_homeKey (s : State) (n : Nat) (d : DirEntry) : (s.setDir n d).homeKey = s.homeKey := rfl
@[simp] theorem setDir_time (s : State) (n : Nat) (d : DirEntry) : (s.setDir n d).time = s.time := rfl
@[simp] theorem setDir_timeHigh (s : State) (n : Nat) (d : DirEntry) : (s.setDir n d).timeHigh = s.timeHigh := rfl
@[simp] theorem setDir_deviceEpoch (s : State) (n : Nat) (d : DirEntry) : (s.setDir n d).deviceEpoch = s.deviceEpoch := rfl
@[simp] theorem setDir_cycle (s : State) (n : Nat) (d : DirEntry) : (s.setDir n d).cycle = s.cycle := rfl
@[simp] theorem setDir_records (s : State) (n : Nat) (d : DirEntry) : (s.setDir n d).records = s.records := rfl
@[simp] theorem setDir_lastStamp (s : State) (n : Nat) (d : DirEntry) : (s.setDir n d).lastStamp = s.lastStamp := rfl
@[simp] theorem setDir_stallFlag (s : State) (n : Nat) (d : DirEntry) : (s.setDir n d).stallFlag = s.stallFlag := rfl
@[simp] theorem setDir_sink (s : State) (n : Nat) (d : DirEntry) : (s.setDir n d).sink = s.sink := rfl
@[simp] theorem setDir_readiness (s : State) (n : Nat) (d : DirEntry) : (s.setDir n d).readiness = s.readiness := rfl
@[simp] theorem setDir_floorCnt (s : State) (n : Nat) (d : DirEntry) : (s.setDir n d).floorCnt = s.floorCnt := rfl
@[simp] theorem setDir_readySince (s : State) (n : Nat) (d : DirEntry) : (s.setDir n d).readySince = s.readySince := rfl
@[simp] theorem setDir_perfPeriod (s : State) (n : Nat) (d : DirEntry) : (s.setDir n d).perfPeriod = s.perfPeriod := rfl
@[simp] theorem setDir_perfRingBase (s : State) (n : Nat) (d : DirEntry) : (s.setDir n d).perfRingBase = s.perfRingBase := rfl
@[simp] theorem setDir_perfRingLog2 (s : State) (n : Nat) (d : DirEntry) : (s.setDir n d).perfRingLog2 = s.perfRingLog2 := rfl
@[simp] theorem setDir_perfRingHead (s : State) (n : Nat) (d : DirEntry) : (s.setDir n d).perfRingHead = s.perfRingHead := rfl
@[simp] theorem setDir_perfRingLost (s : State) (n : Nat) (d : DirEntry) : (s.setDir n d).perfRingLost = s.perfRingLost := rfl
@[simp] theorem setDir_perf (s : State) (n : Nat) (d : DirEntry) : (s.setDir n d).perf = s.perf := rfl
@[simp] theorem setDir_perfUnit (s : State) (n : Nat) (d : DirEntry) : (s.setDir n d).perfUnit = s.perfUnit := rfl
@[simp] theorem setDir_port (s : State) (n : Nat) (d : DirEntry) : (s.setDir n d).port = s.port := rfl
@[simp] theorem setDir_spareLink (s : State) (n : Nat) (d : DirEntry) : (s.setDir n d).spareLink = s.spareLink := rfl
@[simp] theorem setDir_pktCount (s : State) (n : Nat) (d : DirEntry) : (s.setDir n d).pktCount = s.pktCount := rfl
@[simp] theorem setDir_connected (s : State) (n : Nat) (d : DirEntry) : (s.setDir n d).connected = s.connected := rfl
@[simp] theorem setDir_pathBits (s : State) (n : Nat) (d : DirEntry) : (s.setDir n d).pathBits = s.pathBits := rfl
@[simp] theorem setDir_entropy (s : State) (n : Nat) (d : DirEntry) : (s.setDir n d).entropy = s.entropy := rfl
@[simp] theorem setDir_hotDest (s : State) (n : Nat) (d : DirEntry) : (s.setDir n d).hotDest = s.hotDest := rfl
@[simp] theorem setDir_tray (s : State) (n : Nat) (d : DirEntry) : (s.setDir n d).tray = s.tray := rfl
@[simp] theorem setDir_slotDown (s : State) (n : Nat) (d : DirEntry) : (s.setDir n d).slotDown = s.slotDown := rfl
@[simp] theorem setDir_congestion (s : State) (n : Nat) (d : DirEntry) : (s.setDir n d).congestion = s.congestion := rfl
@[simp] theorem setDir_podId (s : State) (n : Nat) (d : DirEntry) : (s.setDir n d).podId = s.podId := rfl
@[simp] theorem setDir_groupId (s : State) (n : Nat) (d : DirEntry) : (s.setDir n d).groupId = s.groupId := rfl
@[simp] theorem setDir_slotId (s : State) (n : Nat) (d : DirEntry) : (s.setDir n d).slotId = s.slotId := rfl
@[simp] theorem setDir_lost (s : State) (n : Nat) (d : DirEntry) : (s.setDir n d).lost = s.lost := rfl
@[simp] theorem setDir_revoked (s : State) (n : Nat) (d : DirEntry) : (s.setDir n d).revoked = s.revoked := rfl
@[simp] theorem setDir_remote (s : State) (n : Nat) (d : DirEntry) : (s.setDir n d).remote = s.remote := rfl
@[simp] theorem setDir_remoteTag (s : State) (n : Nat) (d : DirEntry) : (s.setDir n d).remoteTag = s.remoteTag := rfl
@[simp] theorem setDir_inbox (s : State) (n : Nat) (d : DirEntry) : (s.setDir n d).inbox = s.inbox := rfl
@[simp] theorem setDir_spdm (s : State) (n : Nat) (d : DirEntry) : (s.setDir n d).spdm = s.spdm := rfl
@[simp] theorem setDir_spdmOut (s : State) (n : Nat) (d : DirEntry) : (s.setDir n d).spdmOut = s.spdmOut := rfl
@[simp] theorem setDir_readOut (s : State) (n : Nat) (d : DirEntry) : (s.setDir n d).readOut = s.readOut := rfl
@[simp] theorem setDir_readWait (s : State) (n : Nat) (d : DirEntry) : (s.setDir n d).readWait = s.readWait := rfl
@[simp] theorem setDir_powered (s : State) (n : Nat) (d : DirEntry) : (s.setDir n d).powered = s.powered := rfl
@[simp] theorem setDir_halted (s : State) (n : Nat) (d : DirEntry) : (s.setDir n d).halted = s.halted := rfl
@[simp] theorem setDir_powerCap (s : State) (n : Nat) (d : DirEntry) : (s.setDir n d).powerCap = s.powerCap := rfl
@[simp] theorem setDir_throttled (s : State) (n : Nat) (d : DirEntry) : (s.setDir n d).throttled = s.throttled := rfl
@[simp] theorem setDir_tripped (s : State) (n : Nat) (d : DirEntry) : (s.setDir n d).tripped = s.tripped := rfl
@[simp] theorem setDir_spillReserved (s : State) (n : Nat) (d : DirEntry) : (s.setDir n d).spillReserved = s.spillReserved := rfl
@[simp] theorem setDir_spilled (s : State) (n : Nat) (d : DirEntry) : (s.setDir n d).spilled = s.spilled := rfl
@[simp] theorem setDir_carriage (s : State) (n : Nat) (d : DirEntry) : (s.setDir n d).carriage = s.carriage := rfl
@[simp] theorem setDir_swap (s : State) (n : Nat) (d : DirEntry) : (s.setDir n d).swap = s.swap := rfl
@[simp] theorem setDir_bindings (s : State) (n : Nat) (d : DirEntry) : (s.setDir n d).bindings = s.bindings := rfl
@[simp] theorem setDir_chosen (s : State) (n : Nat) (d : DirEntry) : (s.setDir n d).chosen = s.chosen := rfl
@[simp] theorem setDir_cfgWait (s : State) (n : Nat) (d : DirEntry) : (s.setDir n d).cfgWait = s.cfgWait := rfl
@[simp] theorem setDir_placing (s : State) (n : Nat) (d : DirEntry) : (s.setDir n d).placing = s.placing := rfl
@[simp] theorem setDir_agenda (s : State) (n : Nat) (d : DirEntry) : (s.setDir n d).agenda = s.agenda := rfl
@[simp] theorem setDir_focus (s : State) (n : Nat) (d : DirEntry) : (s.setDir n d).focus = s.focus := rfl
@[simp] theorem setDir_steps (s : State) (n : Nat) (d : DirEntry) : (s.setDir n d).steps = s.steps := rfl

@[simp] theorem setPod_mem (s : State) (n : Nat) (d : DirEntry) : (s.setPod n d).mem = s.mem := rfl
@[simp] theorem setPod_wg (s : State) (n : Nat) (d : DirEntry) : (s.setPod n d).wg = s.wg := rfl
@[simp] theorem setPod_launch (s : State) (n : Nat) (d : DirEntry) : (s.setPod n d).launch = s.launch := rfl
@[simp] theorem setPod_chute (s : State) (n : Nat) (d : DirEntry) : (s.setPod n d).chute = s.chute := rfl
@[simp] theorem setPod_paddock (s : State) (n : Nat) (d : DirEntry) : (s.setPod n d).paddock = s.paddock := rfl
@[simp] theorem setPod_async (s : State) (n : Nat) (d : DirEntry) : (s.setPod n d).async = s.async := rfl
@[simp] theorem setPod_opSeq (s : State) (n : Nat) (d : DirEntry) : (s.setPod n d).opSeq = s.opSeq := rfl
@[simp] theorem setPod_dir (s : State) (n : Nat) (d : DirEntry) : (s.setPod n d).dir = s.dir := rfl
@[simp] theorem setPod_cache (s : State) (n : Nat) (d : DirEntry) : (s.setPod n d).cache = s.cache := rfl
@[simp] theorem setPod_proxy (s : State) (n : Nat) (d : DirEntry) : (s.setPod n d).proxy = s.proxy := rfl
@[simp] theorem setPod_podMap (s : State) (n : Nat) (d : DirEntry) : (s.setPod n d).podMap = s.podMap := rfl
@[simp] theorem setPod_msgs (s : State) (n : Nat) (d : DirEntry) : (s.setPod n d).msgs = s.msgs := rfl
@[simp] theorem setPod_combined (s : State) (n : Nat) (d : DirEntry) : (s.setPod n d).combined = s.combined := rfl
@[simp] theorem setPod_late (s : State) (n : Nat) (d : DirEntry) : (s.setPod n d).late = s.late := rfl
@[simp] theorem setPod_outbox (s : State) (n : Nat) (d : DirEntry) : (s.setPod n d).outbox = s.outbox := rfl
@[simp] theorem setPod_ro (s : State) (n : Nat) (d : DirEntry) : (s.setPod n d).ro = s.ro := rfl
@[simp] theorem setPod_tc (s : State) (n : Nat) (d : DirEntry) : (s.setPod n d).tc = s.tc := rfl
@[simp] theorem setPod_waitq (s : State) (n : Nat) (d : DirEntry) : (s.setPod n d).waitq = s.waitq := rfl
@[simp] theorem setPod_lamport (s : State) (n : Nat) (d : DirEntry) : (s.setPod n d).lamport = s.lamport := rfl
@[simp] theorem setPod_sliceClock (s : State) (n : Nat) (d : DirEntry) : (s.setPod n d).sliceClock = s.sliceClock := rfl
@[simp] theorem setPod_beacon (s : State) (n : Nat) (d : DirEntry) : (s.setPod n d).beacon = s.beacon := rfl
@[simp] theorem setPod_ptpLocked (s : State) (n : Nat) (d : DirEntry) : (s.setPod n d).ptpLocked = s.ptpLocked := rfl
@[simp] theorem setPod_ptpEver (s : State) (n : Nat) (d : DirEntry) : (s.setPod n d).ptpEver = s.ptpEver := rfl
@[simp] theorem setPod_homeKey (s : State) (n : Nat) (d : DirEntry) : (s.setPod n d).homeKey = s.homeKey := rfl
@[simp] theorem setPod_time (s : State) (n : Nat) (d : DirEntry) : (s.setPod n d).time = s.time := rfl
@[simp] theorem setPod_timeHigh (s : State) (n : Nat) (d : DirEntry) : (s.setPod n d).timeHigh = s.timeHigh := rfl
@[simp] theorem setPod_deviceEpoch (s : State) (n : Nat) (d : DirEntry) : (s.setPod n d).deviceEpoch = s.deviceEpoch := rfl
@[simp] theorem setPod_cycle (s : State) (n : Nat) (d : DirEntry) : (s.setPod n d).cycle = s.cycle := rfl
@[simp] theorem setPod_records (s : State) (n : Nat) (d : DirEntry) : (s.setPod n d).records = s.records := rfl
@[simp] theorem setPod_lastStamp (s : State) (n : Nat) (d : DirEntry) : (s.setPod n d).lastStamp = s.lastStamp := rfl
@[simp] theorem setPod_stallFlag (s : State) (n : Nat) (d : DirEntry) : (s.setPod n d).stallFlag = s.stallFlag := rfl
@[simp] theorem setPod_sink (s : State) (n : Nat) (d : DirEntry) : (s.setPod n d).sink = s.sink := rfl
@[simp] theorem setPod_readiness (s : State) (n : Nat) (d : DirEntry) : (s.setPod n d).readiness = s.readiness := rfl
@[simp] theorem setPod_floorCnt (s : State) (n : Nat) (d : DirEntry) : (s.setPod n d).floorCnt = s.floorCnt := rfl
@[simp] theorem setPod_readySince (s : State) (n : Nat) (d : DirEntry) : (s.setPod n d).readySince = s.readySince := rfl
@[simp] theorem setPod_perfPeriod (s : State) (n : Nat) (d : DirEntry) : (s.setPod n d).perfPeriod = s.perfPeriod := rfl
@[simp] theorem setPod_perfRingBase (s : State) (n : Nat) (d : DirEntry) : (s.setPod n d).perfRingBase = s.perfRingBase := rfl
@[simp] theorem setPod_perfRingLog2 (s : State) (n : Nat) (d : DirEntry) : (s.setPod n d).perfRingLog2 = s.perfRingLog2 := rfl
@[simp] theorem setPod_perfRingHead (s : State) (n : Nat) (d : DirEntry) : (s.setPod n d).perfRingHead = s.perfRingHead := rfl
@[simp] theorem setPod_perfRingLost (s : State) (n : Nat) (d : DirEntry) : (s.setPod n d).perfRingLost = s.perfRingLost := rfl
@[simp] theorem setPod_perf (s : State) (n : Nat) (d : DirEntry) : (s.setPod n d).perf = s.perf := rfl
@[simp] theorem setPod_perfUnit (s : State) (n : Nat) (d : DirEntry) : (s.setPod n d).perfUnit = s.perfUnit := rfl
@[simp] theorem setPod_port (s : State) (n : Nat) (d : DirEntry) : (s.setPod n d).port = s.port := rfl
@[simp] theorem setPod_spareLink (s : State) (n : Nat) (d : DirEntry) : (s.setPod n d).spareLink = s.spareLink := rfl
@[simp] theorem setPod_pktCount (s : State) (n : Nat) (d : DirEntry) : (s.setPod n d).pktCount = s.pktCount := rfl
@[simp] theorem setPod_connected (s : State) (n : Nat) (d : DirEntry) : (s.setPod n d).connected = s.connected := rfl
@[simp] theorem setPod_pathBits (s : State) (n : Nat) (d : DirEntry) : (s.setPod n d).pathBits = s.pathBits := rfl
@[simp] theorem setPod_entropy (s : State) (n : Nat) (d : DirEntry) : (s.setPod n d).entropy = s.entropy := rfl
@[simp] theorem setPod_hotDest (s : State) (n : Nat) (d : DirEntry) : (s.setPod n d).hotDest = s.hotDest := rfl
@[simp] theorem setPod_tray (s : State) (n : Nat) (d : DirEntry) : (s.setPod n d).tray = s.tray := rfl
@[simp] theorem setPod_slotDown (s : State) (n : Nat) (d : DirEntry) : (s.setPod n d).slotDown = s.slotDown := rfl
@[simp] theorem setPod_congestion (s : State) (n : Nat) (d : DirEntry) : (s.setPod n d).congestion = s.congestion := rfl
@[simp] theorem setPod_podId (s : State) (n : Nat) (d : DirEntry) : (s.setPod n d).podId = s.podId := rfl
@[simp] theorem setPod_groupId (s : State) (n : Nat) (d : DirEntry) : (s.setPod n d).groupId = s.groupId := rfl
@[simp] theorem setPod_slotId (s : State) (n : Nat) (d : DirEntry) : (s.setPod n d).slotId = s.slotId := rfl
@[simp] theorem setPod_lost (s : State) (n : Nat) (d : DirEntry) : (s.setPod n d).lost = s.lost := rfl
@[simp] theorem setPod_revoked (s : State) (n : Nat) (d : DirEntry) : (s.setPod n d).revoked = s.revoked := rfl
@[simp] theorem setPod_remote (s : State) (n : Nat) (d : DirEntry) : (s.setPod n d).remote = s.remote := rfl
@[simp] theorem setPod_remoteTag (s : State) (n : Nat) (d : DirEntry) : (s.setPod n d).remoteTag = s.remoteTag := rfl
@[simp] theorem setPod_inbox (s : State) (n : Nat) (d : DirEntry) : (s.setPod n d).inbox = s.inbox := rfl
@[simp] theorem setPod_spdm (s : State) (n : Nat) (d : DirEntry) : (s.setPod n d).spdm = s.spdm := rfl
@[simp] theorem setPod_spdmOut (s : State) (n : Nat) (d : DirEntry) : (s.setPod n d).spdmOut = s.spdmOut := rfl
@[simp] theorem setPod_readOut (s : State) (n : Nat) (d : DirEntry) : (s.setPod n d).readOut = s.readOut := rfl
@[simp] theorem setPod_readWait (s : State) (n : Nat) (d : DirEntry) : (s.setPod n d).readWait = s.readWait := rfl
@[simp] theorem setPod_powered (s : State) (n : Nat) (d : DirEntry) : (s.setPod n d).powered = s.powered := rfl
@[simp] theorem setPod_halted (s : State) (n : Nat) (d : DirEntry) : (s.setPod n d).halted = s.halted := rfl
@[simp] theorem setPod_powerCap (s : State) (n : Nat) (d : DirEntry) : (s.setPod n d).powerCap = s.powerCap := rfl
@[simp] theorem setPod_throttled (s : State) (n : Nat) (d : DirEntry) : (s.setPod n d).throttled = s.throttled := rfl
@[simp] theorem setPod_tripped (s : State) (n : Nat) (d : DirEntry) : (s.setPod n d).tripped = s.tripped := rfl
@[simp] theorem setPod_spillReserved (s : State) (n : Nat) (d : DirEntry) : (s.setPod n d).spillReserved = s.spillReserved := rfl
@[simp] theorem setPod_spilled (s : State) (n : Nat) (d : DirEntry) : (s.setPod n d).spilled = s.spilled := rfl
@[simp] theorem setPod_carriage (s : State) (n : Nat) (d : DirEntry) : (s.setPod n d).carriage = s.carriage := rfl
@[simp] theorem setPod_swap (s : State) (n : Nat) (d : DirEntry) : (s.setPod n d).swap = s.swap := rfl
@[simp] theorem setPod_bindings (s : State) (n : Nat) (d : DirEntry) : (s.setPod n d).bindings = s.bindings := rfl
@[simp] theorem setPod_chosen (s : State) (n : Nat) (d : DirEntry) : (s.setPod n d).chosen = s.chosen := rfl
@[simp] theorem setPod_cfgWait (s : State) (n : Nat) (d : DirEntry) : (s.setPod n d).cfgWait = s.cfgWait := rfl
@[simp] theorem setPod_placing (s : State) (n : Nat) (d : DirEntry) : (s.setPod n d).placing = s.placing := rfl
@[simp] theorem setPod_agenda (s : State) (n : Nat) (d : DirEntry) : (s.setPod n d).agenda = s.agenda := rfl
@[simp] theorem setPod_focus (s : State) (n : Nat) (d : DirEntry) : (s.setPod n d).focus = s.focus := rfl
@[simp] theorem setPod_steps (s : State) (n : Nat) (d : DirEntry) : (s.setPod n d).steps = s.steps := rfl

@[simp] theorem setProxy_mem (s : State) (n : Nat) (x : CacheLine) : (s.setProxy n x).mem = s.mem := rfl
@[simp] theorem setProxy_wg (s : State) (n : Nat) (x : CacheLine) : (s.setProxy n x).wg = s.wg := rfl
@[simp] theorem setProxy_launch (s : State) (n : Nat) (x : CacheLine) : (s.setProxy n x).launch = s.launch := rfl
@[simp] theorem setProxy_chute (s : State) (n : Nat) (x : CacheLine) : (s.setProxy n x).chute = s.chute := rfl
@[simp] theorem setProxy_paddock (s : State) (n : Nat) (x : CacheLine) : (s.setProxy n x).paddock = s.paddock := rfl
@[simp] theorem setProxy_async (s : State) (n : Nat) (x : CacheLine) : (s.setProxy n x).async = s.async := rfl
@[simp] theorem setProxy_opSeq (s : State) (n : Nat) (x : CacheLine) : (s.setProxy n x).opSeq = s.opSeq := rfl
@[simp] theorem setProxy_dir (s : State) (n : Nat) (x : CacheLine) : (s.setProxy n x).dir = s.dir := rfl
@[simp] theorem setProxy_pod (s : State) (n : Nat) (x : CacheLine) : (s.setProxy n x).pod = s.pod := rfl
@[simp] theorem setProxy_cache (s : State) (n : Nat) (x : CacheLine) : (s.setProxy n x).cache = s.cache := rfl
@[simp] theorem setProxy_podMap (s : State) (n : Nat) (x : CacheLine) : (s.setProxy n x).podMap = s.podMap := rfl
@[simp] theorem setProxy_msgs (s : State) (n : Nat) (x : CacheLine) : (s.setProxy n x).msgs = s.msgs := rfl
@[simp] theorem setProxy_combined (s : State) (n : Nat) (x : CacheLine) : (s.setProxy n x).combined = s.combined := rfl
@[simp] theorem setProxy_late (s : State) (n : Nat) (x : CacheLine) : (s.setProxy n x).late = s.late := rfl
@[simp] theorem setProxy_outbox (s : State) (n : Nat) (x : CacheLine) : (s.setProxy n x).outbox = s.outbox := rfl
@[simp] theorem setProxy_ro (s : State) (n : Nat) (x : CacheLine) : (s.setProxy n x).ro = s.ro := rfl
@[simp] theorem setProxy_tc (s : State) (n : Nat) (x : CacheLine) : (s.setProxy n x).tc = s.tc := rfl
@[simp] theorem setProxy_waitq (s : State) (n : Nat) (x : CacheLine) : (s.setProxy n x).waitq = s.waitq := rfl
@[simp] theorem setProxy_lamport (s : State) (n : Nat) (x : CacheLine) : (s.setProxy n x).lamport = s.lamport := rfl
@[simp] theorem setProxy_sliceClock (s : State) (n : Nat) (x : CacheLine) : (s.setProxy n x).sliceClock = s.sliceClock := rfl
@[simp] theorem setProxy_beacon (s : State) (n : Nat) (x : CacheLine) : (s.setProxy n x).beacon = s.beacon := rfl
@[simp] theorem setProxy_ptpLocked (s : State) (n : Nat) (x : CacheLine) : (s.setProxy n x).ptpLocked = s.ptpLocked := rfl
@[simp] theorem setProxy_ptpEver (s : State) (n : Nat) (x : CacheLine) : (s.setProxy n x).ptpEver = s.ptpEver := rfl
@[simp] theorem setProxy_homeKey (s : State) (n : Nat) (x : CacheLine) : (s.setProxy n x).homeKey = s.homeKey := rfl
@[simp] theorem setProxy_time (s : State) (n : Nat) (x : CacheLine) : (s.setProxy n x).time = s.time := rfl
@[simp] theorem setProxy_timeHigh (s : State) (n : Nat) (x : CacheLine) : (s.setProxy n x).timeHigh = s.timeHigh := rfl
@[simp] theorem setProxy_deviceEpoch (s : State) (n : Nat) (x : CacheLine) : (s.setProxy n x).deviceEpoch = s.deviceEpoch := rfl
@[simp] theorem setProxy_cycle (s : State) (n : Nat) (x : CacheLine) : (s.setProxy n x).cycle = s.cycle := rfl
@[simp] theorem setProxy_records (s : State) (n : Nat) (x : CacheLine) : (s.setProxy n x).records = s.records := rfl
@[simp] theorem setProxy_lastStamp (s : State) (n : Nat) (x : CacheLine) : (s.setProxy n x).lastStamp = s.lastStamp := rfl
@[simp] theorem setProxy_stallFlag (s : State) (n : Nat) (x : CacheLine) : (s.setProxy n x).stallFlag = s.stallFlag := rfl
@[simp] theorem setProxy_sink (s : State) (n : Nat) (x : CacheLine) : (s.setProxy n x).sink = s.sink := rfl
@[simp] theorem setProxy_readiness (s : State) (n : Nat) (x : CacheLine) : (s.setProxy n x).readiness = s.readiness := rfl
@[simp] theorem setProxy_floorCnt (s : State) (n : Nat) (x : CacheLine) : (s.setProxy n x).floorCnt = s.floorCnt := rfl
@[simp] theorem setProxy_readySince (s : State) (n : Nat) (x : CacheLine) : (s.setProxy n x).readySince = s.readySince := rfl
@[simp] theorem setProxy_perfPeriod (s : State) (n : Nat) (x : CacheLine) : (s.setProxy n x).perfPeriod = s.perfPeriod := rfl
@[simp] theorem setProxy_perfRingBase (s : State) (n : Nat) (x : CacheLine) : (s.setProxy n x).perfRingBase = s.perfRingBase := rfl
@[simp] theorem setProxy_perfRingLog2 (s : State) (n : Nat) (x : CacheLine) : (s.setProxy n x).perfRingLog2 = s.perfRingLog2 := rfl
@[simp] theorem setProxy_perfRingHead (s : State) (n : Nat) (x : CacheLine) : (s.setProxy n x).perfRingHead = s.perfRingHead := rfl
@[simp] theorem setProxy_perfRingLost (s : State) (n : Nat) (x : CacheLine) : (s.setProxy n x).perfRingLost = s.perfRingLost := rfl
@[simp] theorem setProxy_perf (s : State) (n : Nat) (x : CacheLine) : (s.setProxy n x).perf = s.perf := rfl
@[simp] theorem setProxy_perfUnit (s : State) (n : Nat) (x : CacheLine) : (s.setProxy n x).perfUnit = s.perfUnit := rfl
@[simp] theorem setProxy_port (s : State) (n : Nat) (x : CacheLine) : (s.setProxy n x).port = s.port := rfl
@[simp] theorem setProxy_spareLink (s : State) (n : Nat) (x : CacheLine) : (s.setProxy n x).spareLink = s.spareLink := rfl
@[simp] theorem setProxy_pktCount (s : State) (n : Nat) (x : CacheLine) : (s.setProxy n x).pktCount = s.pktCount := rfl
@[simp] theorem setProxy_connected (s : State) (n : Nat) (x : CacheLine) : (s.setProxy n x).connected = s.connected := rfl
@[simp] theorem setProxy_pathBits (s : State) (n : Nat) (x : CacheLine) : (s.setProxy n x).pathBits = s.pathBits := rfl
@[simp] theorem setProxy_entropy (s : State) (n : Nat) (x : CacheLine) : (s.setProxy n x).entropy = s.entropy := rfl
@[simp] theorem setProxy_hotDest (s : State) (n : Nat) (x : CacheLine) : (s.setProxy n x).hotDest = s.hotDest := rfl
@[simp] theorem setProxy_tray (s : State) (n : Nat) (x : CacheLine) : (s.setProxy n x).tray = s.tray := rfl
@[simp] theorem setProxy_slotDown (s : State) (n : Nat) (x : CacheLine) : (s.setProxy n x).slotDown = s.slotDown := rfl
@[simp] theorem setProxy_congestion (s : State) (n : Nat) (x : CacheLine) : (s.setProxy n x).congestion = s.congestion := rfl
@[simp] theorem setProxy_podId (s : State) (n : Nat) (x : CacheLine) : (s.setProxy n x).podId = s.podId := rfl
@[simp] theorem setProxy_groupId (s : State) (n : Nat) (x : CacheLine) : (s.setProxy n x).groupId = s.groupId := rfl
@[simp] theorem setProxy_slotId (s : State) (n : Nat) (x : CacheLine) : (s.setProxy n x).slotId = s.slotId := rfl
@[simp] theorem setProxy_lost (s : State) (n : Nat) (x : CacheLine) : (s.setProxy n x).lost = s.lost := rfl
@[simp] theorem setProxy_revoked (s : State) (n : Nat) (x : CacheLine) : (s.setProxy n x).revoked = s.revoked := rfl
@[simp] theorem setProxy_remote (s : State) (n : Nat) (x : CacheLine) : (s.setProxy n x).remote = s.remote := rfl
@[simp] theorem setProxy_remoteTag (s : State) (n : Nat) (x : CacheLine) : (s.setProxy n x).remoteTag = s.remoteTag := rfl
@[simp] theorem setProxy_inbox (s : State) (n : Nat) (x : CacheLine) : (s.setProxy n x).inbox = s.inbox := rfl
@[simp] theorem setProxy_spdm (s : State) (n : Nat) (x : CacheLine) : (s.setProxy n x).spdm = s.spdm := rfl
@[simp] theorem setProxy_spdmOut (s : State) (n : Nat) (x : CacheLine) : (s.setProxy n x).spdmOut = s.spdmOut := rfl
@[simp] theorem setProxy_readOut (s : State) (n : Nat) (x : CacheLine) : (s.setProxy n x).readOut = s.readOut := rfl
@[simp] theorem setProxy_readWait (s : State) (n : Nat) (x : CacheLine) : (s.setProxy n x).readWait = s.readWait := rfl
@[simp] theorem setProxy_powered (s : State) (n : Nat) (x : CacheLine) : (s.setProxy n x).powered = s.powered := rfl
@[simp] theorem setProxy_halted (s : State) (n : Nat) (x : CacheLine) : (s.setProxy n x).halted = s.halted := rfl
@[simp] theorem setProxy_powerCap (s : State) (n : Nat) (x : CacheLine) : (s.setProxy n x).powerCap = s.powerCap := rfl
@[simp] theorem setProxy_throttled (s : State) (n : Nat) (x : CacheLine) : (s.setProxy n x).throttled = s.throttled := rfl
@[simp] theorem setProxy_tripped (s : State) (n : Nat) (x : CacheLine) : (s.setProxy n x).tripped = s.tripped := rfl
@[simp] theorem setProxy_spillReserved (s : State) (n : Nat) (x : CacheLine) : (s.setProxy n x).spillReserved = s.spillReserved := rfl
@[simp] theorem setProxy_spilled (s : State) (n : Nat) (x : CacheLine) : (s.setProxy n x).spilled = s.spilled := rfl
@[simp] theorem setProxy_driftOrder (s : State) (n : Nat) (x : CacheLine) : (s.setProxy n x).driftOrder = s.driftOrder := rfl
@[simp] theorem setProxy_carriage (s : State) (n : Nat) (x : CacheLine) : (s.setProxy n x).carriage = s.carriage := rfl
@[simp] theorem setProxy_swap (s : State) (n : Nat) (x : CacheLine) : (s.setProxy n x).swap = s.swap := rfl
@[simp] theorem setProxy_bindings (s : State) (n : Nat) (x : CacheLine) : (s.setProxy n x).bindings = s.bindings := rfl
@[simp] theorem setProxy_chosen (s : State) (n : Nat) (x : CacheLine) : (s.setProxy n x).chosen = s.chosen := rfl
@[simp] theorem setProxy_cfgWait (s : State) (n : Nat) (x : CacheLine) : (s.setProxy n x).cfgWait = s.cfgWait := rfl
@[simp] theorem setProxy_placing (s : State) (n : Nat) (x : CacheLine) : (s.setProxy n x).placing = s.placing := rfl
@[simp] theorem setProxy_agenda (s : State) (n : Nat) (x : CacheLine) : (s.setProxy n x).agenda = s.agenda := rfl
@[simp] theorem setProxy_focus (s : State) (n : Nat) (x : CacheLine) : (s.setProxy n x).focus = s.focus := rfl
@[simp] theorem setProxy_steps (s : State) (n : Nat) (x : CacheLine) : (s.setProxy n x).steps = s.steps := rfl

@[simp] theorem updSink_mem (s : State) (n : Nat) (f : Sink → Sink) : (s.updSink n f).mem = s.mem := rfl
@[simp] theorem updSink_wg (s : State) (n : Nat) (f : Sink → Sink) : (s.updSink n f).wg = s.wg := rfl
@[simp] theorem updSink_launch (s : State) (n : Nat) (f : Sink → Sink) : (s.updSink n f).launch = s.launch := rfl
@[simp] theorem updSink_chute (s : State) (n : Nat) (f : Sink → Sink) : (s.updSink n f).chute = s.chute := rfl
@[simp] theorem updSink_paddock (s : State) (n : Nat) (f : Sink → Sink) : (s.updSink n f).paddock = s.paddock := rfl
@[simp] theorem updSink_async (s : State) (n : Nat) (f : Sink → Sink) : (s.updSink n f).async = s.async := rfl
@[simp] theorem updSink_opSeq (s : State) (n : Nat) (f : Sink → Sink) : (s.updSink n f).opSeq = s.opSeq := rfl
@[simp] theorem updSink_dir (s : State) (n : Nat) (f : Sink → Sink) : (s.updSink n f).dir = s.dir := rfl
@[simp] theorem updSink_pod (s : State) (n : Nat) (f : Sink → Sink) : (s.updSink n f).pod = s.pod := rfl
@[simp] theorem updSink_cache (s : State) (n : Nat) (f : Sink → Sink) : (s.updSink n f).cache = s.cache := rfl
@[simp] theorem updSink_proxy (s : State) (n : Nat) (f : Sink → Sink) : (s.updSink n f).proxy = s.proxy := rfl
@[simp] theorem updSink_podMap (s : State) (n : Nat) (f : Sink → Sink) : (s.updSink n f).podMap = s.podMap := rfl
@[simp] theorem updSink_msgs (s : State) (n : Nat) (f : Sink → Sink) : (s.updSink n f).msgs = s.msgs := rfl
@[simp] theorem updSink_combined (s : State) (n : Nat) (f : Sink → Sink) : (s.updSink n f).combined = s.combined := rfl
@[simp] theorem updSink_late (s : State) (n : Nat) (f : Sink → Sink) : (s.updSink n f).late = s.late := rfl
@[simp] theorem updSink_outbox (s : State) (n : Nat) (f : Sink → Sink) : (s.updSink n f).outbox = s.outbox := rfl
@[simp] theorem updSink_ro (s : State) (n : Nat) (f : Sink → Sink) : (s.updSink n f).ro = s.ro := rfl
@[simp] theorem updSink_tc (s : State) (n : Nat) (f : Sink → Sink) : (s.updSink n f).tc = s.tc := rfl
@[simp] theorem updSink_waitq (s : State) (n : Nat) (f : Sink → Sink) : (s.updSink n f).waitq = s.waitq := rfl
@[simp] theorem updSink_lamport (s : State) (n : Nat) (f : Sink → Sink) : (s.updSink n f).lamport = s.lamport := rfl
@[simp] theorem updSink_sliceClock (s : State) (n : Nat) (f : Sink → Sink) : (s.updSink n f).sliceClock = s.sliceClock := rfl
@[simp] theorem updSink_beacon (s : State) (n : Nat) (f : Sink → Sink) : (s.updSink n f).beacon = s.beacon := rfl
@[simp] theorem updSink_ptpLocked (s : State) (n : Nat) (f : Sink → Sink) : (s.updSink n f).ptpLocked = s.ptpLocked := rfl
@[simp] theorem updSink_ptpEver (s : State) (n : Nat) (f : Sink → Sink) : (s.updSink n f).ptpEver = s.ptpEver := rfl
@[simp] theorem updSink_homeKey (s : State) (n : Nat) (f : Sink → Sink) : (s.updSink n f).homeKey = s.homeKey := rfl
@[simp] theorem updSink_time (s : State) (n : Nat) (f : Sink → Sink) : (s.updSink n f).time = s.time := rfl
@[simp] theorem updSink_timeHigh (s : State) (n : Nat) (f : Sink → Sink) : (s.updSink n f).timeHigh = s.timeHigh := rfl
@[simp] theorem updSink_deviceEpoch (s : State) (n : Nat) (f : Sink → Sink) : (s.updSink n f).deviceEpoch = s.deviceEpoch := rfl
@[simp] theorem updSink_cycle (s : State) (n : Nat) (f : Sink → Sink) : (s.updSink n f).cycle = s.cycle := rfl
@[simp] theorem updSink_records (s : State) (n : Nat) (f : Sink → Sink) : (s.updSink n f).records = s.records := rfl
@[simp] theorem updSink_lastStamp (s : State) (n : Nat) (f : Sink → Sink) : (s.updSink n f).lastStamp = s.lastStamp := rfl
@[simp] theorem updSink_stallFlag (s : State) (n : Nat) (f : Sink → Sink) : (s.updSink n f).stallFlag = s.stallFlag := rfl
@[simp] theorem updSink_readiness (s : State) (n : Nat) (f : Sink → Sink) : (s.updSink n f).readiness = s.readiness := rfl
@[simp] theorem updSink_floorCnt (s : State) (n : Nat) (f : Sink → Sink) : (s.updSink n f).floorCnt = s.floorCnt := rfl
@[simp] theorem updSink_readySince (s : State) (n : Nat) (f : Sink → Sink) : (s.updSink n f).readySince = s.readySince := rfl
@[simp] theorem updSink_perfPeriod (s : State) (n : Nat) (f : Sink → Sink) : (s.updSink n f).perfPeriod = s.perfPeriod := rfl
@[simp] theorem updSink_perfRingBase (s : State) (n : Nat) (f : Sink → Sink) : (s.updSink n f).perfRingBase = s.perfRingBase := rfl
@[simp] theorem updSink_perfRingLog2 (s : State) (n : Nat) (f : Sink → Sink) : (s.updSink n f).perfRingLog2 = s.perfRingLog2 := rfl
@[simp] theorem updSink_perfRingHead (s : State) (n : Nat) (f : Sink → Sink) : (s.updSink n f).perfRingHead = s.perfRingHead := rfl
@[simp] theorem updSink_perfRingLost (s : State) (n : Nat) (f : Sink → Sink) : (s.updSink n f).perfRingLost = s.perfRingLost := rfl
@[simp] theorem updSink_perf (s : State) (n : Nat) (f : Sink → Sink) : (s.updSink n f).perf = s.perf := rfl
@[simp] theorem updSink_perfUnit (s : State) (n : Nat) (f : Sink → Sink) : (s.updSink n f).perfUnit = s.perfUnit := rfl
@[simp] theorem updSink_port (s : State) (n : Nat) (f : Sink → Sink) : (s.updSink n f).port = s.port := rfl
@[simp] theorem updSink_spareLink (s : State) (n : Nat) (f : Sink → Sink) : (s.updSink n f).spareLink = s.spareLink := rfl
@[simp] theorem updSink_pktCount (s : State) (n : Nat) (f : Sink → Sink) : (s.updSink n f).pktCount = s.pktCount := rfl
@[simp] theorem updSink_connected (s : State) (n : Nat) (f : Sink → Sink) : (s.updSink n f).connected = s.connected := rfl
@[simp] theorem updSink_pathBits (s : State) (n : Nat) (f : Sink → Sink) : (s.updSink n f).pathBits = s.pathBits := rfl
@[simp] theorem updSink_entropy (s : State) (n : Nat) (f : Sink → Sink) : (s.updSink n f).entropy = s.entropy := rfl
@[simp] theorem updSink_hotDest (s : State) (n : Nat) (f : Sink → Sink) : (s.updSink n f).hotDest = s.hotDest := rfl
@[simp] theorem updSink_tray (s : State) (n : Nat) (f : Sink → Sink) : (s.updSink n f).tray = s.tray := rfl
@[simp] theorem updSink_slotDown (s : State) (n : Nat) (f : Sink → Sink) : (s.updSink n f).slotDown = s.slotDown := rfl
@[simp] theorem updSink_congestion (s : State) (n : Nat) (f : Sink → Sink) : (s.updSink n f).congestion = s.congestion := rfl
@[simp] theorem updSink_podId (s : State) (n : Nat) (f : Sink → Sink) : (s.updSink n f).podId = s.podId := rfl
@[simp] theorem updSink_groupId (s : State) (n : Nat) (f : Sink → Sink) : (s.updSink n f).groupId = s.groupId := rfl
@[simp] theorem updSink_slotId (s : State) (n : Nat) (f : Sink → Sink) : (s.updSink n f).slotId = s.slotId := rfl
@[simp] theorem updSink_lost (s : State) (n : Nat) (f : Sink → Sink) : (s.updSink n f).lost = s.lost := rfl
@[simp] theorem updSink_revoked (s : State) (n : Nat) (f : Sink → Sink) : (s.updSink n f).revoked = s.revoked := rfl
@[simp] theorem updSink_remote (s : State) (n : Nat) (f : Sink → Sink) : (s.updSink n f).remote = s.remote := rfl
@[simp] theorem updSink_remoteTag (s : State) (n : Nat) (f : Sink → Sink) : (s.updSink n f).remoteTag = s.remoteTag := rfl
@[simp] theorem updSink_inbox (s : State) (n : Nat) (f : Sink → Sink) : (s.updSink n f).inbox = s.inbox := rfl
@[simp] theorem updSink_spdm (s : State) (n : Nat) (f : Sink → Sink) : (s.updSink n f).spdm = s.spdm := rfl
@[simp] theorem updSink_spdmOut (s : State) (n : Nat) (f : Sink → Sink) : (s.updSink n f).spdmOut = s.spdmOut := rfl
@[simp] theorem updSink_readOut (s : State) (n : Nat) (f : Sink → Sink) : (s.updSink n f).readOut = s.readOut := rfl
@[simp] theorem updSink_readWait (s : State) (n : Nat) (f : Sink → Sink) : (s.updSink n f).readWait = s.readWait := rfl
@[simp] theorem updSink_powered (s : State) (n : Nat) (f : Sink → Sink) : (s.updSink n f).powered = s.powered := rfl
@[simp] theorem updSink_halted (s : State) (n : Nat) (f : Sink → Sink) : (s.updSink n f).halted = s.halted := rfl
@[simp] theorem updSink_powerCap (s : State) (n : Nat) (f : Sink → Sink) : (s.updSink n f).powerCap = s.powerCap := rfl
@[simp] theorem updSink_throttled (s : State) (n : Nat) (f : Sink → Sink) : (s.updSink n f).throttled = s.throttled := rfl
@[simp] theorem updSink_tripped (s : State) (n : Nat) (f : Sink → Sink) : (s.updSink n f).tripped = s.tripped := rfl
@[simp] theorem updSink_spillReserved (s : State) (n : Nat) (f : Sink → Sink) : (s.updSink n f).spillReserved = s.spillReserved := rfl
@[simp] theorem updSink_spilled (s : State) (n : Nat) (f : Sink → Sink) : (s.updSink n f).spilled = s.spilled := rfl
@[simp] theorem updSink_driftOrder (s : State) (n : Nat) (f : Sink → Sink) : (s.updSink n f).driftOrder = s.driftOrder := rfl
@[simp] theorem updSink_carriage (s : State) (n : Nat) (f : Sink → Sink) : (s.updSink n f).carriage = s.carriage := rfl
@[simp] theorem updSink_swap (s : State) (n : Nat) (f : Sink → Sink) : (s.updSink n f).swap = s.swap := rfl
@[simp] theorem updSink_bindings (s : State) (n : Nat) (f : Sink → Sink) : (s.updSink n f).bindings = s.bindings := rfl
@[simp] theorem updSink_chosen (s : State) (n : Nat) (f : Sink → Sink) : (s.updSink n f).chosen = s.chosen := rfl
@[simp] theorem updSink_cfgWait (s : State) (n : Nat) (f : Sink → Sink) : (s.updSink n f).cfgWait = s.cfgWait := rfl
@[simp] theorem updSink_placing (s : State) (n : Nat) (f : Sink → Sink) : (s.updSink n f).placing = s.placing := rfl
@[simp] theorem updSink_agenda (s : State) (n : Nat) (f : Sink → Sink) : (s.updSink n f).agenda = s.agenda := rfl
@[simp] theorem updSink_focus (s : State) (n : Nat) (f : Sink → Sink) : (s.updSink n f).focus = s.focus := rfl
@[simp] theorem updSink_steps (s : State) (n : Nat) (f : Sink → Sink) : (s.updSink n f).steps = s.steps := rfl

@[simp] theorem count_mem (s : State) (core i n : Nat) : (s.count core i n).mem = s.mem := rfl
@[simp] theorem count_wg (s : State) (core i n : Nat) : (s.count core i n).wg = s.wg := rfl
@[simp] theorem count_launch (s : State) (core i n : Nat) : (s.count core i n).launch = s.launch := rfl
@[simp] theorem count_chute (s : State) (core i n : Nat) : (s.count core i n).chute = s.chute := rfl
@[simp] theorem count_paddock (s : State) (core i n : Nat) : (s.count core i n).paddock = s.paddock := rfl
@[simp] theorem count_async (s : State) (core i n : Nat) : (s.count core i n).async = s.async := rfl
@[simp] theorem count_opSeq (s : State) (core i n : Nat) : (s.count core i n).opSeq = s.opSeq := rfl
@[simp] theorem count_dir (s : State) (core i n : Nat) : (s.count core i n).dir = s.dir := rfl
@[simp] theorem count_pod (s : State) (core i n : Nat) : (s.count core i n).pod = s.pod := rfl
@[simp] theorem count_cache (s : State) (core i n : Nat) : (s.count core i n).cache = s.cache := rfl
@[simp] theorem count_proxy (s : State) (core i n : Nat) : (s.count core i n).proxy = s.proxy := rfl
@[simp] theorem count_podMap (s : State) (core i n : Nat) : (s.count core i n).podMap = s.podMap := rfl
@[simp] theorem count_msgs (s : State) (core i n : Nat) : (s.count core i n).msgs = s.msgs := rfl
@[simp] theorem count_combined (s : State) (core i n : Nat) : (s.count core i n).combined = s.combined := rfl
@[simp] theorem count_late (s : State) (core i n : Nat) : (s.count core i n).late = s.late := rfl
@[simp] theorem count_outbox (s : State) (core i n : Nat) : (s.count core i n).outbox = s.outbox := rfl
@[simp] theorem count_ro (s : State) (core i n : Nat) : (s.count core i n).ro = s.ro := rfl
@[simp] theorem count_tc (s : State) (core i n : Nat) : (s.count core i n).tc = s.tc := rfl
@[simp] theorem count_waitq (s : State) (core i n : Nat) : (s.count core i n).waitq = s.waitq := rfl
@[simp] theorem count_lamport (s : State) (core i n : Nat) : (s.count core i n).lamport = s.lamport := rfl
@[simp] theorem count_sliceClock (s : State) (core i n : Nat) : (s.count core i n).sliceClock = s.sliceClock := rfl
@[simp] theorem count_beacon (s : State) (core i n : Nat) : (s.count core i n).beacon = s.beacon := rfl
@[simp] theorem count_ptpLocked (s : State) (core i n : Nat) : (s.count core i n).ptpLocked = s.ptpLocked := rfl
@[simp] theorem count_ptpEver (s : State) (core i n : Nat) : (s.count core i n).ptpEver = s.ptpEver := rfl
@[simp] theorem count_homeKey (s : State) (core i n : Nat) : (s.count core i n).homeKey = s.homeKey := rfl
@[simp] theorem count_time (s : State) (core i n : Nat) : (s.count core i n).time = s.time := rfl
@[simp] theorem count_timeHigh (s : State) (core i n : Nat) : (s.count core i n).timeHigh = s.timeHigh := rfl
@[simp] theorem count_deviceEpoch (s : State) (core i n : Nat) : (s.count core i n).deviceEpoch = s.deviceEpoch := rfl
@[simp] theorem count_cycle (s : State) (core i n : Nat) : (s.count core i n).cycle = s.cycle := rfl
@[simp] theorem count_records (s : State) (core i n : Nat) : (s.count core i n).records = s.records := rfl
@[simp] theorem count_lastStamp (s : State) (core i n : Nat) : (s.count core i n).lastStamp = s.lastStamp := rfl
@[simp] theorem count_stallFlag (s : State) (core i n : Nat) : (s.count core i n).stallFlag = s.stallFlag := rfl
@[simp] theorem count_sink (s : State) (core i n : Nat) : (s.count core i n).sink = s.sink := rfl
@[simp] theorem count_readiness (s : State) (core i n : Nat) : (s.count core i n).readiness = s.readiness := rfl
@[simp] theorem count_floorCnt (s : State) (core i n : Nat) : (s.count core i n).floorCnt = s.floorCnt := rfl
@[simp] theorem count_readySince (s : State) (core i n : Nat) : (s.count core i n).readySince = s.readySince := rfl
@[simp] theorem count_perfPeriod (s : State) (core i n : Nat) : (s.count core i n).perfPeriod = s.perfPeriod := rfl
@[simp] theorem count_perfRingBase (s : State) (core i n : Nat) : (s.count core i n).perfRingBase = s.perfRingBase := rfl
@[simp] theorem count_perfRingLog2 (s : State) (core i n : Nat) : (s.count core i n).perfRingLog2 = s.perfRingLog2 := rfl
@[simp] theorem count_perfRingHead (s : State) (core i n : Nat) : (s.count core i n).perfRingHead = s.perfRingHead := rfl
@[simp] theorem count_perfRingLost (s : State) (core i n : Nat) : (s.count core i n).perfRingLost = s.perfRingLost := rfl
@[simp] theorem count_perfUnit (s : State) (core i n : Nat) : (s.count core i n).perfUnit = s.perfUnit := rfl
@[simp] theorem count_port (s : State) (core i n : Nat) : (s.count core i n).port = s.port := rfl
@[simp] theorem count_spareLink (s : State) (core i n : Nat) : (s.count core i n).spareLink = s.spareLink := rfl
@[simp] theorem count_pktCount (s : State) (core i n : Nat) : (s.count core i n).pktCount = s.pktCount := rfl
@[simp] theorem count_connected (s : State) (core i n : Nat) : (s.count core i n).connected = s.connected := rfl
@[simp] theorem count_pathBits (s : State) (core i n : Nat) : (s.count core i n).pathBits = s.pathBits := rfl
@[simp] theorem count_entropy (s : State) (core i n : Nat) : (s.count core i n).entropy = s.entropy := rfl
@[simp] theorem count_hotDest (s : State) (core i n : Nat) : (s.count core i n).hotDest = s.hotDest := rfl
@[simp] theorem count_tray (s : State) (core i n : Nat) : (s.count core i n).tray = s.tray := rfl
@[simp] theorem count_slotDown (s : State) (core i n : Nat) : (s.count core i n).slotDown = s.slotDown := rfl
@[simp] theorem count_congestion (s : State) (core i n : Nat) : (s.count core i n).congestion = s.congestion := rfl
@[simp] theorem count_podId (s : State) (core i n : Nat) : (s.count core i n).podId = s.podId := rfl
@[simp] theorem count_groupId (s : State) (core i n : Nat) : (s.count core i n).groupId = s.groupId := rfl
@[simp] theorem count_slotId (s : State) (core i n : Nat) : (s.count core i n).slotId = s.slotId := rfl
@[simp] theorem count_lost (s : State) (core i n : Nat) : (s.count core i n).lost = s.lost := rfl
@[simp] theorem count_revoked (s : State) (core i n : Nat) : (s.count core i n).revoked = s.revoked := rfl
@[simp] theorem count_remote (s : State) (core i n : Nat) : (s.count core i n).remote = s.remote := rfl
@[simp] theorem count_remoteTag (s : State) (core i n : Nat) : (s.count core i n).remoteTag = s.remoteTag := rfl
@[simp] theorem count_inbox (s : State) (core i n : Nat) : (s.count core i n).inbox = s.inbox := rfl
@[simp] theorem count_spdm (s : State) (core i n : Nat) : (s.count core i n).spdm = s.spdm := rfl
@[simp] theorem count_spdmOut (s : State) (core i n : Nat) : (s.count core i n).spdmOut = s.spdmOut := rfl
@[simp] theorem count_readOut (s : State) (core i n : Nat) : (s.count core i n).readOut = s.readOut := rfl
@[simp] theorem count_readWait (s : State) (core i n : Nat) : (s.count core i n).readWait = s.readWait := rfl
@[simp] theorem count_powered (s : State) (core i n : Nat) : (s.count core i n).powered = s.powered := rfl
@[simp] theorem count_halted (s : State) (core i n : Nat) : (s.count core i n).halted = s.halted := rfl
@[simp] theorem count_powerCap (s : State) (core i n : Nat) : (s.count core i n).powerCap = s.powerCap := rfl
@[simp] theorem count_throttled (s : State) (core i n : Nat) : (s.count core i n).throttled = s.throttled := rfl
@[simp] theorem count_tripped (s : State) (core i n : Nat) : (s.count core i n).tripped = s.tripped := rfl
@[simp] theorem count_spillReserved (s : State) (core i n : Nat) : (s.count core i n).spillReserved = s.spillReserved := rfl
@[simp] theorem count_spilled (s : State) (core i n : Nat) : (s.count core i n).spilled = s.spilled := rfl
@[simp] theorem count_driftOrder (s : State) (core i n : Nat) : (s.count core i n).driftOrder = s.driftOrder := rfl
@[simp] theorem count_carriage (s : State) (core i n : Nat) : (s.count core i n).carriage = s.carriage := rfl
@[simp] theorem count_swap (s : State) (core i n : Nat) : (s.count core i n).swap = s.swap := rfl
@[simp] theorem count_bindings (s : State) (core i n : Nat) : (s.count core i n).bindings = s.bindings := rfl
@[simp] theorem count_chosen (s : State) (core i n : Nat) : (s.count core i n).chosen = s.chosen := rfl
@[simp] theorem count_cfgWait (s : State) (core i n : Nat) : (s.count core i n).cfgWait = s.cfgWait := rfl
@[simp] theorem count_placing (s : State) (core i n : Nat) : (s.count core i n).placing = s.placing := rfl
@[simp] theorem count_agenda (s : State) (core i n : Nat) : (s.count core i n).agenda = s.agenda := rfl
@[simp] theorem count_focus (s : State) (core i n : Nat) : (s.count core i n).focus = s.focus := rfl
@[simp] theorem count_steps (s : State) (core i n : Nat) : (s.count core i n).steps = s.steps := rfl

@[simp] theorem emit_mem (s : State) (typ unit idx die : Nat) (pk : Option Nat) (ord : BitVec 20) (tm : Bool) (w2 w3 c : Dword) : (s.emit typ unit idx die pk ord tm w2 w3 c).mem = s.mem := rfl
@[simp] theorem emit_wg (s : State) (typ unit idx die : Nat) (pk : Option Nat) (ord : BitVec 20) (tm : Bool) (w2 w3 c : Dword) : (s.emit typ unit idx die pk ord tm w2 w3 c).wg = s.wg := rfl
@[simp] theorem emit_launch (s : State) (typ unit idx die : Nat) (pk : Option Nat) (ord : BitVec 20) (tm : Bool) (w2 w3 c : Dword) : (s.emit typ unit idx die pk ord tm w2 w3 c).launch = s.launch := rfl
@[simp] theorem emit_chute (s : State) (typ unit idx die : Nat) (pk : Option Nat) (ord : BitVec 20) (tm : Bool) (w2 w3 c : Dword) : (s.emit typ unit idx die pk ord tm w2 w3 c).chute = s.chute := rfl
@[simp] theorem emit_paddock (s : State) (typ unit idx die : Nat) (pk : Option Nat) (ord : BitVec 20) (tm : Bool) (w2 w3 c : Dword) : (s.emit typ unit idx die pk ord tm w2 w3 c).paddock = s.paddock := rfl
@[simp] theorem emit_async (s : State) (typ unit idx die : Nat) (pk : Option Nat) (ord : BitVec 20) (tm : Bool) (w2 w3 c : Dword) : (s.emit typ unit idx die pk ord tm w2 w3 c).async = s.async := rfl
@[simp] theorem emit_opSeq (s : State) (typ unit idx die : Nat) (pk : Option Nat) (ord : BitVec 20) (tm : Bool) (w2 w3 c : Dword) : (s.emit typ unit idx die pk ord tm w2 w3 c).opSeq = s.opSeq := rfl
@[simp] theorem emit_dir (s : State) (typ unit idx die : Nat) (pk : Option Nat) (ord : BitVec 20) (tm : Bool) (w2 w3 c : Dword) : (s.emit typ unit idx die pk ord tm w2 w3 c).dir = s.dir := rfl
@[simp] theorem emit_pod (s : State) (typ unit idx die : Nat) (pk : Option Nat) (ord : BitVec 20) (tm : Bool) (w2 w3 c : Dword) : (s.emit typ unit idx die pk ord tm w2 w3 c).pod = s.pod := rfl
@[simp] theorem emit_cache (s : State) (typ unit idx die : Nat) (pk : Option Nat) (ord : BitVec 20) (tm : Bool) (w2 w3 c : Dword) : (s.emit typ unit idx die pk ord tm w2 w3 c).cache = s.cache := rfl
@[simp] theorem emit_proxy (s : State) (typ unit idx die : Nat) (pk : Option Nat) (ord : BitVec 20) (tm : Bool) (w2 w3 c : Dword) : (s.emit typ unit idx die pk ord tm w2 w3 c).proxy = s.proxy := rfl
@[simp] theorem emit_podMap (s : State) (typ unit idx die : Nat) (pk : Option Nat) (ord : BitVec 20) (tm : Bool) (w2 w3 c : Dword) : (s.emit typ unit idx die pk ord tm w2 w3 c).podMap = s.podMap := rfl
@[simp] theorem emit_msgs (s : State) (typ unit idx die : Nat) (pk : Option Nat) (ord : BitVec 20) (tm : Bool) (w2 w3 c : Dword) : (s.emit typ unit idx die pk ord tm w2 w3 c).msgs = s.msgs := rfl
@[simp] theorem emit_combined (s : State) (typ unit idx die : Nat) (pk : Option Nat) (ord : BitVec 20) (tm : Bool) (w2 w3 c : Dword) : (s.emit typ unit idx die pk ord tm w2 w3 c).combined = s.combined := rfl
@[simp] theorem emit_late (s : State) (typ unit idx die : Nat) (pk : Option Nat) (ord : BitVec 20) (tm : Bool) (w2 w3 c : Dword) : (s.emit typ unit idx die pk ord tm w2 w3 c).late = s.late := rfl
@[simp] theorem emit_outbox (s : State) (typ unit idx die : Nat) (pk : Option Nat) (ord : BitVec 20) (tm : Bool) (w2 w3 c : Dword) : (s.emit typ unit idx die pk ord tm w2 w3 c).outbox = s.outbox := rfl
@[simp] theorem emit_ro (s : State) (typ unit idx die : Nat) (pk : Option Nat) (ord : BitVec 20) (tm : Bool) (w2 w3 c : Dword) : (s.emit typ unit idx die pk ord tm w2 w3 c).ro = s.ro := rfl
@[simp] theorem emit_tc (s : State) (typ unit idx die : Nat) (pk : Option Nat) (ord : BitVec 20) (tm : Bool) (w2 w3 c : Dword) : (s.emit typ unit idx die pk ord tm w2 w3 c).tc = s.tc := rfl
@[simp] theorem emit_waitq (s : State) (typ unit idx die : Nat) (pk : Option Nat) (ord : BitVec 20) (tm : Bool) (w2 w3 c : Dword) : (s.emit typ unit idx die pk ord tm w2 w3 c).waitq = s.waitq := rfl
@[simp] theorem emit_lamport (s : State) (typ unit idx die : Nat) (pk : Option Nat) (ord : BitVec 20) (tm : Bool) (w2 w3 c : Dword) : (s.emit typ unit idx die pk ord tm w2 w3 c).lamport = s.lamport := rfl
@[simp] theorem emit_sliceClock (s : State) (typ unit idx die : Nat) (pk : Option Nat) (ord : BitVec 20) (tm : Bool) (w2 w3 c : Dword) : (s.emit typ unit idx die pk ord tm w2 w3 c).sliceClock = s.sliceClock := rfl
@[simp] theorem emit_beacon (s : State) (typ unit idx die : Nat) (pk : Option Nat) (ord : BitVec 20) (tm : Bool) (w2 w3 c : Dword) : (s.emit typ unit idx die pk ord tm w2 w3 c).beacon = s.beacon := rfl
@[simp] theorem emit_ptpLocked (s : State) (typ unit idx die : Nat) (pk : Option Nat) (ord : BitVec 20) (tm : Bool) (w2 w3 c : Dword) : (s.emit typ unit idx die pk ord tm w2 w3 c).ptpLocked = s.ptpLocked := rfl
@[simp] theorem emit_ptpEver (s : State) (typ unit idx die : Nat) (pk : Option Nat) (ord : BitVec 20) (tm : Bool) (w2 w3 c : Dword) : (s.emit typ unit idx die pk ord tm w2 w3 c).ptpEver = s.ptpEver := rfl
@[simp] theorem emit_homeKey (s : State) (typ unit idx die : Nat) (pk : Option Nat) (ord : BitVec 20) (tm : Bool) (w2 w3 c : Dword) : (s.emit typ unit idx die pk ord tm w2 w3 c).homeKey = s.homeKey := rfl
@[simp] theorem emit_time (s : State) (typ unit idx die : Nat) (pk : Option Nat) (ord : BitVec 20) (tm : Bool) (w2 w3 c : Dword) : (s.emit typ unit idx die pk ord tm w2 w3 c).time = s.time := rfl
@[simp] theorem emit_timeHigh (s : State) (typ unit idx die : Nat) (pk : Option Nat) (ord : BitVec 20) (tm : Bool) (w2 w3 c : Dword) : (s.emit typ unit idx die pk ord tm w2 w3 c).timeHigh = s.timeHigh := rfl
@[simp] theorem emit_deviceEpoch (s : State) (typ unit idx die : Nat) (pk : Option Nat) (ord : BitVec 20) (tm : Bool) (w2 w3 c : Dword) : (s.emit typ unit idx die pk ord tm w2 w3 c).deviceEpoch = s.deviceEpoch := rfl
@[simp] theorem emit_cycle (s : State) (typ unit idx die : Nat) (pk : Option Nat) (ord : BitVec 20) (tm : Bool) (w2 w3 c : Dword) : (s.emit typ unit idx die pk ord tm w2 w3 c).cycle = s.cycle := rfl
@[simp] theorem emit_sink (s : State) (typ unit idx die : Nat) (pk : Option Nat) (ord : BitVec 20) (tm : Bool) (w2 w3 c : Dword) : (s.emit typ unit idx die pk ord tm w2 w3 c).sink = s.sink := rfl
@[simp] theorem emit_readiness (s : State) (typ unit idx die : Nat) (pk : Option Nat) (ord : BitVec 20) (tm : Bool) (w2 w3 c : Dword) : (s.emit typ unit idx die pk ord tm w2 w3 c).readiness = s.readiness := rfl
@[simp] theorem emit_floorCnt (s : State) (typ unit idx die : Nat) (pk : Option Nat) (ord : BitVec 20) (tm : Bool) (w2 w3 c : Dword) : (s.emit typ unit idx die pk ord tm w2 w3 c).floorCnt = s.floorCnt := rfl
@[simp] theorem emit_readySince (s : State) (typ unit idx die : Nat) (pk : Option Nat) (ord : BitVec 20) (tm : Bool) (w2 w3 c : Dword) : (s.emit typ unit idx die pk ord tm w2 w3 c).readySince = s.readySince := rfl
@[simp] theorem emit_perfPeriod (s : State) (typ unit idx die : Nat) (pk : Option Nat) (ord : BitVec 20) (tm : Bool) (w2 w3 c : Dword) : (s.emit typ unit idx die pk ord tm w2 w3 c).perfPeriod = s.perfPeriod := rfl
@[simp] theorem emit_perfRingBase (s : State) (typ unit idx die : Nat) (pk : Option Nat) (ord : BitVec 20) (tm : Bool) (w2 w3 c : Dword) : (s.emit typ unit idx die pk ord tm w2 w3 c).perfRingBase = s.perfRingBase := rfl
@[simp] theorem emit_perfRingLog2 (s : State) (typ unit idx die : Nat) (pk : Option Nat) (ord : BitVec 20) (tm : Bool) (w2 w3 c : Dword) : (s.emit typ unit idx die pk ord tm w2 w3 c).perfRingLog2 = s.perfRingLog2 := rfl
@[simp] theorem emit_perfRingHead (s : State) (typ unit idx die : Nat) (pk : Option Nat) (ord : BitVec 20) (tm : Bool) (w2 w3 c : Dword) : (s.emit typ unit idx die pk ord tm w2 w3 c).perfRingHead = s.perfRingHead := rfl
@[simp] theorem emit_perfRingLost (s : State) (typ unit idx die : Nat) (pk : Option Nat) (ord : BitVec 20) (tm : Bool) (w2 w3 c : Dword) : (s.emit typ unit idx die pk ord tm w2 w3 c).perfRingLost = s.perfRingLost := rfl
@[simp] theorem emit_perf (s : State) (typ unit idx die : Nat) (pk : Option Nat) (ord : BitVec 20) (tm : Bool) (w2 w3 c : Dword) : (s.emit typ unit idx die pk ord tm w2 w3 c).perf = s.perf := rfl
@[simp] theorem emit_perfUnit (s : State) (typ unit idx die : Nat) (pk : Option Nat) (ord : BitVec 20) (tm : Bool) (w2 w3 c : Dword) : (s.emit typ unit idx die pk ord tm w2 w3 c).perfUnit = s.perfUnit := rfl
@[simp] theorem emit_port (s : State) (typ unit idx die : Nat) (pk : Option Nat) (ord : BitVec 20) (tm : Bool) (w2 w3 c : Dword) : (s.emit typ unit idx die pk ord tm w2 w3 c).port = s.port := rfl
@[simp] theorem emit_spareLink (s : State) (typ unit idx die : Nat) (pk : Option Nat) (ord : BitVec 20) (tm : Bool) (w2 w3 c : Dword) : (s.emit typ unit idx die pk ord tm w2 w3 c).spareLink = s.spareLink := rfl
@[simp] theorem emit_pktCount (s : State) (typ unit idx die : Nat) (pk : Option Nat) (ord : BitVec 20) (tm : Bool) (w2 w3 c : Dword) : (s.emit typ unit idx die pk ord tm w2 w3 c).pktCount = s.pktCount := rfl
@[simp] theorem emit_connected (s : State) (typ unit idx die : Nat) (pk : Option Nat) (ord : BitVec 20) (tm : Bool) (w2 w3 c : Dword) : (s.emit typ unit idx die pk ord tm w2 w3 c).connected = s.connected := rfl
@[simp] theorem emit_pathBits (s : State) (typ unit idx die : Nat) (pk : Option Nat) (ord : BitVec 20) (tm : Bool) (w2 w3 c : Dword) : (s.emit typ unit idx die pk ord tm w2 w3 c).pathBits = s.pathBits := rfl
@[simp] theorem emit_entropy (s : State) (typ unit idx die : Nat) (pk : Option Nat) (ord : BitVec 20) (tm : Bool) (w2 w3 c : Dword) : (s.emit typ unit idx die pk ord tm w2 w3 c).entropy = s.entropy := rfl
@[simp] theorem emit_hotDest (s : State) (typ unit idx die : Nat) (pk : Option Nat) (ord : BitVec 20) (tm : Bool) (w2 w3 c : Dword) : (s.emit typ unit idx die pk ord tm w2 w3 c).hotDest = s.hotDest := rfl
@[simp] theorem emit_tray (s : State) (typ unit idx die : Nat) (pk : Option Nat) (ord : BitVec 20) (tm : Bool) (w2 w3 c : Dword) : (s.emit typ unit idx die pk ord tm w2 w3 c).tray = s.tray := rfl
@[simp] theorem emit_slotDown (s : State) (typ unit idx die : Nat) (pk : Option Nat) (ord : BitVec 20) (tm : Bool) (w2 w3 c : Dword) : (s.emit typ unit idx die pk ord tm w2 w3 c).slotDown = s.slotDown := rfl
@[simp] theorem emit_congestion (s : State) (typ unit idx die : Nat) (pk : Option Nat) (ord : BitVec 20) (tm : Bool) (w2 w3 c : Dword) : (s.emit typ unit idx die pk ord tm w2 w3 c).congestion = s.congestion := rfl
@[simp] theorem emit_podId (s : State) (typ unit idx die : Nat) (pk : Option Nat) (ord : BitVec 20) (tm : Bool) (w2 w3 c : Dword) : (s.emit typ unit idx die pk ord tm w2 w3 c).podId = s.podId := rfl
@[simp] theorem emit_groupId (s : State) (typ unit idx die : Nat) (pk : Option Nat) (ord : BitVec 20) (tm : Bool) (w2 w3 c : Dword) : (s.emit typ unit idx die pk ord tm w2 w3 c).groupId = s.groupId := rfl
@[simp] theorem emit_slotId (s : State) (typ unit idx die : Nat) (pk : Option Nat) (ord : BitVec 20) (tm : Bool) (w2 w3 c : Dword) : (s.emit typ unit idx die pk ord tm w2 w3 c).slotId = s.slotId := rfl
@[simp] theorem emit_lost (s : State) (typ unit idx die : Nat) (pk : Option Nat) (ord : BitVec 20) (tm : Bool) (w2 w3 c : Dword) : (s.emit typ unit idx die pk ord tm w2 w3 c).lost = s.lost := rfl
@[simp] theorem emit_revoked (s : State) (typ unit idx die : Nat) (pk : Option Nat) (ord : BitVec 20) (tm : Bool) (w2 w3 c : Dword) : (s.emit typ unit idx die pk ord tm w2 w3 c).revoked = s.revoked := rfl
@[simp] theorem emit_remote (s : State) (typ unit idx die : Nat) (pk : Option Nat) (ord : BitVec 20) (tm : Bool) (w2 w3 c : Dword) : (s.emit typ unit idx die pk ord tm w2 w3 c).remote = s.remote := rfl
@[simp] theorem emit_remoteTag (s : State) (typ unit idx die : Nat) (pk : Option Nat) (ord : BitVec 20) (tm : Bool) (w2 w3 c : Dword) : (s.emit typ unit idx die pk ord tm w2 w3 c).remoteTag = s.remoteTag := rfl
@[simp] theorem emit_inbox (s : State) (typ unit idx die : Nat) (pk : Option Nat) (ord : BitVec 20) (tm : Bool) (w2 w3 c : Dword) : (s.emit typ unit idx die pk ord tm w2 w3 c).inbox = s.inbox := rfl
@[simp] theorem emit_spdm (s : State) (typ unit idx die : Nat) (pk : Option Nat) (ord : BitVec 20) (tm : Bool) (w2 w3 c : Dword) : (s.emit typ unit idx die pk ord tm w2 w3 c).spdm = s.spdm := rfl
@[simp] theorem emit_spdmOut (s : State) (typ unit idx die : Nat) (pk : Option Nat) (ord : BitVec 20) (tm : Bool) (w2 w3 c : Dword) : (s.emit typ unit idx die pk ord tm w2 w3 c).spdmOut = s.spdmOut := rfl
@[simp] theorem emit_readOut (s : State) (typ unit idx die : Nat) (pk : Option Nat) (ord : BitVec 20) (tm : Bool) (w2 w3 c : Dword) : (s.emit typ unit idx die pk ord tm w2 w3 c).readOut = s.readOut := rfl
@[simp] theorem emit_readWait (s : State) (typ unit idx die : Nat) (pk : Option Nat) (ord : BitVec 20) (tm : Bool) (w2 w3 c : Dword) : (s.emit typ unit idx die pk ord tm w2 w3 c).readWait = s.readWait := rfl
@[simp] theorem emit_powered (s : State) (typ unit idx die : Nat) (pk : Option Nat) (ord : BitVec 20) (tm : Bool) (w2 w3 c : Dword) : (s.emit typ unit idx die pk ord tm w2 w3 c).powered = s.powered := rfl
@[simp] theorem emit_halted (s : State) (typ unit idx die : Nat) (pk : Option Nat) (ord : BitVec 20) (tm : Bool) (w2 w3 c : Dword) : (s.emit typ unit idx die pk ord tm w2 w3 c).halted = s.halted := rfl
@[simp] theorem emit_powerCap (s : State) (typ unit idx die : Nat) (pk : Option Nat) (ord : BitVec 20) (tm : Bool) (w2 w3 c : Dword) : (s.emit typ unit idx die pk ord tm w2 w3 c).powerCap = s.powerCap := rfl
@[simp] theorem emit_throttled (s : State) (typ unit idx die : Nat) (pk : Option Nat) (ord : BitVec 20) (tm : Bool) (w2 w3 c : Dword) : (s.emit typ unit idx die pk ord tm w2 w3 c).throttled = s.throttled := rfl
@[simp] theorem emit_tripped (s : State) (typ unit idx die : Nat) (pk : Option Nat) (ord : BitVec 20) (tm : Bool) (w2 w3 c : Dword) : (s.emit typ unit idx die pk ord tm w2 w3 c).tripped = s.tripped := rfl
@[simp] theorem emit_spillReserved (s : State) (typ unit idx die : Nat) (pk : Option Nat) (ord : BitVec 20) (tm : Bool) (w2 w3 c : Dword) : (s.emit typ unit idx die pk ord tm w2 w3 c).spillReserved = s.spillReserved := rfl
@[simp] theorem emit_spilled (s : State) (typ unit idx die : Nat) (pk : Option Nat) (ord : BitVec 20) (tm : Bool) (w2 w3 c : Dword) : (s.emit typ unit idx die pk ord tm w2 w3 c).spilled = s.spilled := rfl
@[simp] theorem emit_driftOrder (s : State) (typ unit idx die : Nat) (pk : Option Nat) (ord : BitVec 20) (tm : Bool) (w2 w3 c : Dword) : (s.emit typ unit idx die pk ord tm w2 w3 c).driftOrder = s.driftOrder := rfl
@[simp] theorem emit_carriage (s : State) (typ unit idx die : Nat) (pk : Option Nat) (ord : BitVec 20) (tm : Bool) (w2 w3 c : Dword) : (s.emit typ unit idx die pk ord tm w2 w3 c).carriage = s.carriage := rfl
@[simp] theorem emit_swap (s : State) (typ unit idx die : Nat) (pk : Option Nat) (ord : BitVec 20) (tm : Bool) (w2 w3 c : Dword) : (s.emit typ unit idx die pk ord tm w2 w3 c).swap = s.swap := rfl
@[simp] theorem emit_bindings (s : State) (typ unit idx die : Nat) (pk : Option Nat) (ord : BitVec 20) (tm : Bool) (w2 w3 c : Dword) : (s.emit typ unit idx die pk ord tm w2 w3 c).bindings = s.bindings := rfl
@[simp] theorem emit_chosen (s : State) (typ unit idx die : Nat) (pk : Option Nat) (ord : BitVec 20) (tm : Bool) (w2 w3 c : Dword) : (s.emit typ unit idx die pk ord tm w2 w3 c).chosen = s.chosen := rfl
@[simp] theorem emit_cfgWait (s : State) (typ unit idx die : Nat) (pk : Option Nat) (ord : BitVec 20) (tm : Bool) (w2 w3 c : Dword) : (s.emit typ unit idx die pk ord tm w2 w3 c).cfgWait = s.cfgWait := rfl
@[simp] theorem emit_placing (s : State) (typ unit idx die : Nat) (pk : Option Nat) (ord : BitVec 20) (tm : Bool) (w2 w3 c : Dword) : (s.emit typ unit idx die pk ord tm w2 w3 c).placing = s.placing := rfl
@[simp] theorem emit_agenda (s : State) (typ unit idx die : Nat) (pk : Option Nat) (ord : BitVec 20) (tm : Bool) (w2 w3 c : Dword) : (s.emit typ unit idx die pk ord tm w2 w3 c).agenda = s.agenda := rfl
@[simp] theorem emit_focus (s : State) (typ unit idx die : Nat) (pk : Option Nat) (ord : BitVec 20) (tm : Bool) (w2 w3 c : Dword) : (s.emit typ unit idx die pk ord tm w2 w3 c).focus = s.focus := rfl
@[simp] theorem emit_steps (s : State) (typ unit idx die : Nat) (pk : Option Nat) (ord : BitVec 20) (tm : Bool) (w2 w3 c : Dword) : (s.emit typ unit idx die pk ord tm w2 w3 c).steps = s.steps := rfl

@[simp] theorem setCache_mem (s : State) (c n : Nat) (x : CacheLine) : (s.setCache c n x).mem = s.mem := rfl
@[simp] theorem setCache_wg (s : State) (c n : Nat) (x : CacheLine) : (s.setCache c n x).wg = s.wg := rfl
@[simp] theorem setCache_launch (s : State) (c n : Nat) (x : CacheLine) : (s.setCache c n x).launch = s.launch := rfl
@[simp] theorem setCache_chute (s : State) (c n : Nat) (x : CacheLine) : (s.setCache c n x).chute = s.chute := rfl
@[simp] theorem setCache_paddock (s : State) (c n : Nat) (x : CacheLine) : (s.setCache c n x).paddock = s.paddock := rfl
@[simp] theorem setCache_async (s : State) (c n : Nat) (x : CacheLine) : (s.setCache c n x).async = s.async := rfl
@[simp] theorem setCache_opSeq (s : State) (c n : Nat) (x : CacheLine) : (s.setCache c n x).opSeq = s.opSeq := rfl
@[simp] theorem setCache_dir (s : State) (c n : Nat) (x : CacheLine) : (s.setCache c n x).dir = s.dir := rfl
@[simp] theorem setCache_pod (s : State) (c n : Nat) (x : CacheLine) : (s.setCache c n x).pod = s.pod := rfl
@[simp] theorem setCache_proxy (s : State) (c n : Nat) (x : CacheLine) : (s.setCache c n x).proxy = s.proxy := rfl
@[simp] theorem setCache_podMap (s : State) (c n : Nat) (x : CacheLine) : (s.setCache c n x).podMap = s.podMap := rfl
@[simp] theorem setCache_msgs (s : State) (c n : Nat) (x : CacheLine) : (s.setCache c n x).msgs = s.msgs := rfl
@[simp] theorem setCache_combined (s : State) (c n : Nat) (x : CacheLine) : (s.setCache c n x).combined = s.combined := rfl
@[simp] theorem setCache_late (s : State) (c n : Nat) (x : CacheLine) : (s.setCache c n x).late = s.late := rfl
@[simp] theorem setCache_outbox (s : State) (c n : Nat) (x : CacheLine) : (s.setCache c n x).outbox = s.outbox := rfl
@[simp] theorem setCache_ro (s : State) (c n : Nat) (x : CacheLine) : (s.setCache c n x).ro = s.ro := rfl
@[simp] theorem setCache_tc (s : State) (c n : Nat) (x : CacheLine) : (s.setCache c n x).tc = s.tc := rfl
@[simp] theorem setCache_waitq (s : State) (c n : Nat) (x : CacheLine) : (s.setCache c n x).waitq = s.waitq := rfl
@[simp] theorem setCache_lamport (s : State) (c n : Nat) (x : CacheLine) : (s.setCache c n x).lamport = s.lamport := rfl
@[simp] theorem setCache_sliceClock (s : State) (c n : Nat) (x : CacheLine) : (s.setCache c n x).sliceClock = s.sliceClock := rfl
@[simp] theorem setCache_beacon (s : State) (c n : Nat) (x : CacheLine) : (s.setCache c n x).beacon = s.beacon := rfl
@[simp] theorem setCache_ptpLocked (s : State) (c n : Nat) (x : CacheLine) : (s.setCache c n x).ptpLocked = s.ptpLocked := rfl
@[simp] theorem setCache_ptpEver (s : State) (c n : Nat) (x : CacheLine) : (s.setCache c n x).ptpEver = s.ptpEver := rfl
@[simp] theorem setCache_homeKey (s : State) (c n : Nat) (x : CacheLine) : (s.setCache c n x).homeKey = s.homeKey := rfl
@[simp] theorem setCache_time (s : State) (c n : Nat) (x : CacheLine) : (s.setCache c n x).time = s.time := rfl
@[simp] theorem setCache_timeHigh (s : State) (c n : Nat) (x : CacheLine) : (s.setCache c n x).timeHigh = s.timeHigh := rfl
@[simp] theorem setCache_deviceEpoch (s : State) (c n : Nat) (x : CacheLine) : (s.setCache c n x).deviceEpoch = s.deviceEpoch := rfl
@[simp] theorem setCache_cycle (s : State) (c n : Nat) (x : CacheLine) : (s.setCache c n x).cycle = s.cycle := rfl
@[simp] theorem setCache_records (s : State) (c n : Nat) (x : CacheLine) : (s.setCache c n x).records = s.records := rfl
@[simp] theorem setCache_lastStamp (s : State) (c n : Nat) (x : CacheLine) : (s.setCache c n x).lastStamp = s.lastStamp := rfl
@[simp] theorem setCache_stallFlag (s : State) (c n : Nat) (x : CacheLine) : (s.setCache c n x).stallFlag = s.stallFlag := rfl
@[simp] theorem setCache_sink (s : State) (c n : Nat) (x : CacheLine) : (s.setCache c n x).sink = s.sink := rfl
@[simp] theorem setCache_readiness (s : State) (c n : Nat) (x : CacheLine) : (s.setCache c n x).readiness = s.readiness := rfl
@[simp] theorem setCache_floorCnt (s : State) (c n : Nat) (x : CacheLine) : (s.setCache c n x).floorCnt = s.floorCnt := rfl
@[simp] theorem setCache_readySince (s : State) (c n : Nat) (x : CacheLine) : (s.setCache c n x).readySince = s.readySince := rfl
@[simp] theorem setCache_perfPeriod (s : State) (c n : Nat) (x : CacheLine) : (s.setCache c n x).perfPeriod = s.perfPeriod := rfl
@[simp] theorem setCache_perfRingBase (s : State) (c n : Nat) (x : CacheLine) : (s.setCache c n x).perfRingBase = s.perfRingBase := rfl
@[simp] theorem setCache_perfRingLog2 (s : State) (c n : Nat) (x : CacheLine) : (s.setCache c n x).perfRingLog2 = s.perfRingLog2 := rfl
@[simp] theorem setCache_perfRingHead (s : State) (c n : Nat) (x : CacheLine) : (s.setCache c n x).perfRingHead = s.perfRingHead := rfl
@[simp] theorem setCache_perfRingLost (s : State) (c n : Nat) (x : CacheLine) : (s.setCache c n x).perfRingLost = s.perfRingLost := rfl
@[simp] theorem setCache_perf (s : State) (c n : Nat) (x : CacheLine) : (s.setCache c n x).perf = s.perf := rfl
@[simp] theorem setCache_perfUnit (s : State) (c n : Nat) (x : CacheLine) : (s.setCache c n x).perfUnit = s.perfUnit := rfl
@[simp] theorem setCache_port (s : State) (c n : Nat) (x : CacheLine) : (s.setCache c n x).port = s.port := rfl
@[simp] theorem setCache_spareLink (s : State) (c n : Nat) (x : CacheLine) : (s.setCache c n x).spareLink = s.spareLink := rfl
@[simp] theorem setCache_pktCount (s : State) (c n : Nat) (x : CacheLine) : (s.setCache c n x).pktCount = s.pktCount := rfl
@[simp] theorem setCache_connected (s : State) (c n : Nat) (x : CacheLine) : (s.setCache c n x).connected = s.connected := rfl
@[simp] theorem setCache_pathBits (s : State) (c n : Nat) (x : CacheLine) : (s.setCache c n x).pathBits = s.pathBits := rfl
@[simp] theorem setCache_entropy (s : State) (c n : Nat) (x : CacheLine) : (s.setCache c n x).entropy = s.entropy := rfl
@[simp] theorem setCache_hotDest (s : State) (c n : Nat) (x : CacheLine) : (s.setCache c n x).hotDest = s.hotDest := rfl
@[simp] theorem setCache_tray (s : State) (c n : Nat) (x : CacheLine) : (s.setCache c n x).tray = s.tray := rfl
@[simp] theorem setCache_slotDown (s : State) (c n : Nat) (x : CacheLine) : (s.setCache c n x).slotDown = s.slotDown := rfl
@[simp] theorem setCache_congestion (s : State) (c n : Nat) (x : CacheLine) : (s.setCache c n x).congestion = s.congestion := rfl
@[simp] theorem setCache_podId (s : State) (c n : Nat) (x : CacheLine) : (s.setCache c n x).podId = s.podId := rfl
@[simp] theorem setCache_groupId (s : State) (c n : Nat) (x : CacheLine) : (s.setCache c n x).groupId = s.groupId := rfl
@[simp] theorem setCache_slotId (s : State) (c n : Nat) (x : CacheLine) : (s.setCache c n x).slotId = s.slotId := rfl
@[simp] theorem setCache_lost (s : State) (c n : Nat) (x : CacheLine) : (s.setCache c n x).lost = s.lost := rfl
@[simp] theorem setCache_revoked (s : State) (c n : Nat) (x : CacheLine) : (s.setCache c n x).revoked = s.revoked := rfl
@[simp] theorem setCache_remote (s : State) (c n : Nat) (x : CacheLine) : (s.setCache c n x).remote = s.remote := rfl
@[simp] theorem setCache_remoteTag (s : State) (c n : Nat) (x : CacheLine) : (s.setCache c n x).remoteTag = s.remoteTag := rfl
@[simp] theorem setCache_inbox (s : State) (c n : Nat) (x : CacheLine) : (s.setCache c n x).inbox = s.inbox := rfl
@[simp] theorem setCache_spdm (s : State) (c n : Nat) (x : CacheLine) : (s.setCache c n x).spdm = s.spdm := rfl
@[simp] theorem setCache_spdmOut (s : State) (c n : Nat) (x : CacheLine) : (s.setCache c n x).spdmOut = s.spdmOut := rfl
@[simp] theorem setCache_readOut (s : State) (c n : Nat) (x : CacheLine) : (s.setCache c n x).readOut = s.readOut := rfl
@[simp] theorem setCache_readWait (s : State) (c n : Nat) (x : CacheLine) : (s.setCache c n x).readWait = s.readWait := rfl
@[simp] theorem setCache_powered (s : State) (c n : Nat) (x : CacheLine) : (s.setCache c n x).powered = s.powered := rfl
@[simp] theorem setCache_halted (s : State) (c n : Nat) (x : CacheLine) : (s.setCache c n x).halted = s.halted := rfl
@[simp] theorem setCache_powerCap (s : State) (c n : Nat) (x : CacheLine) : (s.setCache c n x).powerCap = s.powerCap := rfl
@[simp] theorem setCache_throttled (s : State) (c n : Nat) (x : CacheLine) : (s.setCache c n x).throttled = s.throttled := rfl
@[simp] theorem setCache_tripped (s : State) (c n : Nat) (x : CacheLine) : (s.setCache c n x).tripped = s.tripped := rfl
@[simp] theorem setCache_spillReserved (s : State) (c n : Nat) (x : CacheLine) : (s.setCache c n x).spillReserved = s.spillReserved := rfl
@[simp] theorem setCache_spilled (s : State) (c n : Nat) (x : CacheLine) : (s.setCache c n x).spilled = s.spilled := rfl
@[simp] theorem setCache_driftOrder (s : State) (c n : Nat) (x : CacheLine) : (s.setCache c n x).driftOrder = s.driftOrder := rfl
@[simp] theorem setCache_carriage (s : State) (c n : Nat) (x : CacheLine) : (s.setCache c n x).carriage = s.carriage := rfl
@[simp] theorem setCache_swap (s : State) (c n : Nat) (x : CacheLine) : (s.setCache c n x).swap = s.swap := rfl
@[simp] theorem setCache_bindings (s : State) (c n : Nat) (x : CacheLine) : (s.setCache c n x).bindings = s.bindings := rfl
@[simp] theorem setCache_chosen (s : State) (c n : Nat) (x : CacheLine) : (s.setCache c n x).chosen = s.chosen := rfl
@[simp] theorem setCache_cfgWait (s : State) (c n : Nat) (x : CacheLine) : (s.setCache c n x).cfgWait = s.cfgWait := rfl
@[simp] theorem setCache_placing (s : State) (c n : Nat) (x : CacheLine) : (s.setCache c n x).placing = s.placing := rfl
@[simp] theorem setCache_agenda (s : State) (c n : Nat) (x : CacheLine) : (s.setCache c n x).agenda = s.agenda := rfl
@[simp] theorem setCache_focus (s : State) (c n : Nat) (x : CacheLine) : (s.setCache c n x).focus = s.focus := rfl
@[simp] theorem setCache_steps (s : State) (c n : Nat) (x : CacheLine) : (s.setCache c n x).steps = s.steps := rfl

end State

/-! ## Fields of a workgroup and of a span that an update leaves -/

@[simp] theorem Wg.updSpan_res (w : Wg) (n : Nat) (f : Span → Span) : (w.updSpan n f).res = w.res := rfl
@[simp] theorem Wg.updSpan_paddock (w : Wg) (n : Nat) (f : Span → Span) : (w.updSpan n f).paddock = w.paddock := rfl
@[simp] theorem Wg.updSpan_serial (w : Wg) (n : Nat) (f : Span → Span) : (w.updSpan n f).serial = w.serial := rfl
@[simp] theorem Wg.updSpan_stage (w : Wg) (n : Nat) (f : Span → Span) : (w.updSpan n f).stage = w.stage := rfl
@[simp] theorem Wg.updSpan_wx (w : Wg) (n : Nat) (f : Span → Span) : (w.updSpan n f).wx = w.wx := rfl
@[simp] theorem Wg.updSpan_wy (w : Wg) (n : Nat) (f : Span → Span) : (w.updSpan n f).wy = w.wy := rfl
@[simp] theorem Wg.updSpan_wz (w : Wg) (n : Nat) (f : Span → Span) : (w.updSpan n f).wz = w.wz := rfl
@[simp] theorem Wg.updSpan_lin (w : Wg) (n : Nat) (f : Span → Span) : (w.updSpan n f).lin = w.lin := rfl
@[simp] theorem Wg.updSpan_core (w : Wg) (n : Nat) (f : Span → Span) : (w.updSpan n f).core = w.core := rfl
@[simp] theorem Wg.updSpan_entry (w : Wg) (n : Nat) (f : Span → Span) : (w.updSpan n f).entry = w.entry := rfl
@[simp] theorem Wg.updSpan_nspans (w : Wg) (n : Nat) (f : Span → Span) : (w.updSpan n f).nspans = w.nspans := rfl
@[simp] theorem Wg.updSpan_handle (w : Wg) (n : Nat) (f : Span → Span) : (w.updSpan n f).handle = w.handle := rfl
@[simp] theorem Wg.updSpan_granule (w : Wg) (n : Nat) (f : Span → Span) : (w.updSpan n f).granule = w.granule := rfl
@[simp] theorem Wg.updSpan_t (w : Wg) (n : Nat) (f : Span → Span) : (w.updSpan n f).t = w.t := rfl
@[simp] theorem Wg.updSpan_tcfg (w : Wg) (n : Nat) (f : Span → Span) : (w.updSpan n f).tcfg = w.tcfg := rfl
@[simp] theorem Wg.updSpan_tl (w : Wg) (n : Nat) (f : Span → Span) : (w.updSpan n f).tl = w.tl := rfl
@[simp] theorem Wg.updSpan_progBar (w : Wg) (n : Nat) (f : Span → Span) : (w.updSpan n f).progBar = w.progBar := rfl
@[simp] theorem Wg.updSpan_progChute (w : Wg) (n : Nat) (f : Span → Span) : (w.updSpan n f).progChute = w.progChute := rfl
@[simp] theorem Wg.updSpan_progFe (w : Wg) (n : Nat) (f : Span → Span) : (w.updSpan n f).progFe = w.progFe := rfl
@[simp] theorem Wg.updSpan_progWaiter (w : Wg) (n : Nat) (f : Span → Span) : (w.updSpan n f).progWaiter = w.progWaiter := rfl
@[simp] theorem Wg.updSpan_wgGen (w : Wg) (n : Nat) (f : Span → Span) : (w.updSpan n f).wgGen = w.wgGen := rfl
@[simp] theorem Wg.updSpan_parkWanted (w : Wg) (n : Nat) (f : Span → Span) : (w.updSpan n f).parkWanted = w.parkWanted := rfl
@[simp] theorem Wg.updSpan_killed (w : Wg) (n : Nat) (f : Span → Span) : (w.updSpan n f).killed = w.killed := rfl
@[simp] theorem Wg.updSpan_since (w : Wg) (n : Nat) (f : Span → Span) : (w.updSpan n f).since = w.since := rfl
@[simp] theorem Wg.updSpan_image (w : Wg) (n : Nat) (f : Span → Span) : (w.updSpan n f).image = w.image := rfl
@[simp] theorem Wg.updSpan_expiry (w : Wg) (n : Nat) (f : Span → Span) : (w.updSpan n f).expiry = w.expiry := rfl
@[simp] theorem Wg.updSpan_mmaLast (w : Wg) (n : Nat) (f : Span → Span) : (w.updSpan n f).mmaLast = w.mmaLast := rfl

@[simp] theorem Wg.updTl_res (w : Wg) (n : Nat) (f : Timeline → Timeline) : (w.updTl n f).res = w.res := rfl
@[simp] theorem Wg.updTl_paddock (w : Wg) (n : Nat) (f : Timeline → Timeline) : (w.updTl n f).paddock = w.paddock := rfl
@[simp] theorem Wg.updTl_serial (w : Wg) (n : Nat) (f : Timeline → Timeline) : (w.updTl n f).serial = w.serial := rfl
@[simp] theorem Wg.updTl_stage (w : Wg) (n : Nat) (f : Timeline → Timeline) : (w.updTl n f).stage = w.stage := rfl
@[simp] theorem Wg.updTl_wx (w : Wg) (n : Nat) (f : Timeline → Timeline) : (w.updTl n f).wx = w.wx := rfl
@[simp] theorem Wg.updTl_wy (w : Wg) (n : Nat) (f : Timeline → Timeline) : (w.updTl n f).wy = w.wy := rfl
@[simp] theorem Wg.updTl_wz (w : Wg) (n : Nat) (f : Timeline → Timeline) : (w.updTl n f).wz = w.wz := rfl
@[simp] theorem Wg.updTl_lin (w : Wg) (n : Nat) (f : Timeline → Timeline) : (w.updTl n f).lin = w.lin := rfl
@[simp] theorem Wg.updTl_core (w : Wg) (n : Nat) (f : Timeline → Timeline) : (w.updTl n f).core = w.core := rfl
@[simp] theorem Wg.updTl_entry (w : Wg) (n : Nat) (f : Timeline → Timeline) : (w.updTl n f).entry = w.entry := rfl
@[simp] theorem Wg.updTl_nspans (w : Wg) (n : Nat) (f : Timeline → Timeline) : (w.updTl n f).nspans = w.nspans := rfl
@[simp] theorem Wg.updTl_span (w : Wg) (n : Nat) (f : Timeline → Timeline) : (w.updTl n f).span = w.span := rfl
@[simp] theorem Wg.updTl_handle (w : Wg) (n : Nat) (f : Timeline → Timeline) : (w.updTl n f).handle = w.handle := rfl
@[simp] theorem Wg.updTl_granule (w : Wg) (n : Nat) (f : Timeline → Timeline) : (w.updTl n f).granule = w.granule := rfl
@[simp] theorem Wg.updTl_t (w : Wg) (n : Nat) (f : Timeline → Timeline) : (w.updTl n f).t = w.t := rfl
@[simp] theorem Wg.updTl_tcfg (w : Wg) (n : Nat) (f : Timeline → Timeline) : (w.updTl n f).tcfg = w.tcfg := rfl
@[simp] theorem Wg.updTl_progBar (w : Wg) (n : Nat) (f : Timeline → Timeline) : (w.updTl n f).progBar = w.progBar := rfl
@[simp] theorem Wg.updTl_progChute (w : Wg) (n : Nat) (f : Timeline → Timeline) : (w.updTl n f).progChute = w.progChute := rfl
@[simp] theorem Wg.updTl_progFe (w : Wg) (n : Nat) (f : Timeline → Timeline) : (w.updTl n f).progFe = w.progFe := rfl
@[simp] theorem Wg.updTl_progWaiter (w : Wg) (n : Nat) (f : Timeline → Timeline) : (w.updTl n f).progWaiter = w.progWaiter := rfl
@[simp] theorem Wg.updTl_wgGen (w : Wg) (n : Nat) (f : Timeline → Timeline) : (w.updTl n f).wgGen = w.wgGen := rfl
@[simp] theorem Wg.updTl_parkWanted (w : Wg) (n : Nat) (f : Timeline → Timeline) : (w.updTl n f).parkWanted = w.parkWanted := rfl
@[simp] theorem Wg.updTl_killed (w : Wg) (n : Nat) (f : Timeline → Timeline) : (w.updTl n f).killed = w.killed := rfl
@[simp] theorem Wg.updTl_since (w : Wg) (n : Nat) (f : Timeline → Timeline) : (w.updTl n f).since = w.since := rfl
@[simp] theorem Wg.updTl_image (w : Wg) (n : Nat) (f : Timeline → Timeline) : (w.updTl n f).image = w.image := rfl
@[simp] theorem Wg.updTl_expiry (w : Wg) (n : Nat) (f : Timeline → Timeline) : (w.updTl n f).expiry = w.expiry := rfl
@[simp] theorem Wg.updTl_mmaLast (w : Wg) (n : Nat) (f : Timeline → Timeline) : (w.updTl n f).mmaLast = w.mmaLast := rfl

@[simp] theorem Span.setV_lane (sp : Span) (r l : Nat) (x : Word) : (sp.setV r l x).lane = sp.lane := rfl
@[simp] theorem Span.setV_s (sp : Span) (r l : Nat) (x : Word) : (sp.setV r l x).s = sp.s := rfl
@[simp] theorem Span.setV_p (sp : Span) (r l : Nat) (x : Word) : (sp.setV r l x).p = sp.p := rfl
@[simp] theorem Span.setV_j (sp : Span) (r l : Nat) (x : Word) : (sp.setV r l x).j = sp.j := rfl
@[simp] theorem Span.setV_k (sp : Span) (r l : Nat) (x : Word) : (sp.setV r l x).k = sp.k := rfl
@[simp] theorem Span.setV_mq (sp : Span) (r l : Nat) (x : Word) : (sp.setV r l x).mq = sp.mq := rfl
@[simp] theorem Span.setV_mqr (sp : Span) (r l : Nat) (x : Word) : (sp.setV r l x).mqr = sp.mqr := rfl
@[simp] theorem Span.setV_tmask (sp : Span) (r l : Nat) (x : Word) : (sp.setV r l x).tmask = sp.tmask := rfl
@[simp] theorem Span.setV_trapMask (sp : Span) (r l : Nat) (x : Word) : (sp.setV r l x).trapMask = sp.trapMask := rfl
@[simp] theorem Span.setV_nested (sp : Span) (r l : Nat) (x : Word) : (sp.setV r l x).nested = sp.nested := rfl
@[simp] theorem Span.setV_stopNext (sp : Span) (r l : Nat) (x : Word) : (sp.setV r l x).stopNext = sp.stopNext := rfl
@[simp] theorem Span.setV_clauses (sp : Span) (r l : Nat) (x : Word) : (sp.setV r l x).clauses = sp.clauses := rfl
@[simp] theorem Span.setV_pending (sp : Span) (r l : Nat) (x : Word) : (sp.setV r l x).pending = sp.pending := rfl
@[simp] theorem Span.setV_traps (sp : Span) (r l : Nat) (x : Word) : (sp.setV r l x).traps = sp.traps := rfl
@[simp] theorem Span.setV_deferred (sp : Span) (r l : Nat) (x : Word) : (sp.setV r l x).deferred = sp.deferred := rfl
@[simp] theorem Span.setV_wait (sp : Span) (r l : Nat) (x : Word) : (sp.setV r l x).wait = sp.wait := rfl
@[simp] theorem Span.setV_tileWait (sp : Span) (r l : Nat) (x : Word) : (sp.setV r l x).tileWait = sp.tileWait := rfl
@[simp] theorem Span.setV_memWait (sp : Span) (r l : Nat) (x : Word) : (sp.setV r l x).memWait = sp.memWait := rfl
@[simp] theorem Span.setV_mon (sp : Span) (r l : Nat) (x : Word) : (sp.setV r l x).mon = sp.mon := rfl
@[simp] theorem Span.setV_node (sp : Span) (r l : Nat) (x : Word) : (sp.setV r l x).node = sp.node := rfl
@[simp] theorem Span.setV_lastStop (sp : Span) (r l : Nat) (x : Word) : (sp.setV r l x).lastStop = sp.lastStop := rfl

@[simp] theorem Span.updLane_v (sp : Span) (l : Nat) (f : Lane → Lane) : (sp.updLane l f).v = sp.v := rfl
@[simp] theorem Span.updLane_s (sp : Span) (l : Nat) (f : Lane → Lane) : (sp.updLane l f).s = sp.s := rfl
@[simp] theorem Span.updLane_p (sp : Span) (l : Nat) (f : Lane → Lane) : (sp.updLane l f).p = sp.p := rfl
@[simp] theorem Span.updLane_j (sp : Span) (l : Nat) (f : Lane → Lane) : (sp.updLane l f).j = sp.j := rfl
@[simp] theorem Span.updLane_k (sp : Span) (l : Nat) (f : Lane → Lane) : (sp.updLane l f).k = sp.k := rfl
@[simp] theorem Span.updLane_mq (sp : Span) (l : Nat) (f : Lane → Lane) : (sp.updLane l f).mq = sp.mq := rfl
@[simp] theorem Span.updLane_mqr (sp : Span) (l : Nat) (f : Lane → Lane) : (sp.updLane l f).mqr = sp.mqr := rfl
@[simp] theorem Span.updLane_tmask (sp : Span) (l : Nat) (f : Lane → Lane) : (sp.updLane l f).tmask = sp.tmask := rfl
@[simp] theorem Span.updLane_trapMask (sp : Span) (l : Nat) (f : Lane → Lane) : (sp.updLane l f).trapMask = sp.trapMask := rfl
@[simp] theorem Span.updLane_nested (sp : Span) (l : Nat) (f : Lane → Lane) : (sp.updLane l f).nested = sp.nested := rfl
@[simp] theorem Span.updLane_stopNext (sp : Span) (l : Nat) (f : Lane → Lane) : (sp.updLane l f).stopNext = sp.stopNext := rfl
@[simp] theorem Span.updLane_clauses (sp : Span) (l : Nat) (f : Lane → Lane) : (sp.updLane l f).clauses = sp.clauses := rfl
@[simp] theorem Span.updLane_pending (sp : Span) (l : Nat) (f : Lane → Lane) : (sp.updLane l f).pending = sp.pending := rfl
@[simp] theorem Span.updLane_traps (sp : Span) (l : Nat) (f : Lane → Lane) : (sp.updLane l f).traps = sp.traps := rfl
@[simp] theorem Span.updLane_deferred (sp : Span) (l : Nat) (f : Lane → Lane) : (sp.updLane l f).deferred = sp.deferred := rfl
@[simp] theorem Span.updLane_wait (sp : Span) (l : Nat) (f : Lane → Lane) : (sp.updLane l f).wait = sp.wait := rfl
@[simp] theorem Span.updLane_tileWait (sp : Span) (l : Nat) (f : Lane → Lane) : (sp.updLane l f).tileWait = sp.tileWait := rfl
@[simp] theorem Span.updLane_memWait (sp : Span) (l : Nat) (f : Lane → Lane) : (sp.updLane l f).memWait = sp.memWait := rfl
@[simp] theorem Span.updLane_mon (sp : Span) (l : Nat) (f : Lane → Lane) : (sp.updLane l f).mon = sp.mon := rfl
@[simp] theorem Span.updLane_node (sp : Span) (l : Nat) (f : Lane → Lane) : (sp.updLane l f).node = sp.node := rfl
@[simp] theorem Span.updLane_lastStop (sp : Span) (l : Nat) (f : Lane → Lane) : (sp.updLane l f).lastStop = sp.lastStop := rfl

@[simp] theorem Span.setJ_lane (sp : Span) (n : Nat) (x : Rejoin) : (sp.setJ n x).lane = sp.lane := rfl
@[simp] theorem Span.setJ_v (sp : Span) (n : Nat) (x : Rejoin) : (sp.setJ n x).v = sp.v := rfl
@[simp] theorem Span.setJ_s (sp : Span) (n : Nat) (x : Rejoin) : (sp.setJ n x).s = sp.s := rfl
@[simp] theorem Span.setJ_p (sp : Span) (n : Nat) (x : Rejoin) : (sp.setJ n x).p = sp.p := rfl
@[simp] theorem Span.setJ_k (sp : Span) (n : Nat) (x : Rejoin) : (sp.setJ n x).k = sp.k := rfl
@[simp] theorem Span.setJ_mq (sp : Span) (n : Nat) (x : Rejoin) : (sp.setJ n x).mq = sp.mq := rfl
@[simp] theorem Span.setJ_mqr (sp : Span) (n : Nat) (x : Rejoin) : (sp.setJ n x).mqr = sp.mqr := rfl
@[simp] theorem Span.setJ_tmask (sp : Span) (n : Nat) (x : Rejoin) : (sp.setJ n x).tmask = sp.tmask := rfl
@[simp] theorem Span.setJ_trapMask (sp : Span) (n : Nat) (x : Rejoin) : (sp.setJ n x).trapMask = sp.trapMask := rfl
@[simp] theorem Span.setJ_nested (sp : Span) (n : Nat) (x : Rejoin) : (sp.setJ n x).nested = sp.nested := rfl
@[simp] theorem Span.setJ_stopNext (sp : Span) (n : Nat) (x : Rejoin) : (sp.setJ n x).stopNext = sp.stopNext := rfl
@[simp] theorem Span.setJ_clauses (sp : Span) (n : Nat) (x : Rejoin) : (sp.setJ n x).clauses = sp.clauses := rfl
@[simp] theorem Span.setJ_pending (sp : Span) (n : Nat) (x : Rejoin) : (sp.setJ n x).pending = sp.pending := rfl
@[simp] theorem Span.setJ_traps (sp : Span) (n : Nat) (x : Rejoin) : (sp.setJ n x).traps = sp.traps := rfl
@[simp] theorem Span.setJ_deferred (sp : Span) (n : Nat) (x : Rejoin) : (sp.setJ n x).deferred = sp.deferred := rfl
@[simp] theorem Span.setJ_wait (sp : Span) (n : Nat) (x : Rejoin) : (sp.setJ n x).wait = sp.wait := rfl
@[simp] theorem Span.setJ_tileWait (sp : Span) (n : Nat) (x : Rejoin) : (sp.setJ n x).tileWait = sp.tileWait := rfl
@[simp] theorem Span.setJ_memWait (sp : Span) (n : Nat) (x : Rejoin) : (sp.setJ n x).memWait = sp.memWait := rfl
@[simp] theorem Span.setJ_mon (sp : Span) (n : Nat) (x : Rejoin) : (sp.setJ n x).mon = sp.mon := rfl
@[simp] theorem Span.setJ_node (sp : Span) (n : Nat) (x : Rejoin) : (sp.setJ n x).node = sp.node := rfl
@[simp] theorem Span.setJ_lastStop (sp : Span) (n : Nat) (x : Rejoin) : (sp.setJ n x).lastStop = sp.lastStop := rfl

@[simp] theorem Span.updClause_lane (sp : Span) (S : Lanes) (f : Clause → Clause) : (sp.updClause S f).lane = sp.lane := rfl
@[simp] theorem Span.updClause_v (sp : Span) (S : Lanes) (f : Clause → Clause) : (sp.updClause S f).v = sp.v := rfl
@[simp] theorem Span.updClause_s (sp : Span) (S : Lanes) (f : Clause → Clause) : (sp.updClause S f).s = sp.s := rfl
@[simp] theorem Span.updClause_p (sp : Span) (S : Lanes) (f : Clause → Clause) : (sp.updClause S f).p = sp.p := rfl
@[simp] theorem Span.updClause_j (sp : Span) (S : Lanes) (f : Clause → Clause) : (sp.updClause S f).j = sp.j := rfl
@[simp] theorem Span.updClause_k (sp : Span) (S : Lanes) (f : Clause → Clause) : (sp.updClause S f).k = sp.k := rfl
@[simp] theorem Span.updClause_mq (sp : Span) (S : Lanes) (f : Clause → Clause) : (sp.updClause S f).mq = sp.mq := rfl
@[simp] theorem Span.updClause_mqr (sp : Span) (S : Lanes) (f : Clause → Clause) : (sp.updClause S f).mqr = sp.mqr := rfl
@[simp] theorem Span.updClause_tmask (sp : Span) (S : Lanes) (f : Clause → Clause) : (sp.updClause S f).tmask = sp.tmask := rfl
@[simp] theorem Span.updClause_trapMask (sp : Span) (S : Lanes) (f : Clause → Clause) : (sp.updClause S f).trapMask = sp.trapMask := rfl
@[simp] theorem Span.updClause_nested (sp : Span) (S : Lanes) (f : Clause → Clause) : (sp.updClause S f).nested = sp.nested := rfl
@[simp] theorem Span.updClause_stopNext (sp : Span) (S : Lanes) (f : Clause → Clause) : (sp.updClause S f).stopNext = sp.stopNext := rfl
@[simp] theorem Span.updClause_pending (sp : Span) (S : Lanes) (f : Clause → Clause) : (sp.updClause S f).pending = sp.pending := rfl
@[simp] theorem Span.updClause_traps (sp : Span) (S : Lanes) (f : Clause → Clause) : (sp.updClause S f).traps = sp.traps := rfl
@[simp] theorem Span.updClause_deferred (sp : Span) (S : Lanes) (f : Clause → Clause) : (sp.updClause S f).deferred = sp.deferred := rfl
@[simp] theorem Span.updClause_wait (sp : Span) (S : Lanes) (f : Clause → Clause) : (sp.updClause S f).wait = sp.wait := rfl
@[simp] theorem Span.updClause_tileWait (sp : Span) (S : Lanes) (f : Clause → Clause) : (sp.updClause S f).tileWait = sp.tileWait := rfl
@[simp] theorem Span.updClause_memWait (sp : Span) (S : Lanes) (f : Clause → Clause) : (sp.updClause S f).memWait = sp.memWait := rfl
@[simp] theorem Span.updClause_mon (sp : Span) (S : Lanes) (f : Clause → Clause) : (sp.updClause S f).mon = sp.mon := rfl
@[simp] theorem Span.updClause_node (sp : Span) (S : Lanes) (f : Clause → Clause) : (sp.updClause S f).node = sp.node := rfl
@[simp] theorem Span.updClause_lastStop (sp : Span) (S : Lanes) (f : Clause → Clause) : (sp.updClause S f).lastStop = sp.lastStop := rfl

@[simp] theorem Span.setS_lane (sp : Span) (r : BitVec 6) (x : Dword) : (sp.setS r x).lane = sp.lane := by unfold Span.setS; split <;> rfl
@[simp] theorem Span.setS_v (sp : Span) (r : BitVec 6) (x : Dword) : (sp.setS r x).v = sp.v := by unfold Span.setS; split <;> rfl
@[simp] theorem Span.setS_p (sp : Span) (r : BitVec 6) (x : Dword) : (sp.setS r x).p = sp.p := by unfold Span.setS; split <;> rfl
@[simp] theorem Span.setS_j (sp : Span) (r : BitVec 6) (x : Dword) : (sp.setS r x).j = sp.j := by unfold Span.setS; split <;> rfl
@[simp] theorem Span.setS_k (sp : Span) (r : BitVec 6) (x : Dword) : (sp.setS r x).k = sp.k := by unfold Span.setS; split <;> rfl
@[simp] theorem Span.setS_mq (sp : Span) (r : BitVec 6) (x : Dword) : (sp.setS r x).mq = sp.mq := by unfold Span.setS; split <;> rfl
@[simp] theorem Span.setS_mqr (sp : Span) (r : BitVec 6) (x : Dword) : (sp.setS r x).mqr = sp.mqr := by unfold Span.setS; split <;> rfl
@[simp] theorem Span.setS_tmask (sp : Span) (r : BitVec 6) (x : Dword) : (sp.setS r x).tmask = sp.tmask := by unfold Span.setS; split <;> rfl
@[simp] theorem Span.setS_trapMask (sp : Span) (r : BitVec 6) (x : Dword) : (sp.setS r x).trapMask = sp.trapMask := by unfold Span.setS; split <;> rfl
@[simp] theorem Span.setS_nested (sp : Span) (r : BitVec 6) (x : Dword) : (sp.setS r x).nested = sp.nested := by unfold Span.setS; split <;> rfl
@[simp] theorem Span.setS_stopNext (sp : Span) (r : BitVec 6) (x : Dword) : (sp.setS r x).stopNext = sp.stopNext := by unfold Span.setS; split <;> rfl
@[simp] theorem Span.setS_clauses (sp : Span) (r : BitVec 6) (x : Dword) : (sp.setS r x).clauses = sp.clauses := by unfold Span.setS; split <;> rfl
@[simp] theorem Span.setS_pending (sp : Span) (r : BitVec 6) (x : Dword) : (sp.setS r x).pending = sp.pending := by unfold Span.setS; split <;> rfl
@[simp] theorem Span.setS_traps (sp : Span) (r : BitVec 6) (x : Dword) : (sp.setS r x).traps = sp.traps := by unfold Span.setS; split <;> rfl
@[simp] theorem Span.setS_deferred (sp : Span) (r : BitVec 6) (x : Dword) : (sp.setS r x).deferred = sp.deferred := by unfold Span.setS; split <;> rfl
@[simp] theorem Span.setS_wait (sp : Span) (r : BitVec 6) (x : Dword) : (sp.setS r x).wait = sp.wait := by unfold Span.setS; split <;> rfl
@[simp] theorem Span.setS_tileWait (sp : Span) (r : BitVec 6) (x : Dword) : (sp.setS r x).tileWait = sp.tileWait := by unfold Span.setS; split <;> rfl
@[simp] theorem Span.setS_memWait (sp : Span) (r : BitVec 6) (x : Dword) : (sp.setS r x).memWait = sp.memWait := by unfold Span.setS; split <;> rfl
@[simp] theorem Span.setS_mon (sp : Span) (r : BitVec 6) (x : Dword) : (sp.setS r x).mon = sp.mon := by unfold Span.setS; split <;> rfl
@[simp] theorem Span.setS_node (sp : Span) (r : BitVec 6) (x : Dword) : (sp.setS r x).node = sp.node := by unfold Span.setS; split <;> rfl
@[simp] theorem Span.setS_lastStop (sp : Span) (r : BitVec 6) (x : Dword) : (sp.setS r x).lastStop = sp.lastStop := by unfold Span.setS; split <;> rfl

@[simp] theorem Span.setP_lane (sp : Span) (r : BitVec 3) (S x : Lanes) : (sp.setP r S x).lane = sp.lane := by unfold Span.setP; split <;> rfl
@[simp] theorem Span.setP_v (sp : Span) (r : BitVec 3) (S x : Lanes) : (sp.setP r S x).v = sp.v := by unfold Span.setP; split <;> rfl
@[simp] theorem Span.setP_s (sp : Span) (r : BitVec 3) (S x : Lanes) : (sp.setP r S x).s = sp.s := by unfold Span.setP; split <;> rfl
@[simp] theorem Span.setP_j (sp : Span) (r : BitVec 3) (S x : Lanes) : (sp.setP r S x).j = sp.j := by unfold Span.setP; split <;> rfl
@[simp] theorem Span.setP_k (sp : Span) (r : BitVec 3) (S x : Lanes) : (sp.setP r S x).k = sp.k := by unfold Span.setP; split <;> rfl
@[simp] theorem Span.setP_mq (sp : Span) (r : BitVec 3) (S x : Lanes) : (sp.setP r S x).mq = sp.mq := by unfold Span.setP; split <;> rfl
@[simp] theorem Span.setP_mqr (sp : Span) (r : BitVec 3) (S x : Lanes) : (sp.setP r S x).mqr = sp.mqr := by unfold Span.setP; split <;> rfl
@[simp] theorem Span.setP_tmask (sp : Span) (r : BitVec 3) (S x : Lanes) : (sp.setP r S x).tmask = sp.tmask := by unfold Span.setP; split <;> rfl
@[simp] theorem Span.setP_trapMask (sp : Span) (r : BitVec 3) (S x : Lanes) : (sp.setP r S x).trapMask = sp.trapMask := by unfold Span.setP; split <;> rfl
@[simp] theorem Span.setP_nested (sp : Span) (r : BitVec 3) (S x : Lanes) : (sp.setP r S x).nested = sp.nested := by unfold Span.setP; split <;> rfl
@[simp] theorem Span.setP_stopNext (sp : Span) (r : BitVec 3) (S x : Lanes) : (sp.setP r S x).stopNext = sp.stopNext := by unfold Span.setP; split <;> rfl
@[simp] theorem Span.setP_clauses (sp : Span) (r : BitVec 3) (S x : Lanes) : (sp.setP r S x).clauses = sp.clauses := by unfold Span.setP; split <;> rfl
@[simp] theorem Span.setP_pending (sp : Span) (r : BitVec 3) (S x : Lanes) : (sp.setP r S x).pending = sp.pending := by unfold Span.setP; split <;> rfl
@[simp] theorem Span.setP_traps (sp : Span) (r : BitVec 3) (S x : Lanes) : (sp.setP r S x).traps = sp.traps := by unfold Span.setP; split <;> rfl
@[simp] theorem Span.setP_deferred (sp : Span) (r : BitVec 3) (S x : Lanes) : (sp.setP r S x).deferred = sp.deferred := by unfold Span.setP; split <;> rfl
@[simp] theorem Span.setP_wait (sp : Span) (r : BitVec 3) (S x : Lanes) : (sp.setP r S x).wait = sp.wait := by unfold Span.setP; split <;> rfl
@[simp] theorem Span.setP_tileWait (sp : Span) (r : BitVec 3) (S x : Lanes) : (sp.setP r S x).tileWait = sp.tileWait := by unfold Span.setP; split <;> rfl
@[simp] theorem Span.setP_memWait (sp : Span) (r : BitVec 3) (S x : Lanes) : (sp.setP r S x).memWait = sp.memWait := by unfold Span.setP; split <;> rfl
@[simp] theorem Span.setP_mon (sp : Span) (r : BitVec 3) (S x : Lanes) : (sp.setP r S x).mon = sp.mon := by unfold Span.setP; split <;> rfl
@[simp] theorem Span.setP_node (sp : Span) (r : BitVec 3) (S x : Lanes) : (sp.setP r S x).node = sp.node := by unfold Span.setP; split <;> rfl
@[simp] theorem Span.setP_lastStop (sp : Span) (r : BitVec 3) (S x : Lanes) : (sp.setP r S x).lastStop = sp.lastStop := by unfold Span.setP; split <;> rfl

@[simp] theorem Span.movedOn_lane (sp : Span) (S : Lanes) (n : Nat) : (sp.movedOn S n).lane = sp.lane := rfl
@[simp] theorem Span.movedOn_v (sp : Span) (S : Lanes) (n : Nat) : (sp.movedOn S n).v = sp.v := rfl
@[simp] theorem Span.movedOn_s (sp : Span) (S : Lanes) (n : Nat) : (sp.movedOn S n).s = sp.s := rfl
@[simp] theorem Span.movedOn_p (sp : Span) (S : Lanes) (n : Nat) : (sp.movedOn S n).p = sp.p := rfl
@[simp] theorem Span.movedOn_j (sp : Span) (S : Lanes) (n : Nat) : (sp.movedOn S n).j = sp.j := rfl
@[simp] theorem Span.movedOn_k (sp : Span) (S : Lanes) (n : Nat) : (sp.movedOn S n).k = sp.k := rfl
@[simp] theorem Span.movedOn_mq (sp : Span) (S : Lanes) (n : Nat) : (sp.movedOn S n).mq = sp.mq := rfl
@[simp] theorem Span.movedOn_mqr (sp : Span) (S : Lanes) (n : Nat) : (sp.movedOn S n).mqr = sp.mqr := rfl
@[simp] theorem Span.movedOn_tmask (sp : Span) (S : Lanes) (n : Nat) : (sp.movedOn S n).tmask = sp.tmask := rfl
@[simp] theorem Span.movedOn_trapMask (sp : Span) (S : Lanes) (n : Nat) : (sp.movedOn S n).trapMask = sp.trapMask := rfl
@[simp] theorem Span.movedOn_nested (sp : Span) (S : Lanes) (n : Nat) : (sp.movedOn S n).nested = sp.nested := rfl
@[simp] theorem Span.movedOn_stopNext (sp : Span) (S : Lanes) (n : Nat) : (sp.movedOn S n).stopNext = sp.stopNext := rfl
@[simp] theorem Span.movedOn_pending (sp : Span) (S : Lanes) (n : Nat) : (sp.movedOn S n).pending = sp.pending := rfl
@[simp] theorem Span.movedOn_traps (sp : Span) (S : Lanes) (n : Nat) : (sp.movedOn S n).traps = sp.traps := rfl
@[simp] theorem Span.movedOn_deferred (sp : Span) (S : Lanes) (n : Nat) : (sp.movedOn S n).deferred = sp.deferred := rfl
@[simp] theorem Span.movedOn_tileWait (sp : Span) (S : Lanes) (n : Nat) : (sp.movedOn S n).tileWait = sp.tileWait := rfl
@[simp] theorem Span.movedOn_memWait (sp : Span) (S : Lanes) (n : Nat) : (sp.movedOn S n).memWait = sp.memWait := rfl
@[simp] theorem Span.movedOn_mon (sp : Span) (S : Lanes) (n : Nat) : (sp.movedOn S n).mon = sp.mon := rfl
@[simp] theorem Span.movedOn_node (sp : Span) (S : Lanes) (n : Nat) : (sp.movedOn S n).node = sp.node := rfl
@[simp] theorem Span.movedOn_lastStop (sp : Span) (S : Lanes) (n : Nat) : (sp.movedOn S n).lastStop = sp.lastStop := rfl

/-! ## Reads after updates -/

namespace State

theorem wgAt_updWg (s : State) (g h : Nat) (f : Wg → Wg) :
    (s.updWg g f).wgAt h = if h = g then f (s.wgAt g) else s.wgAt h := Store.get_upd ..

@[simp] theorem wgAt_updWg_self (s : State) (g : Nat) (f : Wg → Wg) : (s.updWg g f).wgAt g = f (s.wgAt g) := by
  simp [wgAt_updWg]

theorem wgAt_updWg_ne (s : State) {g h : Nat} (f : Wg → Wg) (hne : h ≠ g) : (s.updWg g f).wgAt h = s.wgAt h := by
  simp [wgAt_updWg, hne]

end State

theorem Wg.spanAt_updSpan (w : Wg) (n m : Nat) (f : Span → Span) :
    (w.updSpan n f).spanAt m = if m = n then f (w.spanAt n) else w.spanAt m := Store.get_upd ..

@[simp] theorem Wg.spanAt_updSpan_self (w : Wg) (n : Nat) (f : Span → Span) : (w.updSpan n f).spanAt n = f (w.spanAt n) := by
  simp [Wg.spanAt_updSpan]

namespace State

theorem spanAt_updSpanAt (s : State) (g n h m : Nat) (f : Span → Span) :
    (s.updSpanAt g n f).spanAt h m = if h = g ∧ m = n then f (s.spanAt g n) else s.spanAt h m := by
  unfold spanAt updSpanAt
  rw [wgAt_updWg]
  by_cases hg : h = g
  · subst hg; simp [Wg.spanAt_updSpan]
  · simp [hg]

/-- The issuing span after a change of it. -/
@[simp] theorem span_updSpan (s : State) (f : Span → Span) : (s.updSpan f).span = f s.span := by
  show (s.updSpanAt s.focus.g s.focus.sp f).spanAt s.focus.g s.focus.sp = _
  rw [spanAt_updSpanAt, if_pos ⟨rfl, rfl⟩]; rfl

@[simp] theorem lanes_updSpan (s : State) (f : Span → Span) : (s.updSpan f).lanes = s.lanes := rfl

/-- The issuing span once the instruction is complete. -/
@[simp] theorem span_retire (s : State) : s.retire.span = s.span.movedOn s.lanes s.focus.next := span_updSpan ..

theorem byte_setByte (s : State) (a b : Nat) (x : Byte) : (s.setByte a x).byte b = if b = a then x else s.byte b :=
  Store.get_set ..

theorem chuteAt_updChute (s : State) (k j : Nat) (f : Chute → Chute) :
    (s.updChute k f).chuteAt j = if j = k then f (s.chuteAt k) else s.chuteAt j := Store.get_upd ..

theorem launchAt_updLaunch (s : State) (k j : Nat) (f : Launch → Launch) :
    (s.updLaunch k f).launchAt j = if j = k then f (s.launchAt k) else s.launchAt j := Store.get_upd ..

theorem pk_updPk (s : State) (k j : Nat) (f : Paddock → Paddock) :
    (s.updPk k f).pk j = if j = k then f (s.pk k) else s.pk j := Store.get_upd ..

theorem dirAt_setDir (s : State) (n m : Nat) (d : DirEntry) :
    (s.setDir n d).dirAt m = if m = n then d else s.dirAt m := Store.get_set ..

theorem podAt_setPod (s : State) (n m : Nat) (d : DirEntry) :
    (s.setPod n d).podAt m = if m = n then d else s.podAt m := Store.get_set ..

theorem proxyAt_setProxy (s : State) (n m : Nat) (x : CacheLine) :
    (s.setProxy n x).proxyAt m = if m = n then x else s.proxyAt m := Store.get_set ..

theorem sinkAt_updSink (s : State) (n m : Nat) (f : Sink → Sink) :
    (s.updSink n f).sinkAt m = if m = n then f (s.sinkAt n) else s.sinkAt m := Store.get_upd ..

theorem cacheAt_setCache (s : State) (c n m : Nat) (x : CacheLine) (k : Nat) :
    (s.setCache c n x).cacheAt k m = if cacheKey k m = cacheKey c n then x else s.cacheAt k m := Store.get_set ..

end State

namespace Span

theorem vr_setV (sp : Span) (r l n m : Nat) (x : Word) (hl : l < 32) (hm : m < 32) :
    (sp.setV r l x).vr n m = if n = r ∧ m = l then x else sp.vr n m := by
  unfold vr setV
  rw [Store.get_set]
  have : (32 * n + m = 32 * r + l) ↔ (n = r ∧ m = l) := by omega
  simp [this]

/-- s[d] after a write of it; s63 stays zero (05 R77). -/
theorem sr_setS (sp : Span) (d n : BitVec 6) (x : Dword) :
    (sp.setS d x).sr n = if n = d ∧ d ≠ 63#6 then x else sp.sr n := by
  unfold sr setS
  by_cases hd : d = 63#6
  · simp [hd]
  · rw [if_neg hd]
    by_cases hn : n = d
    · subst hn; simp [hd]
    · have : n.toNat ≠ d.toNat := fun h => hn (BitVec.eq_of_toNat_eq h)
      simp [hn, Store.get_set_ne _ _ _ this]

/-- Bits of a predicate after a write of those of lanes S; p7 stays all ones (05 R77). -/
theorem pr_setP (sp : Span) (d n : BitVec 3) (S x : Lanes) (l : Nat) :
    laneIn ((sp.setP d S x).pr n) l = if n = d ∧ d ≠ 7#3 ∧ laneIn S l then laneIn x l else laneIn (sp.pr n) l := by
  unfold setP
  by_cases hd : d = 7#3
  · simp [hd]
  · rw [if_neg hd]
    by_cases hn : n = d
    · subst hn
      have e : ({ sp with p := Store.set 0 sp.p n.toNat ((sp.pr n &&& ~~~S) ||| (x &&& S)) } : Span).pr n =
          (sp.pr n &&& ~~~S) ||| (x &&& S) := by
        show (if n = 7#3 then allLanes else Store.get 0 (Store.set 0 sp.p n.toNat _) n.toNat) = _
        rw [if_neg hd, Store.get_set_self]
      rw [e]
      simp only [laneIn, BitVec.getLsbD_or, BitVec.getLsbD_and, BitVec.getLsbD_not]
      by_cases h32 : l < 32
      · cases S.getLsbD l <;> cases (sp.pr n).getLsbD l <;> cases x.getLsbD l <;> simp [h32, hd]
      · have h1 : S.getLsbD l = false := BitVec.getLsbD_of_ge _ _ (by omega)
        have h2 : (sp.pr n).getLsbD l = false := BitVec.getLsbD_of_ge _ _ (by omega)
        simp [h1, h2]
    · have hne : n.toNat ≠ d.toNat := fun h => hn (BitVec.eq_of_toNat_eq h)
      simp [pr, hn, Store.get_set_ne _ _ _ hne]

/-- A lane's thread state after a change of one lane. -/
theorem laneAt_updLane (sp : Span) (l m : Nat) (f : Lane → Lane) :
    (sp.updLane l f).laneAt m = if m = l then f (sp.laneAt l) else sp.laneAt m := Store.get_upd ..

theorem jm_setJ (sp : Span) (n m : Nat) (x : Rejoin) : (sp.setJ n x).jm m = if m = n then x else sp.jm m := Store.get_set ..

end Span

/-! ## Lanes -/

theorem mem_lanesOf (S : Lanes) (l : Nat) : l ∈ lanesOf S ↔ l < 32 ∧ laneIn S l = true := by
  simp [lanesOf]

theorem nodup_lanesOf (S : Lanes) : (lanesOf S).Nodup := List.nodup_range.filter _

theorem laneIn_foldl_where (f : Nat → Bool) (xs : List Nat) (a : Lanes) (l : Nat) (hl : l < 32) :
    laneIn (xs.foldl (fun a l => if f l then a ||| BitVec.twoPow 32 l else a) a) l = (laneIn a l || (xs.contains l && f l)) := by
  induction xs generalizing a with
  | nil => simp
  | cons x xs ih =>
    rw [List.foldl_cons, ih]
    by_cases hx : f x
    · by_cases hlx : l = x
      · subst hlx; simp [hx, laneIn, hl]
      · have : ¬ x = l := fun h => hlx h.symm
        simp [hx, laneIn, BitVec.getLsbD_or, BitVec.getLsbD_twoPow, this, hlx]
    · by_cases hlx : l = x
      · subst hlx; simp [hx]
      · simp [hx, hlx]

/-- Membership in a set of lanes given by a test. -/
theorem laneIn_lanesWhere (f : Nat → Bool) (l : Nat) (hl : l < 32) : laneIn (lanesWhere f) l = f l := by
  unfold lanesWhere
  rw [laneIn_foldl_where _ _ _ _ hl]
  simp [laneIn, hl]

theorem laneIn_ge (S : Lanes) (l : Nat) (h : 32 ≤ l) : laneIn S l = false := BitVec.getLsbD_of_ge _ _ h

@[simp] theorem laneIn_allLanes (l : Nat) (h : l < 32) : laneIn allLanes l = true := by
  unfold laneIn allLanes
  rw [show (0xFFFFFFFF#32 : BitVec 32) = BitVec.allOnes 32 from rfl, BitVec.getLsbD_allOnes]
  simpa using h

namespace Span

theorem foldl_setV (xs : List Nat) (f : Nat → Word) (d : Nat) (sp : Span) (h : ∀ x ∈ xs, x < 32) (hn : xs.Nodup) (n m : Nat)
    (hm : m < 32) :
    (xs.foldl (fun a l => a.setV d l (f l)) sp).vr n m = if n = d ∧ m ∈ xs then f m else sp.vr n m := by
  induction xs generalizing sp with
  | nil => simp
  | cons x xs ih =>
    rw [List.foldl_cons, ih _ (fun y hy => h y (by simp [hy])) (List.nodup_cons.1 hn).2,
      vr_setV _ _ _ _ _ _ (h x (by simp)) hm]
    by_cases h1 : n = d <;> by_cases h2 : m = x <;> simp_all [List.mem_cons]

/-- The registers after one register is written in a set of lanes (08 R125). -/
theorem vr_mapV (sp : Span) (S : Lanes) (d : Nat) (f : Nat → Word) (n m : Nat) (hm : m < 32) :
    (sp.mapV S d f).vr n m = if n = d ∧ laneIn S m then f m else sp.vr n m := by
  unfold mapV
  rw [foldl_setV _ _ _ _ (fun x hx => ((mem_lanesOf S x).1 hx).1) (nodup_lanesOf S) _ _ hm]
  simp [mem_lanesOf, hm]

theorem foldl_setV_rest (xs : List Nat) (f : Nat → Span → Span) (sp : Span) (hf : ∀ l q, f l q = { q with v := (f l q).v }) :
    xs.foldl (fun a l => f l a) sp = { sp with v := (xs.foldl (fun a l => f l a) sp).v } := by
  induction xs generalizing sp with
  | nil => rfl
  | cons x xs ih =>
    rw [List.foldl_cons]
    have h := ih (f x sp)
    have e := hf x sp
    rw [h]
    generalize (List.foldl (fun a l => f l a) (f x sp) xs).v = w
    rw [e]

theorem mapV_rest (sp : Span) (S : Lanes) (d : Nat) (f : Nat → Word) : sp.mapV S d f = { sp with v := (sp.mapV S d f).v } :=
  foldl_setV_rest _ (fun l q => q.setV d l (f l)) _ (fun _ _ => rfl)

theorem mapPair_rest (sp : Span) (S : Lanes) (d : Nat) (f : Nat → Dword) :
    sp.mapPair S d f = { sp with v := (sp.mapPair S d f).v } :=
  foldl_setV_rest _ (fun l q => q.setPair d l (f l)) _ (fun _ _ => rfl)

theorem mapGroup_rest (sp : Span) (S : Lanes) (d : Nat) (f : Nat → BitVec 128) :
    sp.mapGroup S d f = { sp with v := (sp.mapGroup S d f).v } :=
  foldl_setV_rest _ (fun l q => q.setGroup d l (f l)) _ (fun _ _ => rfl)

theorem vr_setPair (sp : Span) (r l n m : Nat) (x : Dword) (hl : l < 32) (hm : m < 32) :
    (sp.setPair r l x).vr n m =
      if r ≤ n ∧ n < r + 2 ∧ m = l then x.extractLsb' (32 * (n - r)) 32 else sp.vr n m := by
  unfold setPair
  rw [vr_setV _ _ _ _ _ _ hl hm, vr_setV _ _ _ _ _ _ hl hm]
  by_cases h0 : n = r
  · subst h0; by_cases h2 : m = l <;> simp [h2]
  · by_cases h1 : n = r + 1
    · subst h1; by_cases h2 : m = l <;> simp [h2]
    · have : ¬(r ≤ n ∧ n < r + 2 ∧ m = l) := by omega
      simp [h0, h1, this]

theorem vr_setGroup (sp : Span) (r l n m : Nat) (x : BitVec 128) (hl : l < 32) (hm : m < 32) :
    (sp.setGroup r l x).vr n m =
      if r ≤ n ∧ n < r + 4 ∧ m = l then x.extractLsb' (32 * (n - r)) 32 else sp.vr n m := by
  unfold setGroup
  rw [vr_setPair _ _ _ _ _ _ hl hm, vr_setPair _ _ _ _ _ _ hl hm]
  by_cases h2 : m = l
  · by_cases ha : r ≤ n ∧ n < r + 2
    · have e1 : ¬(r + 2 ≤ n ∧ n < r + 2 + 2 ∧ m = l) := by omega
      have e3 : r ≤ n ∧ n < r + 4 ∧ m = l := by omega
      rw [if_neg e1, if_pos ⟨ha.1, ha.2, h2⟩, if_pos e3]
      rcases (show n = r ∨ n = r + 1 by omega) with rfl | rfl <;> simp
    · by_cases hb : r + 2 ≤ n ∧ n < r + 2 + 2
      · have e3 : r ≤ n ∧ n < r + 4 ∧ m = l := by omega
        rw [if_pos ⟨hb.1, hb.2, h2⟩, if_pos e3]
        rcases (show n = r + 2 ∨ n = r + 3 by omega) with rfl | rfl
        · simp; ext i hi; simp [BitVec.getElem_extractLsb', BitVec.getLsbD_extractLsb']; omega
        · have : r + 3 - (r + 2) = 1 := by omega
          simp [this]; ext i hi
          simp [BitVec.getElem_extractLsb', show 32 + i < 64 by omega, ← Nat.add_assoc]
      · have e1 : ¬(r + 2 ≤ n ∧ n < r + 2 + 2 ∧ m = l) := by omega
        have e2 : ¬(r ≤ n ∧ n < r + 2 ∧ m = l) := by omega
        have e3 : ¬(r ≤ n ∧ n < r + 4 ∧ m = l) := by omega
        rw [if_neg e1, if_neg e2, if_neg e3]
  · simp [h2]

theorem foldl_vr (xs : List Nat) (w d : Nat) (g : Nat → Span → Span) (f : Nat → Nat → Word)
    (hg : ∀ l q n m, l < 32 → m < 32 → (g l q).vr n m = if d ≤ n ∧ n < d + w ∧ m = l then f (n - d) l else q.vr n m)
    (sp : Span) (h : ∀ x ∈ xs, x < 32) (hn : xs.Nodup) (n m : Nat) (hm : m < 32) :
    (xs.foldl (fun a l => g l a) sp).vr n m = if d ≤ n ∧ n < d + w ∧ m ∈ xs then f (n - d) m else sp.vr n m := by
  induction xs generalizing sp with
  | nil => simp
  | cons x xs ih =>
    rw [List.foldl_cons, ih _ (fun y hy => h y (by simp [hy])) (List.nodup_cons.1 hn).2, hg _ _ _ _ (h x (by simp)) hm]
    by_cases h1 : d ≤ n <;> by_cases h2 : n < d + w <;> by_cases h3 : m = x <;> simp_all [List.mem_cons]

theorem vr_mapPair (sp : Span) (S : Lanes) (d : Nat) (f : Nat → Dword) (n m : Nat) (hm : m < 32) :
    (sp.mapPair S d f).vr n m =
      if d ≤ n ∧ n < d + 2 ∧ laneIn S m then (f m).extractLsb' (32 * (n - d)) 32 else sp.vr n m := by
  unfold mapPair
  rw [foldl_vr _ 2 d (fun l q => q.setPair d l (f l)) (fun i l => (f l).extractLsb' (32 * i) 32)
    (fun l q n m hl hm => vr_setPair q d l n m (f l) hl hm) _ (fun x hx => ((mem_lanesOf S x).1 hx).1) (nodup_lanesOf S) _ _ hm]
  simp [mem_lanesOf, hm]

theorem vr_mapGroup (sp : Span) (S : Lanes) (d : Nat) (f : Nat → BitVec 128) (n m : Nat) (hm : m < 32) :
    (sp.mapGroup S d f).vr n m =
      if d ≤ n ∧ n < d + 4 ∧ laneIn S m then (f m).extractLsb' (32 * (n - d)) 32 else sp.vr n m := by
  unfold mapGroup
  rw [foldl_vr _ 4 d (fun l q => q.setGroup d l (f l)) (fun i l => (f l).extractLsb' (32 * i) 32)
    (fun l q n m hl hm => vr_setGroup q d l n m (f l) hl hm) _ (fun x hx => ((mem_lanesOf S x).1 hx).1) (nodup_lanesOf S) _ _ hm]
  simp [mem_lanesOf, hm]

end Span

/-! ## What a retiring change of the issuing span leaves -/

theorem OnlySpan.refl (s : State) : OnlySpan s s := ⟨rfl, fun _ => rfl, fun _ _ => rfl, rfl, fun _ _ => rfl⟩

/-- A change of the issuing span changes nothing else. -/
theorem onlySpan_updSpan (s : State) (f : Span → Span) : OnlySpan s (s.updSpan f) := by
  refine ⟨rfl, fun _ => rfl, fun g hg => State.wgAt_updWg_ne _ _ hg, ?_, fun n hn => ?_⟩
  · show (State.updWg s s.focus.g _).wgAt s.focus.g = _
    simp [State.here, State.updSpan, State.updSpanAt, Wg.updSpan]
  · show ((State.updWg s s.focus.g _).wgAt s.focus.g).spanAt n = _
    simp [Wg.spanAt_updSpan, hn, State.here]

theorem OnlySpan.trans {s t u : State} (h1 : OnlySpan s t) (h2 : OnlySpan t u) : OnlySpan s u := by
  have hf : t.focus = s.focus := by rw [h1.rest]
  refine ⟨?_, fun a => (h2.bytes a).trans (h1.bytes a), fun g hg => ?_, ?_, fun n hn => ?_⟩
  · conv_lhs => rw [h2.rest, h1.rest]
  · rw [h2.groups g (hf ▸ hg), h1.groups g hg]
  · conv_lhs => rw [h2.here, h1.here]
  · rw [h2.spans n (hf ▸ hn), h1.spans n hn]

/-- An instruction that changes its span and completes. -/
theorem retired_done (s : State) (f : Span → Span) : Retired s (s.updSpan f).retire (f s.span) := by
  refine ⟨(onlySpan_updSpan s f).trans (onlySpan_updSpan _ _), ?_⟩
  rw [State.span_retire, State.span_updSpan]; rfl

@[simp] theorem Span.movedOn_vr (sp : Span) (S : Lanes) (n r l : Nat) : (sp.movedOn S n).vr r l = sp.vr r l := rfl
@[simp] theorem Span.movedOn_sr (sp : Span) (S : Lanes) (n : Nat) (r : BitVec 6) : (sp.movedOn S n).sr r = sp.sr r := rfl
@[simp] theorem Span.movedOn_pr (sp : Span) (S : Lanes) (n : Nat) (r : BitVec 3) : (sp.movedOn S n).pr r = sp.pr r := rfl

theorem setS_rest (sp : Span) (d : BitVec 6) (x : Dword) : sp.setS d x = { sp with s := (sp.setS d x).s } := by
  unfold Span.setS; split <;> rfl

theorem setP_rest (sp : Span) (d : BitVec 3) (S x : Lanes) : sp.setP d S x = { sp with p := (sp.setP d S x).p } := by
  unfold Span.setP; split <;> rfl

/-- Writing a scalar register and completing. -/
theorem scalarResult_done (s : State) (d : BitVec 6) (x : Span → Dword) :
    ScalarResult (done (s.updSpan (fun sp => sp.setS d (x sp)))) s d (x s.span) := by
  refine ⟨_, rfl, ?_, fun n => ?_⟩
  · have h := retired_done s (fun sp => sp.setS d (x sp))
    simp only [State.span_retire, State.span_updSpan, Span.movedOn_s] at h ⊢
    rwa [setS_rest] at h
  · simp [Span.sr_setS]

/-- Writing predicate bits and completing. -/
theorem predResult_done (s : State) (d : BitVec 3) (L : Lanes) (x : Span → Lanes) :
    PredResult (done (s.updSpan (fun sp => sp.setP d L (x sp)))) s d L (x s.span) := by
  refine ⟨_, rfl, ?_, fun n l => ?_⟩
  · have h := retired_done s (fun sp => sp.setP d L (x sp))
    simp only [State.span_retire, State.span_updSpan, Span.movedOn_p] at h ⊢
    rwa [setP_rest] at h
  · simp [Span.pr_setP]

/-- Writing vector registers and completing. -/
theorem vecResult_done (s : State) (L : Lanes) (d : BitVec 7) (w : Nat) (f : Nat → Nat → Word) (q : Span → Span)
    (hr : ∀ sp, q sp = { sp with v := (q sp).v })
    (hv : ∀ n m, m < 32 → (q s.span).vr n m =
      if d.toNat ≤ n ∧ n < d.toNat + w ∧ laneIn L m then f (n - d.toNat) m else s.span.vr n m) :
    VecResult (done (s.updSpan q)) s L d w f := by
  refine ⟨_, rfl, ?_, fun n l hl => ?_⟩
  · have h := retired_done s q
    simp only [State.span_retire, State.span_updSpan, Span.movedOn_v] at h ⊢
    rwa [hr] at h
  · simp [hv n l hl]

theorem wordResult_done (s : State) (L : Lanes) (d : BitVec 7) (f : Span → Nat → Word) :
    WordResult (done (s.updSpan (fun sp => sp.mapV L d.toNat (f sp)))) s L d (f s.span) := by
  refine vecResult_done s L d 1 _ _ (fun _ => Span.mapV_rest ..) (fun n m hm => ?_)
  rw [Span.vr_mapV _ _ _ _ _ _ hm]
  have e : (d.toNat ≤ n ∧ n < d.toNat + 1 ∧ laneIn L m = true) ↔ (n = d.toNat ∧ laneIn L m = true) :=
    ⟨fun h => ⟨by omega, h.2.2⟩, fun h => ⟨by omega, by omega, h.2⟩⟩
  simp only [e]

theorem pairResult_done (s : State) (L : Lanes) (d : BitVec 7) (f : Span → Nat → Dword) :
    PairResult (done (s.updSpan (fun sp => sp.mapPair L d.toNat (f sp)))) s L d (f s.span) :=
  vecResult_done s L d 2 _ _ (fun _ => Span.mapPair_rest ..) (fun _ _ hm => Span.vr_mapPair _ _ _ _ _ _ hm)

theorem groupResult_done (s : State) (L : Lanes) (d : BitVec 7) (f : Span → Nat → BitVec 128) :
    GroupResult (done (s.updSpan (fun sp => sp.mapGroup L d.toNat (f sp)))) s L d (f s.span) :=
  vecResult_done s L d 4 _ _ (fun _ => Span.mapGroup_rest ..) (fun _ _ hm => Span.vr_mapGroup _ _ _ _ _ _ hm)

end Sys2Proof.Machine
end

