-- ==== Sys2Proof/Laws/Branch.lean ====
section
/-!
SUPPORT. Laws/Branch.lean: the open clause of an issue set after it has moved on or its lanes have taken targets.
-/

set_option Elab.async false

namespace Sys2Proof.Machine

theorem find_updFirst (S T : Lanes) (f : Clause → Clause) (hf : ∀ c, (f c).lanes = c.lanes ∧ (f c).suspended = c.suspended)
    (cs : List Clause) :
    (Span.updFirst (Span.openFor S) (fun c => [f c]) cs).find? (fun c => c.lanes == T && !c.suspended) =
      if T = S then (cs.find? (fun c => c.lanes == S && !c.suspended)).map f
      else cs.find? (fun c => c.lanes == T && !c.suspended) := by
  induction cs with
  | nil => simp [Span.updFirst]
  | cons c cs ih =>
    by_cases h : Span.openFor S c
    · have h' : c.lanes = S ∧ c.suspended = false := by simpa [Span.openFor] using h
      by_cases hT : T = S
      · subst hT; simp [Span.updFirst, h, h', hf]
      · have hne : ¬ S = T := fun e => hT e.symm
        simp [Span.updFirst, h, h', hf, hT, hne]
    · have h' : ¬(c.lanes = S ∧ c.suspended = false) := by simpa [Span.openFor] using h
      by_cases hT : T = S
      · subst hT; simp only [Span.updFirst, if_neg h, List.singleton_append, List.find?_cons]
        have : (c.lanes == T && !c.suspended) = false := by
          rw [Bool.eq_false_iff]; simpa using h'
        rw [this]; simpa using ih
      · simp only [Span.updFirst, if_neg h, List.singleton_append, List.find?_cons, ih, if_neg hT]

/-- The open clauses of a span after the open clause of S is changed. -/
theorem Span.clauseOf_updClause (sp : Span) (S T : Lanes) (f : Clause → Clause)
    (hf : ∀ c, (f c).lanes = c.lanes ∧ (f c).suspended = c.suspended) :
    (sp.updClause S f).clauseOf T = if T = S then (sp.clauseOf S).map f else sp.clauseOf T := by
  unfold Span.clauseOf Span.updClause
  exact find_updFirst S T f hf sp.clauses

theorem Span.clauseOf_movedOn (sp : Span) (S T : Lanes) (n : Nat) :
    (sp.movedOn S n).clauseOf T =
      if T = S then (sp.clauseOf S).map (fun c => { c with pos := n, waiting := false }) else sp.clauseOf T :=
  Span.clauseOf_updClause sp S T _ (fun _ => ⟨rfl, rfl⟩)

theorem target_cons (c : Clause) (e : Nat × Dword) (l : Nat) (m : Store Dword) :
    Clause.target { c with targets := e :: m.filter (fun x => x.1 != e.1) } l =
      if l = e.1 then some e.2 else Clause.target { c with targets := m } l := by
  unfold Clause.target
  by_cases h : l = e.1
  · subst h; simp
  · have h' : ¬ e.1 = l := fun x => h x.symm
    rw [List.find?_cons]
    simp only [show (e.1 == l) = false by simpa using h', if_neg h, List.find?_filter]
    congr 2
    funext x
    by_cases hx : x.1 = l
    · simp [hx, h]
    · simp [hx]

theorem target_foldl (c : Clause) (xs : List Nat) (a : Nat → Dword) (l : Nat) (m : Store Dword) :
    Clause.target { c with targets := xs.foldl (fun m l => (l, a l) :: m.filter (fun e => e.1 != l)) m } l =
      if l ∈ xs then some (a l) else Clause.target { c with targets := m } l := by
  induction xs generalizing m with
  | nil => simp
  | cons x xs ih =>
    rw [List.foldl_cons, ih, target_cons c (x, a x) l m]
    by_cases h : l = x
    · subst h; simp
    · simp [h]

/-- A clause whose lanes in T have taken targets. -/
def aimed (T : Lanes) (a : Nat → Dword) (c : Clause) : Clause :=
  { c with targets := (lanesOf T).foldl (fun m l => (l, a l) :: m.filter (fun e => e.1 != l)) c.targets }

theorem State.span_setTargets (s : State) (T : Lanes) (a : Nat → Dword) :
    (s.setTargets T a).span = s.span.updClause s.lanes (aimed T a) := State.span_updSpan s _

theorem clauseOf_aimed (sp : Span) (S U T : Lanes) (a : Nat → Dword) :
    (sp.updClause S (aimed T a)).clauseOf U = if U = S then (sp.clauseOf S).map (aimed T a) else sp.clauseOf U :=
  Span.clauseOf_updClause _ _ _ _ (fun _ => ⟨rfl, rfl⟩)

theorem target_aimed (T : Lanes) (a : Nat → Dword) (c : Clause) (l : Nat) (hl : l < 32) :
    (aimed T a c).target l = if laneIn T l then some (a l) else c.target l := by
  have h := target_foldl c (lanesOf T) a l c.targets
  simp only [mem_lanesOf, hl, true_and] at h
  exact h

/-- Taking targets on lanes T and completing, after a change g of the span that leaves its clauses. -/
theorem branchResult_done (s : State) (g : Span → Span) (T : Lanes) (a : Dword) (hg : (g s.span).clauses = s.span.clauses) :
    BranchResult (done ((s.updSpan g).setTargets T (fun _ => a))) s (g s.span) T a := by
  have hc (U : Lanes) : (g s.span).clauseOf U = s.span.clauseOf U := by unfold Span.clauseOf; rw [hg]
  have hsp : ((s.updSpan g).setTargets T (fun _ => a)).retire.span =
      ((g s.span).updClause s.lanes (aimed T (fun _ => a))).movedOn s.lanes s.focus.next := by
    rw [State.span_retire, State.span_setTargets, State.span_updSpan]; rfl
  refine ⟨_, rfl, (onlySpan_updSpan s g).trans ((onlySpan_updSpan _ _).trans (onlySpan_updSpan _ _)), ?_, ?_, ?_⟩
  · rw [hsp]; rfl
  · intro S hS
    rw [hsp, Span.clauseOf_movedOn, if_neg hS, clauseOf_aimed, if_neg hS, hc]
  · intro c h
    rw [hsp, Span.clauseOf_movedOn, if_pos rfl, clauseOf_aimed, if_pos rfl, hc, h]
    exact ⟨_, rfl, rfl, fun l hl => target_aimed T (fun _ => a) c l hl⟩

theorem laneAt_foldl (xs : List Nat) (f : Nat → Lane → Lane) (sp : Span) (hn : xs.Nodup) (l : Nat) :
    (xs.foldl (fun a l => a.updLane l (f l)) sp).laneAt l = if l ∈ xs then f l (sp.laneAt l) else sp.laneAt l := by
  induction xs generalizing sp with
  | nil => simp
  | cons x xs ih =>
    rw [List.foldl_cons, ih _ (List.nodup_cons.1 hn).2, Span.laneAt_updLane]
    by_cases h : l = x
    · subst h; simp [(List.nodup_cons.1 hn).1]
    · simp [h]

/-- A lane's thread state after a change of a set of lanes. -/
theorem laneAt_updLanes (sp : Span) (S : Lanes) (f : Nat → Lane → Lane) (l : Nat) (hl : l < 32) :
    (sp.updLanes S f).laneAt l = if laneIn S l then f l (sp.laneAt l) else sp.laneAt l := by
  unfold Span.updLanes
  rw [laneAt_foldl _ _ _ (nodup_lanesOf S)]
  simp [mem_lanesOf, hl]

/-- A change of lanes changes nothing else of the span. -/
theorem updLanes_rest (sp : Span) (S : Lanes) (f : Nat → Lane → Lane) :
    sp.updLanes S f = { sp with lane := (sp.updLanes S f).lane } := by
  unfold Span.updLanes
  generalize lanesOf S = xs
  induction xs generalizing sp with
  | nil => rfl
  | cons x xs ih =>
    rw [List.foldl_cons]
    generalize hq : List.foldl (fun a l => a.updLane l (f l)) (sp.updLane x (f x)) xs = q
    have h := ih (sp.updLane x (f x))
    rw [hq] at h
    rw [h]; rfl

/-- Reads after writes at a list of keys. -/
theorem Store.get_foldl_set (xs : List Nat) {α : Type} [DecidableEq α] (d : α) (f : Nat → α) (m : Store α) (hn : xs.Nodup) (l : Nat) :
    Store.get d (xs.foldl (fun m l => Store.set d m l (f l)) m) l = if l ∈ xs then f l else Store.get d m l := by
  induction xs generalizing m with
  | nil => simp
  | cons x xs ih =>
    rw [List.foldl_cons, ih _ (List.nodup_cons.1 hn).2, Store.get_set]
    by_cases h : l = x
    · subst h; simp
    · simp [h]

/-- The model's branch target is the literal target of 07 R110. -/
theorem branchTarget_eq (s : State) (lit : Word) : s.branchTarget lit = literalTarget s.focus.hdrPc lit := by
  unfold State.branchTarget literalTarget
  apply BitVec.eq_of_toNat_eq
  simp only [BitVec.toNat_setWidth, BitVec.extractLsb'_toNat, Nat.shiftRight_zero, BitVec.toNat_ofNat]
  have h1 : ((s.focus.hdrPc + lit.signExtend 64).toNat : Int) % 2 ^ 48 = ((s.focus.hdrPc.toNat : Int) + lit.toInt) % 2 ^ 48 := by
    have h := BitVec.toInt_signExtend_of_le (x := lit) (v := 64) (by omega)
    rw [BitVec.toNat_add]
    have h2 := BitVec.toInt_eq_toNat_cond (lit.signExtend 64)
    rw [h] at h2
    push_cast
    split at h2 <;> omega
  omega

/-- Completing with no lane taking a target. -/
theorem branchResult_none (s : State) (a : Dword) : BranchResult (done s) s s.span 0 a := by
  refine ⟨_, rfl, onlySpan_updSpan s _, ?_, ?_, ?_⟩
  · rw [State.span_retire]; rfl
  · intro S hS; rw [State.span_retire, Span.clauseOf_movedOn, if_neg hS]
  · intro c h; rw [State.span_retire, Span.clauseOf_movedOn, if_pos rfl, h]
    exact ⟨_, rfl, rfl, fun l hl => by simp [laneIn]; rfl⟩

/-- Taking a target on lanes T and completing. -/
theorem branchResult_here (s : State) (T : Lanes) (a : Dword) : BranchResult (done (s.setTargets T (fun _ => a))) s s.span T a := by
  refine ⟨_, rfl, (onlySpan_updSpan s _).trans (onlySpan_updSpan _ _), ?_, ?_, ?_⟩
  · rw [State.span_retire, State.span_setTargets]; rfl
  · intro S hS
    rw [State.span_retire, State.span_setTargets]
    show ((s.span.updClause s.lanes _).movedOn s.lanes s.focus.next).clauseOf S = _
    rw [Span.clauseOf_movedOn, if_neg hS, clauseOf_aimed, if_neg hS]
  · intro c h
    rw [State.span_retire, State.span_setTargets]
    show ∃ c', ((s.span.updClause s.lanes _).movedOn s.lanes s.focus.next).clauseOf s.lanes = _ ∧ _
    rw [Span.clauseOf_movedOn, if_pos rfl, clauseOf_aimed, if_pos rfl, h]
    exact ⟨_, rfl, rfl, fun l hl => target_aimed T (fun _ => a) c l hl⟩

/-- Marking the open clause and completing. -/
theorem clauseResult_done (s : State) (f : Clause → Clause) (hf : ∀ c, (f c).lanes = c.lanes ∧ (f c).suspended = c.suspended) :
    ClauseResult (done (s.updSpan (fun sp => sp.updClause s.lanes f))) s f := by
  refine ⟨_, rfl, (onlySpan_updSpan s _).trans (onlySpan_updSpan _ _), ?_, ?_, ?_⟩
  · rw [State.span_retire, State.span_updSpan]; rfl
  · intro S hS
    rw [State.span_retire, State.span_updSpan]
    show ((s.span.updClause s.lanes _).movedOn s.lanes s.focus.next).clauseOf S = _
    rw [Span.clauseOf_movedOn, if_neg hS, Span.clauseOf_updClause _ _ _ _ hf, if_neg hS]
  · intro c h
    rw [State.span_retire, State.span_updSpan]
    show ((s.span.updClause s.lanes _).movedOn s.lanes s.focus.next).clauseOf s.lanes = _
    rw [Span.clauseOf_movedOn, if_pos rfl, Span.clauseOf_updClause _ _ _ _ hf, if_pos rfl, h]; rfl


end Sys2Proof.Machine
end

