-- ==== Sys2Proof/Laws/Memory.lean ====
section
/-!
SUPPORT. Laws/Memory.lean: memory keeps its canonical form under every operation that writes it, and reads after writes;
the record that a unit makes.
-/

set_option Elab.async false

namespace Sys2Proof.Machine

namespace State

/-! ## The canonical form -/

theorem wf_reset : Memory.wf State.reset.mem = true := rfl

theorem wf_setByte (s : State) (a : Nat) (x : Byte) (h : Memory.wf s.mem = true) : Memory.wf (s.setByte a x).mem = true :=
  Store.wf_set 0 s.mem a x h

theorem wf_setBytes (s : State) (a n x : Nat) (h : Memory.wf s.mem = true) : Memory.wf (s.setBytes a n x).mem = true := by
  induction n generalizing s a x with
  | zero => exact h
  | succ n ih => exact ih _ _ _ (wf_setByte s a _ h)

theorem wf_setMemLine (s : State) (line : Nat) (d : LineData) (h : Memory.wf s.mem = true) :
    Memory.wf (s.setMemLine line d).mem = true := wf_setBytes s _ _ _ h

/-! ## Reads after writes -/

/-- A byte after n bytes of x are written from a: the byte of x that falls there, else what stood there. -/
theorem byte_setBytes (s : State) (a n x b : Nat) :
    (s.setBytes a n x).byte b = if a ≤ b ∧ b < a + n then BitVec.ofNat 8 (x / 256 ^ (b - a)) else s.byte b := by
  induction n generalizing s a x with
  | zero => rw [if_neg (by omega)]; rfl
  | succ n ih =>
    rw [setBytes, ih, byte_setByte]
    by_cases h : b = a
    · subst h
      rw [if_neg (by omega), if_pos rfl, if_pos (by omega), Nat.sub_self, Nat.pow_zero, Nat.div_one]
      apply BitVec.eq_of_toNat_eq
      simp
    · rw [if_neg h]
      by_cases hb : a ≤ b ∧ b < a + (n + 1)
      · rw [if_pos (by omega), if_pos hb, Nat.div_div_eq_div_mul, ← Nat.pow_succ', show (b - (a + 1)).succ = b - a by omega]
      · rw [if_neg (by omega), if_neg hb]

theorem byte_setMemLine_ne (s : State) (line a : Nat) (d : LineData) (h : a / 128 ≠ line) :
    (s.setMemLine line d).byte a = s.byte a := by
  rw [setMemLine, byte_setBytes, if_neg (by omega)]

/-- Bytes read back after they have been written. -/
theorem bytesAt_setBytes (s : State) (a n x : Nat) : (s.setBytes a n x).bytesAt a n = x % 256 ^ n := by
  have key : ∀ m k, m + k ≤ n → (s.setBytes a n x).bytesAt (a + m) k = x / 256 ^ m % 256 ^ k := by
    intro m k
    induction k generalizing m with
    | zero => intro _; simp [bytesAt, Nat.mod_one]
    | succ k ih =>
      intro h
      rw [bytesAt, byte_setBytes, if_pos (by omega), show a + m + 1 = a + (m + 1) by omega, ih (m + 1) (by omega),
        Nat.add_sub_cancel_left, BitVec.toNat_ofNat, Nat.pow_succ 256 m, ← Nat.div_div_eq_div_mul, Nat.pow_succ' (m := 256), Nat.mod_mul]
  have := key 0 n (by omega)
  rwa [Nat.pow_zero, Nat.div_one, Nat.add_zero] at this

@[simp] theorem memLine_setMemLine (s : State) (line : Nat) (d : LineData) : (s.setMemLine line d).memLine line = d := by
  unfold memLine setMemLine
  rw [bytesAt_setBytes]
  have h : d.toNat < 256 ^ 128 := Nat.lt_of_lt_of_eq d.isLt (Nat.pow_mul 2 8 128)
  apply BitVec.eq_of_toNat_eq
  rw [Nat.mod_eq_of_lt h, BitVec.toNat_ofNat, Nat.mod_eq_of_lt d.isLt]

/-- Writing bytes changes nothing but memory. -/
theorem setBytes_rest (s : State) (a n x : Nat) : s.setBytes a n x = { s with mem := (s.setBytes a n x).mem } := by
  induction n generalizing s a x with
  | zero => rfl
  | succ n ih =>
    rw [setBytes, ih]; rfl

theorem setMemLine_rest (s : State) (line : Nat) (d : LineData) :
    s.setMemLine line d = { s with mem := (s.setMemLine line d).mem } := setBytes_rest ..

theorem memLine_setMemLine_ne (s : State) {line n : Nat} (d : LineData) (h : n ≠ line) :
    (s.setMemLine line d).memLine n = s.memLine n := by
  unfold memLine
  have key : ∀ k j, j + k ≤ 128 → (s.setMemLine line d).bytesAt (128 * n + j) k = s.bytesAt (128 * n + j) k := by
    intro k
    induction k with
    | zero => intro _ _; rfl
    | succ k ih =>
      intro j hj
      rw [bytesAt, bytesAt, byte_setMemLine_ne _ _ _ _ (by omega), show 128 * n + j + 1 = 128 * n + (j + 1) by omega, ih (j + 1) (by omega)]
  have := key 128 0 (by omega)
  rw [Nat.add_zero] at this
  rw [this]

/-! ## The home as an access meets it -/

/-- A quiet home changes nothing, and this device holds the line as the access needs it. -/
theorem quietFor_ok {s t : State} {line : Nat} {n : Need} (h : s.quietFor line n = .ok t) :
    t = s ∧ s.podOk line n = true ∧ s.quietHere line = .ok s := by
  have q : ∀ u, s.quietHere line = .ok u → u = s := by
    intro u hu
    unfold quietHere at hu
    dsimp only at hu
    split at hu
    all_goals first
      | cases hu
      | (split at hu <;> first | cases hu; done | exact (HomeAns.ok.inj hu).symm)
  unfold quietFor at h
  split at h
  · next u hu =>
    split at h
    · cases h
    · split at h
      · next hp => exact ⟨(HomeAns.ok.inj h).symm, hp, by rw [hu, q u hu]⟩
      · cases h
  · next h' => exact absurd h (fun e => h' t e)

/-- An access performed at a home: the copies are out, the line's bytes are changed, monitors armed on it are triggered, whoever
asked is answered, and nothing else happens. -/
theorem homeLine_ok {s t : State} {p : BitVec 13} {line : Nat} {pk : Option Nat} {f : LineData → LineData}
    (h : s.homeLine p line pk f = .ok t) :
    t = ((((s.roomAt line p pk).setMemLine line (f ((s.roomAt line p pk).memLine line))).soil line).trigger line).answeredTo p line := by
  unfold homeLine at h
  split at h
  · cases h
  · cases h
  · dsimp only at h
    split at h
    · cases h
    · exact (HomeAns.ok.inj h).symm

/-! ## Records -/

/-- A record is made: one more at the end of the list, of the type, unit and payload given; the last stamps and stall flags
may differ. -/
theorem emit_records (s : State) (typ unit idx die : Nat) (pk : Option Nat) (ord : BitVec 20) (timing : Bool) (w2 w3 c : Dword) :
    Recorded s (s.emit typ unit idx die pk ord timing w2 w3 c) typ unit idx w2 w3 := ⟨_, rfl, rfl, rfl, rfl, rfl, rfl⟩

theorem emit_traced (s : State) (typ unit idx die : Nat) (pk : Option Nat) (ord : BitVec 20) (timing : Bool) (w2 w3 c : Dword) :
    s.emit typ unit idx die pk ord timing w2 w3 c = s.traced (s.emit typ unit idx die pk ord timing w2 w3 c) := rfl

end State

end Sys2Proof.Machine
end

