-- ==== Sys2Proof/Laws/PerInstr.lean ====
section
/-!
SUPPORT. Laws/PerInstr.lean: a statement of each instruction as syntax: its encoding is at most four words (04 R63-R69), so that a
clause of fifteen words holds at least three instructions of any form.
-/

set_option Elab.async false

namespace Sys2Proof

/-- The encoding of an instruction has at most four words. -/
def Laws.Short.Statement (i : Instr) : Prop := (encode i).length ≤ 4

theorem Laws.Short.clauseIssue (q : SpanRef) : Laws.Short.Statement (.clauseIssue q) := Nat.le_of_ble_eq_true rfl
theorem Laws.Short.clauseEnd (q : SpanRef) : Laws.Short.Statement (.clauseEnd q) := Nat.le_of_ble_eq_true rfl
theorem Laws.Short.countedResultWrite (g sp n : Nat) : Laws.Short.Statement (.countedResultWrite g sp n) := Nat.le_of_ble_eq_true rfl
theorem Laws.Short.trapEntry (g sp : Nat) : Laws.Short.Statement (.trapEntry g sp) := Nat.le_of_ble_eq_true rfl
theorem Laws.Short.park (g : Nat) : Laws.Short.Statement (.park g) := Nat.le_of_ble_eq_true rfl
theorem Laws.Short.makeResident (g : Nat) : Laws.Short.Statement (.makeResident g) := Nat.le_of_ble_eq_true rfl
theorem Laws.Short.workgroupStart (g : Nat) : Laws.Short.Statement (.workgroupStart g) := Nat.le_of_ble_eq_true rfl
theorem Laws.Short.penAdmission (l pen : Nat) : Laws.Short.Statement (.penAdmission l pen) := Nat.le_of_ble_eq_true rfl
theorem Laws.Short.launchAdmission (pk : Nat) : Laws.Short.Statement (.launchAdmission pk) := Nat.le_of_ble_eq_true rfl
theorem Laws.Short.asyncUnitLand (n u : Nat) : Laws.Short.Statement (.asyncUnitLand n u) := Nat.le_of_ble_eq_true rfl
theorem Laws.Short.gets (m : Hdr) : Laws.Short.Statement (.gets m) := Nat.le_of_ble_eq_true rfl
theorem Laws.Short.pute (m : Hdr) : Laws.Short.Statement (.pute m) := Nat.le_of_ble_eq_true rfl
theorem Laws.Short.putm (m : Hdr) (data : LineData) : Laws.Short.Statement (.putm m data) := Nat.le_of_ble_eq_true rfl
theorem Laws.Short.puto (m : Hdr) (data : LineData) : Laws.Short.Statement (.puto m data) := Nat.le_of_ble_eq_true rfl
theorem Laws.Short.inv (m : Hdr) : Laws.Short.Statement (.inv m) := Nat.le_of_ble_eq_true rfl
theorem Laws.Short.fwds (m : Hdr) (rq : BitVec 13) : Laws.Short.Statement (.fwds m rq) := Nat.le_of_ble_eq_true rfl
theorem Laws.Short.fwdx (m : Hdr) (rq : BitVec 13) : Laws.Short.Statement (.fwdx m rq) := Nat.le_of_ble_eq_true rfl
theorem Laws.Short.recall (m : Hdr) : Laws.Short.Statement (.recall m) := Nat.le_of_ble_eq_true rfl
theorem Laws.Short.merge (m : Hdr) : Laws.Short.Statement (.merge m) := Nat.le_of_ble_eq_true rfl
theorem Laws.Short.data (m : Hdr) (data : LineData) (excl : Bool) : Laws.Short.Statement (.data m data excl) := Nat.le_of_ble_eq_true rfl
theorem Laws.Short.invack (m : Hdr) (nil : Bool) : Laws.Short.Statement (.invack m nil) := Nat.le_of_ble_eq_true rfl
theorem Laws.Short.fwdack (m : Hdr) (dirty : Option LineData) : Laws.Short.Statement (.fwdack m dirty) := Nat.le_of_ble_eq_true rfl
theorem Laws.Short.putack (m : Hdr) : Laws.Short.Statement (.putack m) := Nat.le_of_ble_eq_true rfl
theorem Laws.Short.drpart (m : Hdr) (tag : DTag) (parts : Store Acc) (n : Nat) : Laws.Short.Statement (.drpart m tag parts n) := Nat.le_of_ble_eq_true rfl
theorem Laws.Short.sadd (d a : BitVec 6) (b : SOp) : Laws.Short.Statement (.sadd d a b) := Nat.le_of_ble_eq_true rfl
theorem Laws.Short.ssub (d a : BitVec 6) (b : SOp) : Laws.Short.Statement (.ssub d a b) := Nat.le_of_ble_eq_true rfl
theorem Laws.Short.smul (d a : BitVec 6) (b : SOp) : Laws.Short.Statement (.smul d a b) := Nat.le_of_ble_eq_true rfl
theorem Laws.Short.smulh (d a : BitVec 6) (b : SOp) : Laws.Short.Statement (.smulh d a b) := Nat.le_of_ble_eq_true rfl
theorem Laws.Short.smulhn (d a : BitVec 6) (b : SOp) : Laws.Short.Statement (.smulhn d a b) := Nat.le_of_ble_eq_true rfl
theorem Laws.Short.sand (d a : BitVec 6) (b : SOp) : Laws.Short.Statement (.sand d a b) := Nat.le_of_ble_eq_true rfl
theorem Laws.Short.sor (d a : BitVec 6) (b : SOp) : Laws.Short.Statement (.sor d a b) := Nat.le_of_ble_eq_true rfl
theorem Laws.Short.sxor (d a : BitVec 6) (b : SOp) : Laws.Short.Statement (.sxor d a b) := Nat.le_of_ble_eq_true rfl
theorem Laws.Short.sshl (d a : BitVec 6) (b : SOp) : Laws.Short.Statement (.sshl d a b) := Nat.le_of_ble_eq_true rfl
theorem Laws.Short.sshr (d a : BitVec 6) (b : SOp) : Laws.Short.Statement (.sshr d a b) := Nat.le_of_ble_eq_true rfl
theorem Laws.Short.ssar (d a : BitVec 6) (b : SOp) : Laws.Short.Statement (.ssar d a b) := Nat.le_of_ble_eq_true rfl
theorem Laws.Short.smin (d a : BitVec 6) (b : SOp) : Laws.Short.Statement (.smin d a b) := Nat.le_of_ble_eq_true rfl
theorem Laws.Short.smax (d a : BitVec 6) (b : SOp) : Laws.Short.Statement (.smax d a b) := Nat.le_of_ble_eq_true rfl
theorem Laws.Short.sminn (d a : BitVec 6) (b : SOp) : Laws.Short.Statement (.sminn d a b) := Nat.le_of_ble_eq_true rfl
theorem Laws.Short.smaxn (d a : BitVec 6) (b : SOp) : Laws.Short.Statement (.smaxn d a b) := Nat.le_of_ble_eq_true rfl
theorem Laws.Short.smov (d : BitVec 6) (b : SOp) : Laws.Short.Statement (.smov d b) := Nat.le_of_ble_eq_true rfl
theorem Laws.Short.smovk (d : BitVec 6) (sx : BitVec 1) (lit : Word) : Laws.Short.Statement (.smovk d sx lit) := Nat.le_of_ble_eq_true rfl
theorem Laws.Short.smovkh (d : BitVec 6) (lit : Word) : Laws.Short.Statement (.smovkh d lit) := Nat.le_of_ble_eq_true rfl
theorem Laws.Short.scmp (n : BitVec 1) (c : BitVec 3) (d a : BitVec 6) (b : SOp) : Laws.Short.Statement (.scmp n c d a b) := Nat.le_of_ble_eq_true rfl
theorem Laws.Short.scmpP (n : BitVec 1) (c q : BitVec 3) (a : BitVec 6) (b : SOp) : Laws.Short.Statement (.scmpP n c q a b) := Nat.le_of_ble_eq_true rfl
theorem Laws.Short.ssel (all : BitVec 1) (q : BitVec 3) (d a : BitVec 6) (b : SOp) : Laws.Short.Statement (.ssel all q d a b) := Nat.le_of_ble_eq_true rfl
theorem Laws.Short.sfromv (w64 hi : BitVec 1) (lo d : BitVec 6) (b : SOp) : Laws.Short.Statement (.sfromv w64 hi lo d b) := Nat.le_of_ble_eq_true rfl
theorem Laws.Short.sballot (d : BitVec 6) (q : BitVec 3) : Laws.Short.Statement (.sballot d q) := Nat.le_of_ble_eq_true rfl
theorem Laws.Short.spopc (d : BitVec 6) (b : SOp) : Laws.Short.Statement (.spopc d b) := Nat.le_of_ble_eq_true rfl
theorem Laws.Short.sclz (d : BitVec 6) (b : SOp) : Laws.Short.Statement (.sclz d b) := Nat.le_of_ble_eq_true rfl
theorem Laws.Short.br (lit : Word) : Laws.Short.Statement (.br lit) := Nat.le_of_ble_eq_true rfl
theorem Laws.Short.bz (a : BitVec 6) (lit : Word) : Laws.Short.Statement (.bz a lit) := Nat.le_of_ble_eq_true rfl
theorem Laws.Short.bnz (a : BitVec 6) (lit : Word) : Laws.Short.Statement (.bnz a lit) := Nat.le_of_ble_eq_true rfl
theorem Laws.Short.bp (neg : BitVec 1) (q : BitVec 3) (lit : Word) : Laws.Short.Statement (.bp neg q lit) := Nat.le_of_ble_eq_true rfl
theorem Laws.Short.call (d : BitVec 6) (lit : Word) : Laws.Short.Statement (.call d lit) := Nat.le_of_ble_eq_true rfl
theorem Laws.Short.ret (a : BitVec 6) : Laws.Short.Statement (.ret a) := Nat.le_of_ble_eq_true rfl
theorem Laws.Short.bi (a : BitVec 6) : Laws.Short.Statement (.bi a) := Nat.le_of_ble_eq_true rfl
theorem Laws.Short.mset (j : BitVec 3) (lit : Word) : Laws.Short.Statement (.mset j lit) := Nat.le_of_ble_eq_true rfl
theorem Laws.Short.mstrike (j : BitVec 3) : Laws.Short.Statement (.mstrike j) := Nat.le_of_ble_eq_true rfl
theorem Laws.Short.mget (d : BitVec 6) : Laws.Short.Statement (.mget d) := Nat.le_of_ble_eq_true rfl
theorem Laws.Short.mput (a : BitVec 6) : Laws.Short.Statement (.mput a) := Nat.le_of_ble_eq_true rfl
theorem Laws.Short.jread (d : BitVec 6) (j : BitVec 3) : Laws.Short.Statement (.jread d j) := Nat.le_of_ble_eq_true rfl
theorem Laws.Short.jreadAddr (d : BitVec 6) (j : BitVec 3) : Laws.Short.Statement (.jreadAddr d j) := Nat.le_of_ble_eq_true rfl
theorem Laws.Short.vmov (p : BitVec 3) (d a : BitVec 7) : Laws.Short.Statement (.vmov p d a) := Nat.le_of_ble_eq_true rfl
theorem Laws.Short.vmovk (p : BitVec 3) (d : BitVec 7) (lit : Word) : Laws.Short.Statement (.vmovk p d lit) := Nat.le_of_ble_eq_true rfl
theorem Laws.Short.vaddI32 (p : BitVec 3) (d a b : BitVec 7) : Laws.Short.Statement (.vaddI32 p d a b) := Nat.le_of_ble_eq_true rfl
theorem Laws.Short.vaddI64 (p : BitVec 3) (d a b : BitVec 7) : Laws.Short.Statement (.vaddI64 p d a b) := Nat.le_of_ble_eq_true rfl
theorem Laws.Short.vsubI32 (p : BitVec 3) (d a b : BitVec 7) : Laws.Short.Statement (.vsubI32 p d a b) := Nat.le_of_ble_eq_true rfl
theorem Laws.Short.vsubI64 (p : BitVec 3) (d a b : BitVec 7) : Laws.Short.Statement (.vsubI64 p d a b) := Nat.le_of_ble_eq_true rfl
theorem Laws.Short.vmulI32 (p : BitVec 3) (d a b : BitVec 7) : Laws.Short.Statement (.vmulI32 p d a b) := Nat.le_of_ble_eq_true rfl
theorem Laws.Short.vmulhI32 (p : BitVec 3) (d a b : BitVec 7) : Laws.Short.Statement (.vmulhI32 p d a b) := Nat.le_of_ble_eq_true rfl
theorem Laws.Short.vmulhN32 (p : BitVec 3) (d a b : BitVec 7) : Laws.Short.Statement (.vmulhN32 p d a b) := Nat.le_of_ble_eq_true rfl
theorem Laws.Short.vmadI32 (p : BitVec 3) (d a b : BitVec 7) : Laws.Short.Statement (.vmadI32 p d a b) := Nat.le_of_ble_eq_true rfl
theorem Laws.Short.vand (p : BitVec 3) (d a b : BitVec 7) : Laws.Short.Statement (.vand p d a b) := Nat.le_of_ble_eq_true rfl
theorem Laws.Short.vor (p : BitVec 3) (d a b : BitVec 7) : Laws.Short.Statement (.vor p d a b) := Nat.le_of_ble_eq_true rfl
theorem Laws.Short.vxor (p : BitVec 3) (d a b : BitVec 7) : Laws.Short.Statement (.vxor p d a b) := Nat.le_of_ble_eq_true rfl
theorem Laws.Short.vnot (p : BitVec 3) (d a : BitVec 7) : Laws.Short.Statement (.vnot p d a) := Nat.le_of_ble_eq_true rfl
theorem Laws.Short.vshl (p : BitVec 3) (d a b : BitVec 7) : Laws.Short.Statement (.vshl p d a b) := Nat.le_of_ble_eq_true rfl
theorem Laws.Short.vshr (p : BitVec 3) (d a b : BitVec 7) : Laws.Short.Statement (.vshr p d a b) := Nat.le_of_ble_eq_true rfl
theorem Laws.Short.vsar (p : BitVec 3) (d a b : BitVec 7) : Laws.Short.Statement (.vsar p d a b) := Nat.le_of_ble_eq_true rfl
theorem Laws.Short.vminI32 (p : BitVec 3) (d a b : BitVec 7) : Laws.Short.Statement (.vminI32 p d a b) := Nat.le_of_ble_eq_true rfl
theorem Laws.Short.vmaxI32 (p : BitVec 3) (d a b : BitVec 7) : Laws.Short.Statement (.vmaxI32 p d a b) := Nat.le_of_ble_eq_true rfl
theorem Laws.Short.vminN32 (p : BitVec 3) (d a b : BitVec 7) : Laws.Short.Statement (.vminN32 p d a b) := Nat.le_of_ble_eq_true rfl
theorem Laws.Short.vmaxN32 (p : BitVec 3) (d a b : BitVec 7) : Laws.Short.Statement (.vmaxN32 p d a b) := Nat.le_of_ble_eq_true rfl
theorem Laws.Short.vabsI32 (p : BitVec 3) (d a : BitVec 7) : Laws.Short.Statement (.vabsI32 p d a) := Nat.le_of_ble_eq_true rfl
theorem Laws.Short.vclz (p : BitVec 3) (d a : BitVec 7) : Laws.Short.Statement (.vclz p d a) := Nat.le_of_ble_eq_true rfl
theorem Laws.Short.vpopc (p : BitVec 3) (d a : BitVec 7) : Laws.Short.Statement (.vpopc p d a) := Nat.le_of_ble_eq_true rfl
theorem Laws.Short.vbrev (p : BitVec 3) (d a : BitVec 7) : Laws.Short.Statement (.vbrev p d a) := Nat.le_of_ble_eq_true rfl
theorem Laws.Short.vbfx (p : BitVec 3) (d a b : BitVec 7) : Laws.Short.Statement (.vbfx p d a b) := Nat.le_of_ble_eq_true rfl
theorem Laws.Short.vbfi (p : BitVec 3) (d a b : BitVec 7) : Laws.Short.Statement (.vbfi p d a b) := Nat.le_of_ble_eq_true rfl
theorem Laws.Short.vsel (p : BitVec 3) (d a b : BitVec 7) : Laws.Short.Statement (.vsel p d a b) := Nat.le_of_ble_eq_true rfl
theorem Laws.Short.vcmpI32 (p : BitVec 3) (c : BitVec 4) (q : BitVec 3) (a b : BitVec 7) : Laws.Short.Statement (.vcmpI32 p c q a b) := Nat.le_of_ble_eq_true rfl
theorem Laws.Short.vcmpN32 (p : BitVec 3) (c : BitVec 4) (q : BitVec 3) (a b : BitVec 7) : Laws.Short.Statement (.vcmpN32 p c q a b) := Nat.le_of_ble_eq_true rfl
theorem Laws.Short.vcmpI64 (p : BitVec 3) (c : BitVec 4) (q : BitVec 3) (a b : BitVec 7) : Laws.Short.Statement (.vcmpI64 p c q a b) := Nat.le_of_ble_eq_true rfl
theorem Laws.Short.vaddsI32 (p : BitVec 3) (d a b : BitVec 7) : Laws.Short.Statement (.vaddsI32 p d a b) := Nat.le_of_ble_eq_true rfl
theorem Laws.Short.vshflIdx (p : BitVec 3) (d a b : BitVec 7) : Laws.Short.Statement (.vshflIdx p d a b) := Nat.le_of_ble_eq_true rfl
theorem Laws.Short.vshflXor (p : BitVec 3) (d a : BitVec 7) (c : BitVec 5) : Laws.Short.Statement (.vshflXor p d a c) := Nat.le_of_ble_eq_true rfl
theorem Laws.Short.vshflUp (p : BitVec 3) (d a : BitVec 7) (c : BitVec 5) : Laws.Short.Statement (.vshflUp p d a c) := Nat.le_of_ble_eq_true rfl
theorem Laws.Short.vshflDown (p : BitVec 3) (d a : BitVec 7) (c : BitVec 5) : Laws.Short.Statement (.vshflDown p d a c) := Nat.le_of_ble_eq_true rfl
theorem Laws.Short.vbcast (p : BitVec 3) (d a : BitVec 7) (c : BitVec 5) : Laws.Short.Statement (.vbcast p d a c) := Nat.le_of_ble_eq_true rfl
theorem Laws.Short.vlaneid (p : BitVec 3) (d : BitVec 7) : Laws.Short.Statement (.vlaneid p d) := Nat.le_of_ble_eq_true rfl
theorem Laws.Short.vprefixI32 (p : BitVec 3) (d a : BitVec 7) : Laws.Short.Statement (.vprefixI32 p d a) := Nat.le_of_ble_eq_true rfl
theorem Laws.Short.vaddF32 (p : BitVec 3) (d a b : BitVec 7) : Laws.Short.Statement (.vaddF32 p d a b) := Nat.le_of_ble_eq_true rfl
theorem Laws.Short.vsubF32 (p : BitVec 3) (d a b : BitVec 7) : Laws.Short.Statement (.vsubF32 p d a b) := Nat.le_of_ble_eq_true rfl
theorem Laws.Short.vmulF32 (p : BitVec 3) (d a b : BitVec 7) : Laws.Short.Statement (.vmulF32 p d a b) := Nat.le_of_ble_eq_true rfl
theorem Laws.Short.vfmaF32 (p : BitVec 3) (d a b : BitVec 7) : Laws.Short.Statement (.vfmaF32 p d a b) := Nat.le_of_ble_eq_true rfl
theorem Laws.Short.vminF32 (p : BitVec 3) (d a b : BitVec 7) : Laws.Short.Statement (.vminF32 p d a b) := Nat.le_of_ble_eq_true rfl
theorem Laws.Short.vmaxF32 (p : BitVec 3) (d a b : BitVec 7) : Laws.Short.Statement (.vmaxF32 p d a b) := Nat.le_of_ble_eq_true rfl
theorem Laws.Short.vcmpF32 (p : BitVec 3) (c : BitVec 4) (q : BitVec 3) (a b : BitVec 7) : Laws.Short.Statement (.vcmpF32 p c q a b) := Nat.le_of_ble_eq_true rfl
theorem Laws.Short.vrcpF32 (p : BitVec 3) (d a : BitVec 7) (k : BitVec 3) : Laws.Short.Statement (.vrcpF32 p d a k) := Nat.le_of_ble_eq_true rfl
theorem Laws.Short.vrsqrtF32 (p : BitVec 3) (d a : BitVec 7) (k : BitVec 3) : Laws.Short.Statement (.vrsqrtF32 p d a k) := Nat.le_of_ble_eq_true rfl
theorem Laws.Short.vsqrtF32 (p : BitVec 3) (d a : BitVec 7) (k : BitVec 3) : Laws.Short.Statement (.vsqrtF32 p d a k) := Nat.le_of_ble_eq_true rfl
theorem Laws.Short.vexp2F32 (p : BitVec 3) (d a : BitVec 7) (k : BitVec 3) : Laws.Short.Statement (.vexp2F32 p d a k) := Nat.le_of_ble_eq_true rfl
theorem Laws.Short.vlog2F32 (p : BitVec 3) (d a : BitVec 7) (k : BitVec 3) : Laws.Short.Statement (.vlog2F32 p d a k) := Nat.le_of_ble_eq_true rfl
theorem Laws.Short.vclassF32 (p : BitVec 3) (d a : BitVec 7) : Laws.Short.Statement (.vclassF32 p d a) := Nat.le_of_ble_eq_true rfl
theorem Laws.Short.vaddF64 (p : BitVec 3) (d a b : BitVec 7) : Laws.Short.Statement (.vaddF64 p d a b) := Nat.le_of_ble_eq_true rfl
theorem Laws.Short.vsubF64 (p : BitVec 3) (d a b : BitVec 7) : Laws.Short.Statement (.vsubF64 p d a b) := Nat.le_of_ble_eq_true rfl
theorem Laws.Short.vmulF64 (p : BitVec 3) (d a b : BitVec 7) : Laws.Short.Statement (.vmulF64 p d a b) := Nat.le_of_ble_eq_true rfl
theorem Laws.Short.vfmaF64 (p : BitVec 3) (d a b : BitVec 7) : Laws.Short.Statement (.vfmaF64 p d a b) := Nat.le_of_ble_eq_true rfl
theorem Laws.Short.vminF64 (p : BitVec 3) (d a b : BitVec 7) : Laws.Short.Statement (.vminF64 p d a b) := Nat.le_of_ble_eq_true rfl
theorem Laws.Short.vmaxF64 (p : BitVec 3) (d a b : BitVec 7) : Laws.Short.Statement (.vmaxF64 p d a b) := Nat.le_of_ble_eq_true rfl
theorem Laws.Short.vcmpF64 (p : BitVec 3) (c : BitVec 4) (q : BitVec 3) (a b : BitVec 7) : Laws.Short.Statement (.vcmpF64 p c q a b) := Nat.le_of_ble_eq_true rfl
theorem Laws.Short.vaddF16x2 (p : BitVec 3) (d a b : BitVec 7) : Laws.Short.Statement (.vaddF16x2 p d a b) := Nat.le_of_ble_eq_true rfl
theorem Laws.Short.vmulF16x2 (p : BitVec 3) (d a b : BitVec 7) : Laws.Short.Statement (.vmulF16x2 p d a b) := Nat.le_of_ble_eq_true rfl
theorem Laws.Short.vfmaF16x2 (p : BitVec 3) (d a b : BitVec 7) : Laws.Short.Statement (.vfmaF16x2 p d a b) := Nat.le_of_ble_eq_true rfl
theorem Laws.Short.vcvt (p : BitVec 3) (d a : BitVec 7) (sat : BitVec 1) (rnd : BitVec 2) (df sf : BitVec 6) : Laws.Short.Statement (.vcvt p d a sat rnd df sf) := Nat.le_of_ble_eq_true rfl
theorem Laws.Short.vpack8 (p : BitVec 3) (d a : BitVec 7) (sat : BitVec 1) (f : BitVec 6) : Laws.Short.Statement (.vpack8 p d a sat f) := Nat.le_of_ble_eq_true rfl
theorem Laws.Short.vunpack8 (p : BitVec 3) (d a : BitVec 7) (f : BitVec 6) : Laws.Short.Statement (.vunpack8 p d a f) := Nat.le_of_ble_eq_true rfl
theorem Laws.Short.vscaleF32 (p : BitVec 3) (d a b : BitVec 7) : Laws.Short.Statement (.vscaleF32 p d a b) := Nat.le_of_ble_eq_true rfl
theorem Laws.Short.vperm (p : BitVec 3) (d a b : BitVec 7) : Laws.Short.Statement (.vperm p d a b) := Nat.le_of_ble_eq_true rfl
theorem Laws.Short.vdot4 (p : BitVec 3) (d a b : BitVec 7) : Laws.Short.Statement (.vdot4 p d a b) := Nat.le_of_ble_eq_true rfl
theorem Laws.Short.vmodadd (p : BitVec 3) (d a b : BitVec 7) : Laws.Short.Statement (.vmodadd p d a b) := Nat.le_of_ble_eq_true rfl
theorem Laws.Short.vmodsub (p : BitVec 3) (d a b : BitVec 7) : Laws.Short.Statement (.vmodsub p d a b) := Nat.le_of_ble_eq_true rfl
theorem Laws.Short.vmodmul (p : BitVec 3) (d a b : BitVec 7) : Laws.Short.Statement (.vmodmul p d a b) := Nat.le_of_ble_eq_true rfl
theorem Laws.Short.vmodred (p : BitVec 3) (d a : BitVec 7) : Laws.Short.Statement (.vmodred p d a) := Nat.le_of_ble_eq_true rfl
theorem Laws.Short.vnttCt (p : BitVec 3) (d a b : BitVec 7) : Laws.Short.Statement (.vnttCt p d a b) := Nat.le_of_ble_eq_true rfl
theorem Laws.Short.vnttGs (p : BitVec 3) (d a b : BitVec 7) : Laws.Short.Statement (.vnttGs p d a b) := Nat.le_of_ble_eq_true rfl
theorem Laws.Short.tcfgw (n : BitVec 4) (a : BitVec 6) : Laws.Short.Statement (.tcfgw n a) := Nat.le_of_ble_eq_true rfl
theorem Laws.Short.tcfgr (d : BitVec 7) (n : BitVec 4) : Laws.Short.Statement (.tcfgr d n) := Nat.le_of_ble_eq_true rfl
theorem Laws.Short.tzero (n : BitVec 4) : Laws.Short.Statement (.tzero n) := Nat.le_of_ble_eq_true rfl
theorem Laws.Short.tld (k : BitVec 3) (fe : BitVec 2) (dy dx n : BitVec 4) (sib : BitVec 1) (h : BitVec 6) (c : Coord) : Laws.Short.Statement (.tld k fe dy dx n sib h c) := Nat.le_of_ble_eq_true rfl
theorem Laws.Short.tldPerm (k : BitVec 3) (fe : BitVec 2) (tT : BitVec 4) (bb : BitVec 1) (n : BitVec 4) (h : BitVec 6) (c : Coord) : Laws.Short.Statement (.tldPerm k fe tT bb n h c) := Nat.le_of_ble_eq_true rfl
theorem Laws.Short.tst (fe : BitVec 2) (dy dx n : BitVec 4) (sib : BitVec 1) (h : BitVec 6) (c : Coord) : Laws.Short.Statement (.tst fe dy dx n sib h c) := Nat.le_of_ble_eq_true rfl
theorem Laws.Short.tmov (d s : BitVec 4) : Laws.Short.Statement (.tmov d s) := Nat.le_of_ble_eq_true rfl
theorem Laws.Short.tmovTr (d s : BitVec 4) : Laws.Short.Statement (.tmovTr d s) := Nat.le_of_ble_eq_true rfl
theorem Laws.Short.mmaB8 (k : BitVec 3) (bs : BitVec 2) (tB tA : BitVec 4) (v : BitVec 7) : Laws.Short.Statement (.mmaB8 k bs tB tA v) := Nat.le_of_ble_eq_true rfl
theorem Laws.Short.mmaB8Scl (k : BitVec 3) (bs : BitVec 2) (tB tA : BitVec 4) (v vA vB : BitVec 7) : Laws.Short.Statement (.mmaB8Scl k bs tB tA v vA vB) := Nat.le_of_ble_eq_true rfl
theorem Laws.Short.mmaB8Sp (k : BitVec 3) (bs : BitVec 2) (tM tB tA : BitVec 4) (v : BitVec 7) : Laws.Short.Statement (.mmaB8Sp k bs tM tB tA v) := Nat.le_of_ble_eq_true rfl
theorem Laws.Short.mmaB8SclSp (k : BitVec 3) (bs : BitVec 2) (tM tB tA : BitVec 4) (v vA vB : BitVec 7) : Laws.Short.Statement (.mmaB8SclSp k bs tM tB tA v vA vB) := Nat.le_of_ble_eq_true rfl
theorem Laws.Short.mmaBf16 (k : BitVec 3) (bs : BitVec 2) (tB tA : BitVec 4) (v : BitVec 7) : Laws.Short.Statement (.mmaBf16 k bs tB tA v) := Nat.le_of_ble_eq_true rfl
theorem Laws.Short.mmaF16 (k : BitVec 3) (bs : BitVec 2) (tB tA : BitVec 4) (v : BitVec 7) : Laws.Short.Statement (.mmaF16 k bs tB tA v) := Nat.le_of_ble_eq_true rfl
theorem Laws.Short.mmaF32 (k : BitVec 3) (bs : BitVec 2) (tB tA : BitVec 4) (v : BitVec 7) : Laws.Short.Statement (.mmaF32 k bs tB tA v) := Nat.le_of_ble_eq_true rfl
theorem Laws.Short.mmaF64 (k : BitVec 3) (bs : BitVec 2) (tB tA : BitVec 4) (v : BitVec 7) : Laws.Short.Statement (.mmaF64 k bs tB tA v) := Nat.le_of_ble_eq_true rfl
theorem Laws.Short.mmaI8 (k : BitVec 3) (bs : BitVec 2) (tB tA : BitVec 4) (v : BitVec 7) : Laws.Short.Statement (.mmaI8 k bs tB tA v) := Nat.le_of_ble_eq_true rfl
theorem Laws.Short.mmaMod (k : BitVec 3) (bs : BitVec 2) (tB tA : BitVec 4) (v : BitVec 7) : Laws.Short.Statement (.mmaMod k bs tB tA v) := Nat.le_of_ble_eq_true rfl
theorem Laws.Short.ldN8 (k : BitVec 3) (i : BitVec 7) (b : BitVec 6) (d : BitVec 7) (m : MemMod) : Laws.Short.Statement (.ldN8 k i b d m) := Nat.le_of_ble_eq_true rfl
theorem Laws.Short.ldI8 (k : BitVec 3) (i : BitVec 7) (b : BitVec 6) (d : BitVec 7) (m : MemMod) : Laws.Short.Statement (.ldI8 k i b d m) := Nat.le_of_ble_eq_true rfl
theorem Laws.Short.ldN16 (k : BitVec 3) (i : BitVec 7) (b : BitVec 6) (d : BitVec 7) (m : MemMod) : Laws.Short.Statement (.ldN16 k i b d m) := Nat.le_of_ble_eq_true rfl
theorem Laws.Short.ldI16 (k : BitVec 3) (i : BitVec 7) (b : BitVec 6) (d : BitVec 7) (m : MemMod) : Laws.Short.Statement (.ldI16 k i b d m) := Nat.le_of_ble_eq_true rfl
theorem Laws.Short.ld32 (k : BitVec 3) (i : BitVec 7) (b : BitVec 6) (d : BitVec 7) (m : MemMod) : Laws.Short.Statement (.ld32 k i b d m) := Nat.le_of_ble_eq_true rfl
theorem Laws.Short.ld64 (k : BitVec 3) (i : BitVec 7) (b : BitVec 6) (d : BitVec 7) (m : MemMod) : Laws.Short.Statement (.ld64 k i b d m) := Nat.le_of_ble_eq_true rfl
theorem Laws.Short.ld128 (k : BitVec 3) (i : BitVec 7) (b : BitVec 6) (d : BitVec 7) (m : MemMod) : Laws.Short.Statement (.ld128 k i b d m) := Nat.le_of_ble_eq_true rfl
theorem Laws.Short.st8 (i : BitVec 7) (b : BitVec 6) (d : BitVec 7) (m : MemMod) : Laws.Short.Statement (.st8 i b d m) := Nat.le_of_ble_eq_true rfl
theorem Laws.Short.st16 (i : BitVec 7) (b : BitVec 6) (d : BitVec 7) (m : MemMod) : Laws.Short.Statement (.st16 i b d m) := Nat.le_of_ble_eq_true rfl
theorem Laws.Short.st32 (i : BitVec 7) (b : BitVec 6) (d : BitVec 7) (m : MemMod) : Laws.Short.Statement (.st32 i b d m) := Nat.le_of_ble_eq_true rfl
theorem Laws.Short.st64 (i : BitVec 7) (b : BitVec 6) (d : BitVec 7) (m : MemMod) : Laws.Short.Statement (.st64 i b d m) := Nat.le_of_ble_eq_true rfl
theorem Laws.Short.st128 (i : BitVec 7) (b : BitVec 6) (d : BitVec 7) (m : MemMod) : Laws.Short.Statement (.st128 i b d m) := Nat.le_of_ble_eq_true rfl
theorem Laws.Short.ldt32 (k p : BitVec 3) (h : BitVec 6) (d : BitVec 7) (m : MemMod) (c : Coord) : Laws.Short.Statement (.ldt32 k p h d m c) := Nat.le_of_ble_eq_true rfl
theorem Laws.Short.ldt64 (k p : BitVec 3) (h : BitVec 6) (d : BitVec 7) (m : MemMod) (c : Coord) : Laws.Short.Statement (.ldt64 k p h d m c) := Nat.le_of_ble_eq_true rfl
theorem Laws.Short.ldt128 (k p : BitVec 3) (h : BitVec 6) (d : BitVec 7) (m : MemMod) (c : Coord) : Laws.Short.Statement (.ldt128 k p h d m c) := Nat.le_of_ble_eq_true rfl
theorem Laws.Short.stt32 (p : BitVec 3) (h : BitVec 6) (d : BitVec 7) (m : MemMod) (c : Coord) : Laws.Short.Statement (.stt32 p h d m c) := Nat.le_of_ble_eq_true rfl
theorem Laws.Short.stt64 (p : BitVec 3) (h : BitVec 6) (d : BitVec 7) (m : MemMod) (c : Coord) : Laws.Short.Statement (.stt64 p h d m c) := Nat.le_of_ble_eq_true rfl
theorem Laws.Short.stt128 (p : BitVec 3) (h : BitVec 6) (d : BitVec 7) (m : MemMod) (c : Coord) : Laws.Short.Statement (.stt128 p h d m c) := Nat.le_of_ble_eq_true rfl
theorem Laws.Short.sld64 (k : BitVec 3) (b d : BitVec 6) (m : MemMod) : Laws.Short.Statement (.sld64 k b d m) := Nat.le_of_ble_eq_true rfl
theorem Laws.Short.sst64 (b a : BitVec 6) (m : MemMod) : Laws.Short.Statement (.sst64 b a m) := Nat.le_of_ble_eq_true rfl
theorem Laws.Short.amoAddI32 (k : BitVec 3) (i : BitVec 7) (b : BitVec 6) (d : BitVec 7) (m : MemMod) : Laws.Short.Statement (.amoAddI32 k i b d m) := Nat.le_of_ble_eq_true rfl
theorem Laws.Short.amoAddI64 (k : BitVec 3) (i : BitVec 7) (b : BitVec 6) (d : BitVec 7) (m : MemMod) : Laws.Short.Statement (.amoAddI64 k i b d m) := Nat.le_of_ble_eq_true rfl
theorem Laws.Short.amoMinI32 (k : BitVec 3) (i : BitVec 7) (b : BitVec 6) (d : BitVec 7) (m : MemMod) : Laws.Short.Statement (.amoMinI32 k i b d m) := Nat.le_of_ble_eq_true rfl
theorem Laws.Short.amoMinN32 (k : BitVec 3) (i : BitVec 7) (b : BitVec 6) (d : BitVec 7) (m : MemMod) : Laws.Short.Statement (.amoMinN32 k i b d m) := Nat.le_of_ble_eq_true rfl
theorem Laws.Short.amoMinI64 (k : BitVec 3) (i : BitVec 7) (b : BitVec 6) (d : BitVec 7) (m : MemMod) : Laws.Short.Statement (.amoMinI64 k i b d m) := Nat.le_of_ble_eq_true rfl
theorem Laws.Short.amoMaxI32 (k : BitVec 3) (i : BitVec 7) (b : BitVec 6) (d : BitVec 7) (m : MemMod) : Laws.Short.Statement (.amoMaxI32 k i b d m) := Nat.le_of_ble_eq_true rfl
theorem Laws.Short.amoMaxN32 (k : BitVec 3) (i : BitVec 7) (b : BitVec 6) (d : BitVec 7) (m : MemMod) : Laws.Short.Statement (.amoMaxN32 k i b d m) := Nat.le_of_ble_eq_true rfl
theorem Laws.Short.amoMaxI64 (k : BitVec 3) (i : BitVec 7) (b : BitVec 6) (d : BitVec 7) (m : MemMod) : Laws.Short.Statement (.amoMaxI64 k i b d m) := Nat.le_of_ble_eq_true rfl
theorem Laws.Short.amoAnd (k : BitVec 3) (i : BitVec 7) (b : BitVec 6) (d : BitVec 7) (m : MemMod) : Laws.Short.Statement (.amoAnd k i b d m) := Nat.le_of_ble_eq_true rfl
theorem Laws.Short.amoOr (k : BitVec 3) (i : BitVec 7) (b : BitVec 6) (d : BitVec 7) (m : MemMod) : Laws.Short.Statement (.amoOr k i b d m) := Nat.le_of_ble_eq_true rfl
theorem Laws.Short.amoXor (k : BitVec 3) (i : BitVec 7) (b : BitVec 6) (d : BitVec 7) (m : MemMod) : Laws.Short.Statement (.amoXor k i b d m) := Nat.le_of_ble_eq_true rfl
theorem Laws.Short.amoSwap (k : BitVec 3) (i : BitVec 7) (b : BitVec 6) (d : BitVec 7) (m : MemMod) : Laws.Short.Statement (.amoSwap k i b d m) := Nat.le_of_ble_eq_true rfl
theorem Laws.Short.amoCas32 (k : BitVec 3) (i : BitVec 7) (b : BitVec 6) (d : BitVec 7) (m : MemMod) : Laws.Short.Statement (.amoCas32 k i b d m) := Nat.le_of_ble_eq_true rfl
theorem Laws.Short.amoCas64 (k : BitVec 3) (i : BitVec 7) (b : BitVec 6) (d : BitVec 7) (m : MemMod) : Laws.Short.Statement (.amoCas64 k i b d m) := Nat.le_of_ble_eq_true rfl
theorem Laws.Short.amoFaddF32 (k : BitVec 3) (i : BitVec 7) (b : BitVec 6) (d : BitVec 7) (m : MemMod) : Laws.Short.Statement (.amoFaddF32 k i b d m) := Nat.le_of_ble_eq_true rfl
theorem Laws.Short.redAddI32 (i : BitVec 7) (b : BitVec 6) (d : BitVec 7) (m : MemMod) : Laws.Short.Statement (.redAddI32 i b d m) := Nat.le_of_ble_eq_true rfl
theorem Laws.Short.redAddI64 (i : BitVec 7) (b : BitVec 6) (d : BitVec 7) (m : MemMod) : Laws.Short.Statement (.redAddI64 i b d m) := Nat.le_of_ble_eq_true rfl
theorem Laws.Short.redMin (i : BitVec 7) (b : BitVec 6) (d : BitVec 7) (m : MemMod) : Laws.Short.Statement (.redMin i b d m) := Nat.le_of_ble_eq_true rfl
theorem Laws.Short.redMax (i : BitVec 7) (b : BitVec 6) (d : BitVec 7) (m : MemMod) : Laws.Short.Statement (.redMax i b d m) := Nat.le_of_ble_eq_true rfl
theorem Laws.Short.redAnd (i : BitVec 7) (b : BitVec 6) (d : BitVec 7) (m : MemMod) : Laws.Short.Statement (.redAnd i b d m) := Nat.le_of_ble_eq_true rfl
theorem Laws.Short.redOr (i : BitVec 7) (b : BitVec 6) (d : BitVec 7) (m : MemMod) : Laws.Short.Statement (.redOr i b d m) := Nat.le_of_ble_eq_true rfl
theorem Laws.Short.redXor (i : BitVec 7) (b : BitVec 6) (d : BitVec 7) (m : MemMod) : Laws.Short.Statement (.redXor i b d m) := Nat.le_of_ble_eq_true rfl
theorem Laws.Short.dredAddI64 (i : BitVec 7) (b : BitVec 6) (d : BitVec 7) (m : MemMod) : Laws.Short.Statement (.dredAddI64 i b d m) := Nat.le_of_ble_eq_true rfl
theorem Laws.Short.dredFaddF32 (i : BitVec 7) (b : BitVec 6) (d : BitVec 7) (m : MemMod) : Laws.Short.Statement (.dredFaddF32 i b d m) := Nat.le_of_ble_eq_true rfl
theorem Laws.Short.dredFaddB8 (i : BitVec 7) (b : BitVec 6) (d : BitVec 7) (m : MemMod) : Laws.Short.Statement (.dredFaddB8 i b d m) := Nat.le_of_ble_eq_true rfl
theorem Laws.Short.dredModadd (i : BitVec 7) (b : BitVec 6) (d : BitVec 7) (m : MemMod) : Laws.Short.Statement (.dredModadd i b d m) := Nat.le_of_ble_eq_true rfl
theorem Laws.Short.dredMinF32 (i : BitVec 7) (b : BitVec 6) (d : BitVec 7) (m : MemMod) : Laws.Short.Statement (.dredMinF32 i b d m) := Nat.le_of_ble_eq_true rfl
theorem Laws.Short.dredMaxF32 (i : BitVec 7) (b : BitVec 6) (d : BitVec 7) (m : MemMod) : Laws.Short.Statement (.dredMaxF32 i b d m) := Nat.le_of_ble_eq_true rfl
theorem Laws.Short.dredOr (i : BitVec 7) (b : BitVec 6) (d : BitVec 7) (m : MemMod) : Laws.Short.Statement (.dredOr i b d m) := Nat.le_of_ble_eq_true rfl
theorem Laws.Short.fence (m : MemMod) : Laws.Short.Statement (.fence m) := Nat.le_of_ble_eq_true rfl
theorem Laws.Short.fenceRo (m : MemMod) : Laws.Short.Statement (.fenceRo m) := Nat.le_of_ble_eq_true rfl
theorem Laws.Short.cflush (i : BitVec 7) (b : BitVec 6) (m : MemMod) : Laws.Short.Statement (.cflush i b m) := Nat.le_of_ble_eq_true rfl
theorem Laws.Short.cinv (i : BitVec 7) (b : BitVec 6) (m : MemMod) : Laws.Short.Statement (.cinv i b m) := Nat.le_of_ble_eq_true rfl
theorem Laws.Short.cinvDiscard (i : BitVec 7) (b : BitVec 6) (m : MemMod) : Laws.Short.Statement (.cinvDiscard i b m) := Nat.le_of_ble_eq_true rfl
theorem Laws.Short.pref (i : BitVec 7) (b : BitVec 6) (m : MemMod) : Laws.Short.Statement (.pref i b m) := Nat.le_of_ble_eq_true rfl
theorem Laws.Short.cp (p : BitVec 3) (sz : BitVec 2) (tl : BitVec 3) (dst src : ASide) (m : AMod) : Laws.Short.Statement (.cp p sz tl dst src m) := by cases dst <;> cases src <;> exact Nat.le_of_ble_eq_true rfl
theorem Laws.Short.cpm (p : BitVec 3) (sz : BitVec 2) (tl : BitVec 3) (dst src : ASide) (m : AMod) : Laws.Short.Statement (.cpm p sz tl dst src m) := by cases dst <;> cases src <;> exact Nat.le_of_ble_eq_true rfl
theorem Laws.Short.cpr (p : BitVec 3) (sz : BitVec 2) (tl : BitVec 3) (dst src : ASide) (m : AMod) : Laws.Short.Statement (.cpr p sz tl dst src m) := by cases dst <;> cases src <;> exact Nat.le_of_ble_eq_true rfl
theorem Laws.Short.gth (p : BitVec 3) (sz : BitVec 2) (tl : BitVec 3) (dst src : ASide) (m : AMod) : Laws.Short.Statement (.gth p sz tl dst src m) := by cases dst <;> cases src <;> exact Nat.le_of_ble_eq_true rfl
theorem Laws.Short.sct (p : BitVec 3) (sz : BitVec 2) (tl : BitVec 3) (dst src : ASide) (m : AMod) : Laws.Short.Statement (.sct p sz tl dst src m) := by cases dst <;> cases src <;> exact Nat.le_of_ble_eq_true rfl
theorem Laws.Short.put (p : BitVec 3) (sz : BitVec 2) (tl : BitVec 3) (dst src : ASide) (m : AMod) : Laws.Short.Statement (.put p sz tl dst src m) := by cases dst <;> cases src <;> exact Nat.le_of_ble_eq_true rfl
theorem Laws.Short.get (p : BitVec 3) (sz : BitVec 2) (tl : BitVec 3) (dst src : ASide) (m : AMod) : Laws.Short.Statement (.get p sz tl dst src m) := by cases dst <;> cases src <;> exact Nat.le_of_ble_eq_true rfl
theorem Laws.Short.cpchute (p : BitVec 3) (sz : BitVec 2) (tl : BitVec 3) (dst src : ASide) (m : AMod) : Laws.Short.Statement (.cpchute p sz tl dst src m) := by cases dst <;> cases src <;> exact Nat.le_of_ble_eq_true rfl
theorem Laws.Short.launch (p tl : BitVec 3) (src : BitVec 7) (m : AMod) : Laws.Short.Statement (.launch p tl src m) := Nat.le_of_ble_eq_true rfl
theorem Laws.Short.tlwait (n : BitVec 3) (b : SOp) : Laws.Short.Statement (.tlwait n b) := Nat.le_of_ble_eq_true rfl
theorem Laws.Short.tlread (d : BitVec 6) (n : BitVec 3) (sel : BitVec 2) : Laws.Short.Statement (.tlread d n sel) := Nat.le_of_ble_eq_true rfl
theorem Laws.Short.wcwait (k : BitVec 1) (r : BitVec 5) (b : SOp) : Laws.Short.Statement (.wcwait k r b) := Nat.le_of_ble_eq_true rfl
theorem Laws.Short.wcread (d : BitVec 6) (r : BitVec 5) (k : BitVec 1) : Laws.Short.Statement (.wcread d r k) := Nat.le_of_ble_eq_true rfl
theorem Laws.Short.chqClaim (d h : BitVec 6) : Laws.Short.Statement (.chqClaim d h) := Nat.le_of_ble_eq_true rfl
theorem Laws.Short.chqPub (h : BitVec 6) (b : SOp) : Laws.Short.Statement (.chqPub h b) := Nat.le_of_ble_eq_true rfl
theorem Laws.Short.chqWait (d h : BitVec 6) : Laws.Short.Statement (.chqWait d h) := Nat.le_of_ble_eq_true rfl
theorem Laws.Short.chqRel (h : BitVec 6) (b : SOp) : Laws.Short.Statement (.chqRel h b) := Nat.le_of_ble_eq_true rfl
theorem Laws.Short.waitq (d a : BitVec 6) (b : SOp) : Laws.Short.Statement (.waitq d a b) := Nat.le_of_ble_eq_true rfl
theorem Laws.Short.wake (d a : BitVec 6) (b : SOp) : Laws.Short.Statement (.wake d a b) := Nat.le_of_ble_eq_true rfl
theorem Laws.Short.mon (a : BitVec 6) : Laws.Short.Statement (.mon a) := Nat.le_of_ble_eq_true rfl
theorem Laws.Short.mwait (d : BitVec 6) (b : SOp) : Laws.Short.Statement (.mwait d b) := Nat.le_of_ble_eq_true rfl
theorem Laws.Short.talloc (d h b : BitVec 6) : Laws.Short.Statement (.talloc d h b) := Nat.le_of_ble_eq_true rfl
theorem Laws.Short.tfree (h : BitVec 6) : Laws.Short.Statement (.tfree h) := Nat.le_of_ble_eq_true rfl
theorem Laws.Short.tquery (d h : BitVec 6) : Laws.Short.Statement (.tquery d h) := Nat.le_of_ble_eq_true rfl
theorem Laws.Short.winreg (d a b : BitVec 6) : Laws.Short.Statement (.winreg d a b) := Nat.le_of_ble_eq_true rfl
theorem Laws.Short.winfree (d : BitVec 6) (b : SOp) : Laws.Short.Statement (.winfree d b) := Nat.le_of_ble_eq_true rfl
theorem Laws.Short.rankq (d a : BitVec 6) : Laws.Short.Statement (.rankq d a) := Nat.le_of_ble_eq_true rfl
theorem Laws.Short.sprd (d : BitVec 6) (n : BitVec 12) : Laws.Short.Statement (.sprd d n) := Nat.le_of_ble_eq_true rfl
theorem Laws.Short.spwr (a : BitVec 6) (n : BitVec 12) : Laws.Short.Statement (.spwr a n) := Nat.le_of_ble_eq_true rfl
theorem Laws.Short.evt (a n : BitVec 6) : Laws.Short.Statement (.evt a n) := Nat.le_of_ble_eq_true rfl
theorem Laws.Short.tlbinvPage (a : BitVec 6) (b : SOp) : Laws.Short.Statement (.tlbinvPage a b) := Nat.le_of_ble_eq_true rfl
theorem Laws.Short.tlbinvAsid (a : BitVec 6) (b : SOp) : Laws.Short.Statement (.tlbinvAsid a b) := Nat.le_of_ble_eq_true rfl
theorem Laws.Short.tlbinvPaddock (a : BitVec 6) (b : SOp) : Laws.Short.Statement (.tlbinvPaddock a b) := Nat.le_of_ble_eq_true rfl
theorem Laws.Short.tlbinvRank (a : BitVec 6) : Laws.Short.Statement (.tlbinvRank a) := Nat.le_of_ble_eq_true rfl
theorem Laws.Short.tlbinvRankall (a : BitVec 6) : Laws.Short.Statement (.tlbinvRankall a) := Nat.le_of_ble_eq_true rfl
theorem Laws.Short.launchPlacement : Laws.Short.Statement (.launchPlacement) := Nat.le_of_ble_eq_true rfl
theorem Laws.Short.cpchuteClaim : Laws.Short.Statement (.cpchuteClaim) := Nat.le_of_ble_eq_true rfl
theorem Laws.Short.icehouseExchange : Laws.Short.Statement (.icehouseExchange) := Nat.le_of_ble_eq_true rfl
theorem Laws.Short.rimeRecord : Laws.Short.Statement (.rimeRecord) := Nat.le_of_ble_eq_true rfl
theorem Laws.Short.ptpLockLoss : Laws.Short.Statement (.ptpLockLoss) := Nat.le_of_ble_eq_true rfl
theorem Laws.Short.beacon : Laws.Short.Statement (.beacon) := Nat.le_of_ble_eq_true rfl
theorem Laws.Short.perfLatch : Laws.Short.Statement (.perfLatch) := Nat.le_of_ble_eq_true rfl
theorem Laws.Short.progressSample : Laws.Short.Statement (.progressSample) := Nat.le_of_ble_eq_true rfl
theorem Laws.Short.thermalTrip : Laws.Short.Statement (.thermalTrip) := Nat.le_of_ble_eq_true rfl
theorem Laws.Short.snop : Laws.Short.Statement (.snop) := Nat.le_of_ble_eq_true rfl
theorem Laws.Short.exit : Laws.Short.Statement (.exit) := Nat.le_of_ble_eq_true rfl
theorem Laws.Short.yield : Laws.Short.Statement (.yield) := Nat.le_of_ble_eq_true rfl
theorem Laws.Short.barWg : Laws.Short.Statement (.barWg) := Nat.le_of_ble_eq_true rfl
theorem Laws.Short.barPen : Laws.Short.Statement (.barPen) := Nat.le_of_ble_eq_true rfl
theorem Laws.Short.barLaunch : Laws.Short.Statement (.barLaunch) := Nat.le_of_ble_eq_true rfl
theorem Laws.Short.trap : Laws.Short.Statement (.trap) := Nat.le_of_ble_eq_true rfl
theorem Laws.Short.tretRetry : Laws.Short.Statement (.tretRetry) := Nat.le_of_ble_eq_true rfl
theorem Laws.Short.tretSkip : Laws.Short.Statement (.tretSkip) := Nat.le_of_ble_eq_true rfl
theorem Laws.Short.tretKill : Laws.Short.Statement (.tretKill) := Nat.le_of_ble_eq_true rfl
theorem Laws.Short.tmask : Laws.Short.Statement (.tmask) := Nat.le_of_ble_eq_true rfl
theorem Laws.Short.tunmask : Laws.Short.Statement (.tunmask) := Nat.le_of_ble_eq_true rfl
theorem Laws.Short.brk : Laws.Short.Statement (.brk) := Nat.le_of_ble_eq_true rfl
theorem Laws.Short.halt : Laws.Short.Statement (.halt) := Nat.le_of_ble_eq_true rfl
theorem Laws.Short.debuggerResume (q : SpanRef) : Laws.Short.Statement (.debuggerResume q) := Nat.le_of_ble_eq_true rfl
theorem Laws.Short.watchdogExpiry (who : Waiter) : Laws.Short.Statement (.watchdogExpiry who) := Nat.le_of_ble_eq_true rfl
theorem Laws.Short.mwaitTimeout (q : SpanRef) : Laws.Short.Statement (.mwaitTimeout q) := Nat.le_of_ble_eq_true rfl
theorem Laws.Short.quantumExpiry (g : Nat) : Laws.Short.Statement (.quantumExpiry g) := Nat.le_of_ble_eq_true rfl
theorem Laws.Short.launchWindowPlace (pk : Nat) (addr : Dword) : Laws.Short.Statement (.launchWindowPlace pk addr) := Nat.le_of_ble_eq_true rfl
theorem Laws.Short.preemptionRequest (pk : Nat) (serial : Word) : Laws.Short.Statement (.preemptionRequest pk serial) := Nat.le_of_ble_eq_true rfl
theorem Laws.Short.preemptionResume (pk : Nat) (serial : Word) : Laws.Short.Statement (.preemptionResume pk serial) := Nat.le_of_ble_eq_true rfl
theorem Laws.Short.preemptionDeadline (pk : Nat) (serial : Word) : Laws.Short.Statement (.preemptionDeadline pk serial) := Nat.le_of_ble_eq_true rfl
theorem Laws.Short.paddockSwap (leave enter : Option Nat) : Laws.Short.Statement (.paddockSwap leave enter) := Nat.le_of_ble_eq_true rfl
theorem Laws.Short.getx (m : Hdr) : Laws.Short.Statement (.getx m) := Nat.le_of_ble_eq_true rfl
theorem Laws.Short.upg (m : Hdr) : Laws.Short.Statement (.upg m) := Nat.le_of_ble_eq_true rfl
theorem Laws.Short.drget (m : Hdr) (tag : DTag) : Laws.Short.Statement (.drget m tag) := Nat.le_of_ble_eq_true rfl
theorem Laws.Short.amoMsg (m : Hdr) (r : List AmoReq) : Laws.Short.Statement (.amoMsg m r) := Nat.le_of_ble_eq_true rfl
theorem Laws.Short.wrline (m : Hdr) (data : LineData) : Laws.Short.Statement (.wrline m data) := Nat.le_of_ble_eq_true rfl
theorem Laws.Short.grant (m : Hdr) : Laws.Short.Statement (.grant m) := Nat.le_of_ble_eq_true rfl
theorem Laws.Short.grantd (m : Hdr) (tag : DTag) : Laws.Short.Statement (.grantd m tag) := Nat.le_of_ble_eq_true rfl
theorem Laws.Short.redack (m : Hdr) (n : Nat) : Laws.Short.Statement (.redack m n) := Nat.le_of_ble_eq_true rfl
theorem Laws.Short.err (m : Hdr) (retry : Bool) : Laws.Short.Statement (.err m retry) := Nat.le_of_ble_eq_true rfl
theorem Laws.Short.redop (m : Hdr) (r : List AmoReq) (n : Nat) : Laws.Short.Statement (.redop m r n) := Nat.le_of_ble_eq_true rfl
theorem Laws.Short.cacheEviction (core line : Nat) : Laws.Short.Statement (.cacheEviction core line) := Nat.le_of_ble_eq_true rfl
theorem Laws.Short.requestRetry (core line : Nat) : Laws.Short.Statement (.requestRetry core line) := Nat.le_of_ble_eq_true rfl
theorem Laws.Short.linkDown (port : Nat) : Laws.Short.Statement (.linkDown port) := Nat.le_of_ble_eq_true rfl
theorem Laws.Short.heartbeatMiss (party : Party) : Laws.Short.Statement (.heartbeatMiss party) := Nat.le_of_ble_eq_true rfl
theorem Laws.Short.extentRevoke (host first count : Nat) : Laws.Short.Statement (.extentRevoke host first count) := Nat.le_of_ble_eq_true rfl
theorem Laws.Short.revocationTimeout (host first count : Nat) : Laws.Short.Statement (.revocationTimeout host first count) := Nat.le_of_ble_eq_true rfl
theorem Laws.Short.windowKeyReplace (pk w : Nat) (key : BitVec 16) : Laws.Short.Statement (.windowKeyReplace pk w key) := Nat.le_of_ble_eq_true rfl
theorem Laws.Short.oldKeyTimeout (pk w : Nat) : Laws.Short.Statement (.oldKeyTimeout pk w) := Nat.le_of_ble_eq_true rfl
theorem Laws.Short.remotePacket (pkt : Packet) : Laws.Short.Statement (.remotePacket pkt) := Nat.le_of_ble_eq_true rfl
theorem Laws.Short.remoteAck (ack : PacketAck) : Laws.Short.Statement (.remoteAck ack) := Nat.le_of_ble_eq_true rfl
theorem Laws.Short.paddockTableWrite (pk : Nat) (e : PaddockCfg) : Laws.Short.Statement (.paddockTableWrite pk e) := Nat.le_of_ble_eq_true rfl
theorem Laws.Short.errorLogTailWrite (pk : Nat) (v : Word) : Laws.Short.Statement (.errorLogTailWrite pk v) := Nat.le_of_ble_eq_true rfl
theorem Laws.Short.sinkDescriptorWrite (n : Nat) (d : BitVec 256) : Laws.Short.Statement (.sinkDescriptorWrite n d) := Nat.le_of_ble_eq_true rfl
theorem Laws.Short.sinkTailWrite (n : Nat) (v : Word) : Laws.Short.Statement (.sinkTailWrite n v) := Nat.le_of_ble_eq_true rfl
theorem Laws.Short.readback (addr : Dword) : Laws.Short.Statement (.readback addr) := Nat.le_of_ble_eq_true rfl
theorem Laws.Short.registerWrite (w : RegWriteReq) : Laws.Short.Statement (.registerWrite w) := Nat.le_of_ble_eq_true rfl
theorem Laws.Short.stallLimit (n : Nat) : Laws.Short.Statement (.stallLimit n) := Nat.le_of_ble_eq_true rfl
theorem Laws.Short.ptpLock (ns : Dword) : Laws.Short.Statement (.ptpLock ns) := Nat.le_of_ble_eq_true rfl
theorem Laws.Short.ptpCorrection (delta : Int) : Laws.Short.Statement (.ptpCorrection delta) := Nat.le_of_ble_eq_true rfl
theorem Laws.Short.floorWindow (core pipe : Nat) : Laws.Short.Statement (.floorWindow core pipe) := Nat.le_of_ble_eq_true rfl
theorem Laws.Short.powerGood (verified : Bool) : Laws.Short.Statement (.powerGood verified) := Nat.le_of_ble_eq_true rfl
theorem Laws.Short.readinessReport (idx : Nat) (st : BitVec 4) : Laws.Short.Statement (.readinessReport idx st) := Nat.le_of_ble_eq_true rfl
theorem Laws.Short.powerCapSet (watts : Nat) : Laws.Short.Statement (.powerCapSet watts) := Nat.le_of_ble_eq_true rfl
theorem Laws.Short.thermalThrottle (die : Nat) : Laws.Short.Statement (.thermalThrottle die) := Nat.le_of_ble_eq_true rfl
theorem Laws.Short.trayWindowDouble (slot : Nat) : Laws.Short.Statement (.trayWindowDouble slot) := Nat.le_of_ble_eq_true rfl
theorem Laws.Short.getVersion (r : Responder) : Laws.Short.Statement (.getVersion r) := Nat.le_of_ble_eq_true rfl
theorem Laws.Short.getCapabilities (r : Responder) : Laws.Short.Statement (.getCapabilities r) := Nat.le_of_ble_eq_true rfl
theorem Laws.Short.negotiateAlgorithms (r : Responder) (asym kem : BitVec 32) : Laws.Short.Statement (.negotiateAlgorithms r asym kem) := Nat.le_of_ble_eq_true rfl
theorem Laws.Short.getDigests (r : Responder) : Laws.Short.Statement (.getDigests r) := Nat.le_of_ble_eq_true rfl
theorem Laws.Short.getCertificate (r : Responder) (slot off len : Nat) : Laws.Short.Statement (.getCertificate r slot off len) := Nat.le_of_ble_eq_true rfl
theorem Laws.Short.challenge (r : Responder) (nonce : BitVec 256) : Laws.Short.Statement (.challenge r nonce) := Nat.le_of_ble_eq_true rfl
theorem Laws.Short.getMeasurements (r : Responder) (idx : Nat) (nonce : BitVec 256) : Laws.Short.Statement (.getMeasurements r idx nonce) := Nat.le_of_ble_eq_true rfl
theorem Laws.Short.keyExchange (r : Responder) (session kem : Nat) : Laws.Short.Statement (.keyExchange r session kem) := Nat.le_of_ble_eq_true rfl
theorem Laws.Short.finish (r : Responder) (session : Nat) : Laws.Short.Statement (.finish r session) := Nat.le_of_ble_eq_true rfl
theorem Laws.Short.keyUpdate (r : Responder) (session : Nat) : Laws.Short.Statement (.keyUpdate r session) := Nat.le_of_ble_eq_true rfl
theorem Laws.Short.endSession (r : Responder) (session : Nat) : Laws.Short.Statement (.endSession r session) := Nat.le_of_ble_eq_true rfl
theorem Laws.Short.linkUp (port : Nat) : Laws.Short.Statement (.linkUp port) := Nat.le_of_ble_eq_true rfl
theorem Laws.Short.hopKeyChange (port : Nat) : Laws.Short.Statement (.hopKeyChange port) := Nat.le_of_ble_eq_true rfl
theorem Laws.Short.retransmission (die seq : Nat) : Laws.Short.Statement (.retransmission die seq) := Nat.le_of_ble_eq_true rfl
theorem Laws.Short.firmwareReportsLost (party : Party) : Laws.Short.Statement (.firmwareReportsLost party) := Nat.le_of_ble_eq_true rfl

end Sys2Proof
end

