-- ==== Sys2Proof/Tests/Slice0.lean ====
section
/-!
SUPPORT. Tests/Slice0.lean: ill-formed terms that WellFormed refuses, words of the spec that the decoder reads, single steps
with results worked out by hand from the spec, and for every statement states that meet its hypotheses.
-/

set_option Elab.async false

namespace Sys2Proof.Tests

open Sys2Proof.Machine

/-! ## Ill-formed terms, one for each check of WellFormed.lean -/

theorem test_illFormed_pair : Instr.wf (.vaddI64 7 3 0 2) = false := by decide +kernel
theorem test_illFormed_group : Instr.wf (.ld128 7 0 0 6 ⟨0, 0, 0, 0, 0⟩) = false := by decide +kernel
theorem test_illFormed_mult8 : Instr.wf (.mmaF32 7 0 0 0 4) = false := by decide +kernel
theorem test_illFormed_mult16 : Instr.wf (.mmaF64 7 0 0 0 8) = false := by decide +kernel
theorem test_illFormed_even6 : Instr.wf (.sfromv 1 0 3 0 (.reg 0)) = false := by decide +kernel
theorem test_illFormed_shift : Instr.wf (.sshl 0 0 (.imm 32)) = false := by decide +kernel
theorem test_illFormed_count : Instr.wf (.tlwait 0 (.imm 32)) = false := by decide +kernel
theorem test_illFormed_cvtCode : Instr.wf (.vcvt 7 0 0 0 0 0x0C 0x0A) = false := by decide +kernel
theorem test_illFormed_packCode : Instr.wf (.vpack8 7 0 0 0 0x01) = false := by decide +kernel
theorem test_illFormed_sysReg : Instr.wf (.sprd 0 0x0D) = false := by decide +kernel
theorem test_illFormed_coordKind : Coord.ok ⟨3, 0, 0, 0⟩ = false := by decide +kernel
theorem test_illFormed_coordScalar : Coord.ok ⟨1, 0, 64, 0⟩ = false := by decide +kernel
theorem test_illFormed_coordVector : Coord.ok ⟨0, 2, 0, 128⟩ = false := by decide +kernel
theorem test_illFormed_ownOffset : refOk ⟨1, 0, 0⟩ = false := by decide +kernel
theorem test_illFormed_loadOrder : Instr.wf (.ld32 7 0 0 0 ⟨0, 0, 0, 2, 0⟩) = false := by decide +kernel
theorem test_illFormed_storeOrder : Instr.wf (.st32 0 0 0 ⟨0, 0, 0, 1, 0⟩) = false := by decide +kernel
theorem test_illFormed_amoOrder : Instr.wf (.amoAnd 7 0 0 0 ⟨0, 0, 0, 5, 0⟩) = false := by decide +kernel
theorem test_illFormed_redOrder : Instr.wf (.redOr 0 0 0 ⟨0, 0, 0, 4, 0⟩) = false := by decide +kernel
theorem test_illFormed_scope : Instr.wf (.ld32 7 0 0 0 ⟨0, 0, 6, 0, 0⟩) = false := by decide +kernel
theorem test_illFormed_hint : Instr.wf (.st32 0 0 0 ⟨0, 4, 0, 0, 0⟩) = false := by decide +kernel
theorem test_illFormed_counter : Instr.wf (.ld32 6 0 0 0 ⟨0, 0, 0, 0, 0⟩) = false := by decide +kernel
theorem test_illFormed_tileRef : Instr.wf (.ldt32 7 7 0 0 ⟨0, 0, 0, 0, 0x200⟩ ⟨0, 0, 0, 0⟩) = false := by decide +kernel
theorem test_illFormed_ldtFull : Instr.wf (.ldt32 7 7 0 0 ⟨3, 0, 0, 0, 0⟩ ⟨0, 0, 0, 0⟩) = false := by decide +kernel
theorem test_illFormed_sttFull : Instr.wf (.stt32 7 0 0 ⟨1, 0, 0, 0, 0⟩ ⟨0, 0, 0, 0⟩) = false := by decide +kernel
theorem test_illFormed_fence : Instr.wf (.fence ⟨0, 0, 3, 0, 0⟩) = false := by decide +kernel
theorem test_illFormed_fenceRo : Instr.wf (.fenceRo ⟨0, 0, 0, 1, 0⟩) = false := by decide +kernel
theorem test_illFormed_cache : Instr.wf (.cflush 0 0 ⟨0, 1, 0, 0, 0⟩) = false := by decide +kernel
theorem test_illFormed_pref : Instr.wf (.pref 0 0 ⟨0, 0, 0, 1, 0⟩) = false := by decide +kernel
theorem test_illFormed_asyncFull : AMod.ok ⟨2, 0, 0, 0⟩ = false := by decide +kernel
theorem test_illFormed_asyncSize : Instr.wf (.cp 7 3 0 (.addr 0) (.addr 2) ⟨0, 0, 0, 0⟩) = false := by decide +kernel
theorem test_illFormed_asyncAddr : Instr.wf (.cp 7 0 0 (.addr 1) (.addr 2) ⟨0, 0, 0, 0⟩) = false := by decide +kernel
theorem test_illFormed_cpmSides : Instr.wf (.cpm 7 0 0 (.addr 0) (.addr 2) ⟨0, 0, 0, 0⟩) = false := by decide +kernel
theorem test_illFormed_cprOp : Instr.wf (.cpr 7 0 0 (.addr 0) (.addr 2) ⟨0, 1, 0, 0⟩) = false := by decide +kernel
theorem test_illFormed_putSides : Instr.wf (.put 7 0 0 (.tile 0 ⟨0, 0, 0⟩ ⟨0, 0, 0, 0⟩) (.addr 2) ⟨0, 0, 0, 0⟩) = false := by decide +kernel
theorem test_illFormed_gthScalar :
    Instr.wf (.gth 7 0 0 (.tile 0 ⟨0, 0, 0⟩ ⟨2, 0, 4, 0⟩) (.addr 2) ⟨0, 0, 0, 0⟩) = false := by decide +kernel
theorem test_illFormed_chuteRow :
    Instr.wf (.cpchute 7 0 0 (.tile 0 ⟨0, 0, 0⟩ ⟨0, 0, 1, 0⟩) (.addr 2) ⟨0, 0, 0, 0⟩) = false := by decide +kernel
theorem test_illFormed_scmpCode : Instr.wf (.scmp 0 6 0 0 (.reg 0)) = false := by decide +kernel
theorem test_illFormed_vcmpCode : Instr.wf (.vcmpF32 7 8 0 0 0) = false := by decide +kernel

/-! ## Words of the spec -/

theorem test_decode_class0 :
    decode 0 [0x04714509] = .ok (.sshl 5 5 (.imm 7)) ∧ decode 0 [0x00014022, 0] = .ok (.bnz 5 0) ∧
    decode 0 [0xED010113] = .ok (.scmpP 1 5 1 4 (.imm 16)) ∧ decode 0 [0x00050025] = .ok (.ret 20) ∧
    decode 0 [0x0C390915] = .ok (.sfromv 0 1 36 9 (.imm 3)) ∧ decode 0 [0x00008616] = .ok (.sballot 6 2) ∧
    decode 0 [0x00600717] = .ok (.spopc 7 (.reg 6)) ∧ decode 0 [0x00000532] = .ok (.mget 5) ∧
    decode 0 [0x00014033] = .ok (.mput 5) ∧ decode 0 [0x00008834] = .ok (.jread 8 2) := by
  refine ⟨?_, ?_, ?_, ?_, ?_, ?_, ?_, ?_, ?_, ?_⟩ <;> rfl

theorem test_decode_class1 :
    decode 1 [0xE1820542] = .ok (.vmulF32 7 5 4 6) ∧ decode 1 [0xE1820A43] = .ok (.vfmaF32 7 10 4 6) ∧
    decode 1 [0xE405_0B21] = .ok (.vshflXor 7 11 10 16) := by
  refine ⟨?_, ?_, ?_⟩ <;> rfl

theorem test_decode_class3 :
    decode 3 [0x20419006, 0x01D00040] = .ok (.ld128 2 2 3 16 ⟨0, 0, 3, 5, 0x40⟩) ∧
    decode 3 [0x7020840A, 0x01800000] = .ok (.st32 1 1 4 ⟨0, 0, 3, 0, 0⟩) ∧
    decode 3 [0x10610623, 0x01800000] = .ok (.amoMinN32 1 3 2 6 ⟨0, 0, 3, 0, 0⟩) ∧
    decode 3 [0x71E18539, 0x01800004] = .ok (.dredFaddF32 15 3 5 ⟨0, 0, 3, 0, 4⟩) := by
  refine ⟨?_, ?_, ?_, ?_⟩ <;> rfl

theorem test_decode_class4 :
    (∃ i, decode 4 [0x34819403, 0x01800000, 0] = .ok i ∧ encode i = [0x34819403, 0x01800000, 0]) := by
  exact ⟨_, rfl, rfl⟩

theorem test_decode_class5 :
    decode 5 [0x04104003] = .ok (.tlwait 1 (.imm 1)) ∧ decode 5 [0x04008704] = .ok (.tlread 7 2 0) ∧
    decode 5 [0x00018A07] = .ok (.chqClaim 10 6) ∧ decode 5 [0x00A18008] = .ok (.chqPub 6 (.reg 10)) ∧
    decode 5 [0x00018A09] = .ok (.chqWait 10 6) ∧ decode 5 [0x00A1800A] = .ok (.chqRel 6 (.reg 10)) ∧
    decode 5 [0x0030840B] = .ok (.waitq 4 2 (.reg 3)) ∧ decode 5 [0x0410850C] = .ok (.wake 5 2 (.imm 1)) ∧
    decode 5 [0x0000800D] = .ok (.mon 2) ∧ decode 5 [0x0070060E] = .ok (.mwait 6 (.reg 7)) ∧
    decode 5 [0x0090C005] = .ok (.wcwait 0 3 (.reg 9)) ∧ decode 5 [0x0090C105] = .ok (.wcwait 1 3 (.reg 9)) ∧
    decode 5 [0x0410C806] = .ok (.wcread 8 3 1) ∧ decode 5 [0] = .ok .barWg ∧ decode 5 [1] = .ok .barPen := by
  refine ⟨?_, ?_, ?_, ?_, ?_, ?_, ?_, ?_, ?_, ?_, ?_, ?_, ?_, ?_, ?_⟩ <;> rfl

theorem test_decode_class6 :
    decode 6 [0x00724400] = .ok (.talloc 4 9 7) ∧ decode 6 [0x00024001] = .ok (.tfree 9) ∧
    decode 6 [0x00024502] = .ok (.tquery 5 9) ∧ decode 6 [0x00308603] = .ok (.winreg 6 2 3) ∧
    decode 6 [0x04300604] = .ok (.winfree 6 (.imm 3)) ∧ decode 6 [0x00024805] = .ok (.rankq 8 9) ∧
    decode 6 [0x00000506, 2] = .ok (.sprd 5 2) ∧ decode 6 [0x00010007, 0x20] = .ok (.spwr 4 0x20) ∧
    decode 6 [0x0001000D, 1] = .ok (.evt 4 1) ∧ decode 6 [8] = .ok .trap ∧ decode 6 [9] = .ok .tretRetry ∧
    decode 6 [0x08000009] = .ok .tretSkip ∧ decode 6 [0x10000009] = .ok .tretKill ∧
    decode 6 [0x0020400E] = .ok (.tlbinvPage 1 (.reg 2)) := by
  refine ⟨?_, ?_, ?_, ?_, ?_, ?_, ?_, ?_, ?_, ?_, ?_, ?_, ?_, ?_⟩ <;> rfl

theorem test_decode_class0_literals :
    decode 0 [0x00001424, 0x40] = .ok (.call 20 0x40) ∧ decode 0 [0x00008023, 0x40] = .ok (.bp 0 2 0x40) ∧
    decode 0 [0x00000030, 0x44] = .ok (.mset 0 0x44) ∧ decode 1 [0xE0038760, 0x000002AC] = .ok (.vcvt 7 7 7 0 0 0x0A 0x2C) := by
  refine ⟨?_, ?_, ?_, ?_⟩ <;> rfl

theorem test_decode_class2 :
    decode 2 [0x30082010] = .ok (.mmaB8 1 2 1 0 32) ∧ decode 2 [0x0A192812] = .ok (.mmaB8Sp 0 1 4 3 2 40) ∧
    decode 2 [0x60324019] = .ok (.mmaMod 3 0 6 4 64) ∧ decode 2 [0x40008303, 0x01000006] = .ok (.tld 2 0 0 0 1 0 3 ⟨1, 0, 6, 0⟩) ∧
    decode 2 [0x03800204, 0] = .ok (.tldPerm 0 0 7 0 0 2 ⟨0, 0, 0, 0⟩) ∧
    decode 2 [0xF809C505, 0x01000002] = .ok (.tst 3 0 1 3 1 5 ⟨1, 0, 2, 0⟩) ∧ decode 2 [0xE0000400] = .ok (.tcfgw 0 4) ∧
    decode 2 [0xE8128006] = .ok (.tmovTr 5 2) := by
  refine ⟨?_, ?_, ?_, ?_, ?_, ?_, ?_, ?_⟩ <;> rfl

theorem test_decode_tile_and_copy :
    decode 3 [0x00E28910, 0x21100101, 0] = .ok (.ldt32 0 7 5 9 ⟨1, 0, 2, 1, 0x101⟩ ⟨0, 0, 0, 0⟩) ∧
    decode 3 [0x70828A14, 0x01800000, 0x00001000] = .ok (.stt32 4 5 10 ⟨0, 0, 3, 0, 0⟩ ⟨0, 0, 0, 1⟩) ∧
    decode 4 [0x88460500, 0x01800000, 0x00001000] =
      .ok (.cp 4 0 1 (.addr 12) (.tile 5 ⟨0, 0, 0⟩ ⟨0, 0, 0, 1⟩) ⟨0, 0, 3, 0⟩) := by
  refine ⟨?_, ?_, ?_⟩ <;> rfl

/-! ## States that meet the statements' hypotheses -/

/-- A clause of one word in issue on all lanes. -/
def clause : Clause := ⟨allLanes, 0x400, 0xA0000001, [0], 1, [], false, false, false, false, false, none, none⟩
/-- A span with that clause: s1 is 1, s2 an address, p0 lane 0. -/
def span0 : Span := { Span.fresh with clauses := [clause], s := [(1, 1), (2, 0x100), (3, 0x8000000000000000), (4, 97)], p := [(0, 1)] }
/-- A workgroup with one span. -/
def wg0 : Wg := { Wg.none with res := .resident, nspans := 1, span := [(0, span0)] }
/-- Its launch, one stage, whose record gives 16 tile registers, one span, a grid of one workgroup. -/
def launch0 : Launch := { Launch.none with
  live := true, admitted := true, asid := 5, state := 3
  record := [0, 0x01010000, 0x0000000100010001, 0x4000, 0x8000, 0x01000101] }
/-- Its paddock. -/
def pk0 : Paddock := { Paddock.none with
  cfg := { PaddockCfg.reset with valid := true, w := 8, h := 8, asids := [(5, 0)], trapFrame := 0x100 }, resident := true }
/-- The leaf of page 0: every access allowed, at physical 0x100000. -/
def tc0 : TcEntry := ⟨0, 5, 0, 12, 0x1001FD, 0x200000⟩
/-- The dies and stacks of HBM ready. -/
def ready0 : Store (BitVec 4) := (List.range 48).map (fun i => (i, 2))
/-- The machine with them. -/
def S0 : State := { State.reset with
  powered := true, readiness := ready0, paddock := [(0, pk0)], launch := [(0, launch0)], wg := [(0, wg0)], tc := [tc0]
  focus := ⟨0, 0, allLanes, 0x400, 1, 2⟩ }
/-- With another span. -/
def withSpan (sp : Span) : State := { S0 with wg := [(0, { wg0 with span := [(0, sp)] })] }
/-- With another workgroup. -/
def withWg (w : Wg) : State := { S0 with wg := [(0, w)] }

theorem wf_S0 : Canonical S0 :=
  ⟨by decide +kernel, by decide +kernel, by decide +kernel, fun g => by
    by_cases h : g = 0
    · subst h; decide +kernel
    · simp [S0, State.wgAt, Store.get, h, Wg.none]; decide⟩

theorem witness_ScalarArithmetic : 31 < (32#6).toNat := by decide

theorem witness_ScalarMoves :
    (∃ l, l < 32 ∧ laneIn S0.lanes l ∧ laneIn (S0.span.pr 0) l) ∧ (∀ l, l < 32 → laneIn S0.lanes l → laneIn (S0.span.pr 1) l = false) ∧
    (∀ l, l < 32 → laneIn S0.lanes l → laneIn (S0.span.pr 7) l) ∧ (∃ l, l < 32 ∧ laneIn S0.lanes l ∧ laneIn (S0.span.pr 0) l = false) ∧
    (1#6).toNat % 2 = 1 ∧ 31 < (32#6).toNat ∧ 5 < (6#3).toNat :=
  ⟨⟨0, by decide +kernel⟩, by decide +kernel, by decide +kernel, ⟨31, by decide +kernel⟩, by decide, by decide, by decide⟩

theorem witness_ControlTransfers :
    S0.span.sr 0 = 0 ∧ S0.span.sr 1 ≠ 0 ∧ S0.span.clauseOf S0.lanes = some clause ∧ bits (S0.span.sr 2) 63 48 = 0 ∧
    (S0.span.sr 3).getLsbD 63 ∧ bits ((withSpan { span0 with s := [(0, 0x1000000000000)] }).span.sr 0) 62 48 ≠ 0 := by
  refine ⟨?_, ?_, ?_, ?_, ?_, ?_⟩ <;> decide +kernel

/-- Mask j1 enrolled at address 0x400 on every lane. -/
def masks : State := withSpan { span0 with j := [(1, ⟨allLanes, 0, 0x400, []⟩)] }

theorem witness_RejoinMasks :
    ((masks.span.jm 1).enrol &&& masks.lanes ≠ 0 ∧ (masks.span.jm 1).addr = literalTarget masks.focus.hdrPc 0) ∧
    ((masks.span.jm 1).enrol ≠ 0 ∧ (masks.span.jm 1).addr ≠ literalTarget masks.focus.hdrPc 4) ∧
    ¬((∃ m, m < 8 ∧ m ≠ 0 ∧ (S0.span.jm m).enrol &&& S0.lanes ≠ 0 ∧ (S0.span.jm m).addr = literalTarget 0x400 4) ∨
      ((S0.span.jm 0).enrol ≠ 0 ∧ (S0.span.jm 0).addr ≠ literalTarget 0x400 4)) ∧
    ((masks.span.jm 1).held = 0 ∧ ∀ m, m < 8 → m ≠ 1 → (masks.span.jm m).enrol = 0 ∨ (masks.span.jm m).held ≠ (masks.span.jm m).enrol) := by
  refine ⟨by decide +kernel, by decide +kernel, ?_, by decide +kernel⟩
  rintro (⟨m, h, -, h', -⟩ | ⟨h, -⟩)
  · exact h' (by revert m; decide +kernel)
  · exact h (by decide +kernel)

theorem witness_VectorIntegers : 5 < (6#4).toNat ∧ 7 < (8#4).toNat := by decide

theorem witness_VectorTranscendentals :
    (∀ l, l < 32 → laneIn (S0.lanes &&& S0.span.pr 7) l → (S0.span.laneAt l).ended = false) ∧ (5#3).toNat < 6 ∧ S0.span.kc 5 < 63 ∧
    0x7F800000 < (0x7F800001#32 &&& 0x7FFFFFFF#32).toNat := by
  refine ⟨?_, ?_, ?_, ?_⟩ <;> decide +kernel

theorem witness_VectorConversions : code64 0x0B = true ∧ code64 0x0A = false := by decide

/-- %mq is 97. -/
def modulus : State := withSpan { span0 with mq := 97 }

theorem witness_VectorModular : modulus.span.mq ≠ 0 := by decide +kernel

/-- S0 with t0, t1 and t2 configured, and handles h0 to h2 of 8 × 8 elements of 4, 8 and 16 bytes. -/
def tiles (a b m : Dword) : State := withWg { wg0 with
  tcfg := [(0, a), (1, b), (2, m)]
  handle := [(0, 0x1003803800000001), (1, 0x1803803800000001), (2, 0x2003803800000001)] }

theorem witness_TileConfiguration :
    ((0#4).toNat < S0.tregsHere ∧ tcV 0x0007078A ∧ tcfgLegal S0.tregsHere 0 0x0007078A ∧ S0.here.absorbed 0 = false) ∧
    (let s := tiles 0x0007078A 0x0007078A 0
     s.tUsable 0 ∧ s.tUsable 1 ∧ tcW (s.here.cfg 0) = tcW (s.here.cfg 1) ∧ tcRows (s.here.cfg 0) = tcCols (s.here.cfg 1) ∧
     tcRows (s.here.cfg 0) * tcCols (s.here.cfg 0) = tcRows (s.here.cfg 1) * tcCols (s.here.cfg 1)) := by
  constructor <;> decide +kernel

/-- The same with the first granules of the handles full. -/
def filled (a b m : Dword) : State := { tiles a b m with
  wg := [(0, { (tiles a b m).here with granule := [(0, ⟨0, true, false⟩), (2 ^ 24, ⟨0, true, false⟩), (2 ^ 25, ⟨0, true, false⟩)] })] }

theorem tileBusy_none (s : State) (h : s.async = []) (w : s.span.tileWait = []) (gs : List (Nat × Nat)) : s.tileBusy gs = false := by
  simp [State.tileBusy, State.writesTo, h, w]

theorem witness_TileLoads :
    let s := tiles 0x0007078A 0x000F0085 0
    let m : MemMod := ⟨0, 0, 0, 0, 0⟩
    (s.active 7 ≠ 0 ∧ s.span.kc 0 < 63 ∧ (∀ l, l < 32 → laneIn (s.active 7) l → (s.span.laneAt l).ended = false) ∧
      (∀ w ∈ s.span.tileWait, w.own ≠ s.lanes) ∧ (∀ gs, s.tileBusy gs = false) ∧
      (∀ h, h < 3 → s.tileRef s.focus.g h m.ref = .ok (2 * h) (s.here.entryOf h) ∧ eWidth (s.here.entryOf h) = 4 * 2 ^ h ∧
        7 < eRows (s.here.entryOf h) ∧ 7 < eCols (s.here.entryOf h) ∧ (s.gran (2 * h) 0).full = false ∧
        ((filled 0x0007078A 0x000F0085 0).gran (2 * h) 0).full = true) ∧ ∀ h i, h < 3 → (s.gran (2 * h) i).poison = false) ∧
    (s.tUsable 0 ∧ s.tileRef s.focus.g 0 ⟨0, 0, 0⟩ = .ok 0 (s.here.entryOf 0) ∧ eWidth (s.here.entryOf 0) = tcW (s.here.cfg 0) ∧
      0 + tcRows (s.here.cfg 0) ≤ eRows (s.here.entryOf 0) ∧ 0 + tcCols (s.here.cfg 0) ≤ eCols (s.here.entryOf 0) ∧
      ((loadBytes 0 (s.here.entryOf 0) (rectElems (s.here.cfg 0) 0 0)).find? (fun b => !(s.gran 0 b.2.2.1).full)).isSome) ∧
    (s.tUsable 1 ∧ tcFmt (s.here.cfg 1) = 0x05 ∧ tcRows (s.here.cfg 1) = 1 ∧ tcPR (s.here.cfg 1) = false ∧
      tcCols (s.here.cfg 0) ≤ tcCols (s.here.cfg 1) ∧ eAlloc (s.here.entryOf 0) ∧ s.placeOf s.focus.g 0 = 0 ∧
      ∀ i, i < 8 → ∀ j, j < 8 → i < eRows (s.here.entryOf 0) ∧ s.here.tElem 1 0 j < eCols (s.here.entryOf 0)) := by
  refine ⟨⟨by decide +kernel, by decide +kernel, by decide +kernel, by decide +kernel, tileBusy_none _ rfl (by decide +kernel), by decide +kernel, ?_⟩, by decide +kernel,
    by decide +kernel, by decide +kernel, by decide +kernel, by decide +kernel, by decide +kernel, by decide +kernel,
    by decide +kernel, by decide +kernel⟩
  intro h i hh
  have : h = 0 ∨ h = 1 ∨ h = 2 := by omega
  rcases this with rfl | rfl | rfl <;> rfl

theorem witness_TileStores :
    let s := tiles 0x0007078A 0 0
    s.active 7 ≠ 0 ∧ (∀ gs, s.tileBusy gs = false) ∧ (∀ w ∈ s.span.tileWait, w.own ≠ s.lanes) ∧ s.active 7 &&& s.carriage = 0 ∧
    laneIn s.carriage s.lowLane = false ∧ s.tUsable 0 ∧ s.tileRef s.focus.g 0 ⟨0, 0, 0⟩ = .ok 0 (s.here.entryOf 0) ∧
    (∀ i, (s.gran 0 i).poison = false) ∧ eWidth (s.here.entryOf 0) = tcW (s.here.cfg 0) ∧
    0 + tcRows (s.here.cfg 0) ≤ eRows (s.here.entryOf 0) ∧ 0 + tcCols (s.here.cfg 0) ≤ eCols (s.here.entryOf 0) ∧
    (s.gran 0 0).full = false ∧ ((filled 0x0007078A 0 0).gran 0 0).full = true ∧
    ∀ b ∈ [(15, 1#8), (15, 2#8), (16, 3#8)], b.1 < 2 ^ 28 := by
  refine ⟨by decide +kernel, tileBusy_none _ rfl (by decide +kernel), by decide +kernel, by decide +kernel, by decide +kernel, by decide +kernel, by decide +kernel,
    fun i => rfl, ?_, ?_, ?_, ?_, ?_, ?_⟩ <;> decide +kernel

theorem witness_MatrixMultiply :
    mmaLegal ⟨0x10, fmtB8, false, false, false⟩ (tiles 0x001F07A0 0x00071FA0 0) 0 0 1 0 ∧
    mmaLegal ⟨0x13, fmtB8, true, true, false⟩ (tiles 0x001F07A0 0x00073FA0 0x00070784) 0 0 1 2 ∧
    mmaLegal ⟨0x14, fun f => f == 0x09, false, false, false⟩ (tiles 0x001F0789 0x00071F89 0) 0 0 1 0 ∧
    mmaLegal ⟨0x17, fun f => f == 0x0B, false, false, true⟩ (tiles 0x001F078B 0x00071F8B 0) 0 0 1 0 ∧
    mmaLegal ⟨0x18, fun f => f == 0x00 || f == 0x04, false, false, false⟩ (tiles 0x001F0780 0x00071F84 0) 0 0 1 0 ∧
    mmaLegal ⟨0x19, fun f => f == 0x0E, false, false, true⟩ (tiles 0x001F078E 0x00071F8E 0) 0 0 1 0 := by
  unfold mmaLegal; decide +kernel
/-- Address 0x100 passes every check of an access of the issuing set, at physical 0x100100: its translation is cached, and the line can
be reached, with room in L1. -/
def reaches (s : State) (acc : State.Access) : Bool :=
  !s.unreachable 0x100100 && s.memProg.isNone && s.carriage == 0 && !s.l1Full s.here.core &&
    decide ((s.cacheAt s.here.core 0x2002).fillDead = false ∧ (s.cacheAt s.here.core 0x2002).failed = none) &&
    decide ((s.dirAt 0x2002).state ≠ .P ∧ s.podFailed 0x2002 = false) && (s.l1Hit s.here.core s.asid 0x100 acc s.privileged).isNone &&
    s.tcHit (State.dieOf s.here.core) s.asid 0x100 acc s.privileged == some tc0 && s.leafPa tc0.leaf 12 0x100 == 0x100100

theorem atHand (s : State) (acc : State.Access) (page : Bool) (h : reaches s acc = true) :
    AtHand s 0x100 acc page ⟨0x100100, true, true, true⟩ := by
  simp only [reaches, Bool.and_eq_true, beq_iff_eq] at h
  exact .inr ⟨.inr (Option.isNone_iff_eq_none.1 h.1.1.2), tc0, h.1.2, by
    show _ = (⟨s.leafPa tc0.leaf 12 0x100, _, _, _⟩ : Xlat)
    rw [h.2]; rfl⟩

/-- Lanes that all address it are lanes of one line. -/
theorem oneLine (s : State) (S : Lanes) (addr : Nat → Dword) (size : Nat) (acc : State.Access) (page : Bool) (some : S ≠ 0)
    (at' : ∀ l, addr l = 0x100) (hs : 0x100 % size = 0) (h : reaches s acc = true) (canon : Canonical s) :
    OneLine s S addr size acc page (fun _ => 0x100100) 0x2002 := by
  have ah := atHand s acc page h
  simp only [reaches, Bool.and_eq_true, beq_iff_eq, Bool.not_eq_true', decide_eq_true_eq] at h
  obtain ⟨⟨⟨⟨⟨⟨⟨⟨h1, h2⟩, h3⟩, h4⟩, h5⟩, h6⟩, -⟩, -⟩, -⟩ := h
  exact ⟨some, fun l _ _ => ⟨by rw [at' l]; decide, by rw [at' l]; exact hs, rfl, by rw [at' l]; rfl, h1, _, by rw [at' l]; exact ah, rfl⟩,
    Option.isNone_iff_eq_none.1 h2, fun _ => by rw [h3]; simp, h4, h5, by decide, h6, canon⟩

theorem oneLine_S0 (size : Nat) (acc : State.Access) (page : Bool) (hs : 0x100 % size = 0) (h : reaches S0 acc = true) :
    OneLine S0 S0.lanes (S0.laneAddr 2 0 0) size acc page (fun _ => 0x100100) 0x2002 :=
  oneLine S0 _ _ size acc page (by decide +kernel) (fun l => rfl) hs h wf_S0

theorem reads_S0 : reaches S0 .read = true := by decide +kernel
theorem writes_S0 : reaches S0 .write = true := by decide +kernel

theorem settled_at (s : State) (n : Nat) (hn : isPod n = false)
    (h : s.dirAt n = DirEntry.idle ∧ s.podAt n = DirEntry.idle ∧ s.msgs = [] ∧ s.copiesOf n = []) : Settled s n ∧ LineFree s n := by
  obtain ⟨h1, h2, h3, h4⟩ := h
  have hm : ∀ m ∈ s.msgs, m.1.line ≠ n := by rw [h3]; intro m hm; cases hm
  have hp : s.podOk n .write = true := by simp [State.podOk, hn, h2, DirEntry.idle]
  refine ⟨{ state := ?_, queue := ?_, agents := ?_, pod := ⟨hp, by simp [State.podFailed, hn]⟩, still := hm, copies := .inl ?_ }, ⟨h1, h2, hn, h4, hm⟩⟩
  · rw [h1]; decide
  · rw [h1]; exact ⟨rfl, rfl⟩
  · rw [h1]; rfl
  · rw [h4]; intro e he; cases he
theorem settled_of (s : State) (h : s.dirAt 0x2002 = DirEntry.idle ∧ s.podAt 0x2002 = DirEntry.idle ∧ s.msgs = [] ∧ s.copiesOf 0x2002 = []) :
    Settled s 0x2002 ∧ LineFree s 0x2002 := settled_at s _ (by decide) h
theorem settled_S0 : Settled S0 0x2002 := (settled_of S0 (by decide +kernel)).1
theorem free_S0 : LineFree S0 0x2002 := (settled_of S0 (by decide +kernel)).2
theorem settledHere_S0 : SettledHere S0 0x2002 := ⟨settled_S0, by decide, by decide +kernel⟩

/-- S0 where core 0 has a read-only copy of the line for the launch. -/
def withCopy : State := { S0 with ro := [⟨0, 0x2002, 0, 7⟩] }
/-- S0 where core 1 holds the line alone, modified or clean. -/
def held (st : CacheState) : State := { S0 with
  cache := [(State.cacheKey 1 0x2002, { CacheLine.none with state := st })]
  dir := [(0x2002, { DirEntry.idle with state := .X, owner := 1 })] }

theorem canonical_of (s : State) (h1 : Memory.wf s.mem = true) (h2 : Store.wf CacheLine.none s.cache = true) (h3 : s.wg = S0.wg) :
    Canonical s :=
  ⟨h1, h2, by rw [h3]; exact wf_S0.wg, fun g => by have := wf_S0.span g; unfold State.wgAt at *; rw [h3]; exact this⟩

theorem reach_S0 (acc : State.Access) (h : reaches S0 acc = true) (size : Nat) (hs : size ∈ [1, 2, 4, 8, 16]) :
    OneLine S0 S0.lanes (S0.laneAddr 2 0 0) size acc false (fun _ => 0x100100) 0x2002 := by
  have : size = 1 ∨ size = 2 ∨ size = 4 ∨ size = 8 ∨ size = 16 := by simpa using hs
  rcases this with rfl | rfl | rfl | rfl | rfl <;> exact oneLine_S0 _ _ _ (by decide) h

theorem witness_LoadsRead :
    (∀ size, size ∈ [1, 2, 4, 8, 16] → OneLine S0 S0.lanes (S0.laneAddr 2 0 0) size .read false (fun _ => 0x100100) 0x2002) ∧
    State.stamped ⟨0, 0, 0, 0, 0⟩ = false ∧ LineFree S0 0x2002 ∧ S0.span.kc 0 < 63 ∧
    (Settled (held .M) 0x2002 ∧ ((held .M).dirAt 0x2002).state ≠ .I ∧ (held .M).holds 1 0x2002 = true ∧
      OneLine (held .M) S0.lanes (S0.laneAddr 2 0 0) 4 .read false (fun _ => 0x100100) 0x2002) ∧
    (∀ l, l < 32 → laneIn S0.lanes l → (S0.span.laneAt l).ended = false) ∧
    (OneLine withCopy withCopy.lanes (withCopy.laneAddr 2 0 0) 4 .read false (fun _ => 0x100100) 0x2002 ∧
      (withCopy.ro.find? (fun c => c.core == withCopy.here.core && c.line == 0x2002 && c.launch == withCopy.here.launchKey)).isSome) ∧
    (S0.ro.find? (fun c => c.core == S0.here.core && c.line == 0x2002 && c.launch == S0.here.launchKey) = none ∧ S0.atHand 0x2002 = true) ∧
    ({ S0 with cache := [(State.cacheKey 0 0x2002, { CacheLine.none with state := .S })] } : State).holds 0 0x2002 = true := by
  refine ⟨reach_S0 _ reads_S0, by decide, free_S0, by decide +kernel,
    ⟨⟨by decide +kernel, by decide +kernel, by decide +kernel, by decide +kernel, by decide +kernel, .inr ⟨by decide +kernel, 1, _, rfl, by decide +kernel⟩⟩,
      by decide +kernel, by decide +kernel, ?_⟩, by decide +kernel, ⟨?_, by decide +kernel⟩, by decide +kernel, by decide +kernel⟩
  · exact oneLine (held .M) _ _ _ _ _ (by decide +kernel) (fun l => rfl) (by decide) (by decide +kernel)
      (canonical_of _ (by decide +kernel) (by decide +kernel) rfl)
  · exact oneLine withCopy _ _ _ _ _ (by decide +kernel) (fun l => rfl) (by decide) (by decide +kernel)
      (canonical_of _ (by decide +kernel) (by decide +kernel) rfl)

/-- The translation of page 0 to memory of slot 1 of the own group. -/
def tcPod : TcEntry := ⟨0, 5, 0, 12, 0x1001FD + 2 ^ 46 + 2 ^ 56, 0x200000⟩
/-- The line of another device that address 0x100 then names. -/
def podLine : Nat := 2 ^ 49 + 2 ^ 39 + 0x2002
/-- The physical address of lane l, four bytes a lane. -/
def podPa (l : Nat) : Nat := 128 * podLine + 4 * l
/-- A state whose 32 lanes address the four-byte words of that line, which this device holds alone. -/
def peer : State := { withSpan { span0 with v := (List.range 32).map (fun l => (224 + l, BitVec.ofNat 32 (4 * l))) } with
  tc := [tcPod], port := [(0, ⟨2, 0, 0⟩)], readiness := ready0 ++ [(0x30, 2)], proxy := [(podLine, { CacheLine.none with state := .E })] }

theorem oneLine_peer (acc : State.Access) (tag : peer.l1Hit 0 5 0 acc false = none)
    (h : ∀ l, l < 32 → (peer.laneAddr 2 7 0 l).toNat < 2 ^ 48 ∧ (peer.laneAddr 2 7 0 l).toNat % 4 = 0 ∧ podPa l / 128 = podLine ∧
      podPa l % 128 = (peer.laneAddr 2 7 0 l).toNat % 128 ∧ peer.unreachable (podPa l) = false ∧
      peer.l1Hit peer.here.core peer.asid (peer.laneAddr 2 7 0 l).toNat acc peer.privileged = none ∧
      peer.tcHit (State.dieOf peer.here.core) peer.asid (peer.laneAddr 2 7 0 l).toNat acc peer.privileged = some tcPod ∧
      peer.leafPa tcPod.leaf 12 (peer.laneAddr 2 7 0 l).toNat = podPa l) :
    OneLine peer peer.lanes (peer.laneAddr 2 7 0) 4 acc false podPa podLine :=
  ⟨by decide +kernel, fun l hl _ => ⟨(h l hl).1, (h l hl).2.1, (h l hl).2.2.1, (h l hl).2.2.2.1, (h l hl).2.2.2.2.1, _,
      .inr ⟨.inr (h l hl).2.2.2.2.2.1, tcPod, (h l hl).2.2.2.2.2.2.1, rfl⟩, (h l hl).2.2.2.2.2.2.2⟩,
    by decide +kernel, fun _ => by decide +kernel, by decide +kernel, by decide +kernel, by decide, by decide +kernel,
    ⟨by decide +kernel, by decide +kernel, by decide +kernel, fun g => by
      by_cases e : g = 0
      · subst e; decide +kernel
      · simp [peer, withSpan, S0, State.wgAt, Store.get, e, Wg.none]; decide⟩⟩

/-- A store or an atomic on a line of another device. -/
theorem witness_PodLine :
    OneLine peer peer.lanes (peer.laneAddr 2 7 0) 4 .write false podPa podLine ∧ Settled peer podLine ∧ isPod podLine = true ∧
    peer.podHome podLine ≠ peer.mySlot ∧ ∀ x, x < 128 → ∃ l, l < 32 ∧ laneIn peer.lanes l ∧ podPa l % 128 ≤ x ∧ x < podPa l % 128 + 4 := by
  refine ⟨oneLine_peer _ (by decide +kernel) (by decide +kernel),
    ⟨by decide +kernel, by decide +kernel, by decide +kernel, by decide +kernel, by decide +kernel, .inl (by decide +kernel)⟩,
    by decide +kernel, by decide +kernel, by decide +kernel⟩

theorem witness_StoresWrite :
    (∀ size, size ∈ [1, 2, 4, 8, 16] → OneLine S0 S0.lanes (S0.laneAddr 2 0 0) size .write false (fun _ => 0x100100) 0x2002) ∧
    State.stamped ⟨0, 0, 0, 0, 0⟩ = false ∧ Settled S0 0x2002 := ⟨reach_S0 _ writes_S0, by decide, settled_S0⟩

theorem witness_ScalarMemory :
    (let S := BitVec.twoPow 32 S0.lowLane
     let a := S0.span.sr 2 + (0#20).signExtend 64
     OneLine S0 S (fun _ => a) 8 .read false (fun _ => 0x100100) 0x2002 ∧ OneLine S0 S (fun _ => a) 8 .write false (fun _ => 0x100100) 0x2002) ∧
    State.stamped ⟨0, 0, 0, 0, 0⟩ = false ∧ LineFree S0 0x2002 ∧ Settled S0 0x2002 :=
  ⟨⟨oneLine S0 _ _ _ _ _ (by decide +kernel) (fun l => rfl) (by decide) reads_S0 wf_S0,
    oneLine S0 _ _ _ _ _ (by decide +kernel) (fun l => rfl) (by decide) writes_S0 wf_S0⟩, by decide, free_S0, settled_S0⟩

/-- S0 with a launch whose record is empty: it has no status word in memory. -/
def bare : State := { S0 with launch := [(0, { launch0 with record := [] })] }
theorem settledHere_of (s : State) (h : s.dirAt 0x2002 = DirEntry.idle ∧ s.podAt 0x2002 = DirEntry.idle ∧ s.msgs = [] ∧ s.copiesOf 0x2002 = [])
    (hp : s.proxyAt 0x2002 = CacheLine.none) : SettledHere s 0x2002 := ⟨(settled_of s h).1, by decide, hp⟩

theorem witness_AtomicsAct :
    (∀ op : AmoOp, State.amoSize op ∈ [1, 2, 4, 8, 16]) ∧
    (∀ size, size ∈ [1, 2, 4, 8, 16] → OneLine S0 S0.lanes (S0.laneAddr 2 0 0) size .write false (fun _ => 0x100100) 0x2002) ∧
    State.stamped ⟨0, 0, 0, 0, 0⟩ = false ∧ SettledHere S0 0x2002 ∧
    (∀ l, l < 32 → laneIn S0.lanes l → (S0.span.laneAt l).ended = false) ∧
    SettledHere bare 0x2002 ∧ OneLine bare bare.lanes (bare.laneAddr 2 0 0) 4 .write false (fun _ => 0x100100) 0x2002 ∧
    bare.launchHere.record = [] := by
  refine ⟨fun op => by cases op <;> decide, reach_S0 _ writes_S0, by decide, settledHere_S0, by decide +kernel,
    settledHere_of _ (by decide +kernel) (by decide +kernel), ?_, by decide +kernel⟩
  exact oneLine bare _ _ _ _ _ (by decide +kernel) (fun l => rfl) (by decide) (by decide +kernel)
    (canonical_of _ (by decide +kernel) (by decide +kernel) rfl)

/-- S0 where core 0 holds the line in drift under the tag of dred.fadd.f32. -/
def drifting : State := { S0 with
  cache := [(State.cacheKey 0 0x2002, { CacheLine.none with state := .D, tag := ⟨1, 0⟩ })]
  dir := [(0x2002, { DirEntry.idle with state := .D, tag := ⟨1, 0⟩, ptrs := [0] })] }

theorem witness_DriftReductions :
    (OneLine drifting drifting.lanes (drifting.laneAddr 2 0 0) 4 .write false (fun _ => 0x100100) 0x2002 ∧
      (drifting.cacheAt drifting.here.core 0x2002).state = .D ∧ (drifting.cacheAt drifting.here.core 0x2002).tag = ⟨1, 0⟩) ∧
    (OneLine S0 S0.lanes (S0.laneAddr 2 0 0) 8 .write false (fun _ => 0x100100) 0x2002 ∧ LineFree S0 0x2002 ∧
      S0.driftFull S0.here.core = false ∧ S0.driftRoom 0x2002 = true) ∧
    (modulus.span.mq ≠ 0) ∧ [1, 2].Perm [2, 1] ∧ (drifting.dirAt 0x2002).lostHolder = false ∧ isPod 0x2002 = false := by
  refine ⟨⟨?_, by decide +kernel, by decide +kernel⟩, ⟨reach_S0 _ writes_S0 8 (by decide), free_S0, by decide +kernel, by decide +kernel⟩,
    witness_VectorModular, .swap 2 1 [], by decide +kernel, by decide⟩
  exact oneLine drifting _ _ _ _ _ (by decide +kernel) (fun l => rfl) (by decide) (by decide +kernel)
    (canonical_of _ (by decide +kernel) (by decide +kernel) rfl)

/-- S0 with lane 0 alone in issue. -/
def lane0 : State := { S0 with focus := { S0.focus with lanes := 1 } }

theorem witness_FencesAndCaches :
    (State.stamped ⟨0, 0, 0, 0, 0⟩ = false ∧ State.stamped ⟨0, 0, 3, 4, 0⟩ = true ∧
      (Store.get 0 S0.lamport S0.here.core + 1 - S0.beacon).toNat ≤ 2 ^ 44) ∧
    (lanesOf lane0.lanes = [0] ∧ lane0.checkAddr lane0.here.core lane0.here.paddock lane0.asid (lane0.laneAddr 2 0 0 0) 1 1 .read
        lane0.privileged false = (lane0, .ok (.phys ⟨0x100100, true, true, true⟩ none)) ∧
      (lane0.cacheAt lane0.here.core (0x100100 / 128)).state = .I ∧ lane0.unreachable 0x100100 = false ∧
      (lane0.dirAt (0x100100 / 128)).state ≠ .P ∧ lane0.l1Full lane0.here.core = false ∧ lane0.sentOut lane0.here.core (0x100100 / 128) = false) ∧
    (let s := { peer with focus := { peer.focus with lanes := 1 }, proxy := [] }
     lanesOf s.lanes = [0] ∧ s.checkAddr s.here.core s.here.paddock s.asid (s.laneAddr 2 7 0 0) 1 1 .read s.privileged false =
        (s, .ok (.phys ⟨128 * podLine, true, true, true⟩ none)) ∧
      isPod podLine = true ∧ (s.proxyAt podLine).state = .I ∧ s.unreachable (128 * podLine) = false ∧ (s.dirAt podLine).state ≠ .P ∧
      s.sentOut 0 podLine = false ∧ s.podHome podLine ≠ s.mySlot) ∧
    (SettledHere S0 0x2002 ∧ OneLine S0 S0.lanes (S0.laneAddr 2 0 0) 1 .read false (fun _ => 0x100100) 0x2002 ∧
      OneLine S0 S0.lanes (S0.laneAddr 2 0 0) 1 .read true (fun _ => 0x100100) 0x2002 ∧ S0.copiesOf 0x2002 = []) ∧
    (SettledHere (held .M) 0x2002 ∧ OneLine (held .M) S0.lanes (S0.laneAddr 2 0 0) 1 .read true (fun _ => 0x100100) 0x2002 ∧
      ∃ e ∈ (held .M).copiesOf 0x2002, e.2.state = .M) := by
  refine ⟨by decide +kernel, by decide +kernel, by decide +kernel, ⟨settledHere_S0, oneLine_S0 _ _ _ (by decide) reads_S0, oneLine_S0 _ _ _ (by decide) reads_S0,
    by decide +kernel⟩, ⟨witness_LoadsRead.2.2.2.2.1.1, by decide, by decide +kernel⟩, ?_, by decide +kernel⟩
  exact oneLine (held .M) _ _ _ _ _ (by decide +kernel) (fun l => rfl) (by decide) (by decide +kernel)
    (canonical_of _ (by decide +kernel) (by decide +kernel) rfl)
/-- S0 with a chute on handle 0 of core 0 from stage 0 to stage 0, its handle bound; c gives the rest of the chute. -/
def chuting (c : Chute) : State := { withWg { wg0 with handle := [(0, 0x1003803800000005)] } with
  chute := [(chuteKey 0 0 0 0 0, { c with live := true, slotsM1 := 7, width := 4, colsM1 := 7 })] }

theorem witness_AsyncOperationsIssue :
    (let l := fun (s : State) (dst : ASide) => State.newUnit (s.sideAt (.addr 0) 0) (s.sideAt dst 0) 4
     let key := chuteKey 0 0 0 0 0
     (S0.lanes &&& S0.span.pr 7 ≠ 0 ∧ (S0.here.tlAt 0).i - ((S0.here.tlAt 0).c + (S0.here.tlAt 0).done.length) < 4096) ∧
     S0.penBad (.addr 0) = false ∧
     S0.checkSides (S0.sideAt (.addr 0) 0) (S0.sideAt (.addr 2) 0) 4 4 false [l S0 (.addr 2)] = (S0, .ok [l S0 (.addr 2)]) ∧
     (∃ us, us ≠ [] ∧ S0.laneUnits .cpm 4 (.addr 0) (.addr 2) 0 = (S0, .ok us)) ∧
     S0.lanes &&& S0.span.pr 7 = S0.lanes ∧ (S0.chuteAt (S0.chuteFor S0.here.paddock S0.here.serial S0.here.core 0 S0.here.stage)).live = false ∧
     (let s := chuting Chute.none
      let dst : ASide := .tile 0 ⟨0, 0, 0⟩ ⟨0, 0, 0, 0⟩
      let u := State.newUnit (s.sideAt (.addr 0) 0) (.chute key 0 0) 4
      s.penBad dst = false ∧ s.checkSides (s.sideAt (.addr 0) 0) (.chute key 0 0) 4 4 false [u] = (s, .ok [u]) ∧
      s.chuteFor s.here.paddock s.here.serial s.here.core 0 s.here.stage = key ∧
      (s.chuteAt key).live = true ∧ (s.chuteAt key).fromStage = s.here.stage)) := by
  refine ⟨by decide +kernel, by decide +kernel, rfl, ⟨_, ?_, rfl⟩, by decide +kernel, by decide +kernel, by decide +kernel, rfl, by decide +kernel,
    by decide +kernel, by decide +kernel⟩
  exact List.cons_ne_nil _ _

/-- A class 4 operation of the workgroup of S0 with these units. -/
def op0 (kind : AsyncKind) (us : List AUnit) : AsyncOp :=
  ⟨9, 0, ⟨0, 0, 0, 0⟩, 0, 0, 5, false, 0, 0, 1, kind, false, false, us, none, false, false⟩
/-- A unit of four bytes that have arrived, to address 0x300. -/
def unit0 : AUnit := ⟨.data 5, .mem 0x300, 4, false, .pending, none⟩
/-- S0 with an operation. -/
def withOp (a : AsyncOp) : State := { S0 with async := [a] }
/-- S0 with another paddock. -/
def withPk (p : Paddock) : State := { S0 with paddock := [(0, p)] }

/-- A record that can be read. -/
def readsOk (r : State × RecAns) : Bool := match r.2 with
  | .ok _ _ => true
  | _ => false
theorem readsOk_of {r : State × RecAns} (h : readsOk r = true) : ∃ s ds pa, r = (s, .ok ds pa) := by
  obtain ⟨s, x⟩ := r
  cases x <;> first | exact ⟨_, _, _, rfl⟩ | cases h

theorem witness_LaunchesArePlaced :
    (S0.lanes &&& S0.span.pr 7 ≠ 0 ∧ S0.recordCheck 0 5 false (S0.span.vr 1 0 ++ S0.span.vr 0 0) = (S0, .ok ()) ∧
      bits ((withSpan { span0 with v := [(0, 32)] }).span.vr 0 0) 31 0 % 64 ≠ 0 ∧
      bits ((withSpan { span0 with v := [(32, 0x10000)] }).span.vr 1 0 ++ S0.span.vr 0 0) 63 48 ≠ 0) ∧
    (let s := withOp (op0 (.launch 0 false) [])
     s.launchReady = some (op0 (.launch 0 false) []) ∧ (op0 (.launch 0 false) []).noBegin = false ∧ ∃ s1 ds pa, s.readRecord 0 5 false 0 = (s1, .ok ds pa)) ∧
    ((withPk { pk0 with queue := List.replicate 4096 ⟨0, 0⟩ }).pk 0).queue.length = 4096 ∧
    ((S0.pk 0).cfg.valid = true ∧ ((S0.pk 0).cfg.asids.head?.map Prod.fst).getD 0 = 5 ∧ (S0.pk 0).queue.length < 4096 ∧
      bits (0x20 : Dword) 63 48 = 0 ∧ (0x20#64).toNat % 64 ≠ 0 ∧ S0.recordCheck 0 5 false 0 = (S0, .ok ()) ∧
      ∃ s2 ds pa, S0.readRecord 0 5 false 0 = (s2, .ok ds pa)) ∧
    ∃ s1 m, ({ S0 with tc := [], dir := [(0, { DirEntry.idle with state := .BFwd })] } : State).recordCheck 0 5 false 0 = (s1, .wait m) := by
  refine ⟨⟨by decide +kernel, by decide +kernel, by decide +kernel, by decide +kernel⟩, ⟨by decide +kernel, rfl, readsOk_of (by decide +kernel)⟩, ?_,
    ⟨by decide +kernel, by decide +kernel, by decide +kernel, by decide, by decide, by decide +kernel, readsOk_of (by decide +kernel)⟩, _, _, rfl⟩
  exact List.length_replicate

theorem witness_AsyncUnitsLand :
    (let a := op0 .cp [unit0, unit0]
     let s := withOp a
     s.asyncAt 9 = some a ∧ a.suspended = false ∧ a.noBegin = false ∧ a.units[0]? = some unit0 ∧ s.landWhole a unit0 = none ∧ laneIn s.carriage 0 = false ∧
     UnitReads s a 4 unit0.src 5 ∧ UnitWrites s a 4 unit0.dst) ∧
    (let s := { withSpan span0 with async := [op0 .cp [{ unit0 with dst := .tile 0 ⟨0, 0, 0, 0⟩ 0 0 0 false }]]
                                    wg := [(0, { wg0 with handle := [(0, 0x1003803800000001)] })] }
     UnitWrites s (op0 .cp []) 4 (.tile 0 ⟨0, 0, 0, 0⟩ 0 0 0 false)) ∧
    UnitWrites (chuting Chute.none) (op0 .cp []) 4 (.chute (chuteKey 0 0 0 0 0) 0 0) ∧
    (let key := chuteKey 0 0 0 0 0
     let s := { chuting { Chute.none with prodWait := [(2 ^ 50 + 9, 0, 0)] } with async := [op0 (.cpchute key none) [unit0]] }
     s.engineClaim = some (key, s.chuteAt key)) := by
  refine ⟨⟨by decide +kernel, by decide +kernel, by decide +kernel, by decide +kernel, by decide +kernel, by decide +kernel, rfl, ?_⟩, ?_,
    ⟨by decide +kernel, by decide +kernel, fun h => (by cases h), by decide +kernel, by decide +kernel, by decide +kernel⟩, by decide +kernel⟩
  · exact ⟨⟨0x100300, true, true, true⟩, ⟨by decide, by decide, by decide, by decide +kernel, .inr ⟨.inr (by decide +kernel), tc0, by decide +kernel,
      by decide +kernel⟩⟩, (settled_at _ _ (by decide) (by decide +kernel)).1, by decide⟩
  · exact ⟨0, _, by rfl, by decide +kernel, fun h => (by cases h), by decide +kernel, by decide +kernel, by decide +kernel⟩

theorem witness_Barriers :
    Canonical S0 ∧ S0.here.res = .resident ∧ S0.lanes ≠ 0 ∧ S0.launchHere.key = S0.here.launchKey ∧ S0.launchHere.staged = false ∧
    S0.launchHere.gridBar = false ∧
    (let s := { S0 with launch := [(0, { launch0 with record := [0, 0x0002000001010000] })] }
     s.launchHere.staged = false ∧ s.launchHere.gridBar = true ∧ s.launchHere.key = s.here.launchKey) := by
  refine ⟨wf_S0, ?_, ?_, ?_, ?_, ?_, ?_⟩ <;> decide +kernel

/-- S0 with timeline 0 as given. -/
def withTl (t : Timeline) : State := withWg { wg0 with tl := [(0, t)] }
/-- A window of the launch of S0 for region 3. -/
def window0 : Window := { Window.none with valid := true, region := 3, size := 256, base := 0x100, landed := 4 }
/-- S0 with that window. -/
def withWindow : State := withPk { pk0 with window := [(7, window0)] }

theorem witness_TimelinesAndWindowCounters :
    (let s := withTl ⟨2, 3, none, [], []⟩
     (s.span.opB (.imm 1)).toNat ≤ (s.here.tlAt 0).c ∧ (s.here.tlAt 0).mark = none ∧ (s.here.tlAt 0).c < (s.span.opB (.imm 3)).toNat) ∧
    (let s := withTl ⟨2, 3, some ⟨2, 0xFF, 0x100⟩, [], []⟩
     (s.here.tlAt 0).mark = some ⟨2, 0xFF, 0x100⟩ ∧ (s.here.tlAt 0).errors = [] ∧ (s.span.opB (.imm 2)).toNat ≤ (s.here.tlAt 0).c) ∧
    (let s := withTl ⟨2, 3, some ⟨1, 0x06, 0x100⟩, [], []⟩
     (s.here.tlAt 0).mark = some ⟨1, 0x06, 0x100⟩ ∧ (s.here.tlAt 0).errors = [] ∧ (0x06#8) ≠ 0xFF#8) ∧
    (withSpan { span0 with clauses := [{ clause with stale := some 1 }] }).staleHere = true ∧ withWindow.staleHere = false ∧
    S0.windowOf S0.here.paddock S0.here.serial 3 = none ∧
    (withWindow.windowOf withWindow.here.paddock withWindow.here.serial 3 = some (7, window0) ∧
      (withWindow.span.opB (.imm 4)).toNat ≤ window0.landed.toNat ∧ window0.acked.toNat < (withWindow.span.opB (.imm 4)).toNat) := by
  refine ⟨?_, ?_, ?_, ?_, ?_, ?_, ?_⟩ <;> decide +kernel

theorem witness_Chutes :
    (let c := (chuting Chute.none).chuteAt (chuteKey 0 0 0 0 0)
     c.live = true ∧ c.fromStage = 0 ∧ c.toStage = 0 ∧ c.prodWait = [] ∧ c.claimed.getLsbD c.wptr.toNat = false) ∧
    (let c := (chuting { Chute.none with claimed := 1, wptr := 1 }).chuteAt (chuteKey 0 0 0 0 0)
     0 ≤ c.slotsM1.toNat ∧ c.claimed.getLsbD 0 = true ∧ c.full.getLsbD 0 = false ∧ c.engine.getLsbD 0 = false) ∧
    (let c := (chuting { Chute.none with claimed := 1, full := 1, wptr := 1 }).chuteAt (chuteKey 0 0 0 0 0)
     c.consWait = [] ∧ c.full.getLsbD c.rptr.toNat = true ∧ c.taken.getLsbD c.rptr.toNat = false) ∧
    (let c := (chuting { Chute.none with claimed := 1, full := 1, wptr := 1, taken := 1, rptr := 1 }).chuteAt (chuteKey 0 0 0 0 0)
     c.taken.getLsbD 0 = true ∧ c.slotsM1.toNat < 8) ∧
    (S0.chuteAt (chuteKey 0 0 0 0 0)).live = false := by
  refine ⟨?_, ?_, ?_, ?_, ?_⟩ <;> decide +kernel

theorem witness_WaitersAndMonitors :
    S0.waiterAnswer = none ∧
    (S0.span.node = none ∧ S0.waiterWord (S0.span.sr 2) = (S0, .ok 0x100100) ∧ isPod (0x100100 / 128) = false ∧
      S0.loadHome (State.corePtr S0.here.core) (0x100100 / 128) (some S0.here.paddock) = .ok S0 ∧
      (S0.dirAt (0x100100 / 128)).state ≠ .P ∧ S0.viewBytes 0x100100 4 = (S0.span.opB (.imm 0)).toNat % 2 ^ 32 ∧
      S0.viewBytes 0x100100 4 ≠ (S0.span.opB (.imm 1)).toNat % 2 ^ 32 ∧ S0.queueAt (0x100100 * 2 ^ 17 + 65536) = none ∧
      (S0.waitq.filter (fun q => q.paddock == S0.here.paddock)).length < 1024) ∧
    (1024 ≤ ((List.range 1024).map (fun i => (⟨i, i, 0, 0, [(0, 0)]⟩ : WaitQueue))).length) ∧
    (let s := { S0 with waitq := [⟨0x100100 * 2 ^ 17 + 65536, 0x100100, 65536, 0, [(0, 0)]⟩] }
     s.queueAt (0x100100 * 2 ^ 17 + 65536) ≠ none ∧ ∀ e ∈ ((s.queueAt (0x100100 * 2 ^ 17 + 65536)).map (·.nodes)).getD [], State.nodePeer e = none) ∧
    ((withSpan { span0 with node := some ⟨0, allLanes, true⟩ }).span.node = some ⟨0, allLanes, true⟩ ∧ allLanes &&& S0.lanes ≠ 0) ∧
    (S0.checkAddr S0.here.core S0.here.paddock S0.asid (S0.span.sr 2) 1 1 .read S0.privileged false =
      (S0, .ok (.phys ⟨0x100100, true, true, true⟩ none)) ∧ S0.unreachable 0x100100 = false) ∧
    (let s := { S0 with readiness := [] }
     s.checkAddr s.here.core s.here.paddock s.asid (s.span.sr 2) 1 1 .read s.privileged false =
      (s, .ok (.phys ⟨0x100100, true, true, true⟩ none)) ∧ s.unreachable 0x100100 = true) ∧
    S0.span.mon = none ∧ (withSpan { span0 with mon := some ⟨0x2002, true⟩ }).span.mon = some ⟨0x2002, true⟩ ∧
    (withSpan { span0 with mon := some ⟨0x2002, false⟩ }).span.mon = some ⟨0x2002, false⟩ := by
  refine ⟨?_, ⟨?_, ?_, ?_, ?_, ?_, ?_, ?_, ?_, ?_⟩, by rw [List.length_map, List.length_range], ?_, ?_, ?_, ?_, ?_, ?_, ?_⟩ <;> decide +kernel

theorem witness_TileTable :
    let s := fun x : Dword => withSpan { span0 with s := [(1, x)] }
    let legal := fun x : Dword => bits x 34 0 = 0 ∧ bits x 63 62 < 3 ∧ bits x 61 59 ≤ 4
    (¬legal 1 ∧ legal 0x17FFFFF800000000 ∧ legal 0x5003803800000000 ∧ legal 0x9003803800000000) ∧
    ((S0.here.entryOf 0).getLsbD 0 = false ∧ S0.launchHere.level0 S0.here.stage < State.level0Used S0.here + 2 ^ 26) ∧
    (∀ c ∈ (s 0x5003803800000000).penCores S0.here, S0.launchHere.stripe 256 ≤ S0.tileFree c) ∧
    S0.pool2FreeOn S0.here.paddock (State.dieOf S0.here.core) < (256 + 127) / 128 ∧ (∀ x ∈ (tiles 0 0 0).span.tileWait, x.own = (tiles 0 0 0).lanes) ∧
    (((tiles 0 0 0).here.entryOf 0).getLsbD 0 = true ∧ ((tiles 0 0 0).here.entryOf 0).getLsbD 2 = false ∧ (tiles 0 0 0).span.tileWait = []) ∧
    (∃ x ∈ (withSpan { span0 with tileWait := [{ (S0.tileStart 1 0 [] [] [] 7) with own := 1 }] }).span.tileWait, x.own ≠ S0.lanes) ∧
    ((chuting Chute.none).here.entryOf 0).getLsbD 2 = true := by
  refine ⟨?_, ?_, ?_, ?_, ?_, ?_, ?_, ?_⟩ <;> decide +kernel

/-- A full window table. -/
def fullTable : Store Window := (List.range 1024).map (fun i => (i, { window0 with region := 4 }))
/-- A paddock of job 9 with a table of ranks. -/
def ranked (exc : Store Dword) (rng : Store (BitVec 128)) : State :=
  withPk { pk0 with cfg := { pk0.cfg with job := 9 }, rankExc := exc, rankRange := rng, rankMap := [(3, 0x21)] }

theorem get_map {α : Type} (d v : α) (xs : List Nat) (i : Nat) (h : i ∈ xs) : Store.get d (xs.map (fun n => (n, v))) i = v := by
  induction xs with
  | nil => cases h
  | cons x xs ih =>
    by_cases e : i = x
    · simp [Store.get, e]
    · simp only [List.map, Store.get, e, if_false]; exact ih ((List.mem_cons.1 h).resolve_left e)

theorem get_absent {α : Type} (d : α) (f : Nat → α) (xs : List Nat) {i : Nat} (h : i ∉ xs) :
    Store.get d (xs.map (fun n => (n, f n))) i = d := by
  induction xs with
  | nil => rfl
  | cons x xs ih =>
    simp only [List.mem_cons, not_or] at h
    simp only [List.map, Store.get, h.1, if_false]; exact ih h.2

theorem witness_WindowsAndRanks :
    (let bad := fun x : Dword => bits x 63 48 ≠ 0 ∨ bits x 7 5 ≠ 0 ∨ bits x 47 8 * 256 = 0 ∨ 2 ^ 36 < bits x 47 8 * 256
     bad 1 ∧ ¬bad 0x103 ∧ bits (0x100 : Dword) 63 48 = 0 ∧ (0x100#64).toNat % 256 = 0 ∧ (0x80#64).toNat % 256 ≠ 0) ∧
    (S0.windowOf 0 S0.here.serial 3 = none ∧ (Store.get Window.none (S0.pk 0).window 0).valid = false ∧
      withWindow.windowOf 0 withWindow.here.serial 3 = some (7, window0)) ∧
    (∀ i, i < 1024 → (Store.get Window.none fullTable i).valid = true) ∧
    (bits (0x100 : Dword) 63 22 = 0 ∧ (S0.resolve 0 0 5).2 = none ∧
      ((ranked [(0, 0x800000B000C00005)] []).resolve 0 0 5).2 = some ⟨3, 12, 1⟩) ∧
    (let s := ranked [] [(0, 0x80000000000000000E00600000800000)]
     (s.pk 0).cfg.job ≠ 0 ∧ (s.resolve 0 0 1).2 = some ⟨3, 1, 0⟩ ∧ (s.resolve 0 0 2).2 = none) := by
  refine ⟨?_, ?_, fun i h => by rw [fullTable, get_map _ _ _ _ (List.mem_range.2 h)]; rfl, ?_, ?_⟩ <;> decide +kernel

/-- S0 with every lane in a handler at a level. -/
def inHandler (lv : Nat) : State :=
  withSpan { span0 with lane := (List.range 32).map (fun i => (i, { Lane.fresh with level := lv })) }

theorem witness_SystemRegisters :
    (let odd := fun x : Dword => x.toNat % 2 = 1 ∧ 3 ≤ x.toNat ∧ x.toNat < 2 ^ 62
     odd (S0.span.sr 4) ∧ ¬odd (S0.span.sr 1) ∧ ¬odd (S0.span.sr 2)) ∧
    (S0.span.laneAt (State.lowest S0.lanes)).level = 0 ∧
    ((inHandler 1).span.laneAt (State.lowest (inHandler 1).lanes)).level ≠ 0 := by
  refine ⟨?_, ?_, ?_⟩ <;> decide +kernel

/-- Level 2 with a dirty line of address space 0 in core 0. -/
def dirty : State := { inHandler 2 with
  cache := [(State.cacheKey 0 0x2002, { CacheLine.none with state := .M, data := 5, tags := [⟨0, 0, true, true⟩] })]
  dir := [(0x2002, { DirEntry.idle with state := .X, owner := 0 })] }

theorem witness_TranslationInvalidation :
    (S0.span.laneAt (State.lowest S0.lanes)).level ≠ 2 ∧
    (((inHandler 2).span.laneAt (State.lowest (inHandler 2).lanes)).level = 2 ∧ (inHandler 2).cache = []) ∧
    ((dirty.span.laneAt (State.lowest dirty.lanes)).level = 2 ∧ (dirty.dirAt 0x2002).state = .X ∧
      (∃ c, dirty.cache = [(State.cacheKey 0 0x2002, c)] ∧ c.state = .M ∧ ∃ y ∈ c.tags, y.asid = bits (dirty.span.sr 0) 15 0) ∧
      (dirty.dirAt 0x2002).queue = [] ∧ (dirty.dirAt 0x2002).held = [] ∧ dirty.msgs = []) ∧
    Store.wf Paddock.none S0.paddock = true := by
  refine ⟨by decide +kernel, by decide +kernel, ⟨by decide +kernel, by decide +kernel, ⟨_, rfl, by decide +kernel⟩, by decide +kernel⟩,
    by decide +kernel⟩

/-- S0 with an exception of a code on every lane, at a level; the launch's handler is at 0x4000, the privileged one at h. -/
def trapping (code : Byte) (lv : Nat) (mask : Bool) (h : Dword) : State :=
  { withPk { pk0 with cfg := { pk0.cfg with handler := h } } with
    wg := [(0, { wg0 with span := [(0, { span0 with
      clauses := [], traps := [⟨allLanes, (List.range 32).map (fun i => (i, code)), 0x404, []⟩], trapMask := mask
      lane := (List.range 32).map (fun i => (i, { Lane.fresh with level := lv })) })] })] }

/-- What storing a frame gives: it is stored and the span's workgroup stands as it was, it waits, or it cannot be stored. -/
def frameTest (s : State) (r : State.FrameAns Unit) : Option Bool := match r with
  | .ok a () => some (decide (a.spanAt 0 0 = s.spanAt 0 0 ∧ a.wgAt 0 = s.wgAt 0))
  | .wait _ => some false
  | .bad _ => none

theorem witness_TakingAnException :
    (let at' := fun (s : State) (c : Byte) (lv : Nat) => ∃ p, (s.spanAt 0 0).traps = [p] ∧ (s.spanAt 0 0).pending = [] ∧ State.trapCode p = c ∧
       ((s.spanAt 0 0).laneAt (State.lowest p.lanes)).level = lv ∧ lv = (s.spanAt 0 0).openLevel ∧ (s.spanAt 0 0).clauses = []
     at' (trapping 0x11 0 false 0) 0x11 0 ∧ at' (trapping 0x10 1 false 0) 0x10 1 ∧ at' (trapping 0x10 2 true 0) 0x10 2 ∧
     at' (trapping 0x11 1 true 0) 0x11 1 ∧ at' (trapping 0x06 2 true 0x8000) 0x06 2 ∧ at' (trapping 0x06 0 false 0) 0x06 0 ∧
     at' (trapping 0x06 1 true 0x8000) 0x06 1) ∧
    (S0.launchAt S0.here.launchKey).handler ≠ 0 ∧
    (∀ lv ∈ [0, 1], let s := trapping 0x06 lv false 0x8000
      let gone := s.updSpanAt 0 0 (fun q => { q with traps := [] })
      (s.pk 0).cfg.handler ≠ 0 ∧ frameTest gone (if lv = 1 then (gone.storeOuter 0 0 0x100).then' (fun a _ => a.storeFrame 0 0 0x100)
        else gone.storeFrame 0 0 0x100) = some true) ∧
    (let gone := { trapping 0x06 0 false 0x8000 with tc := [] }.updSpanAt 0 0 (fun q => { q with traps := [] })
     frameTest gone (gone.storeFrame 0 0 0x100) = none) ∧
    (let gone := { trapping 0x06 0 false 0x8000 with dir := [(0x2002, { DirEntry.idle with state := .BFwd })] }.updSpanAt 0 0 (fun q => { q with traps := [] })
     frameTest gone (gone.storeFrame 0 0 0x100) = some false) ∧
    (S0.span.clauses = [clause] ∧ clause.lanes = S0.lanes ∧ clause.suspended = false ∧ (5#32) ≠ 0 ∧ 5#32 &&& S0.lanes = 5) := by
  refine ⟨?_, ?_, ?_, ?_, ?_, ?_⟩
  · refine ⟨?_, ?_, ?_, ?_, ?_, ?_, ?_⟩ <;> exact ⟨_, rfl, by decide +kernel⟩
  all_goals decide +kernel

/-- What loading words of a frame gives: their number and that the span is as it was; or that it cannot be loaded. -/
def loadTest (s : State) (r : State.FrameAns (List Nat)) : Option (Nat × Bool) := match r with
  | .ok a xs => some (xs.length, decide (a.spanAt 0 0 = s.spanAt 0 0))
  | .wait _ => some (0, false)
  | .bad _ => none

theorem witness_TrapFrames :
    (Canonical S0 ∧ S0.cache = [] ∧ S0.msgs = [] ∧ S0.dir = [] ∧ S0.pod = [] ∧ S0.late = [] ∧ (∀ i, i < 0x30 → S0.ready i = true) ∧
      S0.tc = [tc0] ∧ tc0.die = State.dieOf (S0.wgAt 0).core ∧ tc0.asid = (S0.launchAt (S0.wgAt 0).launchKey).asid ∧
      12 ≤ tc0.log2 ∧ tc0.log2 ≤ 31 ∧ tc0.vpage = 0x400 / 2 ^ tc0.log2 ∧
      tc0.leaf.getLsbD 2 = true ∧ tc0.leaf.getLsbD 8 = true ∧ bits tc0.leaf 59 56 = 0 ∧ 0x400 % 1024 = 0) ∧
    ((S0.spanAt 0 0).alive ≠ 0 ∧ loadTest S0 (State.frameLoad 0 0 8 { S0 with tc := [] } 0x100 7) = none ∧
      loadTest S0 (State.frameLoad 0 0 8 S0 0x100 7) = some (7, true) ∧
      loadTest S0 ((State.frameLoad 0 0 8 S0 0x100 7).then' (fun a _ => State.frameLoad 0 0 4 a 0x138 7)) = some (7, true)) ∧
    (let s := withSpan { span0 with nested := true }
     (s.spanAt 0 0).nested = true ∧ loadTest s (State.frameLoad 0 0 8 s 0x180 97) = some (97, true)) := by
  refine ⟨⟨wf_S0, ?_⟩, ?_, ?_⟩ <;> decide +kernel

/-- A handler's clause, and the suspended clause of two words at 0x800 whose word p faulted. -/
def returning (p : Nat) : State := withSpan { span0 with
  clauses := [{ clause with hdrPc := 0x800, hdr := 0xA0000002, words := [0, 0], pos := p, suspended := true }, clause]
  lane := (List.range 32).map (fun i => (i, { Lane.fresh with level := 1, tpc := 0x800 + BitVec.ofNat 64 (4 * p) })) }

theorem witness_TrapReturn :
    (S0.span.laneAt (State.lowest S0.lanes)).level = 0 ∧
    (((inHandler 1).span.laneAt (State.lowest (inHandler 1).lanes)).level ≠ 0 ∧ (inHandler 1).span.clauses = [clause] ∧
      clause.lanes = (inHandler 1).lanes ∧ clause.suspended = false) ∧
    (∀ b, S0.returnWaits b = none ∧ ({ inHandler 2 with dir := [(0x2002, { DirEntry.idle with state := .BFwd })] } : State).returnWaits b ≠ none) ∧
    (∀ p ∈ [0, 1, 2], let s := returning p
      (∀ b, s.returnWaits b = none) ∧
      ((s.span.laneAt (State.lowest s.lanes)).level ≠ 0 ∧ s.span.clauses.length = 2 ∧ s.lanes ≠ 0 ∧ clause.hdrPc ≠ 0x800) ∧
      (∀ c ∈ s.span.clauses, c.lanes = s.lanes) ∧ ∀ l, l < 32 → (s.span.laneAt l).tpc = 0x800 + BitVec.ofNat 64 (4 * p)) ∧
    (extraWords (bits (0xA0000002 : Word) 6 4) 0 = some 0 ∧ 1 + 1 + 0 ≤ bits (0xA0000002 : Word) 3 0 ∧
      bits (0xA0000002 : Word) 3 0 < 2 + 1 + 0) := by
  refine ⟨?_, ?_, ?_, ?_, ?_⟩ <;> decide +kernel

theorem witness_TrapInstructions :
    (S0.span.laneAt (State.lowest S0.lanes)).level = 0 ∧ ((inHandler 2).span.laneAt (State.lowest (inHandler 2).lanes)).level = 2 ∧
    (((inHandler 2).launchAt (inHandler 2).here.launchKey).live = true ∧ ((inHandler 2).launchAt (inHandler 2).here.launchKey).admitted = true) ∧
    ((withPk { pk0 with cfg := { pk0.cfg with debugger := true } }).pk S0.here.paddock).cfg.debugger = true ∧
    (S0.pk S0.here.paddock).cfg.debugger = false ∧ (S0.spanAt 0 0).clauses = [clause] := by
  refine ⟨?_, ?_, ?_, ?_, ?_, ?_⟩ <;> decide +kernel

/-- S0 where the launch, with or without an error, has lost its last workgroup, and has no record in memory. -/
def ended (bad : Bool) : State := { S0 with launch := [(0, { launch0 with record := [], ended := 1, inError := bad })] }

theorem witness_WorkgroupsAndLaunchesEnd :
    ((S0.wgAt 0).res ≠ .ended ∧ (S0.wgAt 0).res ≠ .none ∧ (S0.wgAt 1).res = .none) ∧
    (S0.launchAt 0).ended < (S0.launchAt 0).total ∧
    (let s := { S0 with launch := [(0, { launch0 with preempt := .draining })], wg := [(0, { wg0 with res := .parked })] }
     (s.launchAt 0).live = true ∧ (s.launchAt 0).preempt = .draining ∧ ¬∃ e ∈ s.wg, e.2.launchKey = 0 ∧ e.2.res = .resident) ∧
    (∀ b, let l := (ended b).launchAt 0
      l.live = true ∧ l.admitted = true ∧ l.total ≤ l.ended ∧ l.record = [] ∧ l.issuer = none) := by
  refine ⟨by decide +kernel, by decide +kernel, by decide +kernel, fun b => by cases b <;> decide +kernel⟩

/-- S0 whose span stands at 0x400, where memory holds a header of one word that waits for counter 0, and the word. -/
def issuing (hdr : Byte) : State := { withSpan { span0 with
  clauses := [], lane := (List.range 32).map (fun i => (i, { Lane.fresh with pc := 0x400 })) } with
  mem := [(0x100400, 1), (0x100401, hdr), (0x100403, 0xA0)] }

theorem witness_ClausesIssueAndEnd :
    (let s := issuing 1
     (s.wgAt 0).res = .resident ∧ allLanes ∈ (s.spanAt 0 0).issueSets ∧
     clauseLegal 0xA0000101 [0] = true ∧ clauseLegal 0x00000101 [0] = false ∧ (0xA0000101#32).getLsbD 8 = true ∧ s.span.kc 0 = 0 ∧
     (withSpan { span0 with k := [(0, 1)] }).span.kc 0 ≠ 0 ∧
     ((match { s with focus := ⟨0, 0, allLanes, 0x400, 0, 0⟩ }.fetchClause 0x400 with
       | .ok u x => decide (x = (0xA0000101#32, [0#32]) ∧ u.focus = ⟨0, 0, allLanes, 0x400, 0, 0⟩)
       | _ => false) = true) ∧
     ((match ({ s with tc := [] } : State).fetchClause 0x400 with | .bad _ _ _ => true | _ => false) = true) ∧
     ((match ({ s with dir := [(0x2008, { DirEntry.idle with state := .BFwd })] } : State).fetchClause 0x400 with
       | .wait _ => true | _ => false) = true)) ∧
    ((S0.spanAt 0 0).clauses = [clause] ∧ clause.pos ≤ bits clause.hdr 3 0) ∧
    (∀ x, let c := { clause with pos := 2, exiting := x }
      let s := withSpan { span0 with clauses := [c] }
      bits c.hdr 3 0 < c.pos ∧ (s.spanAt 0 0).pending = [] ∧ (∀ n, n < 8 → ((s.spanAt 0 0).jm n).enrol = 0) ∧
      (∀ l, l < 32 → ((s.spanAt 0 0).laneAt l).mr = allOnes64 ∧ (c.target l).getD (c.hdrPc + 8) ≠ allOnes64) ∧
      (s.wgAt 0).nspans = 1 ∧ (s.wgAt 0).res ≠ .ended) ∧
    (let c := { clause with pos := 2, exiting := true, lanes := 1 }
     let s := withSpan { span0 with clauses := [c] }
     ((s.spanAt 0 0).laneAt 0).level = 0 ∧ laneIn c.lanes 1 = false ∧ ((s.spanAt 0 0).laneAt 1).ended = false ∧
     ∀ l, l < 32 → ((s.spanAt 0 0).laneAt l).hold = .free) := by
  refine ⟨?_, by decide +kernel, fun x => by cases x <;> decide +kernel, by decide +kernel⟩
  decide +kernel

/-- S0 with one counted result outstanding. -/
def outstanding (ws : List RegWrite) : State :=
  withSpan { span0 with pending := [⟨0, 0, allLanes, [], ws⟩], k := [(0, 1)] }
/-- A tile instruction that waits on lanes, lane 3 having failed. -/
def waiting0 (S : Lanes) : TileWait := { S0.tileStart S 0 [] [] [] 7 with on := .granule 0 0, lanes := S, failed := [(3, 0x07)] }
/-- S0 with it. -/
def tileWaiting (S : Lanes) : State :=
  withSpan { span0 with tileWait := [waiting0 S] }
/-- A clause that waits at an mwait with a monitor. -/
def mwaiting (b : SOp) (t : Bool) : State := withSpan { span0 with
  clauses := [{ clause with hdr := 0xA0000051, words := encode (.mwait 6 b), waiting := true }], mon := some ⟨0x2002, t⟩ }

theorem witness_CountedResults :
    (((outstanding [.v 3 0 5]).spanAt 0 0).pending[0]? = some ⟨0, 0, allLanes, [], [.v 3 0 5]⟩ ∧
      ((outstanding [.s 3 5]).spanAt 0 0).pending[0]? = some ⟨0, 0, allLanes, [], [.s 3 5]⟩ ∧ (S0.spanAt 0 0).pending[0]? = none) ∧
    (∀ b, let s := mwaiting (.imm 5) b
     ((s.spanAt 0 0).clauseOf allLanes).map (fun c => decide (c.waiting = true ∧ c.instr = some (.mwait 6 (.imm 5)) ∧ c.arg = none)) = some true ∧
     (s.spanAt 0 0).mon = some ⟨0x2002, b⟩ ∧ (s.spanAt 0 0).opB (.imm 5) ≠ allOnes64 ∧ s.timersHeld (s.wgAt 0).paddock = false ∧
     s.spanStopped 0 0 = false) ∧
    ((S0.spanAt 0 0).tileWait = [] ∧ (S0.spanAt 0 0).clauseOf allLanes = some clause ∧
      ((tileWaiting 1).spanAt 0 0).tileWait = [waiting0 1] ∧ (waiting0 1).own = allLanes ∧
      ((tileWaiting 1).spanAt 0 0).clauseOf allLanes = some clause ∧ (tileWaiting 1).timersHeld 0 = false ∧ (tileWaiting 1).spanStopped 0 0 = false ∧
      (((tileWaiting 1).spanAt 0 0).laneAt 0).level = ((tileWaiting 1).spanAt 0 0).openLevel) ∧
    (let s := { S0 with wg := [(0, wg0), (1, { wg0 with res := .unstarted })] }
     (s.wgAt 0).res = .resident ∧ (s.wgAt 0).parkWanted = none ∧ s.kept 0 = [] ∧ s.timersHeld 0 = false ∧ s.spanStopped 0 0 = false ∧
       ∃ e ∈ s.candidates 0, s.prioOf (s.wgAt 0) ≤ s.prioOf e.2) ∧
    (∀ e ∈ S0.candidates 0, S0.prioOf e.2 < S0.prioOf S0.here) := by
  refine ⟨?_, ?_, ?_, ?_, ?_⟩ <;> decide +kernel

/-- S0 with a workgroup of one idle span, and another of the same launch that waits for the core. -/
def contested (w : Wg) (cs : List Clause) : State :=
  { S0 with wg := [(0, { w with span := [(0, { span0 with clauses := cs })] }), (1, { wg0 with res := .unstarted, entry := 1, lin := 1 })] }
/-- A clause that waits at chq.claim, where the yard may park. -/
def claiming : Clause := { clause with hdr := 0xA0000051, words := encode (.chqClaim 10 6), waiting := true }

theorem witness_YardResidency :
    (let fits := fun (s : State) => ((s.wgAt 0).spanNums.filter (fun n => !(s.wgAt 0).spanEnded n)).length ≤ 8 - s.slotsUsed 0 ∧
       (s.launchAt 0).tregs 0 ≤ 16 - s.tregsUsed 0 ∧ (s.launchAt 0).level0 0 ≤ s.tileFree 0
     let a := withWg { wg0 with res := .unstarted }
     let b := withWg { wg0 with res := .parked }
     ((a.wgAt 0).res = .unstarted ∧ (a.pk 0).resident = true ∧ (a.launchAt 0).preempt = .none ∧ fits a) ∧
     ((b.wgAt 0).res = .parked ∧ (b.pk 0).resident = true ∧ State.wgAtBarrier (b.wgAt 0) = false ∧ fits b ∧
       Store.wf 0 (b.wgAt 0).handle = true)) ∧
    (∀ w ∈ [some ParkCause.preempt, some .quantum, none], ∀ cs ∈ [[], [claiming]], let s := contested { wg0 with parkWanted := w } cs
      ((s.spanAt 0 0).pending = [] ∧ (s.spanAt 0 0).trapMask = false ∧ ∀ c ∈ (s.spanAt 0 0).clauses, c.stopped = false ∧ c.waiting = true) ∧
      (∃ e ∈ s.candidates 0, s.prioOf (s.wgAt 0) ≤ s.prioOf e.2) ∧ State.wgParkWaits (s.wgAt 0) = decide (cs ≠ [])) ∧
    (let a := contested { wg0 with parkWanted := some .quantum, expiry := [State.choiceWord { wg0 with res := .unstarted, entry := 1, lin := 1 }] } []
     let b := contested wg0 [claiming]
     (∀ s ∈ [a, b], s.kept 0 = [] ∧ s.candidates 0 = [(1, s.wgAt 1)] ∧ s.parkOrder 0 = [(0, s.wgAt 0)] ∧ s.prioOf (s.wgAt 0) ≤ s.prioOf (s.wgAt 1) ∧
        State.fitsIn (s.needs (s.wgAt 1)) (s.freeOn 0) = false ∧
        State.fitsIn (s.needs (s.wgAt 1)) (State.plus (s.freeOn 0) (s.needs (s.wgAt 0))) = true ∧ State.wgParkable (s.wgAt 0) = true ∧
        s.penAllows (s.wgAt 0) = true ∧
        s.toPark 0 = true ∧ Store.wf 0 (s.wgAt 0).handle = true ∧ (s.launchAt (s.wgAt 0).launchKey).preempt ≠ .draining) ∧
      ((a.wgAt 0).parkWanted = some .quantum ∧ State.choiceWord (a.wgAt 1) ∈ (a.wgAt 0).expiry) ∧ State.wgParkWaits (b.wgAt 0) = true ∧
      a.expiredFor (a.wgAt 0) = true ∧ let c := contested { wg0 with parkWanted := some .quantum } [claiming]
        c.toPark 0 = true ∧ c.expiredFor (c.wgAt 0) = false) ∧
    ((withWg { wg0 with parkWanted := some .quantum }).toPark 0 = false ∧ S0.toPark 0 = false) ∧
    (let s := { withWg { wg0 with parkWanted := some .preempt } with launch := [(0, { launch0 with preempt := .draining })] }
     (s.launchAt (s.wgAt 0).launchKey).preempt = .draining ∧ (s.launchAt (s.wgAt 0).launchKey).live = true ∧ Store.wf Wg.none s.wg = true) := by
  refine ⟨?_, ?_, ?_, ?_, ?_⟩ <;> decide +kernel

/-- S0 with the launch admitted and no pen of it yet. -/
def penless : State := { S0 with wg := [] }

theorem witness_PenAdmission :
    (let l := penless.launchAt 0
     (l.live = true ∧ l.admitted = true ∧ l.unstartedKilled = false ∧ (penless.pk l.paddock).resident = true ∧ penless.swap = []) ∧
     (l.gridBar = false ∧ l.key = 0 ∧ l.positions = [(0, 0, 0)] ∧ l.nextAt (0, 0, 0) = some ⟨0, 0, 0, 0⟩ ∧
       penless.pensFit l [⟨0, 0, 0, 0⟩] = true ∧ (l.decls.map dHandle).Nodup) ∧
     l.rectW = l.pw ∧ l.rectH = l.ph ∧ 0 < l.gx / l.pw ∧ 0 < l.gy / l.ph ∧ 0 < l.stages * (l.gx / l.pw * (l.gy / l.ph) * l.gz)) := by
  decide +kernel

/-- S0 with a launch of that record first in the queue, and g workgroups of an admitted launch. -/
def queued (rec : List Dword) (g : Dword) : State := { withPk { pk0 with
    cfg := { pk0.cfg with parkArea := 1 }, queue := [⟨0, 1⟩] } with
  launch := [(0, { launch0 with record := [0, 0x01010000, g, 0x4000, 0x8000, 0x01000101] }),
    (1, { launch0 with record := rec, serial := 1, state := 1, admitted := false })] }

theorem witness_LaunchAdmission :
    (let s := queued [0, 0x01010000, 0x000000010001001E, 0x4000, 0x8000, 0x01000101] 0
     ((s.pk 0).resident = true ∧ s.swap = [] ∧ (s.pk 0).queue = [⟨0, 1⟩] ∧ (s.launchAt 1).serial = 1 ∧ (s.launchAt 1).issuer = none) ∧
     s.refusal (s.launchAt 1) = 0 ∧ (s.launchAt 1).images ≤ s.parkFree 0 ∧ ∀ c ∈ (s.launchAt 1).cores, (s.launchAt 1).chuteBytes ≤ s.tileFree c) ∧
    (let s := queued [0, 0x01010000, 0x000000010001001E, 0x4000, 0x8000, 0x01000101] 0x000000010001001E
     s.refusal (s.launchAt 1) = 0 ∧ s.parkFree 0 < (s.launchAt 1).images) ∧
    (let r := fun rec => (queued rec 0).refusal ((queued rec 0).launchAt 1)
     r [0, 0, 0x0000000100010001, 0, 0x8000, 0x01000101] = 1 ∧
     r [0, 0x01010000, 0x0000000100010100, 0, 0x8000, 0x01000101] = 2 ∧
     r [0, 0x0002000001010000, 0x0000000100010060, 0, 0x8000, 1] = 3 ∧
     r [0, 0x01010000, 0x0000000100010001, 0, 0, 0x01000101] = 4) := by
  refine ⟨?_, ?_, ?_⟩ <;> decide +kernel

/-- Two paddocks of one core, the first running, the second held; their icehouse bank is ready. -/
def swapping (x : List (Option Nat × Option Nat)) : State := { S0 with
  paddock := [(0, { pk0 with cfg := { pk0.cfg with w := 1, h := 1 } }),
    (1, { pk0 with cfg := { pk0.cfg with w := 1, h := 1, asids := [(6, 0)] }, resident := false, held := true })]
  readiness := [(0, 2), (16, 2), (0x100, 2)], swap := x, async := [op0 .cp [unit0]] }

theorem witness_PreemptionAndSwaps :
    (∀ x ∈ [Preempt.none, .draining, .drained], let s := { S0 with launch := [(0, { launch0 with preempt := x })] }
      (s.launchAt 0).live = true ∧ (s.launchAt 0).admitted = true ∧ (s.launchAt 0).preempt = x) ∧
    (Store.wf Wg.none S0.wg = true ∧ ∃ e ∈ S0.wg, e.2.launchKey = 0 ∧ e.2.res = .resident) ∧ (S0.launchAt 1).live = false ∧
    (let s := swapping []
     let A := (s.pk 0).cfg
     let B := (s.pk 1).cfg
     A.valid = true ∧ (s.pk 0).resident = true ∧ B.valid = true ∧ (s.pk 1).held = true ∧
       (A.ox = B.ox ∧ A.oy = B.oy ∧ A.w = B.w ∧ A.h = B.h) ∧ s.swap = [] ∧
       ∀ x, x < A.w → ∀ y, y < A.h → s.ready (0x100 + (A.ox + x + 64 * (A.oy + y))) = true) ∧
    (∀ h ∈ [true, false], let s := { swapping [(some 0, some 1)] with sink := [(0, { Sink.reset with enable := true, stalling := h })], readiness := [(0x1100, 2)] }
      s.timersHeld 0 = h ∧ ∀ e ∈ s.wg, ∀ i ∈ e.2.spanNums, s.spanStopped e.1 i = false) ∧
    (let s := swapping [(some 0, some 1)]
     s.swap = [(some 0, some 1)] ∧ (∀ e ∈ s.wg, ∀ q ∈ e.2.span, q.2.pending = [] ∧ q.2.memWait = []) ∧ ∀ y ∈ s.async, ∀ u ∈ y.units, u.sent = none) ∧
    (∃ e ∈ (outstanding []).wg, e.2.paddock = 0 ∧ ∃ q ∈ e.2.span, q.2.pending ≠ []) := by
  refine ⟨?_, ?_, ?_, ?_, ?_, ?_, ?_⟩ <;> decide +kernel
/-- The header of a message of core 3 to the home of the line. -/
def h0 : Hdr := { src := 3, dst := 0x1FFF, line := 0x2002, clock := 0, stamp := 0 }
/-- S0 where the home's entry of the line is d. -/
def homed (d : DirEntry) : State := { S0 with dir := [(0x2002, d)] }
/-- S0 where the extent of the line is revoked from the first agent. -/
def revoking : State := { S0 with revoked := [⟨0x1000, 0x2000, 8, false⟩] }
/-- An entry in a state with an owner and pointers. -/
def entry (st : HomeState) (owner : BitVec 13) (ptrs : List (BitVec 13)) : DirEntry :=
  { DirEntry.idle with state := st, owner := owner, ptrs := ptrs }

theorem witness_HomeRequests :
    (h0.pod = false ∧ isPod h0.line = false ∧ laneIn S0.carriage 0 = false ∧ laneIn ({ S0 with carriage := 1 } : State).carriage 0 = true) ∧
    (S0.combined = [] ∧ ({ h0 with pk := some 0 } : Hdr).pk.isSome = true ∧ h0.pk = none ∧ h0.sc = false ∧
      let s := { S0 with homeKey := [(0x2002, 5#48 ++ 3#13)] }
      let key := Store.get 0 s.homeKey 0x2002
      key ≠ 0 ∧ precedes 4 (key.extractLsb' 13 48) = true ∧ precedes 6 (key.extractLsb' 13 48) = false ∧ (6#48) ≠ key.extractLsb' 13 48) ∧
    (∀ m ∈ [Msg.getS, .redOp [] 1], let s := homed { entry .S 0 [] with queue := [(h0, m)] }
      (∃ y ∈ (s.dirAt 0x2002).queue, y.2.isRed = m.isRed) ∧ queuedAt s (homeSlice 0x2002) false < 1024 ∧ queuedAt s (homeSlice 0x2002) true < 256) ∧
    (∀ st ∈ [HomeState.I, .S, .X, .O, .D, .P], let s := homed (entry st 5 [])
      s.podAt h0.line = DirEntry.idle ∧ s.driftRoom 0x2002 = true ∧ s.revokedFor false h0.src 0x2002 false = false ∧
      s.unreachable (128 * 0x2002) = false ∧ (s.dirAt 0x2002).state = st ∧ (s.dirAt 0x2002).queue = [] ∧ s.copiesOf 0x2002 = []) ∧
    (revoking.revokedFor false 0x1000 0x2002 false = true ∧ Store.wf Paddock.none revoking.paddock = true ∧ (revoking.pk 0).cfg.valid = true ∧
      ((revoking.pk 0).errHead - (revoking.pk 0).errTail).toNat ≠ 4096 ∧
      revoking.hbmDown (((revoking.pk 0).cfg.errBase + 32 * ((revoking.pk 0).errHead.toNat % 4096)) / 128) = false) ∧
    ({ S0 with readiness := [] } : State).unreachable (128 * 0x2002) = true ∧
    (let s := homed (entry .BInv 0 [])
     (s.dirAt 0x2002).state = .BInv ∧ queuedAt s (homeSlice 0x2002) false < 1024 ∧ queuedAt s (homeSlice 0x2002) true < 256) ∧
    (1024 ≤ queuedAt (homed { entry .BInv 0 [] with queue := List.replicate 1024 (h0, .getS) }) (homeSlice 0x2002) false ∧
      256 ≤ queuedAt (homed { entry .BInv 0 [] with queue := List.replicate 256 (h0, .redOp [⟨.add32, 0, 1, 0⟩] 1) }) (homeSlice 0x2002) true) ∧
    (S0.recipients false (entry .S 0 [3]) (some 3) = [] ∧ (3#13) ∈ State.members (entry .S 0 [3]) ∧
      S0.recipients false (entry .S 0 [3, 4]) (some 3) = [4]) ∧
    (S0.recipients false (entry .O 3 [3]) (some 3) = [] ∧ S0.recipients false (entry .O 3 [3, 4]) (some 3) = [4]) ∧
    (S0.recipients false (entry .D 0 [4]) none = [4] ∧ (entry .D 0 [4]).tag = ⟨0, 0⟩ ∧ Msg.getS ≠ .drGet ⟨0, 0⟩ ∧ Msg.getS ≠ .wrLine 0) := by
  refine ⟨?_, ?_, ?_, ?_, ?_, ?_, ?_, ?_, ?_, ?_, ?_⟩ <;> decide +kernel

theorem witness_HomeNotices :
    (∀ st ∈ [HomeState.X, .O], let d := (homed (entry st 3 [])).dirAt 0x2002
      (d.state = .X ∨ d.state = .O) ∧ d.owner = h0.src) ∧
    (((homed (entry .P 0 [])).dirAt 0x2002).state = .P ∧ ({ S0 with revoked := [⟨0x1000, 0x2000, 8, true⟩] } : State).revokedFor false 0x1000 0x2002 true = true) ∧
    (let d := (homed { entry .BFwd 3 [] with fwdTo := some 3, serving := some (h0, .getX) }).dirAt 0x2002
     d.state = .BFwd ∧ d.fwdTo = some h0.src ∧ d.queue = [] ∧ d.held = [] ∧ d.serving = some (h0, .getX)) ∧
    (let d := (homed { entry .BFwd 3 [] with fwdTo := some 3, serving := some (h0, .getS) }).dirAt 0x2002
     d.serving = some (h0, .getS) ∧ h0.line = 0x2002) ∧
    (∀ n ∈ [1, 2], ∀ m ∈ [Msg.getX, .upg, .wrLine 5],
      let d := (homed { entry .BInv 5 [] with acks := n, serving := some (h0, m), fwdTo := some 3 }).dirAt 0x2002
      d.state = .BInv ∧ d.acks = n ∧ d.queue = [] ∧ d.held = [] ∧ d.serving = some (h0, m) ∧ d.fwdTo = some h0.src) ∧
    (let d := (homed { entry .BInv 5 [] with acks := 2, serving := some (h0, .amo []), fwdTo := some 3 }).dirAt 0x2002
     d.state = .BInv ∧ 1 < d.acks ∧ d.drop = false ∧ isPod 0x2002 = false ∧ ∀ y, d.serving = some y → y.2 ≠ .getX ∧ y.2 ≠ .upg) ∧
    (S0.fwdTravels h0 = false ∧ ({ S0 with msgs := [({ h0 with src := 0x1FFF, dst := 3 }, .fwdS 4)] } : State).fwdTravels h0 = true ∧
      S0.isLost 3 = false ∧ laneIn S0.carriage 0 = false ∧ S0.podAt 0x2002 = DirEntry.idle) ∧
    (∀ st ∈ [HomeState.D, .BMrg, .I], let d := (homed { entry st 0 [] with acks := 2 }).dirAt 0x2002
      d.state = st ∧ 1 < d.acks) ∧ S0.combined = [] := by
  refine ⟨?_, ?_, ?_, ?_, ?_, ?_, ?_, ?_, ?_⟩
  case refine_6 => exact ⟨by decide +kernel, by decide +kernel, by decide +kernel, by decide +kernel, fun y h => by cases h; decide⟩
  all_goals decide +kernel

/-- A memory instruction that waits for lines. -/
def awaiting (ns : List Nat) : MemWait := { own := allLanes, bad := [], vals := [], phys := [], left := ns }
/-- S0 where core 3 has the line in a state. -/
def caching (st : CacheState) (dead grant : Bool) : State := { S0 with
  cache := [(State.cacheKey 3 0x2002, { CacheLine.none with state := st, data := 5, fillDead := dead, haveGrant := grant })] }

theorem witness_CacheMessages :
    (∀ st ∈ [CacheState.S, .E, .M, .O, .D, .IS, .IM, .SM, .OM, .ID, .MI, .EI, .II], ∀ x y, let s := caching st x y
      let c := s.cacheAt 3 0x2002
      c.state = st ∧ c.defer = none ∧ c.fillDead = x ∧ c.haveGrant = y ∧ s.awaited 3 0x2002 = false) ∧ (3#13).toNat < 4096 ∧
    (4096 ≤ (0x1001#13).toNat ∧ (0x1001#13) ≠ 0x1FFF ∧ h0.pod = false ∧ S0.combined = [] ∧ S0.async = [] ∧ ({ h0 with req := 1 } : Hdr).req ≠ 0) ∧
    ({ S0 with combined := [((h0, .redAck 2), [(h0, 1), ({ h0 with src := 4 }, 1)])] } : State).combined = [((h0, .redAck 2), [(h0, 1), ({ h0 with src := 4 }, 1)])] ∧
    (let s := withSpan { span0 with memWait := [awaiting [0x2002]] }
     s.awaited 0 0x2002 = true) ∧
    (∀ st ∈ [HomeState.S, .X, .O], let s := homed (entry st 3 [3])
      (s.dirAt 0x2002).state = st ∧ isPod 0x2002 = false ∧ s.podAt 0x2002 = DirEntry.idle) ∧ (S0.dirAt 0x2002).state = .I ∧
    (∀ st ∈ [CacheState.IS, .IM, .SM, .OM, .ID], let s := { S0 with cache := [(State.cacheKey 3 0x2002, { CacheLine.none with state := st, refused := true })] }
      (s.cacheAt 3 0x2002).state = st ∧ (s.cacheAt 3 0x2002).refused = true) := by
  refine ⟨?_, ?_, ?_, ?_, ?_, ?_, ?_, ?_⟩ <;> decide +kernel

/-- S0 where the pod directory's entry of a line of this device is d. -/
def podHomed (d : DirEntry) : State := { S0 with pod := [(0x2002, d)] }

theorem witness_LostPartiesAndRevocations :
    (Party.core 3 ∉ S0.lost ∧ partyPtr (.core 3) = some 3 ∧ partyPtr (.agent 0) = some 0x1000 ∧
      Party.core 3 ∈ ({ S0 with lost := [.core 3] } : State).lost) ∧
    (∀ d ∈ [entry .X 3 [], entry .O 3 [], entry .S 0 [3], entry .D 0 [3]],
      ((homed d).dir = [(0x2002, d)] ∧ (homed d).podAt 0x2002 = DirEntry.idle ∧ (podHomed d).pod = [(0x2002, d)] ∧
        (podHomed d).dirAt 0x2002 = DirEntry.idle) ∧ d.queue = [] ∧ d.held = [] ∧ d.serving = none ∧ d.fwdTo = none ∧ d.coarse = false ∧
        (d.owner = 3 ∨ (3#13) ∈ d.ptrs)) ∧
    ((3#13) ≠ S0.mySlot ∧ S0.remote = [] ∧ S0.pod = []) ∧
    ((homed (entry .X 0x1000 [])).recordsHost false 0x2002 (BitVec.ofNat 13 0x1000) = true ∧ State.hostPod 0x1000 = false ∧
      (homed (entry .X 3 [])).recordsHost false 0x2002 (BitVec.ofNat 13 0x1000) = false ∧ S0.recordsHost false 0x2000 (BitVec.ofNat 13 0x1000) = false ∧
      (⟨0x1000, 0x2000, 8, false⟩ : Revoked) ∈ ({ homed (entry .X 0x1000 []) with revoked := [⟨0x1000, 0x2000, 8, false⟩] } : State).revoked) ∧
    (((homed (entry .X 3 [])).dirAt 0x2002).serving = none ∧ ((homed (entry .X 3 [])).dirAt 0x2002).queue = [] ∧
      (homed (entry .X 3 [])).podAt 0x2002 = DirEntry.idle ∧ isPod (2 ^ 49) = true ∧ (S0.dirAt (2 ^ 49)).serving = none) ∧ S0.waitq = [] := by
  refine ⟨?_, ?_, ?_, ?_, ?_, ?_⟩ <;> decide +kernel

/-- S0 with port n up, and a packet of it that is not acknowledged. -/
def linked (n : Nat) : State := { S0 with
  port := [(n, ⟨2, 1, 0⟩)], remote := [⟨n, 0, true, 0, 0, 0, 0, 0x8000000000000100, 4, true,
    { job := 0, rank := 0, region := 0, off := 0x100, key := 0, peer := 0, tag := n, kind := .write [1, 2, 3, 4] }⟩] }

theorem witness_LinksAndKeys :
    (∀ n ∈ [0, 61, 62, 71, 72, 87, 88, 91], (Store.get Port.reset (linked n).port n).link ≠ 0) ∧
    (Store.get Port.reset (linked 1).port 0).link = 0 ∧
    (10 * S0.slotId + (71 - 62) < 320 ∧ (linked 1).portUp (2 * (0 / 2) + 1) = true ∧ (linked 0).portUp (2 * (0 / 2) + 1) = false ∧
      Party.device 1 ∉ S0.lost ∧ S0.pod = [] ∧ S0.remote = []) ∧
    (∃ r, (linked 0).remote = [r] ∧ r.tag = 0 ∧ r.die = 0 ∧ r.scaleOut = true) ∧
    ((Store.get Window.none (withWindow.pk 0).window 7).valid = true ∧ (Store.get Window.none (withWindow.pk 0).window 6).valid = false) ∧
    (let s := { S0 with port := [(1, ⟨2, 1, 2 ^ 48⟩)], tray := [(1, ⟨64, 1, 1024⟩)] }
     (Store.get Port.reset s.port 1).hopKey ≠ 0 ∧ 2 ^ 48 ≤ (Store.get Port.reset s.port 1).flits ∧ (Store.get Port.reset s.port 2).hopKey = 0 ∧
       1024 ≤ (Store.get TrayWindow.reset s.tray 1).lows ∧ (Store.get TrayWindow.reset s.tray 2).lows < 1024) := by
  refine ⟨by decide +kernel, by decide +kernel, by decide +kernel, ⟨_, rfl, by decide +kernel⟩, by decide +kernel, by decide +kernel⟩

/-- S0 of job 9, whose launch owns rank 5 and the window. -/
def owning : State := { withPk { pk0 with cfg := { pk0.cfg with job := 9 }, window := [(7, { window0 with key := 2 })] } with
  launch := [(0, { launch0 with record := [0x8000000500000000, 0x01010000, 0x0000000100010001, 0x4000, 0x8000, 0x01000101] })] }

/-- A packet for the window of owning. -/
def packetFor (k : PacketKind) (codes : List Word) : Packet :=
  { job := 9, rank := 5, region := 3, off := 0, key := 2, peer := 1, tag := 0, kind := k, codes := codes }

theorem witness_RemoteTraffic :
    (S0.ownerLaunch 9 5 = none ∧ ∃ l, owning.ownerLaunch 9 5 = some l ∧ owning.windowOf l.paddock l.serial 4 = none ∧
      owning.windowOf l.paddock l.serial 3 = some (7, { window0 with key := 2 }) ∧
      owning.translateL2 (State.dieOf l.home) l.asid (0x100 + 0) .write false = (owning, .ok ⟨0x100100, true, true, true⟩) ∧
      owning.translateL2 (State.dieOf l.home) l.asid (0x100 + 0) .read false = (owning, .ok ⟨0x100100, true, true, true⟩)) ∧
    (∀ k ∈ [PacketKind.write [1, 2, 3, 4], .read 4, .amo [⟨.add32, 0, 1, 0⟩], .dred ⟨1, 0⟩ 0 5, .landed 4, .waitq 0, .waitq 1, .wake 1],
      let p := packetFor k []
      packetSize p = 4 ∧ packetAligned p = true ∧ p.off / 4096 = (p.off + 4 - 1) / 4096 ∧ p.off + 4 ≤ window0.size ∧
        ({ p with key := 3 } : Packet).key ≠ 2 ∧ ({ p with mode := .clear } : Packet).far = false ∧
        owning.packetPieces (owning.launchAt 0) 0x100 4 (packetAccess k) = (owning, .ok [(0x100100, 4)])) ∧
    (let bs : List Byte := [1, 2, 3, 4]
     let p := packetFor (.write bs) []
     State.badGranules { p with codes := carriageCodes (packetAddr p) bs } bs [(0x100100, 4)] = [] ∧ State.badGranules p bs [(0x100100, 4)] ≠ []) ∧
    (({ owning with readiness := [] } : State).unreachable 0x100100 = true ∧ Store.wf Paddock.none owning.paddock = true ∧
      (owning.pk 0).cfg.valid = true ∧ ((owning.pk 0).errHead - (owning.pk 0).errTail).toNat ≠ 4096 ∧
      owning.hbmDown (((owning.pk 0).cfg.errBase + 32 * ((owning.pk 0).errHead.toNat % 4096)) / 128) = false ∧
      (owning.waitq.filter (fun q => q.paddock == 0)).length < 1024 ∧
      owning.queueAt (State.waiterKey 0x100100 (State.packetJob (packetFor (.waitq 0) []))) = none ∧
      lineBytes (owning.lineView 0x2002) 0 4 = 0 ∧ lineBytes (owning.lineView 0x2002) 0 4 ≠ 1) ∧
    (owning.unreachable 0x100100 = false ∧ 0x100100 % 128 + 4 ≤ 128 ∧ SettledHere owning 0x2002 ∧ owning.driftRoom 0x2002 = true ∧
      owning.podAt 0x2002 = DirEntry.idle ∧ (({ owning with dir := [(0x2002, entry .BFwd 3 [])] } : State).dirAt 0x2002).state = .BFwd) ∧
    (∃ r, (linked 0).remote.head? = some r ∧
      ∃ c ∈ ((withSpan { span0 with clauses := [{ clause with arg := some (1, 0x4000000000000000) }] }).spanAt 0 0).clauses,
        c.arg = some (1, BitVec.ofNat 64 (2 ^ 62 + r.tag % 2 ^ 62))) ∧
    (let a := op0 .get [{ unit0 with sent := some 0 }, unit0]
     let s := { linked 0 with async := [a] }
     s.asyncAt 9 = some a ∧ a.units[0]? = some { unit0 with sent := some 0 } ∧ a.err = none ∧ ∃ y ∈ a.units.eraseIdx 0, y.st = .pending) := by
  refine ⟨⟨by decide +kernel, _, rfl, by decide +kernel, by decide +kernel, by decide +kernel, by decide +kernel⟩, by decide +kernel,
    by decide +kernel, by decide +kernel,
    ⟨by decide +kernel, by decide +kernel, settledHere_of _ (by decide +kernel) (by decide +kernel), by decide +kernel, by decide +kernel, by decide +kernel⟩,
    ⟨_, rfl, _, List.mem_singleton.2 rfl, rfl⟩, by decide +kernel⟩

/-- S0 whose entry that holds item n of a core's tile registers has a result outstanding for the register that the item is part of. -/
def heldRead (n : Nat) : State := { S0 with
  wg := [(State.wgKey 0 0 (n / 2 ^ 33), { wg0 with span := [(0, { span0 with pending := [⟨0, 0, allLanes, [.t (n % 2 ^ 31 / 512)], []⟩] })] })] }
/-- A register name is among the names of a list that has it. -/
theorem mem_pairNames (w : Wg) (r : RegName) (rs : List RegName) (h : r ∈ rs) : r ∈ pairNames w rs := by
  simp only [pairNames, List.mem_flatMap]
  refine ⟨r, h, ?_⟩
  cases r <;> simp
  split <;> simp
/-- The readback of such a unit waits. -/
theorem heldRead_waits : (heldRead (Config.readbackItem 0x0200000000000000)).readbackHeld 0x0200000000000000 = true := by
  unfold State.readbackHeld
  generalize Config.readbackItem 0x0200000000000000 = n
  have h : (heldRead n).unitPk 2 0 = some 0 := rfl
  have w : (heldRead n).unitWg 2 0 (n / 2 ^ 33) = (heldRead n).wgAt (State.wgKey 0 0 (n / 2 ^ 33)) := by simp only [State.unitWg, h]
  show ((heldRead n).unitWg 2 0 (n / 2 ^ 33)).span.any _ = true
  rw [w]
  have m : ∀ g : Wg, RegName.t (n % 2 ^ 31 / 512) ∈ State.outstanding g { span0 with pending := [⟨0, 0, allLanes, [.t (n % 2 ^ 31 / 512)], []⟩] } :=
    fun g => mem_pairNames _ _ _ (by simp)
  simp only [State.wgAt, heldRead, Store.get, List.any_cons, List.any_nil, Bool.or_false, if_true]
  exact List.contains_iff_mem.2 (m _)

theorem witness_TablesAndRegisters :
    (heldRead (Config.readbackItem 0x0200000000000000)).readbackHeld 0x0200000000000000 = true ∧ S0.readbackHeld 0x0900000000000000 = false ∧
    S0.unitPk 0 0 = some 0 ∧
    let c := { PaddockCfg.reset with valid := true, w := 8, h := 8, asids := [(7, 0)] }
    (cfgLegal c = true ∧ S0.asidsFree 1 c = true ∧ S0.pinnedChange 1 c = false ∧ (S0.pk 1).cfg.valid = false ∧
      cfgLegal { c with w := 7 } = false ∧ S0.asidsFree 1 { c with asids := [(5, 0)] } = false ∧ S0.pinnedChange 1 { c with asids := [] } = false) ∧
    ((let s := { S0 with swap := [(some 0, none)] }
      s.inSwap c = true ∧ (∃ q ∈ s.swap, q.1 = some 0 ∨ q.2 = some 0) ∧ S0.swap = [] ∧ S0.inSwap c = false) ∧
      rangesOverlap (2 ^ 127 + 2 ^ 22) (2 ^ 127 + 2 ^ 22) = true ∧ (S0.pk 0).rankRange = []) ∧
    (S0.betweenAll 1 = true ∧ S0.cfgWait = [] ∧ S0.betweenAll 0 = false ∧ ∀ e ∈ S0.wg, e.2.paddock ≠ 1) ∧
    (S0.paddock.filter (fun e => e.1 != 1 && e.2.cfg.valid && overlaps e.2.cfg c) = [(0, pk0)] ∧ sameRect pk0.cfg c = true ∧
      pk0.resident = true ∧ S0.paddock.filter (fun e => e.1 != 1 && e.2.cfg.valid && overlaps e.2.cfg { c with ox := 8 }) = [] ∧
      sameRect pk0.cfg { c with w := 16 } = false) ∧
    (((S0.pk 0).errHead - 0).toNat ≤ 4096 ∧ 4096 < ((S0.pk 0).errHead - 1).toNat) ∧ 14 < bits (0x0F00000000000000 : Dword) 63 56 := by
  exact ⟨heldRead_waits, rfl, by decide +kernel⟩

theorem witness_BringUpAndHeat :
    S0.powered = true ∧ State.reset.powered = false ∧ Store.wf Launch.none S0.launch = true ∧
    ({ S0 with spillReserved := true } : State).spillReserved = true ∧ (4#4).toNat ≤ 4 ∧ 4 < (5#4).toNat := by decide +kernel

/-- A record, and S0 with it and one sink of the provider with four records in a ring of 2^10. -/
def rec0 : Record := ⟨5, 0x10, 0, 3, 0, some 0, 9, false, false, false, 1, 2⟩
/-- S0 with that record and the sink. -/
def sinking (k : Sink) : State := { S0 with records := [rec0], sink := [(0, k)], readiness := ready0 ++ [(0x1100, 2)] }

theorem witness_RecordsReachSinks :
    (rec0.typ < 256 ∧ rec0.unit < 256 ∧ rec0.idx < 4096 ∧ rec0.die < 16 ∧ rec0.paddock.getD 0 < 64) ∧
    (∀ h ∈ [4, 1024], ∀ x, let k := { Sink.reset with base := 0x10000, head := BitVec.ofNat 32 h, log2 := 10, provider := true, enable := x }
      let s := sinking k
      (s.records = [rec0] ∧ s.sink = [(0, k)] ∧ s.cache = [] ∧ s.msgs = [] ∧ s.dir = [] ∧ s.pod = [] ∧ s.late = [] ∧ k.base.toNat < 2 ^ 55 ∧ k.base.toNat % 4096 = 0 ∧ k.lossless = false ∧
        k.log2 ≤ 26 ∧ s.hbmDown (k.base.toNat / 128) = false ∧ s.hbmDown ((k.base.toNat + 128 + 32 * (k.head.toNat % 2 ^ k.log2)) / 128) = false ∧
        k.gap = 0 ∧ s.ready 0x1100 = true) ∧ ((k.head - k.tail).toNat < 2 ^ k.log2 ↔ h = 4)) ∧ Canonical (sinking Sink.reset) ∧
    (∀ lossless ∈ [0, 2], let d := BitVec.ofNat 256 (0x10000 * 2 ^ 192 + 100 * 2 ^ 40 + 13 * 2 ^ 32 + 4096 * 2 ^ 9 + lossless)
      bits d 255 192 = 0x10000 ∧ bits d 55 40 = 100 ∧ bits d 39 32 = 13 ∧ bits d 31 9 = 4096 ∧ d.getLsbD 1 = decide (lossless = 2)) ∧
    (Sink.reset.stalling = false ∧ ({ Sink.reset with stalling := true } : Sink).stalling = true ∧
      (3 - (2 : Word)).toNat ≤ (4 - (2 : Word)).toNat ∧ (4 - (2 : Word)).toNat < (5 - (2 : Word)).toNat) := by
  refine ⟨by decide +kernel, by decide +kernel, canonical_of _ (by decide +kernel) (by decide +kernel) rfl, by decide +kernel, by decide +kernel⟩

theorem witness_ClocksAndSamples :
    (S0.ptpEver = false ∧ ({ S0 with ptpEver := true } : State).ptpEver = true) ∧
    ((∀ e ∈ State.reset.paddock, e.2.cfg.valid = false ∨ e.2.resident = false) ∧
      2 ^ State.reset.perfRingLog2 ≤ ({ State.reset with perfRingHead := 1 } : State).perfRingHead.toNat) ∧
    (let s := { S0 with time := 2560000000 }
     s.paddock = [(0, pk0)] ∧ pk0.cfg.valid = true ∧ s.timersHeld 0 = false ∧ pk0.sampledAt + 256000 * pk0.cfg.sampleUs ≤ s.absTime ∧
       Store.wf Wg.none s.wg = true ∧ State.allWait s.here = false) ∧
    (S0.absTime < (S0.pk 0).sampledAt + 256000 * (S0.pk 0).cfg.sampleUs) ∧
    (let s := { S0 with sink := [(0, { Sink.reset with enable := true, stalling := true })], readiness := [(0x1100, 2)] }
     (∃ e ∈ s.paddock, e.2.resident = true ∧ inRect e.2.cfg 0 = true ∧ s.sourceStopped e.1 = true) ∧ s.timersHeld 0 = true ∧
       ¬∃ e ∈ S0.paddock, e.2.resident = true ∧ inRect e.2.cfg 0 = true ∧ S0.sourceStopped e.1 = true) := by
  refine ⟨?_, ?_, ?_, ?_, ?_⟩ <;> decide +kernel

theorem witness_SpdmRequests :
    (∀ ph ∈ [SpdmPhase.fresh, .version, .capabilities, .negotiated],
      (({ S0 with spdm := [(0, ⟨ph, 0, 0, [(1, false, 0), (2, true, 0)]⟩)] } : State).spdmAt none).phase = ph) ∧
    ([(1, false, 0), (2, true, 0)].find? (fun e : Nat × Bool × Nat => e.1 == 2) = some (2, true, 0)) ∧
    ([(1, false, 0), (2, true, 0)].find? (fun e : Nat × Bool × Nat => e.1 == 1) = some (1, false, 0)) ∧
    S0.powered = true ∧ (S0.pk 0).cfg.valid = true ∧ (S0.pk 1).cfg.valid = false := by
  refine ⟨?_, ?_, ?_, ?_, ?_, ?_⟩ <;> decide +kernel

theorem witness_DecodeEncode :
    (Instr.wf (.vaddF32 7 5 4 6) = true ∧ encode (.vaddF32 7 5 4 6) ≠ []) ∧ decode 1 ([0xE1820542, 7] : List Word) = .ok (.vmulF32 7 5 4 6) := by
  refine ⟨⟨by decide +kernel, by decide +kernel⟩, rfl⟩

/-- The machine released, where only the clause of S0 can act, or only a message or a packet. -/
def onlyClause (w : Word) : State := { withSpan { span0 with clauses := [{ clause with words := [w] }] } with
  launch := [(0, { launch0 with nextPen := [(0, 1)] })] }
/-- Only this message can act. -/
def onlyMessage (m : Msg) : State := { State.reset with powered := true, readiness := [(0, 2), (16, 2)], msgs := [(h0, m)] }

/-- The drift buffer of core 0 is full, and its workgroup awaits all of its lines but the last; their homes are busy. -/
def crowded : State := { State.reset with
  powered := true, paddock := [(0, pk0)]
  wg := [(0, { wg0 with span := [(0, { Span.fresh with memWait := [awaiting (List.range 31)] })] })]
  cache := (List.range 32).map (fun n => (State.cacheKey 0 n, { CacheLine.none with state := .D }))
  dir := (List.range 32).map (fun n => (n, entry .BMrg 0 [])) }
/-- A packet that reads four bytes. -/
def packet0 : Packet := { job := 0, rank := 0, region := 0, off := 0, key := 0, peer := 0, tag := 0, kind := .read 4 }

theorem witness_StepRunsDecodedInstruction :
    (let s := { S0 with agenda := [(0, .beacon)] }
     s.agenda = [(0, .beacon)] ∧ 0 ≤ s.steps) ∧
    (S0.due = none ∧ State.reset.due = none ∧ State.reset.powered = false ∧ ({ State.reset with powered := true } : State).pick = none) ∧
    (∃ c, (onlyClause 1).pick = some (.instr ⟨0, 0, allLanes⟩) ∧ ((onlyClause 1).spanAt 0 0).clauseOf allLanes = some c ∧
      decode (bits c.hdr 6 4) (c.words.drop (c.pos - 1)) = .ok (.sadd 0 0 (.reg 0))) ∧
    (∃ c, (onlyClause 0xFF).pick = some (.instr ⟨0, 0, allLanes⟩) ∧ ((onlyClause 0xFF).spanAt 0 0).clauseOf allLanes = some c ∧
      ∃ e, decode (bits c.hdr 6 4) (c.words.drop (c.pos - 1)) = .error e) ∧
    ({ State.reset with powered := true, records := [rec0] } : State).pick = some (.event .rimeRecord) ∧
    ({ State.reset with powered := true, inbox := [packet0] } : State).pick = some (.packet packet0) ∧
    (∀ m ∈ [Msg.getS, .drGet ⟨0, 0⟩, .data 5 true, .inv], (onlyMessage m).pick = some (.message h0 m)) ∧
    crowded.pick = some (.evict 0 31) ∧
    ({ State.reset with powered := true, placing := [(0, 0x40)] } : State).pick = some (.place 0 0x40) ∧
    ({ State.reset with powered := true, readWait := [0x0900000000000000] } : State).pick = some (.read 0x0900000000000000) ∧
    ({ State.reset with powered := true, cfgWait := [(1, PaddockCfg.reset)] } : State).pick = some (.config 1 PaddockCfg.reset) := by
  refine ⟨by decide +kernel, by decide +kernel, ⟨_, by decide +kernel, rfl, by rfl⟩, ⟨_, by decide +kernel, rfl, _, rfl⟩, by decide +kernel,
    by decide +kernel, by decide +kernel, ?_, ?_, ?_, ?_⟩
  all_goals decide +kernel

theorem witness_AccessChecks :
    ((0x101#64).toNat % 4 ≠ 0 ∧ (0x1000000000100#64).toNat % 4 = 0 ∧ bits (0x1000000000100#64) 62 48 ≠ 0 ∧
      (0x8000000000000100#64).getLsbD 63 = true ∧ S0.resolve 0 0 (bits (0x8000000000000100#64) 62 41) = (S0, none) ∧
      (0x2000#64).toNat < 2 ^ 48 ∧ (S0.translate 0 5 0x2000 .read false false).2 = .error 0x05) ∧
    (∀ e ∈ [(0x800000B000C00005, (⟨3, 12, 1⟩ : State.Place)), (0x800000B000000005, ⟨0, 12, 1⟩), (0x8000000000000005, ⟨0, 0, 0⟩)],
      let s := ranked [(0, e.1)] []
      (s.resolve 0 0 (bits (0x80000A0000000100#64) 62 41)).2 = some e.2 ∧ s.podId = 0 ∧ s.groupId = 0 ∧ s.slotId = 0 ∧
        (s.resolve 0 0 (bits (0x80000A0000000100#64) 62 41)).1.ownerLaunch 9 5 = none) ∧
    S0.memProg = none ∧
    (∀ l, l < 32 → laneIn S0.lanes l → S0.checkAddr S0.here.core S0.here.paddock S0.asid (S0.laneAddr 2 0 1 l) 16 16 .read S0.privileged false =
      (S0, .error 0x03)) ∧ S0.lanes ≠ 0 ∧ State.stamped ⟨0, 0, 0, 0, 1⟩ = false ∧ S0.span.kc 0 < 63 := by
  refine ⟨by decide +kernel, by decide +kernel, by decide +kernel, fun l _ _ => by rw [show S0.laneAddr 2 0 1 l = 0x101 from rfl]; decide +kernel, by decide +kernel, by decide +kernel, by decide +kernel⟩

theorem witness_ModulusRegister :
    ((S0.span.sr 4).toNat % 2 = 1 ∧ 3 ≤ (S0.span.sr 4).toNat ∧ (S0.span.sr 4).toNat < 2 ^ 62 ∧ 2 ^ 6 ≤ (S0.span.sr 4).toNat ∧
      (S0.span.sr 4).toNat < 2 ^ 7) ∧
    ((2#64).toNat % 2 = 0 ∧ (1#64).toNat < 3 ∧ 2 ^ 62 ≤ (0x4000000000000001#64).toNat) ∧ S0.span.mq = 0 ∧
    (outstanding []).span.pending ≠ [] := by
  refine ⟨?_, ?_, ?_, ?_⟩ <;> decide +kernel

theorem witness_ResetState : 31 < 32 ∧ (6#3) ≠ 7 := by decide

theorem witness_StepKeepsInvariant :
    Memory.wf S0.mem ∧ (∀ i, (Store.get 0 S0.readiness i).toNat ≤ 4) ∧ ∃ t, step State.reset = .next t := by
  refine ⟨by decide +kernel, fun i => ?_, _, rfl⟩
  show (Store.get 0 ready0 i).toNat ≤ 4
  by_cases h : i ∈ List.range 48
  · rw [ready0, get_map _ _ _ _ h]; decide
  · rw [show Store.get 0 ready0 i = 0 from get_absent _ _ _ h]; decide

/-! ## Single steps, with results that the spec states -/

/-- The state after an instruction. -/
def after (i : Instr) (s : State) : State := match exec i s with
  | .next t => t
  | _ => State.reset

/-- S0 with lanes 0 to 3 of v0 to v3 as given. -/
def lanes (v : List (Nat × Word)) : State := withSpan { span0 with v := v }

/-- 07 R104: sums are modulo 2^64. -/
theorem test_sadd_wraps : (after (.sadd 5 1 (.reg 2)) (withSpan { span0 with s := [(1, 1), (2, allOnes64)] })).span.sr 5 = 0 := by
  decide +kernel

/-- 08 R138: inputs 0.0, −3.0 and 4.0 of vexp2. -/
theorem test_vexp2 :
    let t := after (.vexp2F32 7 1 0 7) (lanes [(1, 0xC0400000), (2, 0x40800000)])
    t.span.vr 1 0 = 0x3F800000 ∧ t.span.vr 1 1 = 0x3E000000 ∧ t.span.vr 1 2 = 0x41800000 := by decide +kernel

/-- 08 R140: vpack8.b8p4se of 0.3, 232.0, 240.0 and −1.0, plain and saturating. -/
theorem test_vpack8 :
    let s := lanes [(128 * 3, 0x3E99999A), (128 * 3 + 32, 0x43680000), (128 * 3 + 64, 0x43700000), (128 * 3 + 96, 0xBF800000)]
    (after (.vpack8 7 9 12 0 0x2C) s).span.vr 9 0 = 0xC07F7E32 ∧ (after (.vpack8 7 9 12 1 0x2C) s).span.vr 9 0 = 0xC07E7E32 := by
  decide +kernel

/-- 05 R79: the Barrett constant of 97 is 2^70 divided by 97. -/
theorem test_modulus : (after (.spwr 4 0x20) S0).span.mqr = BitVec.ofNat 64 (2 ^ 70 / 97) := by decide +kernel

/-- 07, worked example, step 1: every lane enrols in j0 with save none, and mr is the address. -/
theorem test_mset :
    let t := after (.mset 0 0x40) S0
    (t.span.jm 0).enrol = 0xFFFFFFFF ∧ (t.span.jm 0).held = 0 ∧ (t.span.laneAt 31).mr = 0x440 ∧
      Store.get 0 (t.span.jm 0).save 31 = allOnes64 := by decide +kernel

/-- 15 R273: rank 5,000 of a range of 1,024 ranks a pod from pod 4, with gmap[28] = 17 in pod 8. -/
theorem test_rank :
    let e : BitVec 128 := BitVec.ofNat 128 (2 ^ 127 + 1023 * 2 ^ 57 + 4 * 2 ^ 45 + 8192 * 2 ^ 22)
    let s := withPk { pk0 with cfg := { pk0.cfg with job := 9 }, rankRange := [(0, e)], rankMap := [(8, BitVec.ofNat 320 (17 * 2 ^ 140 + 8 * 2 ^ 200))] }
    (s.resolve 0 0 5000).2 = some ⟨8, 17, 8⟩ := by decide +kernel

/-- 11 R195, R197: eight lanes that add 1 to one word see 0 to 7. -/
theorem test_amo :
    let t := after (.amoAddI32 7 8 2 0 ⟨0, 0, 0, 0, 0⟩) { lanes ((List.range 8).map (fun l => (l, 1))) with focus := ⟨0, 0, 0xFF, 0x400, 1, 2⟩ }
    (List.range 8).map (fun l => (t.span.vr 0 l).toNat) = [0, 1, 2, 3, 4, 5, 6, 7] ∧ t.viewBytes 0x100100 4 = 8 := by decide +kernel

/-- 19 R340: the CRC-32C of the nine digits is the polynomial's published check value. -/
theorem test_crc32c : crc32c [0x31, 0x32, 0x33, 0x34, 0x35, 0x36, 0x37, 0x38, 0x39] = 0xE3069283 := by decide +kernel

/-- 18 R316, R319: trap on lanes 0 to 31 enters the user handler at level 1, with code 0x11 and the word's address. -/
theorem test_trap :
    let l := (after .trap S0).span.laneAt 31
    l.level = 1 ∧ l.pc = 0x4000 ∧ l.tcode = 0x11 ∧ l.tpc = 0x404 := by decide +kernel

/-- 15 R277: a base that is no multiple of 256 is code 03, with the base as its address; the privileged handler takes it. -/
theorem test_winreg_fault :
    let l := (after (.winreg 5 1 2) { withSpan { span0 with s := [(1, 0x80), (2, 0x100)] } with
      paddock := [(0, { pk0 with cfg := { pk0.cfg with handler := 0x8000 } })] }).span.laneAt 0
    l.level = 2 ∧ l.pc = 0x8000 ∧ l.tcode = 0x03 ∧ l.tvaddr = 0x80 := by decide +kernel

end Sys2Proof.Tests
end

section
/-!
PROOFS. Issue sets and the check of a clause (03 R34, 04 R70), with the facts about sparse maps and sets of lanes that they and the
proofs after them use.
-/


namespace Sys2Proof.Store

variable {α : Type}

/-- An entry of a collection after a write is the one written, or stood there before. -/
theorem mem_set [DecidableEq α] (d : α) (m : Store α) (k : Nat) (v : α) (e : Nat × α) (h : e ∈ set d m k v) :
    e = (k, v) ∨ e ∈ m := by
  unfold set at h
  split at h
  · rw [erase_eq_filter] at h
    exact .inr (List.mem_of_mem_filter h)
  · rcases (mem_insert _ _ _ _).1 h with h | h
    · exact .inl h
    · rw [erase_eq_filter] at h
      exact .inr (List.mem_of_mem_filter h)

/-- What is read at a key is listed there, or is the default. -/
theorem mem_or_get_eq (d : α) (m : Store α) (k : Nat) : (k, get d m k) ∈ m ∨ get d m k = d := by
  induction m with
  | nil => exact .inr rfl
  | cons e m ih =>
    rw [get_cons]
    split
    · next h => subst h; exact .inl (by simp)
    · exact ih.imp (List.mem_cons_of_mem _) id

/-- In the canonical form an entry is what is read at its key. -/
theorem get_of_mem [DecidableEq α] (d : α) (m : Store α) (hw : wf d m = true) (e : Nat × α) (h : e ∈ m) : get d m e.1 = e.2 := by
  rw [wf_iff] at hw
  obtain ⟨hord, -⟩ := hw
  induction m with
  | nil => cases h
  | cons a m ih =>
    rw [List.pairwise_cons] at hord
    rw [get_cons]
    rcases List.mem_cons.1 h with rfl | h
    · simp
    · rw [if_neg (by have := hord.1 e h; omega)]
      exact ih h hord.2

/-- An entry that a change of every listed value keeps as it is. -/
theorem get_mapVals_fixed [DecidableEq α] (d : α) (f : Nat → α → α) (m : Store α) (k : Nat) (hd : get d m k ≠ d)
    (hf : f k (get d m k) = get d m k) : get d (mapVals d f m) k = get d m k := by
  induction m with
  | nil => rfl
  | cons e m ih =>
    rw [get_cons] at hd hf ⊢
    unfold mapVals
    by_cases h : k = e.1
    · subst h
      simp only [if_true] at hd hf ⊢
      rw [List.filterMap_cons, hf, if_neg hd]
      simp [get_cons]
    · rw [if_neg h] at hd hf ⊢
      rw [List.filterMap_cons]
      by_cases he : f e.1 e.2 = d
      · simp only [he, if_true]
        exact ih hd hf
      · simp only [he, if_false]
        rw [get_cons, if_neg h]
        exact ih hd hf

/-- A change that keeps every listed value, none of them the default, keeps the collection. -/
theorem mapVals_eq_self [DecidableEq α] (d : α) (f : Nat → α → α) (m : Store α) (hd : ∀ e ∈ m, e.2 ≠ d)
    (hf : ∀ e ∈ m, f e.1 e.2 = e.2) : mapVals d f m = m := by
  induction m with
  | nil => rfl
  | cons e m ih =>
    have ih := ih (fun e he => hd e (List.mem_cons_of_mem _ he)) (fun e he => hf e (List.mem_cons_of_mem _ he))
    unfold mapVals at ih ⊢
    rw [List.filterMap_cons, hf e (by simp), if_neg (hd e (by simp)), ih]

end Sys2Proof.Store

namespace Sys2Proof.Machine

/-! ## Sets of lanes -/

/-- Sets of lanes that agree on the 32 lanes are equal. -/
theorem lanes_ext {S T : Lanes} (h : ∀ l, l < 32 → laneIn S l = laneIn T l) : S = T :=
  BitVec.eq_of_getLsbD_eq (fun l hl => h l hl)

@[simp] theorem laneIn_and (S T : Lanes) (l : Nat) : laneIn (S &&& T) l = (laneIn S l && laneIn T l) := BitVec.getLsbD_and ..

/-! ## Issue sets (03 R34) -/

namespace Span

/-- The issue set to which an idle lane belongs: the idle lanes at its pc (03 R34). -/
def issueSetOf (sp : Span) (l : Nat) : Lanes :=
  sp.idleLanes &&& lanesWhere (fun m => (sp.laneAt m).pc == (sp.laneAt l).pc)

theorem laneIn_issueSetOf (sp : Span) (l m : Nat) (hm : m < 32) :
    laneIn (sp.issueSetOf l) m = true ↔ laneIn sp.idleLanes m = true ∧ (sp.laneAt m).pc = (sp.laneAt l).pc := by
  simp [issueSetOf, laneIn_lanesWhere _ _ hm]

/-- Two lanes of one pc belong to one issue set. -/
theorem issueSetOf_congr (sp : Span) {l m : Nat} (h : (sp.laneAt l).pc = (sp.laneAt m).pc) :
    sp.issueSetOf l = sp.issueSetOf m := by
  rw [issueSetOf, h, ← issueSetOf]

/-- Collecting the issue sets of lanes xs, after sets a that are issue sets already, gives those of a and those of the lanes xs. -/
theorem mem_foldl_issueSets (sp : Span) (xs : List Nat) (a : List Lanes) (hx : ∀ l ∈ xs, l < 32)
    (ha : ∀ S ∈ a, ∃ m, S = sp.issueSetOf m) (S : Lanes) :
    S ∈ xs.foldl (fun a l => if a.any (fun S => laneIn S l) then a else a ++ [sp.issueSetOf l]) a ↔
      S ∈ a ∨ ∃ l ∈ xs, S = sp.issueSetOf l := by
  induction xs generalizing a with
  | nil => simp
  | cons x xs ih =>
    have hxs : ∀ l ∈ xs, l < 32 := fun l hl => hx l (List.mem_cons_of_mem _ hl)
    rw [List.foldl_cons]
    split
    · next hin =>
      rw [ih a hxs ha]
      obtain ⟨T, hT, hxT⟩ := List.any_eq_true.1 hin
      obtain ⟨m, rfl⟩ := ha T hT
      have hsame : sp.issueSetOf x = sp.issueSetOf m :=
        sp.issueSetOf_congr ((sp.laneIn_issueSetOf m x (hx x (by simp))).1 hxT).2
      simp only [List.mem_cons, exists_eq_or_imp, hsame]
      constructor
      · rintro (h | h)
        · exact .inl h
        · exact .inr (.inr h)
      · rintro (h | rfl | h)
        · exact .inl h
        · exact .inl hT
        · exact .inr h
    · rw [ih _ hxs (fun T hT => ?_)]
      · simp only [List.mem_append, List.mem_cons, List.not_mem_nil, or_false, exists_eq_or_imp, or_assoc]
      · rcases List.mem_append.1 hT with h | h
        · exact ha T h
        · exact ⟨x, List.mem_singleton.1 h⟩

/-- The issue sets of a span are those of its idle lanes (03 R34). -/
theorem mem_issueSets (sp : Span) (S : Lanes) :
    S ∈ sp.issueSets ↔ ∃ l, l < 32 ∧ laneIn sp.idleLanes l = true ∧ S = sp.issueSetOf l := by
  have h := sp.mem_foldl_issueSets (lanesOf sp.idleLanes) [] (fun l hl => ((mem_lanesOf _ _).1 hl).1)
    (fun T hT => absurd hT (by simp)) S
  simp only [List.not_mem_nil, false_or, mem_lanesOf, and_assoc] at h
  exact h

/-- An issue set is what its lanes are: the idle lanes of one pc (03 R34). -/
theorem eq_issueSetOf_iff (sp : Span) (S : Lanes) (l : Nat) :
    S = sp.issueSetOf l ↔
      ∀ m, m < 32 → (laneIn S m = true ↔ laneIn sp.idleLanes m = true ∧ (sp.laneAt m).pc = (sp.laneAt l).pc) := by
  constructor
  · rintro rfl m hm
    exact sp.laneIn_issueSetOf l m hm
  · intro h
    refine lanes_ext (fun m hm => Bool.eq_iff_iff.2 ?_)
    rw [h m hm, sp.laneIn_issueSetOf l m hm]

end Span

/-! ## The check of a clause (04 R70) -/

/-- The faults of a header for which a clause is illegal whatever its words: rules 1 and 2 of 04 R70. -/
theorem clauseLegal_of_badHeader (hdr : Word) (words : List Word)
    (h : bits hdr 31 29 ≠ 5 ∨ bits hdr 6 4 = 7 ∨ bits hdr 3 0 = 0 ∨ (hdr.getLsbD 7 = true ∧ bits hdr 3 0 = 1) ∨
      (∃ i, bits hdr 3 0 < i ∧ i ≤ 15 ∧ hdr.getLsbD (13 + i) = true)) : clauseLegal hdr words = false := by
  rw [Bool.eq_false_iff]
  intro hl
  simp only [clauseLegal, Bool.and_eq_true, beq_iff_eq, bne_iff_ne, Bool.not_eq_true', Bool.and_eq_false_iff, beq_eq_false_iff_ne, List.all_eq_true, List.mem_range,
    Bool.or_eq_true, decide_eq_true_eq, depBit] at hl
  obtain ⟨⟨⟨⟨⟨hfmt, hcls⟩, hn⟩, hstop⟩, hdep⟩, -⟩ := hl
  rcases h with h | h | h | ⟨h7, h1⟩ | ⟨i, hi, h15, hbit⟩
  · exact h hfmt
  · exact hcls h
  · exact hn h
  · rcases hstop with h | h
    · rw [h7] at h; cases h
    · exact h h1
  · have := hdep (i - 1) (by omega)
    rw [show i - 1 + 1 = i by omega, hbit] at this
    rcases this with h | h
    · omega
    · cases h

end Sys2Proof.Machine
end

section
/-!
PROOFS. The issue of a clause (04 R72, 15 R280, 18 R327): the fetch, and the clause that opens.
-/


namespace Sys2Proof.Machine

/-! ## Frames of the issuing span -/

/-- A frame of the issuing span speaks of the workgroups and the focus alone: it passes to states that differ from its own elsewhere. -/
theorem OnlySpan.of_wg {s t s' t' : State} (h : OnlySpan s t) (hs : s'.wg = s.wg) (hf : s'.focus = s.focus) (ht : t'.wg = t.wg)
    (hr : t' = { s' with wg := t'.wg }) : OnlySpan s' t' := by
  have hst : t.focus = s.focus := by rw [h.rest]
  have hft : t'.focus = s'.focus := by rw [hr]
  have hsw (g : Nat) : s'.wgAt g = s.wgAt g := by rw [State.wgAt, hs, ← State.wgAt]
  have htw (g : Nat) : t'.wgAt g = t.wgAt g := by rw [State.wgAt, ht, ← State.wgAt]
  have hsh : s'.here = s.here := by rw [State.here, hsw, hf, ← State.here]
  have hth : t'.here = t.here := by rw [State.here, htw, hft, hf, ← hst, ← State.here]
  refine ⟨hr, fun a => by rw [hr]; rfl, fun g hg => ?_, ?_, fun n hn => ?_⟩
  · rw [htw, hsw, h.groups g (hf ▸ hg)]
  · rw [hth, hsh, h.here]
  · rw [hth, hsh, h.spans n (hf ▸ hn)]

/-! ## Records of a workgroup (17 R306) -/

/-- The type, the ordinal and the payload of a record. -/
def Record.content (r : Record) : Nat × BitVec 20 × Dword × Dword := (r.typ, r.ordinal, r.w2, r.w3)

/-- A record of a workgroup's span has its last stop site as ordinal and names its workgroup. -/
theorem emitWg_content (s : State) (typ unit g n : Nat) (w3 : Dword) :
    (s.emitWg typ unit g n w3).records.map Record.content =
      s.records.map Record.content ++ [(typ, (s.spanAt g n).lastStop, State.workWord (s.wgAt g) n, w3)] := by
  rw [show (s.emitWg typ unit g n w3).records = s.records ++ [_] from rfl, List.map_append]
  rfl

@[simp] theorem emitWg_wg (s : State) (typ unit g n : Nat) (w3 : Dword) : (s.emitWg typ unit g n w3).wg = s.wg := rfl
@[simp] theorem wgAt_emitWg (s : State) (typ unit g n h : Nat) (w3 : Dword) : (s.emitWg typ unit g n w3).wgAt h = s.wgAt h := rfl
@[simp] theorem spanAt_emitWg (s : State) (typ unit g n h m : Nat) (w3 : Dword) :
    (s.emitWg typ unit g n w3).spanAt h m = s.spanAt h m := rfl

theorem wgAt_updSpanAt (s : State) (g n h : Nat) (f : Span → Span) :
    (s.updSpanAt g n f).wgAt h = if h = g then (s.wgAt g).updSpan n f else s.wgAt h := State.wgAt_updWg ..

/-- The workgroup word does not depend on the workgroup's spans. -/
theorem workWord_updSpanAt (s : State) (g n h m : Nat) (f : Span → Span) :
    State.workWord ((s.updSpanAt g n f).wgAt h) m = State.workWord (s.wgAt h) m := by
  rw [wgAt_updSpanAt]
  split
  · next h => subst h; rfl
  · rfl

/-! ## CLAUSE_ISSUE (04 R72) -/

section Issue

variable {s u : State} {q : SpanRef} {pc : Dword} {hdr : Word} {words : List Word}

/-- What an issue set at its header does next: it fetches its clause. -/
theorem exec_clauseIssue_fetch (hres : (s.wgAt q.g).res = .resident) (hset : q.lanes ∈ (s.spanAt q.g q.sp).issueSets) :
    (∀ c a, (s.atHeader q).fetchClause (s.atHeader q).focus.hdrPc = .bad u c a →
      exec (.clauseIssue q) s = .next (u.headerFault c a)) ∧
    ((s.atHeader q).fetchClause (s.atHeader q).focus.hdrPc = .wait u → exec (.clauseIssue q) s = .next u) ∧
    ((s.atHeader q).fetchClause (s.atHeader q).focus.hdrPc = .ok u (hdr, words) →
      exec (.clauseIssue q) s = if clauseLegal hdr words = false then .next (u.headerFault 0x01 0)
        else if State.maskHolds u.span hdr then .next u else .next (u.openClause hdr words)) := by
  have hgo : ¬((s.wgAt q.g).res ≠ .resident ∨ (!((s.spanAt q.g q.sp).issueSets.contains q.lanes)) = true) := by
    simp [hres, hset]
  refine ⟨fun c a hf => ?_, fun hf => ?_, fun hf => ?_⟩
  all_goals
    change execClauseIssue q s = _
    rw [execClauseIssue, if_neg hgo]
    simp only [hf]
  cases clauseLegal hdr words <;> rfl

/-- A wait mask holds the issue back while a counter that it names is not zero (04 R60). -/
theorem maskHolds_iff (sp : Span) (hdr : Word) :
    State.maskHolds sp hdr = true ↔ ∃ k, k < 6 ∧ hdr.getLsbD (8 + k) = true ∧ sp.kc k ≠ 0 := by
  simp [State.maskHolds]

end Issue

/-- A span in which the clause c opens for the lanes S at step now. -/
def Span.opened (sp : Span) (S : Lanes) (now : Nat) (c : Clause) : Span :=
  { (sp.updLanes S (fun _ la => { la with lastIssue := now })) with clauses := sp.clauses ++ [c] }

/-- A span that passes stop site ord; the stop-next flag goes where it stops there (15 R280, 18 R327). -/
def Span.pastSite (sp : Span) (ord : BitVec 20) (stop : Bool) : Span :=
  { sp with lastStop := ord, stopNext := sp.stopNext && !stop }

theorem Span.opened_rest (sp : Span) (S : Lanes) (now : Nat) (c : Clause) :
    sp.opened S now c = { sp with lane := (sp.opened S now c).lane, clauses := sp.clauses ++ [c] } := by
  unfold Span.opened
  rw [updLanes_rest]

theorem Span.laneAt_opened (sp : Span) (S : Lanes) (now : Nat) (c : Clause) (l : Nat) (hl : l < 32) :
    (sp.opened S now c).laneAt l = if laneIn S l then { sp.laneAt l with lastIssue := now } else sp.laneAt l :=
  laneAt_updLanes sp S _ l hl

namespace State

/-- Does a clause stop at its site: a comparator names the site, or the debugger's stop-next flag is set (15 R280, 18 R327). -/
def stopsAtSite (s : State) (hdr : Word) (words : List Word) : Bool :=
  hdr.getLsbD 7 && ((s.pk s.here.paddock).cfg.stops.contains ((words.getD 0 0).extractLsb' 0 20).toNat ||
    ((s.pk s.here.paddock).cfg.debugger && s.span.stopNext))

/-- The clause as it opens: at its first instruction, past a stop site, stopped where it stops there. -/
def openedClause (s : State) (hdr : Word) (words : List Word) : Clause :=
  { s.freshClause hdr words (if hdr.getLsbD 7 then 2 else 1) with stopped := s.stopsAtSite hdr words }

/-- The state in which the clause stands open and is counted. -/
def withOpened (s : State) (hdr : Word) (words : List Word) : State :=
  let s1 := s.updSpan (fun sp => sp.opened s.lanes (s.steps + 1) (s.openedClause hdr words))
  { (s1.count s.here.core (bits hdr 6 4) 1) with
    floorCnt := Store.upd 0 s1.floorCnt (floorKey s.here.core (bits hdr 6 4) s.launchHere.prio) (fun n => n + 1) }

/-- The issuing span passes a stop site, with the site's record (15 R280). -/
def withSite (s : State) (ord : BitVec 20) (stop : Bool) : State :=
  (s.updSpan (fun sp => sp.pastSite ord stop)).emitWg 0x10 0x00 s.focus.g s.focus.sp (s.lanes.setWidth 64)

/-- A clause without a stop site opens. -/
theorem openClause_plain (s : State) (hdr : Word) (words : List Word) (h : hdr.getLsbD 7 = false) :
    s.openClause hdr words = s.withOpened hdr words := by
  simp only [openClause, h]
  unfold withOpened openedClause stopsAtSite
  simp only [h]
  rfl

/-- A clause with a stop site opens past it, and stops there where it must, with a record of its own. -/
theorem openClause_site (s : State) (hdr : Word) (words : List Word) (h : hdr.getLsbD 7 = true) :
    s.openClause hdr words =
      let s3 := (s.withOpened hdr words).withSite ((words.getD 0 0).extractLsb' 0 20) (s.stopsAtSite hdr words)
      if s.stopsAtSite hdr words then s3.emitWg 0x12 0x00 s.focus.g s.focus.sp (s.lanes.setWidth 64) else s3 := by
  simp only [openClause, h]
  unfold withOpened withSite openedClause stopsAtSite
  simp only [h]
  rfl

end State

end Sys2Proof.Machine
end

section
/-!
PROOFS. What a clause that opens changes: its span, the counts of its pipe, the trace.
-/


namespace Sys2Proof.Machine

/-- Only the issuing span, the trace and the counts of the pipes' issues (14 R258) may differ between s and t. -/
def SpanTraced (s t : State) : Prop := OnlySpan { s.traced t with floorCnt := t.floorCnt } t

namespace SpanTraced

theorem of_onlySpan {s t : State} (h : OnlySpan s t) : SpanTraced s t :=
  h.of_wg rfl rfl rfl (by rw [h.rest]; rfl)

theorem updSpan (s : State) (f : Span → Span) : SpanTraced s (s.updSpan f) := of_onlySpan (onlySpan_updSpan s f)

theorem of_traced {s t : State} (h : t = s.traced t) : SpanTraced s t :=
  (OnlySpan.refl s).of_wg rfl rfl (by rw [h]; rfl) (by rw [h]; rfl)

theorem emitWg (s : State) (typ unit g n : Nat) (w3 : Dword) : SpanTraced s (s.emitWg typ unit g n w3) :=
  of_traced (State.emit_traced ..)

theorem of_counts {s t : State} (hw : t.wg = s.wg) (h : t = { s with perf := t.perf, floorCnt := t.floorCnt }) : SpanTraced s t :=
  (OnlySpan.refl s).of_wg rfl rfl hw (by rw [h]; rfl)

theorem trans {s t u : State} (h1 : SpanTraced s t) (h2 : SpanTraced t u) : SpanTraced s u := by
  have hf : t.focus = s.focus := by rw [h1.rest]; rfl
  have h1' : OnlySpan { s.traced u with floorCnt := u.floorCnt } { t.traced u with floorCnt := u.floorCnt } :=
    h1.of_wg rfl rfl rfl (by rw [h1.rest]; rfl)
  exact h1'.trans h2

end SpanTraced

namespace State

/-- The span of a clause that has opened, past its stop site where it has one (04 R72, 15 R280). -/
theorem openClause_span (s : State) (hdr : Word) (words : List Word) :
    (s.openClause hdr words).span =
      (let sp := s.span.opened s.lanes (s.steps + 1) (s.openedClause hdr words)
      if hdr.getLsbD 7 then sp.pastSite ((words.getD 0 0).extractLsb' 0 20) (s.stopsAtSite hdr words) else sp) := by
  have hopen : (s.withOpened hdr words).span = _ := span_updSpan s _
  by_cases h : hdr.getLsbD 7 = true
  · have hsite : ((s.withOpened hdr words).withSite ((words.getD 0 0).extractLsb' 0 20) (s.stopsAtSite hdr words)).span = _ :=
      span_updSpan (s.withOpened hdr words) _
    rw [hopen] at hsite
    rw [openClause_site s hdr words h]
    simp only [h, if_true] at hsite ⊢
    cases hst : s.stopsAtSite hdr words <;> rw [hst] at hsite <;> exact hsite
  · rw [Bool.not_eq_true] at h
    rw [openClause_plain s hdr words h, hopen]
    simp only [h, Bool.false_eq_true, if_false]

/-- A clause that opens changes its span, the trace and the count of its pipe's issues, and nothing else. -/
theorem openClause_spanTraced (s : State) (hdr : Word) (words : List Word) : SpanTraced s (s.openClause hdr words) := by
  have hopen : SpanTraced s (s.withOpened hdr words) := (SpanTraced.updSpan s _).trans (.of_counts rfl rfl)
  by_cases h : hdr.getLsbD 7 = true
  · have hsite : SpanTraced s ((s.withOpened hdr words).withSite ((words.getD 0 0).extractLsb' 0 20) (s.stopsAtSite hdr words)) :=
      hopen.trans ((SpanTraced.updSpan _ _).trans (.emitWg ..))
    rw [openClause_site s hdr words h]
    dsimp only
    split
    · exact hsite.trans (.emitWg ..)
    · exact hsite
  · rw [Bool.not_eq_true] at h
    rw [openClause_plain s hdr words h]
    exact hopen

/-- The issue counts in its pipe's window at its launch's priority (14 R258). -/
theorem openClause_floorCnt (s : State) (hdr : Word) (words : List Word) :
    (s.openClause hdr words).floorCnt =
      Store.upd 0 s.floorCnt (floorKey s.here.core (bits hdr 6 4) s.launchHere.prio) (fun n => n + 1) := by
  by_cases h : hdr.getLsbD 7 = true
  · rw [openClause_site s hdr words h]
    dsimp only
    split <;> rfl
  · rw [Bool.not_eq_true] at h
    rw [openClause_plain s hdr words h]
    rfl

/-- The records of an issue: the stop site's, then that of a stop there (15 R280, 18 R327). -/
theorem openClause_content (s : State) (hdr : Word) (words : List Word) :
    let ord : BitVec 20 := (words.getD 0 0).extractLsb' 0 20
    let who := workWord s.here s.focus.sp
    (s.openClause hdr words).records.map Record.content = s.records.map Record.content ++
      (if hdr.getLsbD 7 then [(0x10, ord, who, s.lanes.setWidth 64)] else []) ++
      (if s.stopsAtSite hdr words then [(0x12, ord, who, s.lanes.setWidth 64)] else []) := by
  intro ord who
  by_cases h : hdr.getLsbD 7 = true
  · have hspan : ((s.withOpened hdr words).updSpan (fun sp => sp.pastSite ord (s.stopsAtSite hdr words))).span.lastStop = ord := by
      rw [span_updSpan]; rfl
    have hwho : workWord (((s.withOpened hdr words).updSpan (fun sp => sp.pastSite ord (s.stopsAtSite hdr words))).wgAt s.focus.g)
        s.focus.sp = who := by
      rw [updSpan, workWord_updSpanAt]
      exact workWord_updSpanAt s ..
    have hsite : ((s.withOpened hdr words).withSite ord (s.stopsAtSite hdr words)).records.map Record.content =
        s.records.map Record.content ++ [(0x10, ord, who, s.lanes.setWidth 64)] := by
      rw [withSite, emitWg_content]
      refine congrArg₂ (· ++ ·) rfl (congrArg (fun x => [x]) ?_)
      exact congrArg₂ (fun a b => (0x10, a, b, _)) hspan hwho
    rw [openClause_site s hdr words h]
    simp only [h, if_true]
    cases hst : s.stopsAtSite hdr words
    · rw [hst] at hsite
      simpa only [Bool.false_eq_true, if_false, List.append_nil] using hsite
    · simp only [if_true]
      rw [emitWg_content]
      rw [hst] at hsite hspan hwho
      refine congrArg₂ (· ++ ·) hsite (congrArg (fun x => [x]) ?_)
      exact congrArg₂ (fun a b => (0x12, a, b, _)) hspan hwho
  · rw [Bool.not_eq_true] at h
    have hst : s.stopsAtSite hdr words = false := by rw [stopsAtSite, h, Bool.false_and]
    rw [openClause_plain s hdr words h]
    simp only [h, hst, if_false, List.append_nil, Bool.false_eq_true]
    rfl

end State

/-- A clause that opens: what its span, its counts and the trace become (04 R72, 15 R280, 18 R327). -/
theorem openClause_opens (u : State) (hdr : Word) (words : List Word) :
    let site := hdr.getLsbD 7
    let ord : BitVec 20 := (words.getD 0 0).extractLsb' 0 20
    let stop := u.stopsAtSite hdr words
    let key := State.floorKey u.here.core (bits hdr 6 4) u.launchHere.prio
    let t := u.openClause hdr words
    OnlySpan { u.traced t with floorCnt := t.floorCnt } t ∧
      t.span = { u.span with
        lane := t.span.lane, lastStop := (if site then ord else u.span.lastStop), stopNext := (u.span.stopNext && !stop),
        clauses := u.span.clauses ++ [u.openedClause hdr words] } ∧
      (∀ l, l < 32 → t.span.laneAt l =
        if laneIn u.lanes l then { u.span.laneAt l with lastIssue := u.steps + 1 } else u.span.laneAt l) ∧
      Store.get 0 t.floorCnt key = Store.get 0 u.floorCnt key + 1 ∧
      t.records.map Record.content = u.records.map Record.content ++
        (if site then [(0x10, ord, State.workWord u.here u.focus.sp, u.lanes.setWidth 64)] else []) ++
        (if stop then [(0x12, ord, State.workWord u.here u.focus.sp, u.lanes.setWidth 64)] else []) := by
  intro site ord stop key t
  refine ⟨State.openClause_spanTraced u hdr words, ?_, fun l hl => ?_, ?_, State.openClause_content u hdr words⟩
  · simp only [t, State.openClause_span]
    by_cases h : hdr.getLsbD 7 = true
    · simp only [site, h, if_true]
      rw [Span.opened_rest]
      rfl
    · rw [Bool.not_eq_true] at h
      have hst : stop = false := by simp only [stop, State.stopsAtSite, h, Bool.false_and]
      simp only [site, h, hst, Bool.not_false, Bool.and_true, Bool.false_eq_true, if_false]
      exact Span.opened_rest ..
  · show (u.openClause hdr words).span.laneAt l = _
    rw [State.openClause_span, ← Span.laneAt_opened u.span u.lanes (u.steps + 1) (u.openedClause hdr words) l hl]
    dsimp only
    split <;> rfl
  · show Store.get 0 (u.openClause hdr words).floorCnt _ = _
    rw [State.openClause_floorCnt, Store.get_upd_self]

end Sys2Proof.Machine
end

section
/-!
PROOFS. What the end of a clause uses: frames of one span, rejoin masks that enrol nobody, lanes that land, barriers at which nobody is
held.
-/


namespace Sys2Proof.Machine

/-! ## CLAUSE_END (07 R110, R114, R115): frames -/

theorem OnlySpanAt.refl (s : State) (g n : Nat) : OnlySpanAt s s g n := ⟨rfl, fun _ _ => rfl, rfl, fun _ _ => rfl⟩

theorem onlySpanAt_updSpanAt (s : State) (g n : Nat) (f : Span → Span) : OnlySpanAt s (s.updSpanAt g n f) g n := by
  refine ⟨rfl, fun h hh => ?_, ?_, fun m hm => ?_⟩
  · rw [wgAt_updSpanAt, if_neg hh]
  · rw [wgAt_updSpanAt, if_pos rfl]; rfl
  · rw [State.spanAt_updSpanAt, if_neg (fun h => hm h.2)]

theorem OnlySpanAt.trans {s t u : State} {g n : Nat} (h1 : OnlySpanAt s t g n) (h2 : OnlySpanAt t u g n) : OnlySpanAt s u g n := by
  obtain ⟨hr1, hw1, hg1, hs1⟩ := h1
  obtain ⟨hr2, hw2, hg2, hs2⟩ := h2
  refine ⟨?_, fun h hh => (hw2 h hh).trans (hw1 h hh), ?_, fun m hm => (hs2 m hm).trans (hs1 m hm)⟩
  · conv_lhs => rw [hr2, hr1]
  · conv_lhs => rw [hg2, hg1]

/-- Two changes of a span that agree on the span as it stands. -/
theorem updSpanAt_congr (s : State) (g n : Nat) {f f' : Span → Span} (h : f (s.spanAt g n) = f' (s.spanAt g n)) :
    s.updSpanAt g n f = s.updSpanAt g n f' := by
  have hs : Store.get Span.fresh (Store.get Wg.none s.wg g).span n = s.spanAt g n := rfl
  have hw : (s.wgAt g).updSpan n f = (s.wgAt g).updSpan n f' := by
    simp only [Wg.updSpan, Store.upd]
    show ({ s.wgAt g with span := Store.set Span.fresh _ n (f (s.spanAt g n)) } : Wg) = _
    rw [h]; rfl
  show ({ s with wg := Store.set Wg.none s.wg g ((s.wgAt g).updSpan n f) } : State) = _
  rw [hw]; rfl

/-! ## Rejoin masks that enrol nobody (03 R36, 07 R118) -/

namespace Span

/-- No rejoin mask of the span enrols a thread. -/
def Unenrolled (sp : Span) : Prop := ∀ i, i < 8 → (sp.jm i).enrol = 0

/-- Threads that leave a mask change the masks alone. -/
theorem leaveMask_rest (sp : Span) (n : Nat) (S : Lanes) : sp.leaveMask n S = { sp with j := (sp.leaveMask n S).j } := by
  unfold leaveMask
  dsimp only
  split <;> rfl

theorem leaveMask_unenrolled {sp : Span} (h : sp.Unenrolled) (n : Nat) (hn : n < 8) (S : Lanes) : (sp.leaveMask n S).Unenrolled := by
  intro i hi
  have he : (sp.jm n).enrol &&& ~~~S = 0 := by rw [h n hn]; exact BitVec.zero_and
  unfold leaveMask
  dsimp only
  rw [if_pos he, jm_setJ]
  split
  · rfl
  · exact h i hi

/-- Threads that leave every mask of a span that enrols nobody. -/
theorem foldl_leaveMask (xs : List Nat) (S : Lanes) (sp : Span) (hx : ∀ n ∈ xs, n < 8) (h : sp.Unenrolled) :
    (xs.foldl (fun a n => a.leaveMask n S) sp).Unenrolled ∧
      xs.foldl (fun a n => a.leaveMask n S) sp = { sp with j := (xs.foldl (fun a n => a.leaveMask n S) sp).j } := by
  induction xs generalizing sp with
  | nil => exact ⟨h, rfl⟩
  | cons x xs ih =>
    obtain ⟨hu, hr⟩ := ih (sp.leaveMask x S) (fun n hn => hx n (List.mem_cons_of_mem _ hn)) (leaveMask_unenrolled h x (hx x (by simp)) S)
    refine ⟨hu, ?_⟩
    rw [List.foldl_cons]
    generalize hq : List.foldl (fun a n => a.leaveMask n S) (sp.leaveMask x S) xs = q at hr ⊢
    rw [hr, leaveMask_rest sp x S]

/-- Threads of a span that enrols nobody end (07 R114): they run no more, and stand nowhere. -/
theorem endLanes_unenrolled {sp : Span} (h : sp.Unenrolled) (S : Lanes) :
    (sp.endLanes S).Unenrolled ∧ sp.endLanes S = { sp with lane := (sp.endLanes S).lane, j := (sp.endLanes S).j } ∧
      ∀ l, l < 32 → (sp.endLanes S).laneAt l =
        if laneIn S l then { sp.laneAt l with ended := true, hold := .free, level := 0 } else sp.laneAt l := by
  have hu : (sp.updLanes S (fun _ la => { la with ended := true, hold := .free, level := 0 })).Unenrolled := by
    rw [updLanes_rest]; exact h
  obtain ⟨hend, hrest⟩ := foldl_leaveMask (List.range 8) S _ (fun n hn => List.mem_range.1 hn) hu
  refine ⟨hend, ?_, fun l hl => ?_⟩
  · have : sp.endLanes S = _ := hrest
    rw [this, updLanes_rest]
  · have : sp.endLanes S = _ := hrest
    rw [this]
    exact laneAt_updLanes sp S _ l hl

end Span

/-- No mask is due in a span that enrols nobody: release_check changes nothing (07 R118). -/
theorem releaseCheck_unenrolled (s : State) (g n : Nat) (h : (s.spanAt g n).Unenrolled) : s.releaseCheck g n = s := by
  have hat (i : Nat) : s.releaseAt g n (i % 8) = s := by
    unfold State.releaseAt
    dsimp only
    rw [if_pos (.inl (h _ (Nat.mod_lt i (by decide))))]
  have hall (xs : List Nat) : xs.foldl (fun a i => a.releaseAt g n (i % 8)) s = s := by
    induction xs with
    | nil => rfl
    | cons x xs ih => rw [List.foldl_cons, hat, ih]
  exact hall _

/-! ## Lanes that land at their targets (07 R110) -/

/-- A thread whose pc is not its mr meets nobody. -/
theorem meet_of_ne (sp : Span) (l : Nat) (h : (sp.laneAt l).pc ≠ (sp.laneAt l).mr) : sp.meet l = sp := by
  unfold Span.meet
  dsimp only
  rw [if_pos]
  simp [h]

theorem foldl_meet_of_ne (xs : List Nat) (sp : Span) (h : ∀ l ∈ xs, (sp.laneAt l).pc ≠ (sp.laneAt l).mr) :
    xs.foldl Span.meet sp = sp := by
  induction xs with
  | nil => rfl
  | cons x xs ih =>
    rw [List.foldl_cons, meet_of_ne sp x (h x (by simp))]
    exact ih (fun l hl => h l (List.mem_cons_of_mem _ hl))

/-- Where lane l of a clause goes at the clause's end: to the target that it took, or past the clause (07 R110). -/
def Clause.landing (c : Clause) (l : Nat) : Dword := (c.target l).getD (c.hdrPc + BitVec.ofNat 64 (4 * (bits c.hdr 3 0 + 1)))

/-- A lane that has landed; a yielded clause's counts as the latest to issue (07 R115). -/
def Clause.landed (c : Clause) (now l : Nat) (la : Lane) : Lane :=
  { la with pc := c.landing l, lastIssue := if c.yielded then now else la.lastIssue }

/-- Lanes whose mr is no meeting address land and meet nobody. -/
theorem landTargets_of_ones (sp : Span) (c : Clause) (now : Nat)
    (hmr : ∀ l, l < 32 → laneIn c.lanes l = true → (sp.laneAt l).mr = allOnes64)
    (hgo : ∀ l, l < 32 → laneIn c.lanes l = true → c.landing l ≠ allOnes64) :
    State.landTargets sp c now = sp.updLanes (c.lanes &&& sp.alive) (c.landed now) := by
  refine foldl_meet_of_ne _ (sp.updLanes (c.lanes &&& sp.alive) (c.landed now)) (fun l hl => ?_)
  obtain ⟨hl, hin⟩ := (mem_lanesOf _ l).1 hl
  rw [laneIn_and, Bool.and_eq_true] at hin
  have hc : laneIn c.lanes l = true := by
    have := hin.1
    rw [laneIn_and, Bool.and_eq_true] at this
    exact this.1
  rw [laneAt_updLanes _ _ _ _ hl, if_pos hin.1]
  show c.landing l ≠ (sp.laneAt l).mr
  rw [hmr l hl hc]
  exact hgo l hl hc

theorem laneIn_alive (sp : Span) (l : Nat) (hl : l < 32) : laneIn sp.alive l = !(sp.laneAt l).ended :=
  laneIn_lanesWhere _ l hl

/-- A span has no running thread when all its threads have ended (03 R38). -/
theorem alive_eq_zero_iff (sp : Span) : sp.alive = 0 ↔ ∀ l, l < 32 → (sp.laneAt l).ended = true := by
  constructor
  · intro h l hl
    have := laneIn_alive sp l hl
    rw [h] at this
    simpa [laneIn] using this
  · intro h
    refine lanes_ext (fun l hl => ?_)
    rw [laneIn_alive sp l hl, h l hl]
    simp [laneIn]

/-! ## Barriers at which nobody is held (14 R259) -/

/-- No thread of the workgroup is held at a barrier. -/
def Wg.Unheld (w : Wg) : Prop := ∀ n l, l < 32 → ∀ k, ((w.spanAt n).laneAt l).hold ≠ .barrier k

theorem barrierRecheck_unheld (s : State) (g : Nat) (h : ∀ e ∈ s.wg, e.2.Unheld) : s.barrierRecheck g = s := by
  have hnone (k : BarKind) : ((s.parties g k).any (fun e => e.2.spanNums.any (fun n =>
      (List.range 32).any (fun l => decide (((e.2.spanAt n).laneAt l).hold = .barrier k))))) = false := by
    rw [Bool.eq_false_iff]
    intro ht
    obtain ⟨e, he, ht⟩ := List.any_eq_true.1 ht
    obtain ⟨n, -, ht⟩ := List.any_eq_true.1 ht
    obtain ⟨l, hl, ht⟩ := List.any_eq_true.1 ht
    exact h e (List.mem_of_mem_filter he) n l (List.mem_range.1 hl) k (of_decide_eq_true ht)
  unfold State.barrierRecheck
  simp only [hnone, Bool.false_eq_true, if_false]

theorem unheld_spanAt {s : State} (h : ∀ e ∈ s.wg, e.2.Unheld) (g n l : Nat) (hl : l < 32) (k : BarKind) :
    ((s.spanAt g n).laneAt l).hold ≠ .barrier k := by
  rcases Store.mem_or_get_eq Wg.none s.wg g with hin | hno
  · exact h _ hin n l hl k
  · rw [State.spanAt, show s.wgAt g = Wg.none from hno]
    exact fun hk => by cases hk

/-- A change of one span after which nobody in it is held leaves nobody held anywhere. -/
theorem unheld_updSpanAt {s : State} (h : ∀ e ∈ s.wg, e.2.Unheld) (g n : Nat) (f : Span → Span)
    (hf : ∀ l, l < 32 → ∀ k, ((f (s.spanAt g n)).laneAt l).hold ≠ .barrier k) : ∀ e ∈ (s.updSpanAt g n f).wg, e.2.Unheld := by
  intro e he
  rcases Store.mem_set _ _ _ _ _ he with rfl | he
  · intro m l hl k
    show (((s.wgAt g).updSpan n f).spanAt m |>.laneAt l).hold ≠ .barrier k
    rw [Wg.spanAt_updSpan]
    split
    · exact hf l hl k
    · exact unheld_spanAt h g m l hl k
  · exact h e he

end Sys2Proof.Machine
end

section
/-!
PROOFS. The end of a clause (07 R110, R114, R115), and O37.
-/


namespace Sys2Proof.Machine

/-! ## CLAUSE_END (07 R110, R114, R115): what becomes of the clause -/

section End

variable {s : State} {q : SpanRef} {c : Clause} {cs : List Clause}

/-- The state in which the span's first clause has left issue. -/
def State.withoutFirst (s : State) (q : SpanRef) : State :=
  s.updSpanAt q.g q.sp (fun sp => { sp with clauses := sp.clauses.tail })

theorem spanAt_withoutFirst (hcs : (s.spanAt q.g q.sp).clauses = c :: cs) :
    (s.withoutFirst q).spanAt q.g q.sp = { s.spanAt q.g q.sp with clauses := cs } := by
  rw [State.withoutFirst, State.spanAt_updSpanAt, if_pos ⟨rfl, rfl⟩, hcs, List.tail_cons]

/-- The state in which the lanes of the span's first clause have ended with it, before the ends of its handler and of its workgroup are
looked at (07 R114). -/
def State.exited (s : State) (q : SpanRef) : State := (s.withoutFirst q).updSpanAt q.g q.sp (fun sp => sp.endLanes q.lanes)

theorem onlySpanAt_exited (s : State) (q : SpanRef) : OnlySpanAt s (s.exited q) q.g q.sp :=
  (onlySpanAt_updSpanAt ..).trans (onlySpanAt_updSpanAt ..)

/-- The first clause of a span, when it is the open clause of the issue set. -/
theorem clauseOf_first (hcs : (s.spanAt q.g q.sp).clauses = c :: cs) (hl : c.lanes = q.lanes) (hs : c.suspended = false) :
    (s.spanAt q.g q.sp).clauseOf q.lanes = some c := by
  simp [Span.clauseOf, hcs, hl, hs]

/-- The clause leaves issue. -/
theorem updFirst_withoutFirst (hcs : (s.spanAt q.g q.sp).clauses = c :: cs) (hl : c.lanes = q.lanes) (hs : c.suspended = false) :
    s.updSpanAt q.g q.sp (fun sp => { sp with clauses := Span.updFirst (Span.openFor q.lanes) (fun _ => []) sp.clauses }) =
      s.withoutFirst q := by
  refine updSpanAt_congr s q.g q.sp ?_
  simp [hcs, Span.updFirst, Span.openFor, hl, hs]

/-- No result of the clause is outstanding that names no counter. -/
theorem uncounted_eq_false (sp : Span) (h : ∀ p ∈ sp.pending, p.ctr ≠ 7 ∨ p.lanes &&& c.lanes = 0) : State.uncounted sp c = false := by
  rw [Bool.eq_false_iff]
  intro hu
  obtain ⟨p, hp, hu⟩ := List.any_eq_true.1 hu
  simp only [Bool.and_eq_true, beq_iff_eq, bne_iff_ne] at hu
  obtain ⟨⟨hctr, -⟩, hlanes⟩ := hu
  rcases h p hp with h | h
  · exact h hctr
  · exact hlanes h

variable (hcs : (s.spanAt q.g q.sp).clauses = c :: cs) (hl : c.lanes = q.lanes) (hs : c.suspended = false)

include hcs hl hs

/-- A clause with words left stays in issue. -/
theorem exec_clauseEnd_unfinished (hpos : c.pos ≤ bits c.hdr 3 0) : exec (.clauseEnd q) s = .next s := by
  show execClauseEnd q s = _
  rw [execClauseEnd]
  simp only [clauseOf_first hcs hl hs]
  rw [if_pos (.inl hpos)]

variable (hpos : bits c.hdr 3 0 < c.pos) (hpend : ∀ p ∈ (s.spanAt q.g q.sp).pending, p.ctr ≠ 7 ∨ p.lanes &&& c.lanes = 0)

include hpos hpend

/-- A finished clause that does not exit: its lanes land. -/
theorem exec_clauseEnd_land (hex : c.exiting = false) : exec (.clauseEnd q) s =
    .next (((s.withoutFirst q).updSpanAt q.g q.sp (fun sp => State.landTargets sp c (s.steps + 1))).releaseCheck q.g q.sp) := by
  show execClauseEnd q s = _
  rw [execClauseEnd]
  simp only [clauseOf_first hcs hl hs]
  rw [if_neg (by rw [uncounted_eq_false _ hpend]; simpa [Clause.n] using hpos), updFirst_withoutFirst hcs hl hs, hex]
  rfl

/-- A finished clause that exits outside the privileged handler: its lanes end. -/
theorem exec_clauseEnd_exit (hex : c.exiting = true)
    (hlv : ((s.spanAt q.g q.sp).laneAt (State.lowest q.lanes)).level ≠ 2) : exec (.clauseEnd q) s =
    .next (((((s.withoutFirst q).updSpanAt q.g q.sp (fun sp => sp.endLanes q.lanes)).releaseCheck q.g q.sp).leaveCheck q.g q.sp
      ((s.spanAt q.g q.sp).laneAt (State.lowest q.lanes)).level).afterEnd q.g) := by
  have hwait : s.frameWaits q.g q.sp q.lanes = none := by
    unfold State.frameWaits
    exact if_pos (.inl hlv)
  show execClauseEnd q s = _
  rw [execClauseEnd]
  simp only [clauseOf_first hcs hl hs]
  rw [if_neg (by rw [uncounted_eq_false _ hpend]; simpa [Clause.n] using hpos), updFirst_withoutFirst hcs hl hs, hex, if_pos rfl, hwait]

variable (hj : (s.spanAt q.g q.sp).Unenrolled)

include hj

/-- 07 R110, R115: the lanes of a clause that does not exit go where they land. -/
theorem clauseEnd_lands (hex : c.exiting = false)
    (hmr : ∀ l, l < 32 → laneIn c.lanes l = true → ((s.spanAt q.g q.sp).laneAt l).mr = allOnes64)
    (hgo : ∀ l, l < 32 → laneIn c.lanes l = true → c.landing l ≠ allOnes64) :
    ∃ t, exec (.clauseEnd q) s = .next t ∧ OnlySpanAt s t q.g q.sp ∧
      t.spanAt q.g q.sp = { s.spanAt q.g q.sp with clauses := cs, lane := (t.spanAt q.g q.sp).lane } ∧
      ∀ l, l < 32 → (t.spanAt q.g q.sp).laneAt l = if laneIn c.lanes l = true ∧ ((s.spanAt q.g q.sp).laneAt l).ended = false
        then c.landed (s.steps + 1) l ((s.spanAt q.g q.sp).laneAt l) else (s.spanAt q.g q.sp).laneAt l := by
  have hspan : ((s.withoutFirst q).updSpanAt q.g q.sp (fun sp => State.landTargets sp c (s.steps + 1))).spanAt q.g q.sp =
      ({ s.spanAt q.g q.sp with clauses := cs } : Span).updLanes (c.lanes &&& (s.spanAt q.g q.sp).alive) (c.landed (s.steps + 1)) := by
    rw [State.spanAt_updSpanAt, if_pos ⟨rfl, rfl⟩, spanAt_withoutFirst hcs]
    exact landTargets_of_ones _ c _ hmr hgo
  rw [exec_clauseEnd_land hcs hl hs hpos hpend hex, releaseCheck_unenrolled _ _ _ (by rw [hspan, updLanes_rest]; exact hj)]
  refine ⟨_, rfl, (onlySpanAt_updSpanAt ..).trans (onlySpanAt_updSpanAt ..), ?_, fun l hl => ?_⟩
  · rw [hspan, updLanes_rest]
  · rw [hspan, laneAt_updLanes _ _ _ _ hl, laneIn_and, laneIn_alive _ _ hl]
    simp only [Bool.and_eq_true, Bool.not_eq_true']
    rfl

omit hpos hpend hs in
/-- The span of a clause that exits: its lanes have ended, and no mask enrols a thread (07 R114). -/
theorem spanAt_exited :
    ((s.exited q).spanAt q.g q.sp).Unenrolled ∧
      (s.exited q).spanAt q.g q.sp = { s.spanAt q.g q.sp with
        clauses := cs, lane := ((s.exited q).spanAt q.g q.sp).lane, j := ((s.exited q).spanAt q.g q.sp).j } ∧
      ∀ l, l < 32 → ((s.exited q).spanAt q.g q.sp).laneAt l = if laneIn c.lanes l = true
        then { (s.spanAt q.g q.sp).laneAt l with ended := true, hold := .free, level := 0 } else (s.spanAt q.g q.sp).laneAt l := by
  have hspan : (s.exited q).spanAt q.g q.sp = ({ s.spanAt q.g q.sp with clauses := cs } : Span).endLanes q.lanes := by
    rw [State.exited, State.spanAt_updSpanAt, if_pos ⟨rfl, rfl⟩, spanAt_withoutFirst hcs]
  rw [hspan, hl]
  exact Span.endLanes_unenrolled (sp := { s.spanAt q.g q.sp with clauses := cs }) hj q.lanes

/-- Where nothing is left of the handler level that the lanes stood at, only the workgroup's end is looked at. -/
theorem exec_clauseEnd_exited (hex : c.exiting = true)
    (hlv : ((s.spanAt q.g q.sp).laneAt (State.lowest q.lanes)).level ≠ 2)
    (hleave : (s.exited q).leaveCheck q.g q.sp ((s.spanAt q.g q.sp).laneAt (State.lowest q.lanes)).level = s.exited q) :
    exec (.clauseEnd q) s = .next ((s.exited q).afterEnd q.g) := by
  rw [exec_clauseEnd_exit hcs hl hs hpos hpend hex hlv, ← State.exited,
    releaseCheck_unenrolled _ _ _ (spanAt_exited hcs hl hj).1, hleave]

/-- 07 R114: the lanes of an exiting clause end, and others of the span live on. -/
theorem clauseEnd_exits (hex : c.exiting = true) (hlv : ((s.spanAt q.g q.sp).laneAt (State.lowest q.lanes)).level = 0)
    (hlive : ∃ l, l < 32 ∧ laneIn c.lanes l = false ∧ ((s.spanAt q.g q.sp).laneAt l).ended = false)
    (hsp : q.sp < (s.wgAt q.g).nspans) (hheld : ∀ e ∈ s.wg, e.2.Unheld) :
    ∃ t, exec (.clauseEnd q) s = .next t ∧ OnlySpanAt s t q.g q.sp ∧
      t.spanAt q.g q.sp = { s.spanAt q.g q.sp with
        clauses := cs, lane := (t.spanAt q.g q.sp).lane, j := (t.spanAt q.g q.sp).j } ∧
      (t.spanAt q.g q.sp).Unenrolled ∧
      ∀ l, l < 32 → (t.spanAt q.g q.sp).laneAt l = if laneIn c.lanes l = true
        then { (s.spanAt q.g q.sp).laneAt l with ended := true, hold := .free, level := 0 } else (s.spanAt q.g q.sp).laneAt l := by
  obtain ⟨hun, hrest, hlanes⟩ := spanAt_exited hcs hl hj
  have hleave : (s.exited q).leaveCheck q.g q.sp ((s.spanAt q.g q.sp).laneAt (State.lowest q.lanes)).level = s.exited q :=
    if_neg (fun h => h.1 hlv)
  have hrun : ((s.exited q).wgAt q.g).allEnded = false := by
    obtain ⟨l, hl32, hlc, hle⟩ := hlive
    rw [Bool.eq_false_iff]
    intro hall
    have hend := List.all_eq_true.1 hall q.sp (List.mem_range.2 (by
      rw [(onlySpanAt_exited s q).2.2.1]; exact hsp))
    have := (alive_eq_zero_iff _).1 (beq_iff_eq.1 hend) l hl32
    rw [show ((s.exited q).wgAt q.g).spanAt q.sp = (s.exited q).spanAt q.g q.sp from rfl, hlanes l hl32, if_neg (by simp [hlc]), hle] at this
    cases this
  have hfree : ∀ e ∈ (s.exited q).wg, e.2.Unheld := by
    refine unheld_updSpanAt (unheld_updSpanAt hheld q.g q.sp _ (fun l hl k => unheld_spanAt hheld q.g q.sp l hl k)) q.g q.sp _
      (fun l hl32 k => ?_)
    have hlane := hlanes l hl32
    rw [State.exited, State.spanAt_updSpanAt, if_pos ⟨rfl, rfl⟩] at hlane
    rw [State.withoutFirst] at hlane
    rw [hlane]
    split
    · exact fun hk => by cases hk
    · exact unheld_spanAt hheld q.g q.sp l hl32 k
  rw [exec_clauseEnd_exited hcs hl hs hpos hpend hj hex (by omega) hleave, State.afterEnd]
  dsimp only
  rw [if_neg (by simp [hrun]), barrierRecheck_unheld _ _ hfree]
  exact ⟨_, rfl, onlySpanAt_exited s q, hrest, hun, hlanes⟩

/-- 07 R114, 03 R38: with the last lanes of a workgroup of one span, outside the privileged handler, the workgroup ends. -/
theorem clauseEnd_endsWg (hex : c.exiting = true) (hlv : ((s.spanAt q.g q.sp).laneAt (State.lowest q.lanes)).level ≠ 2)
    (hlast : ∀ l, l < 32 → laneIn c.lanes l = false → ((s.spanAt q.g q.sp).laneAt l).ended = true)
    (hone : (s.wgAt q.g).nspans = 1) (hsp : q.sp = 0) (hres : (s.wgAt q.g).res ≠ .ended) :
    ∃ u, exec (.clauseEnd q) s = .next ((State.endWg u q.g false false).launchCheck (s.wgAt q.g).launchKey) ∧
      OnlySpanAt s u q.g q.sp ∧ (u.spanAt q.g q.sp).alive = 0 := by
  obtain ⟨-, -, hlanes⟩ := spanAt_exited hcs hl hj
  have honly := onlySpanAt_exited s q
  have hdead : ((s.exited q).spanAt q.g q.sp).alive = 0 := by
    refine (alive_eq_zero_iff _).2 (fun l hl32 => ?_)
    rw [hlanes l hl32]
    split
    · rfl
    · next h => exact hlast l hl32 (Bool.not_eq_true _ ▸ h)
  have hleave (lv : Nat) : (s.exited q).leaveCheck q.g q.sp lv = s.exited q := by
    unfold State.leaveCheck State.endActivation
    dsimp only
    rw [if_pos hdead, ite_self]
  have hwg : (s.exited q).wgAt q.g = { s.wgAt q.g with span := ((s.exited q).wgAt q.g).span } := honly.2.2.1
  have hall : ((s.exited q).wgAt q.g).allEnded = true := by
    refine List.all_eq_true.2 (fun n hn => ?_)
    have hn : n < ((s.exited q).wgAt q.g).nspans := List.mem_range.1 hn
    rw [hwg] at hn
    have hn : n = q.sp := by
      have : n < 1 := hone ▸ hn
      omega
    subst hn
    exact beq_iff_eq.2 hdead
  have hend : ((s.exited q).wgAt q.g).res ≠ .ended := by rw [hwg]; exact hres
  have hkey : ((s.exited q).wgAt q.g).launchKey = (s.wgAt q.g).launchKey := by rw [hwg]; rfl
  refine ⟨s.exited q, ?_, honly, hdead⟩
  rw [exec_clauseEnd_exited hcs hl hs hpos hpend hj hex hlv (hleave _), State.afterEnd, if_pos ⟨hend, hall⟩, hkey]

end End

/-! ## O37 -/

/-- Settles O37: the issue sets are the classes of the idle lanes by pc; an issue is the fetch, the check, the wait mask and the opening of
the clause in turn; an end is the landing or the ending of its lanes, after which, with no thread enrolled or held, no mask and no barrier
is due. -/
theorem clausesIssueAndEnd : Obligations.ClausesIssueAndEnd := by
  refine ⟨⟨fun sp S => ?_, clauseLegal_of_badHeader, fun s u q hdr words => ?_⟩, fun s q c cs => ?_⟩
  · simp only [sp.mem_issueSets, Span.eq_issueSetOf_iff]
  · intro sp pc s0 r hres hset
    obtain ⟨hbad, hwait, hok⟩ := exec_clauseIssue_fetch (u := u) (hdr := hdr) (words := words) hres hset
    refine ⟨hbad, hwait, fun hf hfocus => ?_⟩
    have hr := hok hf
    refine ⟨fun hleg => ?_, fun hleg hmask => ?_, fun hleg hmask => ?_⟩
    · exact hr.trans (if_pos hleg)
    · exact (hr.trans (if_neg (by simp [hleg]))).trans (if_pos ((maskHolds_iff u.span hdr).2 hmask))
    · intro site ord cfg stop key
      have hmask : ¬State.maskHolds u.span hdr = true := by
        rw [maskHolds_iff]
        rintro ⟨k, hk, hbit, hkc⟩
        exact hkc (hmask k hk hbit)
      have hnext : r = .next (u.openClause hdr words) := (hr.trans (if_neg (by simp [hleg]))).trans (if_neg hmask)
      have hopens := openClause_opens u hdr words
      rw [State.openedClause, State.freshClause, State.lanes, hfocus] at hopens
      exact ⟨_, hnext, hopens⟩
  · intro sp r hcs hl hs
    refine ⟨exec_clauseEnd_unfinished hcs hl hs, fun hpos hpend hj => ⟨?_, ?_, ?_⟩⟩
    · intro hex hmr go hgo
      exact clauseEnd_lands hcs hl hs hpos hpend hj hex hmr hgo
    · intro hex hlv hlive hsp hheld
      exact clauseEnd_exits hcs hl hs hpos hpend hj hex hlv hlive hsp (fun e he n l _ k => hheld e he n l k)
    · exact fun hex hlv hlast hone hsp hres => clauseEnd_endsWg hcs hl hs hpos hpend hj hex hlv hlast hone hsp hres

end Sys2Proof.Machine
end

section
/-!
PROOFS. What a write of the machine itself at a line's home may change (13 R239, 14 R252): memory, directories, caches, messages and the
error logs; of the workgroups the monitors alone (14 R264).
-/


namespace Sys2Proof.Machine

/-- No span of the workgroup has a monitor, and none is listed that is a fresh one. -/
def Wg.Unwatched (w : Wg) : Prop := ∀ e ∈ w.span, e.2 ≠ Span.fresh ∧ e.2.mon = Option.none

/-- What an access at a line's home may change: memory, the directories with the drift order, the caches, messages, writes that wait, the
paddocks' error logs, and the monitors of workgroups. -/
structure HomeOnly (s t : State) : Prop where
  rest : t = { s with
    mem := t.mem, paddock := t.paddock, dir := t.dir, pod := t.pod, cache := t.cache, proxy := t.proxy, msgs := t.msgs, late := t.late,
    outbox := t.outbox, driftOrder := t.driftOrder, wg := t.wg }
  unwatched : ∀ g, s.wgAt g ≠ Wg.none → (s.wgAt g).Unwatched → t.wgAt g = s.wgAt g

namespace HomeOnly

theorem refl (s : State) : HomeOnly s s := ⟨rfl, fun _ _ _ => rfl⟩

theorem trans {s t u : State} (h1 : HomeOnly s t) (h2 : HomeOnly t u) : HomeOnly s u := by
  refine ⟨?_, fun g hg hw => ?_⟩
  · conv_lhs => rw [h2.rest, h1.rest]
  · have h := h1.unwatched g hg hw
    rw [h2.unwatched g (h ▸ hg) (h ▸ hw), h]

theorem launchAt {s t : State} (h : HomeOnly s t) (k : Nat) : t.launchAt k = s.launchAt k := by rw [h.rest]; rfl
theorem records {s t : State} (h : HomeOnly s t) : t.records = s.records := by rw [h.rest]
theorem lamport {s t : State} (h : HomeOnly s t) : t.lamport = s.lamport := by rw [h.rest]

/-- A change that leaves the workgroups. -/
theorem of_rest {s t : State} (h : t = { s with
    mem := t.mem, paddock := t.paddock, dir := t.dir, pod := t.pod, cache := t.cache, proxy := t.proxy, msgs := t.msgs, late := t.late,
    outbox := t.outbox, driftOrder := t.driftOrder }) : HomeOnly s t :=
  ⟨by rw [h], fun g _ _ => by rw [h]; rfl⟩

/-- A choice between two changes. -/
theorem ite {p : Prop} [Decidable p] {s t u : State} (ht : HomeOnly s t) (hu : HomeOnly s u) : HomeOnly s (if p then t else u) := by
  split
  · exact ht
  · exact hu

/-! ## Single changes -/

theorem setDir (s : State) (n : Nat) (d : DirEntry) : HomeOnly s (s.setDir n d) := of_rest rfl
theorem setPod (s : State) (n : Nat) (d : DirEntry) : HomeOnly s (s.setPod n d) := of_rest rfl
theorem setProxy (s : State) (n : Nat) (c : CacheLine) : HomeOnly s (s.setProxy n c) := of_rest rfl
theorem dropCopies (s : State) (n : Nat) : HomeOnly s (s.dropCopies n) := of_rest rfl
theorem outCopies (s : State) (n : Nat) : HomeOnly s (s.outCopies n) := of_rest rfl
theorem updPk (s : State) (n : Nat) (f : Paddock → Paddock) : HomeOnly s (s.updPk n f) := of_rest rfl
theorem late (s : State) (ws : List LateWrite) : HomeOnly s { s with late := ws } := of_rest rfl
theorem setBytes (s : State) (a n x : Nat) : HomeOnly s (s.setBytes a n x) := of_rest (by rw [State.setBytes_rest])
theorem setMemLine (s : State) (n : Nat) (d : LineData) : HomeOnly s (s.setMemLine n d) := setBytes ..
theorem freeDir (s : State) (n : Nat) (x : HomeState) : HomeOnly s (s.freeDir n x) := setDir ..

theorem send (s : State) (h : Hdr) (m : Msg) : HomeOnly s (s.send h m) := by
  unfold State.send
  exact ite (of_rest rfl) (of_rest rfl)

theorem toPod (s : State) (p : BitVec 13) (n : Nat) (m : Msg) : HomeOnly s (s.toPod p n m) := send ..

/-- A write triggers monitors: workgroups without any stay as they are (14 R264). -/
theorem trigger (s : State) (n : Nat) : HomeOnly s (s.trigger n) := by
  refine ⟨rfl, fun g hg hw => ?_⟩
  unfold State.trigger State.wgAt
  dsimp only
  refine Store.get_mapVals_fixed _ _ _ _ hg ?_
  refine congrArg (fun x => { s.wgAt g with span := x }) ?_
  exact Store.mapVals_eq_self _ _ _ (fun e he => (hw e he).1) (fun e he => by rw [(hw e he).2])

/-! ## Folds -/

theorem foldl {α : Type} (f : State → α → State) (hf : ∀ s x, HomeOnly s (f s x)) (xs : List α) (s : State) : HomeOnly s (xs.foldl f s) := by
  induction xs generalizing s with
  | nil => exact refl s
  | cons x xs ih => exact (hf s x).trans (ih _)

/-! ## Error logs, copies out and merges (13 R239, R243, R246) -/

theorem logError (s : State) (pkn : Nat) (a : Dword) (rank : Option (BitVec 22)) (r c k : Nat) (o : BitVec 20) :
    HomeOnly s (s.logError pkn a rank r c k o) := by
  unfold State.logError
  dsimp only
  split
  · exact updPk ..
  · split
    · exact ((setBytes ..).trans (trigger ..)).trans (updPk ..)
    · exact (late ..).trans (updPk ..)

theorem logLine (s : State) (n : Nat) (p : BitVec 13) (k : Nat) (pk : Option Nat) : HomeOnly s (s.logLine n p k pk) :=
  foldl _ (fun _ _ => logError ..) _ s

theorem soil (s : State) (n : Nat) : HomeOnly s (s.soil n) := by
  unfold State.soil
  split
  · exact setProxy ..
  · exact refl s

theorem proxyMerge (s : State) (n k : Nat) : HomeOnly s (s.proxyMerge n k) :=
  (((outCopies ..).trans (freeDir ..)).trans (setProxy ..)).trans (toPod ..)

theorem joinPod (s : State) (n : Nat) : HomeOnly s (s.joinPod n) := ((outCopies ..).trans (freeDir ..)).trans (setPod ..)

theorem mergeHome (s : State) (n : Nat) (pk : Option Nat) : HomeOnly s (s.mergeHome n pk) := by
  unfold State.mergeHome
  dsimp only
  split
  · exact proxyMerge ..
  · split
    · exact joinPod ..
    · split
      · exact (outCopies ..).trans (freeDir ..)
      · split
        · exact (((outCopies ..).trans (freeDir ..)).trans (trigger ..)).trans (logLine ..)
        · exact (((outCopies ..).trans (setMemLine ..)).trans (freeDir ..)).trans (trigger ..)

theorem copiesOut (s : State) (n : Nat) (pk : Option Nat) : HomeOnly s (s.copiesOut n pk) := by
  unfold State.copiesOut
  dsimp only
  split
  · exact mergeHome ..
  · refine trans ?_ ((outCopies ..).trans (freeDir ..))
    split
    · split
      · exact refl s
      · exact (setMemLine ..).trans (soil ..)
    · exact refl s

theorem takeIn (s : State) (n : Nat) : HomeOnly s (s.takeIn n) := by
  unfold State.takeIn
  dsimp only
  split
  · exact refl s
  · split
    · split
      · exact (setDir ..).trans (mergeHome ..)
      · exact freeDir ..
    · have hasked (d : DirEntry) (f : State → BitVec 13 → Hdr) (m : Msg) (ps : List (BitVec 13)) :
          HomeOnly s (ps.foldl (fun a p => a.send (f a p) m) (s.setDir n d)) :=
        (setDir ..).trans (foldl _ (fun _ _ => send ..) ps _)
      exact ite ((hasked ..).trans (send ..)) (hasked ..)

/-! ## What is asked of a home and of the pod (13 R239, R240) -/

theorem askRoom (s : State) (p : BitVec 13) (n : Nat) : HomeOnly s (s.askRoom p n) := by
  unfold State.askRoom
  split
  · exact refl s
  · exact send ..

theorem leaveProxy (s : State) (n k : Nat) : HomeOnly s (s.leaveProxy n k) := by
  have hput (a : State) (c : CacheLine) (m : Msg) (h : HomeOnly s a) : HomeOnly s ((a.setProxy n c).toPod (s.podHome n) n m) :=
    (h.trans (setProxy ..)).trans (toPod ..)
  unfold State.leaveProxy
  dsimp only
  split
  · exact takeIn ..
  · split
    · exact proxyMerge ..
    · exact (copiesOut ..).trans (setProxy ..)
    · split
      · exact hput _ _ _ (copiesOut ..)
      · exact hput _ _ _ (copiesOut ..)
    · exact hput _ _ _ (copiesOut ..)
    · exact hput _ _ _ (copiesOut ..)
    · exact refl s

theorem podMerge (s : State) (n : Nat) (pk : Option Nat) : HomeOnly s (s.podMerge n pk) := by
  unfold State.podMerge
  dsimp only
  split
  · exact ((((setPod ..).trans (outCopies ..)).trans (freeDir ..)).trans (trigger ..)).trans (logLine ..)
  · split
    · exact setPod ..
    · split
      · exact (setPod ..).trans (setDir ..)
      · exact ((setPod ..).trans (setMemLine ..)).trans (trigger ..)

theorem podAsk (s : State) (n : Nat) (need : Need) : HomeOnly s (s.podAsk n need) := by
  have hask (c : CacheLine) (m : Msg) : HomeOnly s (if s.sentOut 0 n then s else (s.setProxy n c).toPod (s.podHome n) n m) := by
    split
    · exact refl s
    · exact (setProxy ..).trans (toPod ..)
  unfold State.podAsk
  dsimp only
  split
  · split
    · exact hask ..
    · exact hask ..
    · exact hask ..
    · exact leaveProxy ..
    · exact hask ..
    · exact leaveProxy ..
    · exact hask ..
    · exact leaveProxy ..
    · exact leaveProxy ..
    · exact leaveProxy ..
    · exact refl s
  · split
    · exact refl s
    · split
      · split
        · exact (setPod ..).trans (podMerge ..)
        · exact setPod ..
      · have hasked (d : DirEntry) (m : Msg) (ps : List (BitVec 13)) :
            HomeOnly s (ps.foldl (fun a p => a.toPod p n m) (s.setPod n d)) :=
          (setPod ..).trans (foldl _ (fun _ _ => toPod ..) ps _)
        exact ite ((hasked ..).trans (toPod ..)) (hasked ..)

theorem askHome (s : State) (p : BitVec 13) (n : Nat) (need : Need) : HomeOnly s (s.askHome p n need) := by
  unfold State.askHome
  split
  · exact refl s
  · split
    · exact refl s
    · exact podAsk ..
  · split
    · exact askRoom ..
    · split
      · exact refl s
      · exact podAsk ..

/-! ## Writes of the machine itself (13 R239) -/

theorem roomAt (s : State) (n : Nat) (p : BitVec 13) (pk : Option Nat) : HomeOnly s (s.roomAt n p pk) := by
  unfold State.roomAt
  split
  · exact freeDir ..
  · exact copiesOut ..

theorem gained (s : State) (n : Nat) : HomeOnly s (s.gained n) := by
  unfold State.gained
  split
  · exact setProxy ..
  · exact refl s

/-- The machine itself has no clock: what answers it changes the proxy alone. -/
theorem answeredTo (s : State) (p : BitVec 13) (hp : 4096 ≤ p.toNat) (n : Nat) : HomeOnly s (s.answeredTo p n) := by
  unfold State.answeredTo
  rw [if_neg (by omega)]
  exact gained ..

theorem homeLine {s t : State} {p : BitVec 13} (hp : 4096 ≤ p.toNat) {n : Nat} {pk : Option Nat} {f : LineData → LineData}
    (h : s.homeLine p n pk f = .ok t) : HomeOnly s t := by
  rw [State.homeLine_ok h]
  exact ((((roomAt ..).trans (setMemLine ..)).trans (soil ..)).trans (trigger ..)).trans (answeredTo _ p hp _)

theorem wrLineHome {s t : State} {p : BitVec 13} (hp : 4096 ≤ p.toNat) {n : Nat} {pk : Option Nat} {d : LineData}
    (h : s.wrLineHome p n pk d = .ok t) : HomeOnly s t := by
  unfold State.wrLineHome at h
  split at h
  · cases h
  · split at h
    · cases h
      exact ((((dropCopies ..).trans (setMemLine ..)).trans (freeDir ..)).trans (trigger ..)).trans (answeredTo _ p hp _)
    · exact homeLine hp h

theorem lateHome {s t : State} {w : LateWrite} (h : s.lateHome w = .ok t) : HomeOnly s t := by
  unfold State.lateHome at h
  split at h
  · split at h
    · exact wrLineHome (by decide) h
    · cases h
  · exact homeLine (by decide) h

theorem homeWrite (s : State) (w : LateWrite) : HomeOnly s (s.homeWrite w) := by
  unfold State.homeWrite
  split
  · exact refl s
  · split
    · next h =>
      split at h
      · cases h
      · exact lateHome h
    · exact (askHome ..).trans (late ..)
    · exact refl s

/-- The yard's write of a launch's status word (14 R252). -/
theorem putStatus (s : State) (k : Nat) : HomeOnly s (s.putStatus k) := by
  unfold State.putStatus
  dsimp only
  split
  · exact refl s
  · exact homeWrite ..

end HomeOnly

end Sys2Proof.Machine
end

section
/-!
PROOFS. What the yard's acts have in common (03 R47, R51, R53): who fits, where a workgroup stands still, the move of its level-0 handles
to new places (log 5), and what an act leaves as it was.
-/


namespace Sys2Proof.Machine

/-! ## Places of level-0 handles (15 R269, log 5) -/

/-- Does an entry name a level-0 handle of the workgroup's own: bound, no chute. -/
def LevelZero (e : BitVec 128) : Prop := e.getLsbD 0 = true ∧ e.getLsbD 2 = false ∧ bits e 63 62 = 0

theorem levelZero_iff (e : BitVec 128) : (eAlloc e && !eChute e && eLevel e == 0) = true ↔ LevelZero e := by
  simp only [Bool.and_eq_true, Bool.not_eq_true', beq_iff_eq, and_assoc]
  rfl

/-- An entry that has become e', and but for the place of a level-0 handle is what it was. -/
def Relocated (e e' : BitVec 128) : Prop := e'.setWidth 64 = e.setWidth 64 ∧ (¬LevelZero e → e' = e)

/-- What kind of handle an entry names stands in its lower half. -/
theorem levelZero_congr {e e' : BitVec 128} (h : e'.setWidth 64 = e.setWidth 64) : LevelZero e' ↔ LevelZero e := by
  have hbit (i : Nat) (hi : i < 64) : e'.getLsbD i = e.getLsbD i := by
    have := congrArg (fun x => x.getLsbD i) h
    simpa [hi] using this
  have hlevel : bits e' 63 62 = bits e 63 62 := by
    have := congrArg BitVec.toNat h
    simp only [BitVec.toNat_setWidth] at this
    simp only [bits, Nat.shiftRight_eq_div_pow]
    omega
  rw [LevelZero, hbit 0 (by decide), hbit 2 (by decide), hlevel, ← LevelZero]

namespace Relocated

theorem refl (e : BitVec 128) : Relocated e e := ⟨rfl, fun _ => rfl⟩

theorem trans {e e' e'' : BitVec 128} (h1 : Relocated e e') (h2 : Relocated e' e'') : Relocated e e'' := by
  obtain ⟨hlow1, hsame1⟩ := h1
  obtain ⟨hlow2, hsame2⟩ := h2
  exact ⟨hlow2.trans hlow1, fun hz => (hsame2 (fun hz' => hz ((levelZero_congr hlow1).1 hz'))).trans (hsame1 hz)⟩

theorem setWidth_place (p : BitVec 64) (x : BitVec 64) : (p ++ x).setWidth 64 = x := by
  refine BitVec.eq_of_getLsbD_eq (fun i hi => ?_)
  rw [BitVec.getLsbD_setWidth, BitVec.getLsbD_append, if_pos hi]
  simp [hi]

/-- A place for a level-0 entry whose lower half is that of e. -/
theorem place {e x : BitVec 128} (h : x.setWidth 64 = e.setWidth 64) (hz : LevelZero x) (p : BitVec 64) :
    Relocated e (p ++ x.setWidth 64) :=
  ⟨(setWidth_place ..).trans h, fun hn => absurd ((levelZero_congr h).1 hz) hn⟩

/-- The entry written out: a new place above the old shape for a level-0 handle, else as it was. -/
theorem eq_ite {e e' : BitVec 128} (h : Relocated e e') :
    e' = if e.getLsbD 0 = true ∧ e.getLsbD 2 = false ∧ bits e 63 62 = 0 then e'.extractLsb' 64 64 ++ e.setWidth 64 else e := by
  obtain ⟨hlow, hsame⟩ := h
  split
  · rw [← hlow]
    refine BitVec.eq_of_getLsbD_eq (fun i hi => Eq.symm ((BitVec.getLsbD_append ..).trans ?_))
    split
    · next h => simp [h]
    · next h => rw [BitVec.getLsbD_extractLsb', show 64 + (i - 64) = i by omega, decide_eq_true (by omega), Bool.true_and]
  · next hz => exact hsame hz

end Relocated

/-- In t the level-0 handles of workgroup g are at other places; but for them, the count of places and the workgroups' list, t is s. -/
structure Moved (s t : State) (g : Nat) : Prop where
  rest : t = { s with wg := t.wg, bindings := t.bindings }
  others : ∀ h, h ≠ g → t.wgAt h = s.wgAt h
  here : t.wgAt g = { s.wgAt g with handle := (t.wgAt g).handle }
  entries : ∀ h, Relocated ((s.wgAt g).entryOf h) ((t.wgAt g).entryOf h)
  wf : Store.wf Wg.none s.wg = true → Store.wf Wg.none t.wg = true

theorem Moved.refl (s : State) (g : Nat) : Moved s s g := ⟨rfl, fun _ _ => rfl, rfl, fun _ => .refl _, id⟩

theorem Moved.trans {s t u : State} {g : Nat} (h1 : Moved s t g) (h2 : Moved t u g) : Moved s u g := by
  refine ⟨?_, fun h hh => (h2.others h hh).trans (h1.others h hh), ?_, fun h => (h1.entries h).trans (h2.entries h), h2.wf ∘ h1.wf⟩
  · conv_lhs => rw [h2.rest, h1.rest]
  · conv_lhs => rw [h2.here, h1.here]

theorem wf_updWg (s : State) (g : Nat) (f : Wg → Wg) (h : Store.wf Wg.none s.wg = true) : Store.wf Wg.none (s.updWg g f).wg = true :=
  Store.wf_upd _ _ _ _ h

/-- One entry of the table takes a new place, if it names a level-0 handle. -/
def State.moveEntry (g : Nat) (a : State) (e : Nat × BitVec 128) : State :=
  if eAlloc e.2 && !eChute e.2 && eLevel e.2 == 0 then
    { a with bindings := a.bindings + 1 }.updWg g (fun w =>
      { w with handle := Store.set 0 w.handle e.1 (a.bindPlace ++ (e.2.setWidth 64 : BitVec 64)) })
  else a

theorem moveEntry_moved (g : Nat) (a : State) (e : Nat × BitVec 128)
    (h : e.2.setWidth 64 = ((a.wgAt g).entryOf e.1).setWidth 64) : Moved a (a.moveEntry g e) g := by
  unfold State.moveEntry
  split
  · next hz =>
    have hz : LevelZero e.2 := (levelZero_iff e.2).1 hz
    have hwg : ({ a with bindings := a.bindings + 1 }.updWg g (fun w =>
        { w with handle := Store.set 0 w.handle e.1 (a.bindPlace ++ (e.2.setWidth 64 : BitVec 64)) })).wgAt g =
        { a.wgAt g with handle := Store.set 0 (a.wgAt g).handle e.1 (a.bindPlace ++ (e.2.setWidth 64 : BitVec 64)) } :=
      State.wgAt_updWg_self ..
    refine ⟨rfl, fun h hh => State.wgAt_updWg_ne _ _ hh, ?_, fun k => ?_, fun h => wf_updWg _ g _ h⟩
    · rw [hwg]
    · rw [hwg]
      show Relocated _ (Store.get 0 (Store.set 0 (a.wgAt g).handle e.1 _) k)
      rw [Store.get_set]
      split
      · next hk => subst hk; exact .place h hz _
      · exact .refl _
  · exact .refl a g

theorem foldl_moveEntry_moved (g : Nat) (xs : List (Nat × BitVec 128)) (a : State)
    (h : ∀ e ∈ xs, e.2.setWidth 64 = ((a.wgAt g).entryOf e.1).setWidth 64) : Moved a (xs.foldl (State.moveEntry g) a) g := by
  induction xs generalizing a with
  | nil => exact .refl a g
  | cons x xs ih =>
    have hx := moveEntry_moved g a x (h x (by simp))
    refine hx.trans (ih _ (fun e he => ?_))
    rw [h e (List.mem_cons_of_mem _ he)]
    exact (hx.entries e.1).1.symm

/-- The level-0 handles of a workgroup take new places, and nothing else happens (03 R51, R53). -/
theorem moveLevel0_moved (s : State) (g : Nat) (hw : Store.wf 0 (s.wgAt g).handle = true) : Moved s (s.moveLevel0 g) g :=
  foldl_moveEntry_moved g (s.wgAt g).handle s (fun e he => by
    rw [Wg.entryOf, Store.get_of_mem 0 _ hw e he])

/-! ## What an act of the yard leaves (03 R51, R53) -/

/-- Only workgroup g, the trace, the count of places and the yard's choices may differ between s and t. -/
def YardOnly (s t : State) (g : Nat) : Prop :=
  t = { s.traced t with wg := t.wg, bindings := t.bindings, chosen := t.chosen } ∧ ∀ h, h ≠ g → t.wgAt h = s.wgAt h

namespace YardOnly

theorem of_chosen {s t : State} (g : Nat) (h : t = { s with chosen := t.chosen }) : YardOnly s t g :=
  ⟨by rw [h]; rfl, fun _ _ => by rw [h]; rfl⟩

theorem of_moved {s t : State} {g : Nat} (h : Moved s t g) : YardOnly s t g :=
  ⟨by rw [h.rest]; rfl, h.others⟩

theorem updWg (s : State) (g : Nat) (f : Wg → Wg) : YardOnly s (s.updWg g f) g :=
  ⟨rfl, fun _ hh => State.wgAt_updWg_ne _ _ hh⟩

theorem bindings (s : State) (g n : Nat) : YardOnly s { s with bindings := n } g := ⟨rfl, fun _ _ => rfl⟩

theorem of_traced {s t : State} (g : Nat) (h : t = s.traced t) : YardOnly s t g :=
  ⟨by rw [h]; rfl, fun _ _ => by rw [h]; rfl⟩

theorem emitWg (s : State) (g typ unit k n : Nat) (w3 : Dword) : YardOnly s (s.emitWg typ unit k n w3) g :=
  of_traced g (State.emit_traced ..)

theorem trans {s t u : State} {g : Nat} (h1 : YardOnly s t g) (h2 : YardOnly t u g) : YardOnly s u g := by
  obtain ⟨hr1, hw1⟩ := h1
  obtain ⟨hr2, hw2⟩ := h2
  refine ⟨?_, fun h hh => (hw2 h hh).trans (hw1 h hh)⟩
  conv_lhs => rw [hr2, hr1]
  rfl

end YardOnly

/-- The record of a yard's act names the workgroup and its core (17 R306). -/
theorem recorded_emitWg {s a : State} {w : Wg} (g typ unit : Nat) (x : Dword) (hr : a.records = s.records)
    (hcore : (a.wgAt g).core = w.core) (hword : State.workWord (a.wgAt g) 0 = State.workWord w 0) :
    Recorded s (a.emitWg typ unit g 0 x) typ unit w.core (State.workWord w 0) x := by
  have h : Recorded a (a.emitWg typ unit g 0 x) typ unit (a.wgAt g).core (State.workWord (a.wgAt g) 0) x := State.emit_records ..
  rw [Recorded, hr, hcore, hword] at h
  exact h

/-! ## Room, candidates and still workgroups (03 R47, R50, R51) -/

/-- A workgroup's needs fit what its core has free (03 R47). -/
theorem fitsIn_iff (s : State) (w : Wg) :
    State.fitsIn (s.needs w) (s.freeOn w.core) = true ↔
      (w.spanNums.filter (fun n => !w.spanEnded n)).length ≤ 8 - s.slotsUsed w.core ∧
      (s.launchAt w.launchKey).tregs w.stage ≤ 16 - s.tregsUsed w.core ∧
      (s.launchAt w.launchKey).level0 w.stage ≤ s.tileFree w.core := by
  simp only [State.fitsIn, Bool.and_eq_true, decide_eq_true_eq, and_assoc]
  rfl

/-- An unstarted workgroup waits for residency where its paddock is resident and its launch is not pre-empted. -/
theorem candidate_unstarted (s : State) {w : Wg} (hres : w.res = .unstarted) :
    s.candidate w = true ↔ (s.pk w.paddock).resident = true ∧ (s.launchAt w.launchKey).preempt = .none := by
  simp [State.candidate, State.wgAtBarrier, hres]

/-- A parked one does so as well, where it is not held at a barrier in all its spans (23 R359). -/
theorem candidate_parked (s : State) {w : Wg} (hres : w.res = .parked) :
    s.candidate w = true ↔
      (s.pk w.paddock).resident = true ∧ State.wgAtBarrier w = false ∧ (s.launchAt w.launchKey).preempt = .none := by
  simp [State.candidate, hres, and_assoc]

/-- A workgroup whose paddock has left or whose launch is pre-empted waits for nothing. -/
theorem not_candidate (s : State) (w : Wg) (h : (s.pk w.paddock).resident = false ∨ (s.launchAt w.launchKey).preempt ≠ .none) :
    s.candidate w = false := by
  rw [Bool.eq_false_iff]
  intro hc
  simp only [State.candidate, Bool.and_eq_true, beq_iff_eq] at hc
  obtain ⟨⟨⟨-, hp⟩, -⟩, hl⟩ := hc
  rcases h with h | h
  · rw [hp] at h; cases h
  · exact h hl

/-- Where a resident workgroup may be parked (03 R51, 18 R325). -/
theorem wgParkable_iff (w : Wg) : State.wgParkable w = true ↔ w.res = .resident ∧ ∀ n, n < w.nspans →
    (w.spanAt n).pending = [] ∧ (w.spanEnded n = true ∨
      (((w.spanAt n).trapMask = false ∨ (w.spanAt n).openLevel = 0) ∧ ∀ c ∈ (w.spanAt n).clauses, c.suspended = true ∨
        (c.stopped = false ∧ (c.waiting = true ∨ ((w.spanAt n).laneAt (State.lowest c.lanes)).level ≠ (w.spanAt n).openLevel)))) := by
  simp only [State.wgParkable, State.spanParkable, Wg.spanNums, Bool.and_eq_true, beq_iff_eq, List.all_eq_true, List.mem_range,
    Bool.or_eq_true, List.isEmpty_iff, Bool.not_eq_true', bne_iff_ne, Bool.and_eq_false_iff, bne_eq_false_iff_eq]
  refine and_congr_right (fun _ => forall_congr' (fun n => imp_congr_right (fun _ => and_congr_right (fun hp => ?_))))
  simp only [hp, true_and]

end Sys2Proof.Machine
end

section
/-!
PROOFS. The yard's acts (03 R31, R47, R50, R51, R53), and O39.
-/


namespace Sys2Proof.Machine

/-! ## WORKGROUP_START (03 R31) -/

/-- A core hears a clock: its own rises to it, where it precedes it (12 R223). -/
theorem hearClock_rest (s : State) (core : Nat) (x : BitVec 48) :
    s.hearClock core x = { s with lamport := (s.hearClock core x).lamport } := by
  unfold State.hearClock
  split <;> rfl

theorem lamport_hearClock (s : State) (core k : Nat) (x : BitVec 48) :
    Store.get 0 (s.hearClock core x).lamport k =
      if k = core ∧ precedes (Store.get 0 s.lamport k) x = true then x else Store.get 0 s.lamport k := by
  unfold State.hearClock
  by_cases h : precedes (Store.get 0 s.lamport core) x = true
  · rw [if_pos h]
    show Store.get 0 (Store.set 0 s.lamport core x) k = _
    rw [Store.get_set]
    by_cases hk : k = core
    · subst hk
      rw [if_pos rfl, if_pos ⟨rfl, h⟩]
    · rw [if_neg hk, if_neg (fun hx => hk hx.1)]
  · rw [if_neg h, if_neg]
    rintro ⟨rfl, hx⟩
    exact h hx

/-- The spans with which a workgroup starts at an entry (03 R31). -/
def startSpans (n : Nat) (entry : Dword) : Store Span :=
  (List.range n).foldl (fun m i => Store.set Span.fresh m i (State.startSpan entry)) []

theorem startSpan_rest (entry : Dword) : State.startSpan entry = { Span.fresh with lane := (State.startSpan entry).lane } :=
  updLanes_rest ..

/-- Every lane of a span that starts stands at its stage's entry. -/
theorem laneAt_startSpan (entry : Dword) (l : Nat) (hl : l < 32) :
    (State.startSpan entry).laneAt l = { Lane.fresh with pc := entry } := by
  rw [State.startSpan, laneAt_updLanes _ _ _ _ hl, if_pos (laneIn_allLanes l hl)]
  rfl

theorem get_startSpans (n : Nat) (entry : Dword) (i : Nat) :
    Store.get Span.fresh (startSpans n entry) i = if i < n then State.startSpan entry else Span.fresh := by
  rw [startSpans, Store.get_foldl_set _ _ (fun _ => State.startSpan entry) _ List.nodup_range]
  simp

theorem wf_startSpans (n : Nat) (entry : Dword) : Store.wf Span.fresh (startSpans n entry) = true := by
  have hfold (xs : List Nat) (m : Store Span) (hm : Store.wf Span.fresh m = true) :
      Store.wf Span.fresh (xs.foldl (fun m i => Store.set Span.fresh m i (State.startSpan entry)) m) = true := by
    induction xs generalizing m with
    | nil => exact hm
    | cons x xs ih => exact ih _ (Store.wf_set _ _ _ _ hm)
  exact hfold _ [] rfl

/-- A workgroup as it starts (03 R31). -/
def Wg.started (w : Wg) (now : Nat) (entry : Dword) : Wg :=
  { w with res := .resident, since := now, span := startSpans w.nspans entry }

/-- A workgroup that starts has no monitor. -/
theorem unwatched_started (w : Wg) (now : Nat) (entry : Dword) : (w.started now entry).Unwatched := by
  intro e he
  have hwf := wf_startSpans w.nspans entry
  refine ⟨((Store.wf_iff _ _).1 hwf).2 e he, ?_⟩
  rw [← Store.get_of_mem _ _ hwf e he, get_startSpans]
  split
  · rw [startSpan_rest]; rfl
  · rfl

/-- The state in which workgroup g has started, its launch not yet looked at. -/
def State.withStarted (s : State) (g : Nat) : State :=
  let w := s.wgAt g
  let l := s.launchAt w.launchKey
  (((s.dropChoice w.core).hearClock w.core l.clock).updWg g (fun w => w.started (s.steps + 1) (l.entryPc w.stage))).emitWg 0x1A 0x01 g 0 0

section Start

variable (s : State) (g : Nat)

theorem wgAt_withStarted : (s.withStarted g).wgAt g =
    (s.wgAt g).started (s.steps + 1) ((s.launchAt (s.wgAt g).launchKey).entryPc (s.wgAt g).stage) := by
  have hwg : ((s.dropChoice (s.wgAt g).core).hearClock (s.wgAt g).core (s.launchAt (s.wgAt g).launchKey).clock).wgAt g = s.wgAt g := by
    rw [hearClock_rest]; rfl
  rw [State.withStarted, wgAt_emitWg, State.wgAt_updWg_self, hwg]

theorem withStarted_rest : s.withStarted g =
    { s.traced (s.withStarted g) with wg := (s.withStarted g).wg, chosen := (s.withStarted g).chosen, lamport := (s.withStarted g).lamport } := by
  have hemit (a : State) : a.emitWg 0x1A 0x01 g 0 0 = a.traced (a.emitWg 0x1A 0x01 g 0 0) := State.emit_traced ..
  unfold State.withStarted
  dsimp only
  rw [hemit, hearClock_rest]
  rfl

theorem wgAt_withStarted_ne {h : Nat} (hh : h ≠ g) : (s.withStarted g).wgAt h = s.wgAt h := by
  rw [State.withStarted, wgAt_emitWg, State.wgAt_updWg_ne _ _ hh, hearClock_rest]
  rfl

theorem lamport_withStarted (k : Nat) : Store.get 0 (s.withStarted g).lamport k =
    if k = (s.wgAt g).core ∧ precedes (Store.get 0 s.lamport k) (s.launchAt (s.wgAt g).launchKey).clock = true
    then (s.launchAt (s.wgAt g).launchKey).clock else Store.get 0 s.lamport k :=
  lamport_hearClock (s.dropChoice (s.wgAt g).core) _ k _

theorem recorded_withStarted :
    Recorded s (s.withStarted g) 0x1A 1 (s.wgAt g).core (State.workWord (s.wgAt g) 0) 0 := by
  have hwg := wgAt_withStarted s g
  rw [State.withStarted, wgAt_emitWg] at hwg
  refine recorded_emitWg g _ _ _ ?_ (by rw [hwg]; rfl) (by rw [hwg]; rfl)
  rw [hearClock_rest]
  rfl

/-- A workgroup that does not wait for residency, or does not fit, does not start. -/
theorem exec_workgroupStart_stays (h : (s.wgAt g).res ≠ .unstarted ∨ s.candidate (s.wgAt g) = false ∨
    State.fitsIn (s.needs (s.wgAt g)) (s.freeOn (s.wgAt g).core) = false) : exec (.workgroupStart g) s = .next s := by
  refine if_pos ?_
  simpa using h

/-- One that does and fits starts; the launch runs with its first (03 R31). -/
theorem exec_workgroupStart_starts (hres : (s.wgAt g).res = .unstarted) (hc : s.candidate (s.wgAt g) = true)
    (hfit : State.fitsIn (s.needs (s.wgAt g)) (s.freeOn (s.wgAt g).core) = true) :
    exec (.workgroupStart g) s = if (s.launchAt (s.wgAt g).launchKey).state = 2
      then .next (((s.withStarted g).updLaunch (s.wgAt g).launchKey (fun l => { l with state := 3 })).putStatus (s.wgAt g).launchKey)
      else .next (s.withStarted g) := by
  refine if_neg ?_
  simp [hres, hc, hfit]

/-- 03 R31, 12 R223: what a workgroup's start brings about. -/
theorem workgroupStart_starts (hres : (s.wgAt g).res = .unstarted) (hc : s.candidate (s.wgAt g) = true)
    (hfit : State.fitsIn (s.needs (s.wgAt g)) (s.freeOn (s.wgAt g).core) = true) :
    ∃ t, exec (.workgroupStart g) s = .next t ∧
      t.wgAt g = (s.wgAt g).started (s.steps + 1) ((s.launchAt (s.wgAt g).launchKey).entryPc (s.wgAt g).stage) ∧
      (t.launchAt (s.wgAt g).launchKey).state =
        (if (s.launchAt (s.wgAt g).launchKey).state = 2 then 3 else (s.launchAt (s.wgAt g).launchKey).state) ∧
      t.records = (s.withStarted g).records ∧ t.lamport = (s.withStarted g).lamport ∧
      ((s.launchAt (s.wgAt g).launchKey).state ≠ 2 → t = s.withStarted g) := by
  rw [exec_workgroupStart_starts s g hres hc hfit]
  have hlaunch (k : Nat) : (s.withStarted g).launchAt k = s.launchAt k := by rw [withStarted_rest]; rfl
  by_cases h2 : (s.launchAt (s.wgAt g).launchKey).state = 2
  · simp only [if_pos h2]
    have hwg : ((s.withStarted g).updLaunch (s.wgAt g).launchKey (fun l => { l with state := 3 })).wgAt g = _ := wgAt_withStarted s g
    have hput := HomeOnly.putStatus ((s.withStarted g).updLaunch (s.wgAt g).launchKey (fun l => { l with state := 3 })) (s.wgAt g).launchKey
    have hsame := hput.unwatched g (by rw [hwg]; exact fun hn => by cases congrArg Wg.res hn) (by rw [hwg]; exact unwatched_started _ _ _)
    refine ⟨_, rfl, hsame.trans hwg, ?_, hput.records, hput.lamport, fun hn => absurd h2 hn⟩
    rw [hput.launchAt, State.launchAt_updLaunch, if_pos rfl]
  · simp only [if_neg h2]
    exact ⟨_, rfl, wgAt_withStarted s g, by rw [hlaunch], rfl, rfl, fun _ => rfl⟩

end Start

/-! ## MAKE_RESIDENT (03 R53) -/

/-- The state in which workgroup g is resident again, its handles still where they lay. -/
def State.readmitted (s : State) (g : Nat) : State :=
  (s.dropChoice (s.wgAt g).core).updWg g (fun w => { w with res := .resident, since := s.steps + 1, image := 0 })

section Resume

variable (s : State) (g : Nat)

theorem wgAt_readmitted :
    (s.readmitted g).wgAt g = { s.wgAt g with res := .resident, since := s.steps + 1, image := 0 } := State.wgAt_updWg_self ..

theorem exec_makeResident_stays (h : (s.wgAt g).res ≠ .parked ∨ s.candidate (s.wgAt g) = false ∨
    State.fitsIn (s.needs (s.wgAt g)) (s.freeOn (s.wgAt g).core) = false) : exec (.makeResident g) s = .next s := by
  refine if_pos ?_
  simpa using h

/-- 03 R53: a parked workgroup goes on where it was, its level-0 handles at new places. -/
theorem makeResident_resumes (hres : (s.wgAt g).res = .parked) (hc : s.candidate (s.wgAt g) = true)
    (hfit : State.fitsIn (s.needs (s.wgAt g)) (s.freeOn (s.wgAt g).core) = true) (hwf : Store.wf 0 (s.wgAt g).handle = true) :
    ∃ t, exec (.makeResident g) s = .next t ∧ YardOnly s t g ∧
      (∀ h, Relocated ((s.wgAt g).entryOf h) ((t.wgAt g).entryOf h)) ∧
      Recorded s t 0x1C 1 (s.wgAt g).core (State.workWord (s.wgAt g) 0) 0 ∧
      t.wgAt g = { s.wgAt g with res := .resident, since := s.steps + 1, image := 0, handle := (t.wgAt g).handle } := by
  have ha := wgAt_readmitted s g
  have hmoved : Moved (s.readmitted g) ((s.readmitted g).moveLevel0 g) g := moveLevel0_moved _ g (by rw [ha]; exact hwf)
  have hhere : ((s.readmitted g).moveLevel0 g).wgAt g = { s.wgAt g with
      res := .resident, since := s.steps + 1, image := 0, handle := (((s.readmitted g).moveLevel0 g).wgAt g).handle } := by
    conv_lhs => rw [hmoved.here, ha]
  refine ⟨((s.readmitted g).moveLevel0 g).emitWg 0x1C 0x01 g 0 0, if_neg (by simp [hres, hc, hfit]), ?_, fun h => ?_, ?_, hhere⟩
  · exact (((YardOnly.of_chosen g rfl).trans (.updWg ..)).trans (.of_moved hmoved)).trans (.emitWg ..)
  · have hentry := hmoved.entries h
    rw [ha] at hentry
    exact hentry
  · exact recorded_emitWg g _ _ _ (by rw [hmoved.rest]; rfl) (by rw [hhere]) (by rw [hhere]; rfl)

end Resume

end Sys2Proof.Machine
end

section
/-!
PROOFS. PARK and the yard's choice (03 R50, R51, 14 R256), and O39.
-/


namespace Sys2Proof.Machine

/-! ## PARK (03 R51) -/

/-- A workgroup as it stands parked, its image at a place (03 R51). -/
def Wg.asParked (w : Wg) (now : Nat) (place : BitVec 64) : Wg :=
  { w with res := .parked, parkWanted := Option.none, expiry := [], since := now, image := place }

/-- The word by which a park's record tells its cause (17 R306, type 0x1B). -/
def parkWord : ParkCause → Dword
  | .quantum => 0
  | .wait => 1
  | .preempt => 2

/-- In t workgroup g of s is parked: its level-0 handles are at new places, its image at the next one, there is a record with the cause's
word, and but for the yard's choice nothing else has changed. -/
structure ParkedFrom (s t : State) (g : Nat) (x : Dword) : Prop where
  only : YardOnly s t g
  entries : ∀ h, Relocated ((s.wgAt g).entryOf h) ((t.wgAt g).entryOf h)
  recorded : Recorded s t 0x1B 1 (s.wgAt g).core (State.workWord (s.wgAt g) 0) x
  here : t.wgAt g = { (s.wgAt g).asParked (s.steps + 1) s.bindPlace with handle := (t.wgAt g).handle }

/-- The state in which workgroup g is parked, its handles still where they lay. -/
def State.imaged (s : State) (g : Nat) : State :=
  { s with bindings := s.bindings + 1 }.updWg g (fun w => w.asParked (s.steps + 1) s.bindPlace)

theorem wgAt_imaged (s : State) (g : Nat) : (s.imaged g).wgAt g = (s.wgAt g).asParked (s.steps + 1) s.bindPlace :=
  State.wgAt_updWg_self ..

/-- The state in which workgroup g lies in its image, with the park's record, its launch not yet looked at. -/
def State.withParked (s : State) (g : Nat) (cause : ParkCause) : State :=
  ((s.imaged g).moveLevel0 g).emitWg 0x1B 0x01 g 0 (parkWord cause)

theorem parkWg_eq (s : State) (g : Nat) (cause : ParkCause) :
    s.parkWg g cause = (s.withParked g cause).drainCheck (s.wgAt g).launchKey := by
  cases cause <;> rfl

theorem launchAt_emit (s : State) (typ unit idx die : Nat) (pk : Option Nat) (ord : BitVec 20) (timing : Bool) (w2 w3 c : Dword) (k : Nat) :
    (s.emit typ unit idx die pk ord timing w2 w3 c).launchAt k = s.launchAt k := rfl

theorem length_records_emit (s : State) (typ unit idx die : Nat) (pk : Option Nat) (ord : BitVec 20) (timing : Bool) (w2 w3 c : Dword) :
    (s.emit typ unit idx die pk ord timing w2 w3 c).records.length = s.records.length + 1 := by
  obtain ⟨r, hr, -⟩ := State.emit_records s typ unit idx die pk ord timing w2 w3 c
  rw [hr, List.length_append]
  rfl

section Park

variable (s : State) (g : Nat)

theorem imaged_moved (hwf : Store.wf 0 (s.wgAt g).handle = true) : Moved (s.imaged g) ((s.imaged g).moveLevel0 g) g :=
  moveLevel0_moved _ g (by rw [wgAt_imaged]; exact hwf)

/-- What parking changes. -/
theorem withParked_parks (cause : ParkCause) (hwf : Store.wf 0 (s.wgAt g).handle = true) :
    ParkedFrom s (s.withParked g cause) g (parkWord cause) := by
  have hmoved := imaged_moved s g hwf
  have ha := wgAt_imaged s g
  have hhere : ((s.imaged g).moveLevel0 g).wgAt g =
      { (s.wgAt g).asParked (s.steps + 1) s.bindPlace with handle := (((s.imaged g).moveLevel0 g).wgAt g).handle } := by
    conv_lhs => rw [hmoved.here, ha]
  refine ⟨?_, fun h => ?_, ?_, hhere⟩
  · exact (((YardOnly.bindings s g _).trans (.updWg ..)).trans (.of_moved hmoved)).trans (.emitWg ..)
  · have hentry := hmoved.entries h
    rw [ha] at hentry
    exact hentry
  · exact recorded_emitWg g _ _ _ (by rw [hmoved.rest]; rfl) (by rw [hhere]; rfl) (by rw [hhere]; rfl)

/-- Parking leaves the launches, the yard's choices and the canonical form of the workgroups' list. -/
theorem withParked_rest (cause : ParkCause) (hwf : Store.wf 0 (s.wgAt g).handle = true) :
    (s.withParked g cause).launch = s.launch ∧ (s.withParked g cause).chosen = s.chosen ∧
      (Store.wf Wg.none s.wg = true → Store.wf Wg.none (s.withParked g cause).wg = true) := by
  have hmoved := imaged_moved s g hwf
  have hlaunch : ((s.imaged g).moveLevel0 g).launch = s.launch := by rw [hmoved.rest]; rfl
  have hchosen : ((s.imaged g).moveLevel0 g).chosen = s.chosen := by rw [hmoved.rest]; rfl
  exact ⟨hlaunch, hchosen, fun hw => hmoved.wf (wf_updWg _ g _ hw)⟩

/-- Where the launch is not being drained, parking is all that happens. -/
theorem parkWg_undrained (cause : ParkCause) (hpre : (s.launchAt (s.wgAt g).launchKey).preempt ≠ .draining)
    (hwf : Store.wf 0 (s.wgAt g).handle = true) : s.parkWg g cause = s.withParked g cause := by
  have hlaunch : (s.withParked g cause).launch = s.launch := (withParked_rest s g cause hwf).1
  rw [parkWg_eq, State.drainCheck]
  refine if_neg (fun h => hpre ?_)
  simp only [Bool.and_eq_true, beq_iff_eq] at h
  rw [← h.1.2, State.launchAt, State.launchAt, hlaunch]

/-- Some workgroup of a launch is resident, said of the list and of what is read from it. -/
theorem any_resident_iff {t : State} (hw : Store.wf Wg.none t.wg = true) (k : Nat) :
    t.wg.any (fun e => e.2.launchKey == k && e.2.res == .resident) = true ↔
      ∃ h, (t.wgAt h).launchKey = k ∧ (t.wgAt h).res = .resident := by
  simp only [List.any_eq_true, Bool.and_eq_true, beq_iff_eq]
  constructor
  · rintro ⟨e, he, hk, hr⟩
    refine ⟨e.1, ?_⟩
    rw [State.wgAt, Store.get_of_mem _ _ hw e he]
    exact ⟨hk, hr⟩
  · rintro ⟨h, hk, hr⟩
    refine ⟨(h, t.wgAt h), ?_, hk, hr⟩
    rcases Store.mem_or_get_eq Wg.none t.wg h with hin | hno
    · exact hin
    · rw [State.wgAt, hno] at hr
      cases hr

/-- 18 R328: a workgroup of a draining launch is parked; with the last resident one the launch is drained. -/
theorem parkWg_draining (hwf : Store.wf 0 (s.wgAt g).handle = true) (hw : Store.wf Wg.none s.wg = true)
    (hpre : (s.launchAt (s.wgAt g).launchKey).preempt = .draining) (hlive : (s.launchAt (s.wgAt g).launchKey).live = true)
    (cause : ParkCause) :
    (s.parkWg g cause).wg = (s.withParked g cause).wg ∧
    ((∃ h, h ≠ g ∧ (s.wgAt h).launchKey = (s.wgAt g).launchKey ∧ (s.wgAt h).res = .resident) →
      s.parkWg g cause = s.withParked g cause) ∧
    ((∀ h, h ≠ g → (s.wgAt h).launchKey = (s.wgAt g).launchKey → (s.wgAt h).res ≠ .resident) →
      (s.parkWg g cause).launchAt (s.wgAt g).launchKey = { s.launchAt (s.wgAt g).launchKey with preempt := .drained } ∧
      (s.parkWg g cause).records.length = s.records.length + 2) := by
  obtain ⟨⟨-, hothers⟩, -, ⟨r, hrec, -⟩, hhere⟩ := withParked_parks s g cause hwf
  obtain ⟨hlaunch, -, hwf'⟩ := withParked_rest s g cause hwf
  have hl : (s.withParked g cause).launchAt (s.wgAt g).launchKey = s.launchAt (s.wgAt g).launchKey := by
    rw [State.launchAt, hlaunch, ← State.launchAt]
  have hany : (s.withParked g cause).wg.any (fun e => e.2.launchKey == (s.wgAt g).launchKey && e.2.res == .resident) = true ↔
      ∃ h, h ≠ g ∧ (s.wgAt h).launchKey = (s.wgAt g).launchKey ∧ (s.wgAt h).res = .resident := by
    rw [any_resident_iff (hwf' hw)]
    refine exists_congr (fun h => ?_)
    by_cases hh : h = g
    · subst hh
      rw [hhere]
      exact ⟨fun hx => (by cases hx.2), fun hx => absurd rfl hx.1⟩
    · rw [hothers h hh]
      exact ⟨fun hx => ⟨hh, hx⟩, fun hx => hx.2⟩
  have hcheck : s.parkWg g cause =
      if (s.withParked g cause).wg.any (fun e => e.2.launchKey == (s.wgAt g).launchKey && e.2.res == .resident) = true
      then s.withParked g cause
      else ((s.withParked g cause).updLaunch (s.wgAt g).launchKey (fun l => { l with preempt := .drained })).emit 0x53 0x01
        (s.launchAt (s.wgAt g).launchKey).home (State.dieOf (s.launchAt (s.wgAt g).launchKey).home)
        (some (s.launchAt (s.wgAt g).launchKey).paddock) 0xFFFFF false ((s.launchAt (s.wgAt g).launchKey).serial.setWidth 64) 1 0 := by
    rw [parkWg_eq, State.drainCheck, hl]
    simp only [hlive, hpre, beq_self_eq_true, Bool.true_and]
    cases (s.withParked g cause).wg.any (fun e => e.2.launchKey == (s.wgAt g).launchKey && e.2.res == .resident) <;> rfl
  refine ⟨?_, fun hex => ?_, fun hno => ?_⟩
  · rw [hcheck]
    split <;> rfl
  · rw [hcheck, if_pos (hany.2 hex)]
  · rw [hcheck, if_neg (fun h => by obtain ⟨h, hh, hk, hr⟩ := hany.1 h; exact hno h hh hk hr)]
    refine ⟨?_, ?_⟩
    · rw [launchAt_emit, State.launchAt_updLaunch, if_pos rfl, hl]
    · rw [length_records_emit, State.updLaunch_records, hrec, List.length_append]
      rfl

/-! ## When the yard parks (03 R50) -/

theorem exec_park_unparkable (h : State.wgParkable (s.wgAt g) = false) : exec (.park g) s = .next s :=
  if_pos (by rw [h]; rfl)

section Parkable

variable (hp : State.wgParkable (s.wgAt g) = true)

include hp

/-- A workgroup that stands still is parked for a pre-emption. -/
theorem exec_park_preempt (hw : (s.wgAt g).parkWanted = some .preempt) : exec (.park g) s = .next (s.parkWg g .preempt) := by
  show execPark g s = _
  rw [execPark]
  simp only [hp, hw, Bool.not_true, Bool.false_eq_true, if_false]

/-- One that is marked for another cause is parked for the yard's choice, for that cause where its quantum expired for the choice. -/
theorem exec_park_wanted {c : ParkCause} (hc : c ≠ .preempt) (hw : (s.wgAt g).parkWanted = some c) : exec (.park g) s =
    if s.toPark g = true then .next ((s.keepChoice (s.wgAt g).core).parkWg g (if s.expiredFor (s.wgAt g) then c else .wait))
    else .next s := by
  show execPark g s = _
  rw [execPark]
  cases c with
  | preempt => exact absurd rfl hc
  | quantum => simp only [hp, hw, Bool.not_true, Bool.false_eq_true, if_false]
  | wait => simp only [hp, hw, Bool.not_true, Bool.false_eq_true, if_false]

/-- One that is not marked is parked for the yard's choice where all its spans wait. -/
theorem exec_park_unwanted (hw : (s.wgAt g).parkWanted = none) : exec (.park g) s =
    if (State.wgParkWaits (s.wgAt g) && s.toPark g) = true then .next ((s.keepChoice (s.wgAt g).core).parkWg g .wait) else .next s := by
  show execPark g s = _
  rw [execPark]
  simp only [hp, hw, Bool.not_true, Bool.false_eq_true, if_false]

end Parkable

/-- The yard keeps its choice: nothing else happens (23 R359). -/
theorem keepChoice_rest (core : Nat) : s.keepChoice core = { s with chosen := (s.keepChoice core).chosen } := by
  unfold State.keepChoice
  split <;> rfl

/-- What parking for the yard's choice changes: what parking does, and the choice that is kept. -/
theorem parkWg_keepChoice (cause : ParkCause) (hpre : (s.launchAt (s.wgAt g).launchKey).preempt ≠ .draining)
    (hwf : Store.wf 0 (s.wgAt g).handle = true) (core : Nat) :
    ParkedFrom s ((s.keepChoice core).parkWg g cause) g (parkWord cause) ∧
      ((s.keepChoice core).parkWg g cause).chosen = (s.keepChoice core).chosen := by
  have hrest := keepChoice_rest s core
  generalize s.keepChoice core = a at hrest ⊢
  have hwg (h : Nat) : a.wgAt h = s.wgAt h := by rw [hrest]; rfl
  have hlaunch (k : Nat) : a.launchAt k = s.launchAt k := by rw [hrest]; rfl
  have hrecords : a.records = s.records := by rw [hrest]
  have hplace : a.bindPlace = s.bindPlace := by rw [hrest]; rfl
  have hsteps : a.steps = s.steps := by rw [hrest]
  obtain ⟨honly, hentries, hrec, hhere⟩ := withParked_parks a g cause (by rw [hwg]; exact hwf)
  rw [parkWg_undrained a g cause (by rw [hwg, hlaunch]; exact hpre) (by rw [hwg]; exact hwf)]
  rw [hwg] at hentries hrec hhere
  rw [hplace, hsteps] at hhere
  rw [Recorded, hrecords] at hrec
  exact ⟨⟨(YardOnly.of_chosen g hrest).trans honly, hentries, hrec, hhere⟩,
    (withParked_rest a g cause (by rw [hwg]; exact hwf)).2.1⟩

/-- 14 R256, 03 R50: a core's one candidate, which fits only with the room of the core's one resident, is the yard's choice where the
resident gives way, and the resident the one to park. -/
theorem yardPlan_single {core h : Nat} {c w : Wg} (hkept : s.kept core = []) (hcand : s.candidates core = [(h, c)])
    (hord : s.parkOrder core = [(g, w)]) (hgives : s.givesWay c w = true) (hfull : State.fitsIn (s.needs c) (s.freeOn core) = false)
    (hroom : State.fitsIn (s.needs c) (State.plus (s.freeOn core) (s.needs w)) = true) : s.yardPlan core = some (h, [g]) := by
  simp [State.yardPlan, hkept, hcand, hord, State.victims, hgives, hfull, hroom]

end Park

/-! ## O39 -/

/-- A park that is what a workgroup's step comes to, as O39 says it. -/
theorem parks_of {s t : State} {g : Nat} {x : Dword} (hnext : exec (.park g) s = .next t) (h : ParkedFrom s t g x) :
    ∃ t, exec (.park g) s = .next t ∧
      (t = { s.traced t with wg := t.wg, bindings := t.bindings, chosen := t.chosen } ∧ ∀ h, h ≠ g → t.wgAt h = s.wgAt h) ∧
      (∀ h, (t.wgAt g).entryOf h =
        let e := (s.wgAt g).entryOf h
        if e.getLsbD 0 = true ∧ e.getLsbD 2 = false ∧ bits e 63 62 = 0 then ((t.wgAt g).entryOf h).extractLsb' 64 64 ++ e.setWidth 64 else e) ∧
      Recorded s t 0x1B 1 (s.wgAt g).core (State.workWord (s.wgAt g) 0) x ∧
      t.wgAt g = { (s.wgAt g).asParked (s.steps + 1) s.bindPlace with handle := (t.wgAt g).handle } :=
  ⟨t, hnext, h.only, fun k => (h.entries k).eq_ite, h.recorded, h.here⟩

/-- Settles O39: each act of the yard is its guard (who waits for residency and fits, who stands still and gives way) and then one change
of one workgroup with its record; the status word that a first start writes leaves the workgroup and the trace as they are. -/
theorem yardResidency : Obligations.YardResidency := by
  intro s g w l p fits stays noted moved still image parks
  have hfits : fits ↔ State.fitsIn (s.needs w) (s.freeOn w.core) = true := (fitsIn_iff s w).symm
  have hstill : still ∧ w.res = .resident ↔ State.wgParkable w = true := by
    rw [wgParkable_iff]; exact and_comm
  refine ⟨?_, ?_, ?_, ?_, ?_, ?_, ?_⟩
  · intro hres hp hl hfit
    obtain ⟨t, hnext, hwg, hstate, hrec, hclock, hsame⟩ :=
      workgroupStart_starts s g hres ((candidate_unstarted s hres).2 ⟨hp, hl⟩) (hfits.1 hfit)
    refine ⟨t, hnext, by rw [hwg]; rfl, by rw [hwg]; rfl, hstate, fun n hn => ?_, ?_, fun c => ?_, fun h2 => ?_⟩
    · have hspan : t.spanAt g n = State.startSpan (l.entryPc w.stage) := by
        rw [State.spanAt, hwg]
        exact (get_startSpans ..).trans (if_pos hn)
      refine ⟨(State.startSpan (l.entryPc w.stage)).lane, ?_, fun i hi => by rw [hspan]; exact laneAt_startSpan _ i hi⟩
      rw [hspan]
      exact startSpan_rest _
    · have := recorded_withStarted s g
      rw [Recorded, ← hrec] at this
      exact this
    · rw [hclock]
      exact lamport_withStarted s g c
    · rw [hsame h2]
      exact ⟨withStarted_rest s g, fun h hh => wgAt_withStarted_ne s g hh⟩
  · intro hres hp hl hbar hfit hwf
    obtain ⟨t, hnext, honly, hentries, hrec, hhere⟩ :=
      makeResident_resumes s g hres ((candidate_parked s hres).2 ⟨hp, hbar, hl⟩) (hfits.1 hfit) hwf
    exact ⟨t, hnext, honly, fun h => (hentries h).eq_ite, hrec, hhere⟩
  · intro h
    refine exec_workgroupStart_stays s g ?_
    rcases h with h | h | h | h
    · exact .inl h
    · exact .inr (.inl (not_candidate s w (.inl h)))
    · exact .inr (.inl (not_candidate s w (.inr h)))
    · exact .inr (.inr (Bool.not_eq_true _ ▸ mt hfits.2 h))
  · intro h
    refine exec_makeResident_stays s g ?_
    rcases h with h | h | h | h
    · exact .inl h
    · exact .inr (.inl (not_candidate s w (.inl h)))
    · exact .inr (.inl (not_candidate s w (.inr h)))
    · exact .inr (.inr (Bool.not_eq_true _ ▸ mt hfits.2 h))
  · intro h
    refine exec_park_unparkable s g (Bool.eq_false_iff.2 (fun hp => ?_))
    obtain ⟨hs, hr⟩ := hstill.2 hp
    exact h.elim (fun h => h hs) (fun h => h hr)
  · intro hs hr hwf
    have hp : State.wgParkable (s.wgAt g) = true := hstill.1 ⟨hs, hr⟩
    refine ⟨fun hpre => ⟨fun hw => ?_, fun hw hto hexp => ?_, fun hw hto hexp => ?_, fun hw hwait hto => ?_⟩, fun hw hpre hlive hwgs => ?_,
      fun hw hto => ?_, fun hw hwait => ?_⟩
    · exact parks_of ((exec_park_preempt s g hp hw).trans (by rw [parkWg_undrained s g .preempt hpre hwf])) (withParked_parks s g .preempt hwf)
    · refine parks_of ((exec_park_wanted s g hp (by decide) hw).trans ?_) (parkWg_keepChoice s g .quantum hpre hwf w.core).1
      rw [if_pos hto, if_pos hexp]
    · refine parks_of ((exec_park_wanted s g hp (by decide) hw).trans ?_) (parkWg_keepChoice s g .wait hpre hwf w.core).1
      rw [if_pos hto, if_neg (Bool.eq_false_iff.1 hexp)]
    · refine parks_of ((exec_park_unwanted s g hp hw).trans ?_) (parkWg_keepChoice s g .wait hpre hwf w.core).1
      rw [if_pos (by rw [hwait, hto]; rfl)]
    · obtain ⟨⟨-, hothers⟩, hentries, hrec, hhere⟩ := withParked_parks s g .preempt hwf
      obtain ⟨hwg, hsome, hlast⟩ := parkWg_draining s g hwf hwgs hpre hlive .preempt
      have hat (h : Nat) : (s.parkWg g .preempt).wgAt h = (s.withParked g .preempt).wgAt h := by rw [State.wgAt, hwg, ← State.wgAt]
      refine ⟨_, exec_park_preempt s g hp hw, fun h => ?_, ?_, fun h hh => (hat h).trans (hothers h hh), fun hex => ?_, hlast⟩
      · rw [hat]
        exact (hentries h).eq_ite
      · rw [hat]
        exact hhere
      · rw [hsome hex]
        exact ⟨(withParked_rest s g .preempt hwf).1, hrec⟩
    · rcases hw with hw | hw
      · rw [exec_park_wanted s g hp (by decide) hw, if_neg (Bool.eq_false_iff.1 hto)]
      · rw [exec_park_unwanted s g hp hw, hto, Bool.and_false, if_neg Bool.false_ne_true]
    · rw [exec_park_unwanted s g hp hw, hwait, Bool.false_and, if_neg Bool.false_ne_true]
  · intro h c hc hkept hcand hord hprio hpen hwhy hfull hroom
    have hgives : s.givesWay c w = true := by
      simp only [State.givesWay, hpen, hprio, decide_true, Bool.and_self, Bool.true_and, Bool.or_eq_true, Bool.and_eq_true, beq_iff_eq,
        List.contains_iff_mem]
      exact hwhy
    have hplan := yardPlan_single s g hkept hcand hord hgives hfull hroom
    have hto : s.toPark g = true := by
      simp [State.toPark, show (s.wgAt g).core = w.core from rfl, hplan]
    refine ⟨hto, fun hnp hp hpre hwf => ?_⟩
    have hchosen (cause : ParkCause) :
        Store.get 0 ((s.keepChoice w.core).parkWg g cause).chosen w.core = State.choiceWord c := by
      rw [(parkWg_keepChoice s g cause hpre hwf w.core).2, State.keepChoice]
      simp only [hplan, hc, Store.get_set_self]
    cases hw : w.parkWanted with
    | none =>
      have hwait : State.wgParkWaits w = true := by
        rcases hwhy with ⟨hq, -⟩ | ⟨hwait, -⟩
        · rw [hw] at hq; cases hq
        · exact hwait
      exact ⟨_, (exec_park_unwanted s g hp hw).trans (if_pos (by rw [hwait, hto]; rfl)), hchosen _⟩
    | some cause =>
      have hc' : cause ≠ .preempt := fun he => hnp (he ▸ hw)
      exact ⟨_, (exec_park_wanted s g hp hc' hw).trans (if_pos hto), hchosen _⟩

end Sys2Proof.Machine
end

section
/-!
PROOFS. Decoding and encoding (04 R65-R71), and O54.
-/

namespace Sys2Proof

/-! ## Fields of words (04 R65-R68): each reads back what its format puts there -/

/-- A field above the low part of a word lies in the high part. The width of the whole is often a numeral, not the sum of the parts; no_index
lets simp find it then. -/
@[simp] theorem extractLsb'_append_high {m n k len : Nat} (x : BitVec m) (y : BitVec n) (h : n ≤ k) :
    BitVec.extractLsb' k len (no_index (x ++ y)) = BitVec.extractLsb' (k - n) len x :=
  BitVec.extractLsb'_append_eq_of_le h

/-- The low part of a word. -/
@[simp] theorem extractLsb'_append_low {m n : Nat} (x : BitVec m) (y : BitVec n) : BitVec.extractLsb' 0 n (no_index (x ++ y)) = y :=
  BitVec.extractLsb'_append_eq_right

section
variable (op : BitVec 8) (sd sa : BitVec 6) (i : BitVec 1) (sb : BitVec 6) (md : BitVec 5)

@[simp] theorem fldOp_fS : fldOp (fS op sd sa i sb md) = op := by simp [fldOp, fS]
@[simp] theorem fldFSd_fS : fldFSd (fS op sd sa i sb md) = sd := by simp [fldFSd, fS]
@[simp] theorem fldFSa_fS : fldFSa (fS op sd sa i sb md) = sa := by simp [fldFSa, fS]
@[simp] theorem fldFSbf_fS : fldFSbf (fS op sd sa i sb md) = sb := by simp [fldFSbf, fS]
@[simp] theorem fldFSi_fS : fldFSi (fS op sd sa i sb md) = i := by simp [fldFSi, fS]
@[simp] theorem fldFSmod_fS : fldFSmod (fS op sd sa i sb md) = md := by simp [fldFSmod, fS]

end

section
variable (op : BitVec 8) (vd va vb : BitVec 7) (p : BitVec 3)

@[simp] theorem fldOp_fV : fldOp (fV op vd va vb p) = op := by simp [fldOp, fV]
@[simp] theorem fldFVd_fV : fldFVd (fV op vd va vb p) = vd := by simp [fldFVd, fV]
@[simp] theorem fldFVa_fV : fldFVa (fV op vd va vb p) = va := by simp [fldFVa, fV]
@[simp] theorem fldFVb_fV : fldFVb (fV op vd va vb p) = vb := by simp [fldFVb, fV]
@[simp] theorem fldFVp_fV : fldFVp (fV op vd va vb p) = p := by simp [fldFVp, fV]

end

section
variable (op : BitVec 8) (v : BitVec 7) (tA tB tM : BitVec 4) (bs : BitVec 2) (k : BitVec 3)

@[simp] theorem fldOp_fM : fldOp (fM op v tA tB tM bs k) = op := by simp [fldOp, fM]
@[simp] theorem fldFMv_fM : fldFMv (fM op v tA tB tM bs k) = v := by simp [fldFMv, fM]
@[simp] theorem fldFMtA_fM : fldFMtA (fM op v tA tB tM bs k) = tA := by simp [fldFMtA, fM]
@[simp] theorem fldFMtB_fM : fldFMtB (fM op v tA tB tM bs k) = tB := by simp [fldFMtB, fM]
@[simp] theorem fldFMtM_fM : fldFMtM (fM op v tA tB tM bs k) = tM := by simp [fldFMtM, fM]
@[simp] theorem fldFMbs_fM : fldFMbs (fM op v tA tB tM bs k) = bs := by simp [fldFMbs, fM]
@[simp] theorem fldFMk_fM : fldFMk (fM op v tA tB tM bs k) = k := by simp [fldFMk, fM]

end

section
variable (op : BitVec 8) (d : BitVec 7) (b : BitVec 6) (i : BitVec 7) (k : BitVec 3)

@[simp] theorem fldOp_fX : fldOp (fX op d b i k) = op := by simp [fldOp, fX]
@[simp] theorem fldFXd_fX : fldFXd (fX op d b i k) = d := by simp [fldFXd, fX]
@[simp] theorem fldFXb_fX : fldFXb (fX op d b i k) = b := by simp [fldFXb, fX]
@[simp] theorem fldFXi_fX : fldFXi (fX op d b i k) = i := by simp [fldFXi, fX]
@[simp] theorem fldFXk_fX : fldFXk (fX op d b i k) = k := by simp [fldFXk, fX]

end

section
variable (op : BitVec 8) (src dst : BitVec 7) (tl : BitVec 3) (sz : BitVec 2) (st dt : BitVec 1) (p : BitVec 3)

@[simp] theorem fldOp_fA : fldOp (fA op src dst tl sz st dt p) = op := by simp [fldOp, fA]
@[simp] theorem fldFAsrc_fA : fldFAsrc (fA op src dst tl sz st dt p) = src := by simp [fldFAsrc, fA]
@[simp] theorem fldFAdst_fA : fldFAdst (fA op src dst tl sz st dt p) = dst := by simp [fldFAdst, fA]
@[simp] theorem fldFAtl_fA : fldFAtl (fA op src dst tl sz st dt p) = tl := by simp [fldFAtl, fA]
@[simp] theorem fldFAsz_fA : fldFAsz (fA op src dst tl sz st dt p) = sz := by simp [fldFAsz, fA]
@[simp] theorem fldFAst_fA : fldFAst (fA op src dst tl sz st dt p) = st := by simp [fldFAst, fA]
@[simp] theorem fldFAdt_fA : fldFAdt (fA op src dst tl sz st dt p) = dt := by simp [fldFAdt, fA]
@[simp] theorem fldFAp_fA : fldFAp (fA op src dst tl sz st dt p) = p := by simp [fldFAp, fA]

end

/-- Operand b of format S reads back (04 R65). -/
@[simp] theorem fldB_fS (op : BitVec 8) (sd sa : BitVec 6) (b : SOp) (md : BitVec 5) : fldB (fS op sd sa b.i b.f md) = b := by
  cases b <;> simp [fldB, SOp.of, SOp.i, SOp.f]

@[simp] theorem TileRef.ofBits_bits (r : TileRef) : TileRef.ofBits r.bits = r := by simp [TileRef.ofBits, TileRef.bits]
@[simp] theorem Coord.ofWord_word (c : Coord) : Coord.ofWord c.word = c := by simp [Coord.ofWord, Coord.word]
@[simp] theorem MemMod.ofWord_word (m : MemMod) : MemMod.ofWord m.word = m := by simp [MemMod.ofWord, MemMod.word]

section
variable (m : AMod) (src dst : BitVec 9)

@[simp] theorem AMod.ofWord_word : AMod.ofWord (m.word src dst) = m := by simp [AMod.ofWord, AMod.word]
@[simp] theorem AMod.src_word : (m.word src dst).extractLsb' 0 9 = src := by simp [AMod.word]
@[simp] theorem AMod.dst_word : (m.word src dst).extractLsb' 9 9 = dst := by simp [AMod.word]

end

/-- An address side needs no coordinate word (04 R67). -/
@[simp] theorem ASide.ofWords_addr (r : BitVec 7) (cw : Word) : ASide.ofWords (addr r).flag (addr r).fld (addr r).ref cw = addr r := by
  simp [ofWords, flag, fld]

@[simp] theorem ASide.ofWords_tile (h : BitVec 6) (r : TileRef) (c : Coord) :
    ASide.ofWords (tile h r c).flag (tile h r c).fld (tile h r c).ref c.word = tile h r c := by
  simp [ofWords, flag, fld, ref]

/-- The source side of class 4 reads its coordinate word, where it has one, from the word after the modifier (04 R67). -/
@[simp] theorem ASide.ofWords_src (src : ASide) (rest : List Word) :
    ASide.ofWords src.flag src.fld src.ref ((src.coordWords ++ rest)[0]?.getD 0#32) = src := by
  cases src with
  | addr r => exact ofWords_addr ..
  | tile h r c => exact ofWords_tile ..

/-- The destination side of class 4 reads its coordinate word behind the source's (04 R67). -/
@[simp] theorem ASide.ofWords_dst (src dst : ASide) (m : Word) (rest : List Word) :
    ASide.ofWords dst.flag dst.fld dst.ref ((m :: (src.coordWords ++ (dst.coordWords ++ rest)))[1 + src.flag.toNat]?.getD 0#32) = dst := by
  cases dst with
  | addr r => exact ofWords_addr ..
  | tile h r c => cases src <;> exact ofWords_tile ..

/-! ## The parser reads what the encoder writes -/

/-- The words of the instruction, whatever follows them, parse to it in class c. -/
def Instr.ParsesIn (i : Instr) (c : Nat) : Prop := ∃ w x, encode i = w :: x ∧ ∀ rest, parse c w (x ++ rest) = .ok i

/-- Each instruction with words parses in the class of the table that lists it (04 R69). Where instructions share an opcode, the arm of the
parser is a choice by the modifier field, which simp decides. The instructions not named are the events, which have no words. -/
theorem parsesIn_of_encode_ne_nil (i : Instr) (h : encode i ≠ []) : ∃ c, c < 7 ∧ i.ParsesIn c := by
  cases i with
  | snop | sadd | ssub | smul | smulh | smulhn | sand | sor | sxor | sshl | sshr | ssar | smin | smax | sminn | smaxn | smov
  | smovk | smovkh | ssel | sfromv | sballot | spopc | sclz | br | bz | bnz | bp | call | ret | bi | exit | yield | mset
  | mstrike | mget | mput =>
    exact ⟨0, by decide, _, _, rfl, fun rest => by rw [parse, parseScalar, fldOp_fS]; exact congrArg Except.ok (by simp)⟩
  | scmp | scmpP | jread | jreadAddr => exact ⟨0, by decide, _, _, rfl, fun rest => by rw [parse, parseScalar, fldOp_fS]; simp⟩
  | vmov | vmovk | vaddI32 | vaddI64 | vsubI32 | vsubI64 | vmulI32 | vmulhI32 | vmulhN32 | vmadI32 | vand | vor | vxor | vnot
  | vshl | vshr | vsar | vminI32 | vmaxI32 | vminN32 | vmaxN32 | vabsI32 | vclz | vpopc | vbrev | vbfx | vbfi | vsel | vcmpI32
  | vcmpN32 | vcmpI64 | vaddsI32 | vshflIdx | vshflXor | vshflUp | vshflDown | vbcast | vlaneid | vprefixI32 | vaddF32 | vsubF32
  | vmulF32 | vfmaF32 | vminF32 | vmaxF32 | vcmpF32 | vrcpF32 | vrsqrtF32 | vsqrtF32 | vexp2F32 | vlog2F32 | vclassF32 | vaddF64
  | vsubF64 | vmulF64 | vfmaF64 | vminF64 | vmaxF64 | vcmpF64 | vaddF16x2 | vmulF16x2 | vfmaF16x2 | vcvt | vpack8 | vunpack8
  | vscaleF32 | vperm | vdot4 | vmodadd | vmodsub | vmodmul | vmodred | vnttCt | vnttGs =>
    exact ⟨1, by decide, _, _, rfl, fun rest => by rw [parse, parseVector, fldOp_fV]; exact congrArg Except.ok (by simp)⟩
  | tcfgw | tcfgr | tzero | tld | tldPerm | tst | mmaB8 | mmaB8Scl | mmaB8Sp | mmaB8SclSp | mmaBf16 | mmaF16 | mmaF32 | mmaF64
  | mmaI8 | mmaMod =>
    exact ⟨2, by decide, _, _, rfl, fun rest => by rw [parse, parseMatrix, fldOp_fM]; exact congrArg Except.ok (by simp)⟩
  | tmov | tmovTr => exact ⟨2, by decide, _, _, rfl, fun rest => by rw [parse, parseMatrix, fldOp_fM]; simp⟩
  | ldN8 | ldI8 | ldN16 | ldI16 | ld32 | ld64 | ld128 | st8 | st16 | st32 | st64 | st128 | ldt32 | ldt64 | ldt128 | stt32 | stt64
  | stt128 | sld64 | sst64 | amoAddI32 | amoAddI64 | amoMinI32 | amoMinN32 | amoMinI64 | amoMaxI32 | amoMaxN32 | amoMaxI64
  | amoAnd | amoOr | amoXor | amoSwap | amoCas32 | amoCas64 | amoFaddF32 | redAddI32 | redAddI64 | redMin | redMax | redAnd
  | redOr | redXor | dredAddI64 | dredFaddF32 | dredFaddB8 | dredModadd | dredMinF32 | dredMaxF32 | dredOr | fence | fenceRo
  | cflush | cinv | cinvDiscard | pref =>
    exact ⟨3, by decide, _, _, rfl, fun rest => by rw [parse, parseMemory, fldOp_fX]; exact congrArg Except.ok (by simp)⟩
  | cp | cpm | cpr | gth | sct | put | get | cpchute | launch =>
    exact ⟨4, by decide, _, _, rfl, fun rest => by rw [parse, parseAsync, fldOp_fA]; exact congrArg Except.ok (by simp)⟩
  | barWg | barPen | barLaunch | tlwait | tlread | wcwait | wcread | chqClaim | chqPub | chqWait | chqRel | waitq | wake | mon
  | mwait =>
    exact ⟨5, by decide, _, _, rfl, fun rest => by rw [parse, parseSync, fldOp_fS]; exact congrArg Except.ok (by simp)⟩
  | talloc | tfree | tquery | winreg | winfree | rankq | sprd | spwr | trap | tmask | tunmask | brk | evt | halt =>
    exact ⟨6, by decide, _, _, rfl, fun rest => by rw [parse, parseSystem, fldOp_fS]; exact congrArg Except.ok (by simp)⟩
  | tretRetry | tretSkip | tretKill | tlbinvPage | tlbinvAsid | tlbinvPaddock | tlbinvRank | tlbinvRankall =>
    exact ⟨6, by decide, _, _, rfl, fun rest => by rw [parse, parseSystem, fldOp_fS]; simp⟩
  | _ => exact absurd rfl h

/-- What the parser reads has words: no word spells an event. -/
theorem encode_ne_nil_of_parse (c : Nat) (w : Word) (x : List Word) : ∀ i, parse c w x = .ok i → encode i ≠ [] := by
  fun_cases parse c w x
  · fun_cases parseScalar w x <;> rintro _ ⟨⟩ <;> exact List.cons_ne_nil _ _
  · fun_cases parseVector w x <;> rintro _ ⟨⟩ <;> exact List.cons_ne_nil _ _
  · fun_cases parseMatrix w x <;> rintro _ ⟨⟩ <;> exact List.cons_ne_nil _ _
  · fun_cases parseMemory w x <;> rintro _ ⟨⟩ <;> exact List.cons_ne_nil _ _
  · fun_cases parseAsync w x <;> rintro _ ⟨⟩ <;> exact List.cons_ne_nil _ _
  · fun_cases parseSync w x <;> rintro _ ⟨⟩ <;> exact List.cons_ne_nil _ _
  · fun_cases parseSystem w x <;> rintro _ ⟨⟩ <;> exact List.cons_ne_nil _ _
  · rintro _ ⟨⟩

/-! ## The decoder -/

/-- The decoder accepts exactly what the parser reads, is well formed and encodes back to the same words (04 R71). -/
theorem decode_cons_eq_ok {c : Nat} {w : Word} {x : List Word} {i : Instr} : decode c (w :: x) = .ok i ↔
    parse c w x = .ok i ∧ encode i = (w :: x).take (encode i).length ∧ i.wf = true := by
  rw [decode]
  cases parse c w x with
  | error e => simp
  | ok j =>
    dsimp only
    split
    · next h =>
      rw [Bool.and_eq_true, decide_eq_true_iff] at h
      exact ⟨fun hj => ⟨hj, by cases hj; exact h⟩, fun hj => hj.1⟩
    · next h =>
      refine ⟨nofun, fun ⟨hj, hi⟩ => absurd ?_ h⟩
      cases hj
      simpa using hi

theorem decode_encode (i : Instr) (hwf : i.wf = true) (hne : encode i ≠ []) :
    ∃ c, c < 7 ∧ ∀ rest, decode c (encode i ++ rest) = .ok i := by
  obtain ⟨c, hc, w, x, hwx, hparse⟩ := parsesIn_of_encode_ne_nil i hne
  refine ⟨c, hc, fun rest => ?_⟩
  rw [hwx, List.cons_append, decode_cons_eq_ok, ← List.cons_append, ← hwx, List.take_left]
  exact ⟨hparse rest, rfl, hwf⟩

/-- Settles O54: the parser reads back each field that the encoder writes, and the decoder accepts only words that encode back. -/
theorem decodeEncode : Obligations.DecodeEncode := by
  refine ⟨decode_encode, fun c ws i h => ?_⟩
  cases ws with
  | nil => cases h
  | cons w x =>
    obtain ⟨hparse, henc, hwf⟩ := decode_cons_eq_ok.1 h
    exact ⟨hwf, encode_ne_nil_of_parse c w x i hparse, henc⟩

end Sys2Proof
end

section
/-!
PROOFS. The writing of outstanding results (04 R72), the three timeouts (14 R265, 18 R317, 03 R50), and O38.
-/

namespace Sys2Proof.Machine

/-! ## COUNTED_RESULT_WRITE (04 R72) -/

/-- What a register write of a result gives to lane l of vector register d. -/
def RegWrite.toLane (d l : Nat) : RegWrite → Option Word
  | .v d' l' x => if d' = d ∧ l' = l then some x else none
  | _ => none

/-- A write of one lane of a vector register. -/
def RegWrite.OfLane (w : RegWrite) : Prop := ∃ d l x, w = .v d l x ∧ l < 32

/-- A write of one lane changes vector registers alone. -/
theorem write1_ofLane_rest (sp : Span) {w : RegWrite} (hw : w.OfLane) : sp.write1 w = { sp with v := (sp.write1 w).v } := by
  obtain ⟨d, l, x, rfl, -⟩ := hw
  rw [show sp.write1 (.v d l x) = if (sp.laneAt l).ended then sp else sp.setV d l x from rfl]
  split <;> rfl

/-- A write of one lane takes effect where the lane has not ended (07 R114). -/
theorem vr_write1_ofLane (sp : Span) {w : RegWrite} (hw : w.OfLane) (d l : Nat) (hl : l < 32) :
    (sp.write1 w).vr d l = if (sp.laneAt l).ended then sp.vr d l else (w.toLane d l).getD (sp.vr d l) := by
  obtain ⟨d', l', x, rfl, hl'⟩ := hw
  simp only [Span.write1, RegWrite.toLane]
  by_cases hsame : d' = d ∧ l' = l
  · obtain ⟨rfl, rfl⟩ := hsame
    split <;> simp [Span.vr_setV, hl']
  · have hother : ¬(d = d' ∧ l = l') := fun h => hsame ⟨h.1.symm, h.2.symm⟩
    rw [if_neg hsame, Option.getD_none, ite_self]
    split
    · rfl
    · rw [Span.vr_setV _ _ _ _ _ _ hl' hl, if_neg hother]

/-- The writes of a result's lanes, in order: only vector registers change, and in a lane that has not ended the last write of a register
stands. -/
theorem foldl_write1_ofLane (sp : Span) (ws : List RegWrite) (hws : ∀ w ∈ ws, w.OfLane) :
    ws.foldl Span.write1 sp = { sp with v := (ws.foldl Span.write1 sp).v } ∧
      ∀ d l, l < 32 → (ws.foldl Span.write1 sp).vr d l =
        if (sp.laneAt l).ended then sp.vr d l else (ws.reverse.findSome? (RegWrite.toLane d l)).getD (sp.vr d l) := by
  induction ws using List.reverseRecOn with
  | nil => exact ⟨rfl, fun d l _ => (ite_self _).symm⟩
  | append_singleton ws w ih =>
    obtain ⟨hrest, hvr⟩ := ih (fun x hx => hws x (List.mem_append_left _ hx))
    have hw : w.OfLane := hws w (by simp)
    rw [List.foldl_append, List.foldl_cons, List.foldl_nil]
    have hlane (l : Nat) : (ws.foldl Span.write1 sp).laneAt l = sp.laneAt l := by rw [hrest]; rfl
    refine ⟨?_, fun d l hl => ?_⟩
    · rw [write1_ofLane_rest _ hw, hrest]
    · rw [vr_write1_ofLane _ hw d l hl, hvr d l hl, hlane, List.reverse_append, List.reverse_singleton, List.singleton_append,
        List.findSome?_cons]
      by_cases hend : (sp.laneAt l).ended
      · simp [hend]
      · cases w.toLane d l <;> simp [hend]

/-- The register writes of a result that names no tile register are writes of its span. -/
theorem writeRegs_span (s : State) (g n : Nat) (ws : List RegWrite) (hws : ∀ w ∈ ws, ∀ r off x, w ≠ .t r off x) :
    OnlySpanAt s (s.writeRegs g n ws) g n ∧ (s.writeRegs g n ws).spanAt g n = ws.foldl Span.write1 (s.spanAt g n) := by
  induction ws generalizing s with
  | nil => exact ⟨.refl .., rfl⟩
  | cons w ws ih =>
    have hone : s.writeReg g n w = s.updSpanAt g n (fun sp => sp.write1 w) := by
      cases w with
      | v d l x => rfl
      | s d x => rfl
      | t r off x => exact absurd rfl (hws _ (List.mem_cons_self ..) r off x)
    obtain ⟨honly, hspan⟩ := ih (s.writeReg g n w) (fun x hx => hws x (List.mem_cons_of_mem _ hx))
    rw [State.writeRegs, List.foldl_cons, List.foldl_cons, ← State.writeRegs]
    refine ⟨OnlySpanAt.trans ?_ honly, ?_⟩
    · rw [hone]; exact onlySpanAt_updSpanAt ..
    · rw [hspan, hone, State.spanAt_updSpanAt, if_pos ⟨rfl, rfl⟩]

/-- A pending counter below 6 falls alone (05 R77). -/
theorem get_counter_falls (m : Store Nat) (c k : Nat) :
    Store.get 0 (if c < 6 then Store.upd 0 m c (fun v => v - 1) else m) k =
      if k = c ∧ k < 6 then Store.get 0 m k - 1 else Store.get 0 m k := by
  by_cases hc : c < 6
  · rw [if_pos hc, Store.get_upd]
    by_cases hk : k = c
    · subst hk; simp [hc]
    · simp [hk]
  · rw [if_neg hc, if_neg (fun h : k = c ∧ k < 6 => hc (h.1 ▸ h.2))]

section Result

variable (s : State) (g n i : Nat) {p : Pending}

theorem exec_countedResultWrite_none (h : (s.spanAt g n).pending[i]? = none) : exec (.countedResultWrite g n i) s = .next s := by
  show execCountedResultWrite g n i s = _
  rw [execCountedResultWrite, h]

/-- A result that names no tile register is written; it leaves the list, and its counter falls. -/
theorem countedResultWrite_writes (hp : (s.spanAt g n).pending[i]? = some p) (hws : ∀ w ∈ p.ws, ∀ r off x, w ≠ .t r off x) :
    ∃ t, exec (.countedResultWrite g n i) s = .next t ∧ OnlySpanAt s t g n ∧
      t.spanAt g n = { p.ws.foldl Span.write1 (s.spanAt g n) with
        pending := (p.ws.foldl Span.write1 (s.spanAt g n)).pending.eraseIdx i, k := (t.spanAt g n).k } ∧
      ∀ k, (t.spanAt g n).kc k = if k = p.ctr ∧ k < 6 then (p.ws.foldl Span.write1 (s.spanAt g n)).kc k - 1
        else (p.ws.foldl Span.write1 (s.spanAt g n)).kc k := by
  obtain ⟨honly, hspan⟩ := writeRegs_span s g n p.ws hws
  have hdrop : ((s.writeRegs g n p.ws).dropPending g n i p.ctr).spanAt g n = _ :=
    (State.spanAt_updSpanAt ..).trans (if_pos ⟨rfl, rfl⟩)
  rw [hspan] at hdrop
  refine ⟨(s.writeRegs g n p.ws).dropPending g n i p.ctr, ?_, honly.trans (onlySpanAt_updSpanAt ..), ?_, fun k => ?_⟩
  · show execCountedResultWrite g n i s = _
    rw [execCountedResultWrite, hp]
  · rw [hdrop]
  · rw [hdrop]
    exact get_counter_falls ..

/-- 04 R72, 07 R114: the result of vector lanes. -/
theorem countedResultWrite_vector (hp : (s.spanAt g n).pending[i]? = some p) (hws : ∀ w ∈ p.ws, w.OfLane) :
    ∃ t, exec (.countedResultWrite g n i) s = .next t ∧ OnlySpanAt s t g n ∧
      (∀ k, (t.spanAt g n).kc k = if k = p.ctr ∧ k < 6 then (s.spanAt g n).kc k - 1 else (s.spanAt g n).kc k) ∧
      t.spanAt g n = { s.spanAt g n with
        pending := (s.spanAt g n).pending.eraseIdx i, v := (t.spanAt g n).v, k := (t.spanAt g n).k } ∧
      ∀ d l, l < 32 → (t.spanAt g n).vr d l = if ((s.spanAt g n).laneAt l).ended then (s.spanAt g n).vr d l else
        (p.ws.reverse.findSome? (RegWrite.toLane d l)).getD ((s.spanAt g n).vr d l) := by
  obtain ⟨t, hnext, honly, hspan, hk⟩ := countedResultWrite_writes s g n i hp
    (fun w hw r off x h => by obtain ⟨_, _, _, hv, -⟩ := hws w hw; rw [hv] at h; cases h)
  obtain ⟨hrest, hvr⟩ := foldl_write1_ofLane (s.spanAt g n) p.ws hws
  refine ⟨t, hnext, honly, fun k => ?_, ?_, fun d l hl => ?_⟩
  · rw [hk, hrest]; rfl
  · rw [hspan, hrest]
  · rw [hspan, ← hvr d l hl]; rfl

/-- 04 R72, log 62: the result of a scalar register. -/
theorem countedResultWrite_scalar (hp : (s.spanAt g n).pending[i]? = some p) {d : Nat} {x : Dword} (hd : d < 64) (hws : p.ws = [.s d x]) :
    ∃ t, exec (.countedResultWrite g n i) s = .next t ∧ OnlySpanAt s t g n ∧
      (∀ k, (t.spanAt g n).kc k = if k = p.ctr ∧ k < 6 then (s.spanAt g n).kc k - 1 else (s.spanAt g n).kc k) ∧
      t.spanAt g n = { s.spanAt g n with
        pending := (s.spanAt g n).pending.eraseIdx i, s := (t.spanAt g n).s, k := (t.spanAt g n).k } ∧
      ∀ k : BitVec 6, (t.spanAt g n).sr k = if k.toNat = d ∧ d ≠ 63 then x else (s.spanAt g n).sr k := by
  obtain ⟨t, hnext, honly, hspan, hk⟩ := countedResultWrite_writes s g n i hp (by simp [hws])
  have hfold : p.ws.foldl Span.write1 (s.spanAt g n) = (s.spanAt g n).setS (BitVec.ofNat 6 d) x := by rw [hws]; rfl
  rw [hfold, Span.setS_pending] at hspan
  rw [hfold] at hk
  refine ⟨t, hnext, honly, fun k => ?_, ?_, fun k => ?_⟩
  · rw [hk, setS_rest]; rfl
  · rw [hspan, setS_rest]
  · have hsr : (t.spanAt g n).sr k = ((s.spanAt g n).setS (BitVec.ofNat 6 d) x).sr k := by rw [hspan]; rfl
    rw [hsr, Span.sr_setS]
    refine if_congr (and_congr ?_ (not_congr ?_)) rfl rfl
    · rw [← BitVec.toNat_inj, BitVec.toNat_ofNat, Nat.mod_eq_of_lt hd]
    · rw [← BitVec.toNat_inj, BitVec.toNat_ofNat, Nat.mod_eq_of_lt hd]; rfl

end Result

/-! ## MWAIT_TIMEOUT (14 R265) -/

/-- Till when an mwait of the clause waits: the operand that it read when it began to wait, else the one that it reads now (log 17). -/
def Clause.waitsUntil (c : Clause) (x : Dword) : Dword :=
  match c.arg with
  | some (p, v) => if p = c.pos then v else x
  | none => x

section Timeouts

variable {s : State} {q : SpanRef} {c : Clause}

theorem argOr_focusOn (hc : (s.spanAt q.g q.sp).clauseOf q.lanes = some c) (x : Dword) : (s.focusOn q c).argOr x = c.waitsUntil x := by
  have hc' : (s.focusOn q c).span.clauseOf (s.focusOn q c).lanes = some c := hc
  rw [State.argOr, hc', Option.bind_some]
  rfl

/-- The mwait with its monitor gone and its kept operand forgotten, as it takes its exception. -/
def State.unwatched (s : State) (q : SpanRef) (c : Clause) : State :=
  ((s.focusOn q c).updSpan (fun sp => { sp with mon := none })).dropArg

theorem exec_mwaitTimeout {d : BitVec 6} {b : SOp} {m : Monitor} (hc : (s.spanAt q.g q.sp).clauseOf q.lanes = some c)
    (hw : c.waiting = true) (hi : c.instr = some (.mwait d b)) (hm : (s.spanAt q.g q.sp).mon = some m) :
    exec (.mwaitTimeout q) s =
      if c.waitsUntil ((s.spanAt q.g q.sp).opB b) = allOnes64 ∨ m.triggered = true ∨ s.timersHeld (s.wgAt q.g).paddock = true ∨
        s.spanStopped q.g q.sp = true then .next s
      else .next ((s.unwatched q c).raiseAll 0x10 0) := by
  show execMwaitTimeout q s = _
  rw [execMwaitTimeout]
  simp only [hc, hw, hi, hm, argOr_focusOn hc, Option.map_some, Option.getD_some]
  rfl

theorem onlySpanAt_unwatched (s : State) (q : SpanRef) (c : Clause) : OnlySpanAt s { s.unwatched q c with focus := s.focus } q.g q.sp :=
  (onlySpanAt_updSpanAt s q.g q.sp _).trans (onlySpanAt_updSpanAt _ q.g q.sp _)

theorem spanAt_unwatched (s : State) (q : SpanRef) (c : Clause) : (s.unwatched q c).spanAt q.g q.sp =
    { (s.spanAt q.g q.sp).updClause q.lanes (fun x => { x with arg := none, stale := none }) with mon := none } :=
  (State.span_updSpan ..).trans (by rw [State.span_updSpan]; rfl)

/-! ## WATCHDOG_EXPIRY (18 R317) -/

/-- The span when its one waiting tile instruction waits no more: the counter k that it has raised falls. -/
def Span.unwaited (sp : Span) (k : Nat) : Span :=
  { sp with tileWait := [], k := if k < 6 then Store.upd 0 sp.k k (fun n => n - 1) else sp.k }

/-- The workgroup when a wait of one of its tile instructions is over: a wait for a full/empty bit counts (16 R293). -/
def Wg.feOver (w : Wg) (on : WaitKind) : Wg :=
  { w with progFe := match on with
    | .granule _ _ => w.progFe + 1
    | _ => w.progFe }

theorem Wg.feOver_eq (w : Wg) (on : WaitKind) : w.feOver on = { w with progFe := w.progFe + (match on with
    | .granule _ _ => 1
    | _ => 0) } := by
  cases on with
  | granule place gran => rfl
  | _ => simp [Wg.feOver]

/-- The state in which the waiting tile instruction of an issue set stands and waits no more. -/
def State.unwaiting (s : State) (q : SpanRef) (c : Clause) : State := (s.focusOn q c).tileOver

theorem exec_watchdogExpiry_none (h : (∀ t ∈ (s.spanAt q.g q.sp).tileWait, t.own ≠ q.lanes) ∨ s.timersHeld (s.wgAt q.g).paddock = true ∨
    s.spanStopped q.g q.sp = true ∨ ((s.spanAt q.g q.sp).laneAt (State.lowest q.lanes)).level ≠ (s.spanAt q.g q.sp).openLevel) :
    exec (.watchdogExpiry (.set q)) s = .next s := by
  show Host.Outcome.next (s.watchSet q) = _
  rw [State.watchSet]
  split
  · next c t hc ht =>
    refine congrArg Host.Outcome.next (if_pos (h.resolve_left (fun hall => ?_)))
    exact hall t (List.mem_of_find?_eq_some ht) (by simpa using List.find?_some ht)
  · rfl

section Watchdog

variable {t : TileWait} (ht : t.own = q.lanes) (hone : (s.spanAt q.g q.sp).tileWait = [t])

include ht hone

theorem unwaiting_eq : s.unwaiting q c = ((s.focusOn q c).updSpan (fun sp => sp.unwaited t.ctr)).updHere
    (fun w => w.feOver t.on) := by
  have hfind : (s.focusOn q c).span.tileWait.find? (fun x => x.own == (s.focusOn q c).lanes) = some t := by
    rw [show (s.focusOn q c).span.tileWait = [t] from hone]
    simp [ht, State.lanes, State.focusOn]
  rw [State.unwaiting, State.tileOver, hfind]
  refine congrArg (fun u : State => u.updHere _) (updSpanAt_congr _ _ _ ?_)
  rw [show (s.focusOn q c).spanAt (s.focusOn q c).focus.g (s.focusOn q c).focus.sp = s.spanAt q.g q.sp from rfl, hone]
  simp [Span.unwaited, ht, State.lanes, State.focusOn]

theorem exec_watchdogExpiry (hc : (s.spanAt q.g q.sp).clauseOf q.lanes = some c)
    (hheld : s.timersHeld (s.wgAt q.g).paddock = false) (hstop : s.spanStopped q.g q.sp = false)
    (hlv : ((s.spanAt q.g q.sp).laneAt (State.lowest q.lanes)).level = (s.spanAt q.g q.sp).openLevel) :
    exec (.watchdogExpiry (.set q)) s = .next ((s.unwaiting q c).raiseL (t.lanes ||| State.failsOf t)
      (fun l => if laneIn t.lanes l then 0x08 else Store.get 0 t.failed l) (fun _ => 0)) := by
  have hfind : (s.spanAt q.g q.sp).tileWait.find? (fun x => x.own == q.lanes) = some t := by simp [hone, ht]
  show Host.Outcome.next (s.watchSet q) = _
  rw [State.watchSet]
  simp only [hc, hfind]
  rw [if_neg (by simp [hheld, hstop, hlv])]
  rfl

theorem wgAt_unwaiting (g : Nat) : (s.unwaiting q c).wgAt g =
    if g = q.g then ((s.wgAt q.g).updSpan q.sp (fun sp => sp.unwaited t.ctr)).feOver t.on else s.wgAt g := by
  have hwg : ((s.focusOn q c).updSpan (fun sp => sp.unwaited t.ctr)).wgAt g =
      if g = q.g then (s.wgAt q.g).updSpan q.sp (fun sp => sp.unwaited t.ctr) else s.wgAt g := wgAt_updSpanAt ..
  rw [unwaiting_eq ht hone]
  by_cases hg : g = q.g
  · subst hg
    rw [if_pos rfl] at hwg ⊢
    exact (State.wgAt_updWg_self ..).trans (congrArg (fun w => w.feOver t.on) hwg)
  · rw [if_neg hg] at hwg ⊢
    exact (State.wgAt_updWg_ne _ _ hg).trans hwg

theorem unwaiting_rest : s.unwaiting q c = { s with focus := (s.unwaiting q c).focus, wg := (s.unwaiting q c).wg } := by
  rw [unwaiting_eq ht hone]; rfl

theorem focus_unwaiting : (s.unwaiting q c).focus = ⟨q.g, q.sp, q.lanes, c.hdrPc, c.pos, c.pos + c.len⟩ := by
  rw [unwaiting_eq ht hone]; rfl

theorem spanAt_unwaiting (n : Nat) : (s.unwaiting q c).spanAt q.g n =
    if n = q.sp then (s.spanAt q.g q.sp).unwaited t.ctr else s.spanAt q.g n := by
  rw [State.spanAt, wgAt_unwaiting ht hone, if_pos rfl]
  exact Wg.spanAt_updSpan (s.wgAt q.g) q.sp n (fun sp => sp.unwaited t.ctr)

end Watchdog

end Timeouts

/-! ## QUANTUM_EXPIRY (03 R50) -/

/-- Candidate e waits for the core of workgroup w: it is of at least its priority, and the yard has not chosen it. -/
def State.WaitsFor (s : State) (w : Wg) (e : Nat × Wg) : Prop :=
  e ∈ s.candidates w.core ∧ s.prioOf w ≤ s.prioOf e.2 ∧ ∀ k ∈ s.kept w.core, k.1 ≠ e.1

theorem mem_wanted (s : State) (w : Wg) (x : Nat) : x ∈ s.wanted w ↔ ∃ e, s.WaitsFor w e ∧ x = State.choiceWord e.2 := by
  simp only [State.wanted, State.WaitsFor, List.mem_map, List.mem_filter, Bool.and_eq_true, decide_eq_true_eq, Bool.not_eq_true',
    List.any_eq_false, beq_iff_eq, eq_comm (a := x)]

section Quantum

variable (s : State) (g : Nat)

/-- The quantum of workgroup g ends for it: it is resident and not pre-empted, a candidate waits for its core, and its time is not held. -/
def State.QuantumEnds : Prop :=
  (s.wgAt g).res = .resident ∧ (s.wgAt g).parkWanted ≠ some .preempt ∧ (∃ e, s.WaitsFor (s.wgAt g) e) ∧
    s.timersHeld (s.wgAt g).paddock = false ∧ ¬∃ n ∈ (s.wgAt g).spanNums, s.spanStopped g n = true

theorem quantumEnds_iff : s.QuantumEnds g ↔ (s.wgAt g).res = .resident ∧ (s.wgAt g).parkWanted ≠ some .preempt ∧
    s.wanted (s.wgAt g) ≠ [] ∧ ¬s.timersHeld (s.wgAt g).paddock = true ∧
    ¬(s.wgAt g).spanNums.any (fun n => s.spanStopped g n) = true := by
  have hwanted : s.wanted (s.wgAt g) ≠ [] ↔ ∃ e, s.WaitsFor (s.wgAt g) e := by
    refine ⟨fun h => ?_, fun ⟨e, he⟩ => List.ne_nil_of_mem ((mem_wanted ..).2 ⟨e, he, rfl⟩)⟩
    obtain ⟨x, hx⟩ := List.exists_mem_of_ne_nil _ h
    obtain ⟨e, he, -⟩ := (mem_wanted ..).1 hx
    exact ⟨e, he⟩
  rw [State.QuantumEnds, hwanted, List.any_eq_true, Bool.not_eq_true]

/-- The workgroup is marked for parking, for those that wait for its core now. -/
def State.expired : State :=
  s.updWg g (fun w => { w with parkWanted := some .quantum, expiry := (s.wanted (s.wgAt g) ++ w.expiry).eraseDups })

theorem exec_quantumExpiry_marks (h : s.QuantumEnds g) : exec (.quantumExpiry g) s = .next (s.expired g) :=
  if_pos ((quantumEnds_iff s g).1 h)

theorem exec_quantumExpiry_stays (h : ¬s.QuantumEnds g) : exec (.quantumExpiry g) s = .next s :=
  if_neg (fun hq => h ((quantumEnds_iff s g).2 hq))

theorem mem_expiry_expired (x : Nat) : x ∈ ((s.expired g).wgAt g).expiry ↔
    x ∈ (s.wgAt g).expiry ∨ ∃ e, s.WaitsFor (s.wgAt g) e ∧ x = State.choiceWord e.2 := by
  rw [State.expired, State.wgAt_updWg_self, List.mem_eraseDups, List.mem_append, mem_wanted, or_comm]

end Quantum

/-! ## O38 -/

/-- Settles O38: a result is a write of its span; a timeout acts where its condition stands and its time is not held. -/
theorem countedResults : Obligations.CountedResults := by
  refine ⟨fun s g n i p => ?_, fun s q c d b m => ?_, fun s q c t => ?_, fun s q => exec_watchdogExpiry_none, fun s g => ?_⟩
  · intro sp r falls
    refine ⟨exec_countedResultWrite_none s g n i, fun hp => ⟨fun hws => ?_, fun d x hd hws => ?_⟩⟩
    · exact countedResultWrite_vector s g n i hp hws
    · exact countedResultWrite_scalar s g n i hp hd hws
  · intro sp held until' hc hw hi hm
    have hexec := exec_mwaitTimeout hc hw hi hm
    refine ⟨fun h => hexec.trans (if_pos ?_), fun hne htr hheld => ⟨s.unwatched q c, hexec.trans (if_neg ?_), rfl,
      onlySpanAt_unwatched s q c, spanAt_unwatched s q c⟩⟩
    · exact h.imp_right (Or.imp_right (fun h => (Bool.or_eq_true ..).mp h))
    · rw [Bool.or_eq_false_iff] at hheld
      rintro (h | h | h | h)
      · exact hne h
      · exact Bool.false_ne_true (htr.symm.trans h)
      · exact Bool.false_ne_true (hheld.1.symm.trans h)
      · exact Bool.false_ne_true (hheld.2.symm.trans h)
  · intro sp r hc ht hone hheld hstop hlv
    refine ⟨s.unwaiting q c, t.lanes ||| State.failsOf t, _, exec_watchdogExpiry ht hone hc hheld hstop hlv, focus_unwaiting ht hone,
      fun g hg => (wgAt_unwaiting ht hone g).trans (if_neg hg), unwaiting_rest ht hone, ?_,
      fun n hn => (spanAt_unwaiting ht hone n).trans (if_neg hn), ?_, fun k => ?_, fun l hl => ?_, fun l => rfl⟩
    · rw [wgAt_unwaiting ht hone, if_pos rfl, Wg.feOver_eq]; rfl
    · rw [spanAt_unwaiting ht hone, if_pos rfl]; rfl
    · rw [spanAt_unwaiting ht hone, if_pos rfl]
      exact get_counter_falls ..
    · rw [laneIn, BitVec.getLsbD_or, State.failsOf]
      exact congrArg _ (laneIn_lanesWhere _ l hl)
  · intro w waits stopped
    refine ⟨fun hres hpre hwait hheld hstop => ?_, fun h => ?_⟩
    · refine ⟨_, exec_quantumExpiry_marks s g ⟨hres, hpre, hwait, hheld, hstop⟩, rfl, fun h hh => State.wgAt_updWg_ne s _ hh, ?_,
        mem_expiry_expired s g⟩
      rw [State.expired, State.wgAt_updWg_self]
    · refine exec_quantumExpiry_stays s g (fun ⟨hres, hpre, ⟨e, he⟩, hheld, hstop⟩ => ?_)
      rcases h with h | h | h | h | h
      · exact h hres
      · exact hpre h
      · exact h e he
      · exact Bool.false_ne_true (hheld.symm.trans h)
      · exact hstop h

end Sys2Proof.Machine
end

section
/-!
PROOFS. Every meaning answers a next state (04 R72), one step of the machine, and O56.
-/

namespace Sys2Proof.Machine

/-! ## Answers that several meanings share -/

theorem Completes.next (t : State) : Completes (.next t) := ⟨t, rfl⟩
theorem Completes.done (s : State) : Completes (done s) := ⟨_, rfl⟩
theorem Completes.fault (c : Byte) (tv : Dword) (s : State) : Completes (fault c tv s) := ⟨_, rfl⟩

theorem completes_counted (s : State) (k : BitVec 3) (S : Lanes) (dests : List RegName) (ws : List RegWrite) :
    Completes (State.counted s k S dests ws) := by
  fun_cases State.counted <;> exact ⟨_, rfl⟩

theorem completes_finish (a : State.Acc' × State.Phys) (addr : Nat → Dword) : Completes (State.finish a addr) := by
  fun_cases State.finish <;> exact ⟨_, rfl⟩

theorem completes_finishCounted (a : State.Acc' × State.Phys) (addr : Nat → Dword) (k : BitVec 3) (dests : List RegName)
    (wr : Nat → Nat → List RegWrite) : Completes (State.finishCounted a addr k dests wr) := by
  fun_cases State.finishCounted <;> exact ⟨_, rfl⟩

theorem completes_waitCheck (s : State) (d : BitVec 6) (pa : Nat) (x : Word) (a : Dword) : Completes (s.waitCheck d pa x a) := by
  fun_cases State.waitCheck <;> exact ⟨_, rfl⟩

theorem completes_tileLoad (k : BitVec 3) (fe : BitVec 2) (n : BitVec 4) (h : BitVec 6) (r : TileRef) (els : Elems) (s : State) :
    Completes (tileLoad k fe n h r els s) := by
  fun_cases tileLoad with
  | case8 => exact completes_counted ..
  | _ => exact ⟨_, rfl⟩

theorem completes_mma (F : MmaForm) (k : BitVec 3) (bs : BitVec 2) (tA tB tM : BitVec 4) (v : BitVec 7) (elem : Nat → Nat → Nat → Dword) (s : State) :
    Completes (mma F k bs tA tB tM v elem s) := by
  fun_cases mma with
  | case1 => exact .fault ..
  | case2 => exact .next _
  | case3 => exact completes_counted ..

theorem completes_mmaF (F : MmaForm) (acc : Fmt) (k : BitVec 3) (bs : BitVec 2) (tA tB tM : BitVec 4) (v vA vB : BitVec 7) (s : State) :
    Completes (mmaF F acc k bs tA tB tM v vA vB s) := by
  exact completes_mma ..

theorem completes_load (size : Nat) (sx : Bool) (k : BitVec 3) (i : BitVec 7) (b : BitVec 6) (d : BitVec 7) (m : MemMod) (s : State) :
    Completes (load size sx k i b d m s) := by
  fun_cases load with
  | case1 => exact .next _
  | case2 => exact completes_finishCounted ..

theorem completes_store (size : Nat) (i : BitVec 7) (b : BitVec 6) (d : BitVec 7) (m : MemMod) (s : State) : Completes (store size i b d m s) := by
  exact completes_finish ..

theorem completes_ldt (size : Nat) (k p : BitVec 3) (h : BitVec 6) (d : BitVec 7) (m : MemMod) (c : Coord) (s : State) :
    Completes (ldt size k p h d m c s) := by
  fun_cases ldt <;> exact ⟨_, rfl⟩

theorem completes_stt (size : Nat) (p : BitVec 3) (h : BitVec 6) (d : BitVec 7) (m : MemMod) (c : Coord) (s : State) :
    Completes (stt size p h d m c s) := by
  fun_cases stt <;> exact ⟨_, rfl⟩

theorem completes_amo (op : AmoOp) (k : BitVec 3) (i : BitVec 7) (b : BitVec 6) (d : BitVec 7) (m : MemMod) (s : State) :
    Completes (amo op k i b d m s) := by
  fun_cases amo with
  | case1 => exact .next _
  | case2 => exact completes_finishCounted ..

theorem completes_red (op : AmoOp) (i : BitVec 7) (b : BitVec 6) (d : BitVec 7) (m : MemMod) (s : State) : Completes (red op i b d m s) := by
  exact completes_finish ..

theorem completes_dred (op : BitVec 3) (q : Dword) (val : Nat → Dword) (i : BitVec 7) (b : BitVec 6) (m : MemMod) (s : State) :
    Completes (dred op q val i b m s) := by
  exact completes_finish ..

theorem completes_supervisor (s : State) {r : Res} (h : Completes r) : Completes (supervisor s r) := by
  fun_cases supervisor with
  | case1 => exact h
  | case2 => exact .fault ..

theorem completes_tlbinv (f : TcEntry → Bool) (t : L1Tag → Bool) (s : State) : Completes (tlbinv f t s) := by
  refine completes_supervisor s ?_
  split
  · exact .next _
  · exact .done _

theorem completes_tret (skip : Bool) (s : State) : Completes (tret skip s) := by
  fun_cases tret <;> exact ⟨_, rfl⟩

theorem completes_jumpTo (a : BitVec 6) (s : State) : Completes (jumpTo a s) := by
  fun_cases jumpTo <;> exact ⟨_, rfl⟩

theorem completes_vecTrans (p : BitVec 3) (d a : BitVec 7) (k : BitVec 3) (f : FVal → FVal) (s : State) : Completes (vecTrans p d a k f s) := by
  exact completes_counted ..

theorem completes_modular (s : State) {f : Nat → Res} (h : ∀ q, Completes (f q)) : Completes (modular s f) := by
  fun_cases modular with
  | case1 => exact .fault ..
  | case2 => exact h _

theorem completes_vecP (p : BitVec 3) (d : BitVec 7) (f : Span → Nat → Dword) (s : State) : Completes (vecP p d f s) := by
  exact .done _

theorem completes_vecG (p : BitVec 3) (d : BitVec 7) (f : Span → Nat → BitVec 128) (s : State) : Completes (vecG p d f s) := by
  exact .done _

theorem completes_vecP2 (p : BitVec 3) (d a b : BitVec 7) (f : Dword → Dword → Dword) (s : State) : Completes (vecP2 p d a b f s) := by
  exact completes_vecP ..

theorem completes_asyncIssue (kind : AsyncKind) (chuteOk : Bool) (p : BitVec 3) (sz : BitVec 2) (tl : BitVec 3) (dst src : ASide) (m : AMod)
    (s : State) :
    Completes (asyncIssue kind chuteOk p sz tl dst src m s) := by
  fun_cases asyncIssue <;> exact ⟨_, rfl⟩

theorem completes_tileMove (d n : BitVec 4) (ok : Dword → Dword → Bool) (src : Dword → Dword → Nat → Nat) (s : State) :
    Completes (tileMove d n ok src s) := by
  fun_cases tileMove <;> exact ⟨_, rfl⟩

/-! ## Meanings of their own shape: each branch answers a next state -/

theorem completes_execClauseIssue (q : SpanRef) (s : State) : Completes (execClauseIssue q s) := by
  fun_cases execClauseIssue <;> exact ⟨_, rfl⟩

theorem completes_execClauseEnd (q : SpanRef) (s : State) : Completes (execClauseEnd q s) := by
  fun_cases execClauseEnd <;> exact ⟨_, rfl⟩

theorem completes_execCountedResultWrite (g sp n : Nat) (s : State) : Completes (execCountedResultWrite g sp n s) := by
  fun_cases execCountedResultWrite <;> exact ⟨_, rfl⟩

theorem completes_execPark (g : Nat) (s : State) : Completes (execPark g s) := by
  fun_cases execPark <;> exact ⟨_, rfl⟩

theorem completes_execMakeResident (g : Nat) (s : State) : Completes (execMakeResident g s) := by
  fun_cases execMakeResident <;> exact ⟨_, rfl⟩

theorem completes_execWorkgroupStart (g : Nat) (s : State) : Completes (execWorkgroupStart g s) := by
  fun_cases execWorkgroupStart <;> exact ⟨_, rfl⟩

theorem completes_execPenAdmission (k pen : Nat) (s : State) : Completes (execPenAdmission k pen s) := by
  fun_cases execPenAdmission <;> exact ⟨_, rfl⟩

theorem completes_execLaunchAdmission (pkn : Nat) (s : State) : Completes (execLaunchAdmission pkn s) := by
  fun_cases execLaunchAdmission <;> exact ⟨_, rfl⟩

theorem completes_execAsyncUnitLand (n u : Nat) (s : State) : Completes (execAsyncUnitLand n u s) := by
  fun_cases execAsyncUnitLand <;> exact ⟨_, rfl⟩

theorem completes_execBz (a : BitVec 6) (lit : Word) (s : State) : Completes (execBz a lit s) := by
  fun_cases execBz <;> exact ⟨_, rfl⟩

theorem completes_execBnz (a : BitVec 6) (lit : Word) (s : State) : Completes (execBnz a lit s) := by
  fun_cases execBnz <;> exact ⟨_, rfl⟩

theorem completes_execMset (j : BitVec 3) (lit : Word) (s : State) : Completes (execMset j lit s) := by
  fun_cases execMset <;> exact ⟨_, rfl⟩

theorem completes_execTcfgw (n : BitVec 4) (a : BitVec 6) (s : State) : Completes (execTcfgw n a s) := by
  fun_cases execTcfgw <;> exact ⟨_, rfl⟩

theorem completes_execTcfgr (d : BitVec 7) (n : BitVec 4) (s : State) : Completes (execTcfgr d n s) := by
  fun_cases execTcfgr <;> exact ⟨_, rfl⟩

theorem completes_execTzero (n : BitVec 4) (s : State) : Completes (execTzero n s) := by
  fun_cases execTzero <;> exact ⟨_, rfl⟩

theorem completes_execTst (fe : BitVec 2) (dy dx n : BitVec 4) (sib : BitVec 1) (h : BitVec 6) (c : Coord) (s : State) :
    Completes (execTst fe dy dx n sib h c s) := by
  fun_cases execTst <;> exact ⟨_, rfl⟩

theorem completes_execSst64 (b a : BitVec 6) (m : MemMod) (s : State) : Completes (execSst64 b a m s) := by
  fun_cases execSst64 <;> exact ⟨_, rfl⟩

theorem completes_execFence (m : MemMod) (s : State) : Completes (execFence m s) := by
  fun_cases execFence <;> exact ⟨_, rfl⟩

theorem completes_execLaunch (p tl : BitVec 3) (src : BitVec 7) (m : AMod) (s : State) : Completes (execLaunch p tl src m s) := by
  fun_cases execLaunch <;> exact ⟨_, rfl⟩

theorem completes_execTlwait (n : BitVec 3) (b : SOp) (s : State) : Completes (execTlwait n b s) := by
  fun_cases execTlwait <;> exact ⟨_, rfl⟩

theorem completes_execWcwait (k : BitVec 1) (r : BitVec 5) (b : SOp) (s : State) : Completes (execWcwait k r b s) := by
  fun_cases execWcwait <;> exact ⟨_, rfl⟩

theorem completes_execWcread (d : BitVec 6) (r : BitVec 5) (k : BitVec 1) (s : State) : Completes (execWcread d r k s) := by
  fun_cases execWcread <;> exact ⟨_, rfl⟩

theorem completes_execChqClaim (d h : BitVec 6) (s : State) : Completes (execChqClaim d h s) := by
  fun_cases execChqClaim <;> exact ⟨_, rfl⟩

theorem completes_execChqPub (h : BitVec 6) (b : SOp) (s : State) : Completes (execChqPub h b s) := by
  fun_cases execChqPub <;> exact ⟨_, rfl⟩

theorem completes_execChqWait (d h : BitVec 6) (s : State) : Completes (execChqWait d h s) := by
  fun_cases execChqWait <;> exact ⟨_, rfl⟩

theorem completes_execChqRel (h : BitVec 6) (b : SOp) (s : State) : Completes (execChqRel h b s) := by
  fun_cases execChqRel <;> exact ⟨_, rfl⟩

theorem completes_execWake (d a : BitVec 6) (b : SOp) (s : State) : Completes (execWake d a b s) := by
  fun_cases execWake <;> exact ⟨_, rfl⟩

theorem completes_execMon (a : BitVec 6) (s : State) : Completes (execMon a s) := by
  fun_cases execMon <;> exact ⟨_, rfl⟩

theorem completes_execMwait (d : BitVec 6) (b : SOp) (s : State) : Completes (execMwait d b s) := by
  fun_cases execMwait <;> exact ⟨_, rfl⟩

theorem completes_execTalloc (d h b : BitVec 6) (s : State) : Completes (execTalloc d h b s) := by
  fun_cases execTalloc <;> exact ⟨_, rfl⟩

theorem completes_execTfree (h : BitVec 6) (s : State) : Completes (execTfree h s) := by
  fun_cases execTfree <;> exact ⟨_, rfl⟩

theorem completes_execWinreg (d a b : BitVec 6) (s : State) : Completes (execWinreg d a b s) := by
  fun_cases execWinreg <;> exact ⟨_, rfl⟩

theorem completes_execWinfree (d : BitVec 6) (b : SOp) (s : State) : Completes (execWinfree d b s) := by
  fun_cases execWinfree <;> exact ⟨_, rfl⟩

theorem completes_execRankq (d a : BitVec 6) (s : State) : Completes (execRankq d a s) := by
  fun_cases execRankq <;> exact ⟨_, rfl⟩

theorem completes_execSprd (d : BitVec 6) (n : BitVec 12) (s : State) : Completes (execSprd d n s) := by
  fun_cases execSprd <;> exact ⟨_, rfl⟩

theorem completes_execSpwr (a : BitVec 6) (n : BitVec 12) (s : State) : Completes (execSpwr a n s) := by
  fun_cases execSpwr <;> exact ⟨_, rfl⟩

theorem completes_execLaunchPlacement (s : State) : Completes (execLaunchPlacement s) := by
  fun_cases execLaunchPlacement <;> exact ⟨_, rfl⟩

theorem completes_execCpchuteClaim (s : State) : Completes (execCpchuteClaim s) := by
  fun_cases execCpchuteClaim <;> exact ⟨_, rfl⟩

theorem completes_execIcehouseExchange (s : State) : Completes (execIcehouseExchange s) := by
  fun_cases execIcehouseExchange <;> exact ⟨_, rfl⟩

theorem completes_execBarLaunch (s : State) : Completes (execBarLaunch s) := by
  fun_cases execBarLaunch <;> exact ⟨_, rfl⟩

theorem completes_execTretKill (s : State) : Completes (execTretKill s) := by
  fun_cases execTretKill <;> exact ⟨_, rfl⟩

theorem completes_execTmask (s : State) : Completes (execTmask s) := by
  fun_cases execTmask <;> exact ⟨_, rfl⟩

theorem completes_execTunmask (s : State) : Completes (execTunmask s) := by
  fun_cases execTunmask <;> exact ⟨_, rfl⟩

theorem completes_execBrk (s : State) : Completes (execBrk s) := by
  fun_cases execBrk <;> exact ⟨_, rfl⟩

theorem completes_execWatchdogExpiry (who : Waiter) (s : State) : Completes (execWatchdogExpiry who s) := by
  fun_cases execWatchdogExpiry <;> exact ⟨_, rfl⟩

theorem completes_execMwaitTimeout (q : SpanRef) (s : State) : Completes (execMwaitTimeout q s) := by
  fun_cases execMwaitTimeout <;> exact ⟨_, rfl⟩

theorem completes_execQuantumExpiry (g : Nat) (s : State) : Completes (execQuantumExpiry g s) := by
  fun_cases execQuantumExpiry <;> exact ⟨_, rfl⟩

theorem completes_execLaunchWindowPlace (pkn : Nat) (addr : Dword) (s : State) : Completes (execLaunchWindowPlace pkn addr s) := by
  fun_cases execLaunchWindowPlace <;> exact ⟨_, rfl⟩

theorem completes_execPreemptionRequest (pkn : Nat) (serial : Word) (s : State) : Completes (execPreemptionRequest pkn serial s) := by
  fun_cases execPreemptionRequest <;> exact ⟨_, rfl⟩

theorem completes_execPreemptionResume (pkn : Nat) (serial : Word) (s : State) : Completes (execPreemptionResume pkn serial s) := by
  fun_cases execPreemptionResume <;> exact ⟨_, rfl⟩

theorem completes_execPreemptionDeadline (pkn : Nat) (serial : Word) (s : State) : Completes (execPreemptionDeadline pkn serial s) := by
  fun_cases execPreemptionDeadline <;> exact ⟨_, rfl⟩

theorem completes_execPaddockSwap (leave enter : Option Nat) (s : State) : Completes (execPaddockSwap leave enter s) := by
  fun_cases execPaddockSwap <;> exact ⟨_, rfl⟩

theorem completes_execFloorWindow (core pipe : Nat) (s : State) : Completes (execFloorWindow core pipe s) := by
  fun_cases execFloorWindow <;> exact ⟨_, rfl⟩

theorem completes_execVcvt (p : BitVec 3) (d a : BitVec 7) (sat : BitVec 1) (rnd : BitVec 2) (df sf : BitVec 6) (s : State) :
    Completes (execVcvt p d a sat rnd df sf s) := by
  fun_cases execVcvt <;> exact ⟨_, rfl⟩

theorem completes_execTld (k : BitVec 3) (fe : BitVec 2) (dy dx n : BitVec 4) (sib : BitVec 1) (h : BitVec 6) (c : Coord) (s : State) :
    Completes (execTld k fe dy dx n sib h c s) := by
  fun_cases execTld with
  | case1 => exact .fault ..
  | case2 => exact completes_tileLoad ..

theorem completes_execTldPerm (k : BitVec 3) (fe : BitVec 2) (tT : BitVec 4) (bb : BitVec 1) (n : BitVec 4) (h : BitVec 6) (c : Coord) (s : State) :
    Completes (execTldPerm k fe tT bb n h c s) := by
  fun_cases execTldPerm with
  | case1 => exact .fault ..
  | case2 => exact completes_tileLoad ..

theorem completes_execMmaMod (k : BitVec 3) (bs : BitVec 2) (tB tA : BitVec 4) (v : BitVec 7) (s : State) :
    Completes (execMmaMod k bs tB tA v s) := by
  fun_cases execMmaMod with
  | case1 => exact .fault ..
  | case2 => exact completes_mma ..

theorem completes_execSld64 (k : BitVec 3) (b d : BitVec 6) (m : MemMod) (s : State) : Completes (execSld64 k b d m s) := by
  fun_cases execSld64 with
  | case4 => exact completes_counted ..
  | _ => exact .next _

theorem completes_execAmoFaddF32 (k : BitVec 3) (i : BitVec 7) (b : BitVec 6) (d : BitVec 7) (m : MemMod) (s : State) :
    Completes (execAmoFaddF32 k i b d m s) := by
  fun_cases execAmoFaddF32 with
  | case1 => exact .next _
  | case2 => exact completes_finishCounted ..

theorem completes_execDredModadd (i : BitVec 7) (b : BitVec 6) (d : BitVec 7) (m : MemMod) (s : State) : Completes (execDredModadd i b d m s) := by
  fun_cases execDredModadd with
  | case1 => exact .fault ..
  | case2 => exact completes_dred ..

theorem completes_execWaitq (d a : BitVec 6) (b : SOp) (s : State) : Completes (execWaitq d a b s) := by
  fun_cases execWaitq with
  | case11 => exact completes_waitCheck ..
  | _ => exact ⟨_, rfl⟩

theorem completes_execCpchute (p : BitVec 3) (sz : BitVec 2) (tl : BitVec 3) (dst src : ASide) (m : AMod) (s : State) :
    Completes (execCpchute p sz tl dst src m s) := by
  exact completes_asyncIssue ..

theorem completes_execVmodadd (p : BitVec 3) (d a b : BitVec 7) (s : State) : Completes (execVmodadd p d a b s) := by
  exact completes_modular s fun _ => completes_vecP2 ..

theorem completes_execVmodsub (p : BitVec 3) (d a b : BitVec 7) (s : State) : Completes (execVmodsub p d a b s) := by
  exact completes_modular s fun _ => completes_vecP2 ..

theorem completes_execVmodmul (p : BitVec 3) (d a b : BitVec 7) (s : State) : Completes (execVmodmul p d a b s) := by
  exact completes_modular s fun _ => completes_vecP2 ..

theorem completes_execVmodred (p : BitVec 3) (d a : BitVec 7) (s : State) : Completes (execVmodred p d a s) := by
  exact completes_modular s fun _ => completes_vecP ..

theorem completes_execVnttCt (p : BitVec 3) (d a b : BitVec 7) (s : State) : Completes (execVnttCt p d a b s) := by
  exact completes_modular s fun _ => completes_vecG ..

theorem completes_execVnttGs (p : BitVec 3) (d a b : BitVec 7) (s : State) : Completes (execVnttGs p d a b s) := by
  exact completes_modular s fun _ => completes_vecG ..

theorem completes_execTmov (d n : BitVec 4) (s : State) : Completes (execTmov d n s) := by
  exact completes_tileMove ..

theorem completes_execTmovTr (d n : BitVec 4) (s : State) : Completes (execTmovTr d n s) := by
  exact completes_tileMove ..

/-! ## Every meaning -/

/-- Every meaning answers a next state, whatever the state: a fault of 18 R316, a refusal and an error are next states too. The meanings not
named here answer one with no case split of their own. -/
theorem exec_completes (i : Instr) (s : State) : Completes (exec i s) := by
  cases i with
  | clauseIssue => exact completes_execClauseIssue ..
  | clauseEnd => exact completes_execClauseEnd ..
  | countedResultWrite => exact completes_execCountedResultWrite ..
  | park => exact completes_execPark ..
  | makeResident => exact completes_execMakeResident ..
  | workgroupStart => exact completes_execWorkgroupStart ..
  | penAdmission => exact completes_execPenAdmission ..
  | launchAdmission => exact completes_execLaunchAdmission ..
  | asyncUnitLand => exact completes_execAsyncUnitLand ..
  | bz => exact completes_execBz ..
  | bnz => exact completes_execBnz ..
  | ret | bi => exact completes_jumpTo ..
  | mset => exact completes_execMset ..
  | vrcpF32 | vrsqrtF32 | vsqrtF32 | vexp2F32 | vlog2F32 => exact completes_vecTrans ..
  | vcvt => exact completes_execVcvt ..
  | vmodadd => exact completes_execVmodadd ..
  | vmodsub => exact completes_execVmodsub ..
  | vmodmul => exact completes_execVmodmul ..
  | vmodred => exact completes_execVmodred ..
  | vnttCt => exact completes_execVnttCt ..
  | vnttGs => exact completes_execVnttGs ..
  | tcfgw => exact completes_execTcfgw ..
  | tcfgr => exact completes_execTcfgr ..
  | tzero => exact completes_execTzero ..
  | tld => exact completes_execTld ..
  | tldPerm => exact completes_execTldPerm ..
  | tst => exact completes_execTst ..
  | tmov => exact completes_execTmov ..
  | tmovTr => exact completes_execTmovTr ..
  | mmaB8 | mmaB8Scl | mmaB8Sp | mmaB8SclSp | mmaBf16 | mmaF16 | mmaF32 | mmaF64 => exact completes_mmaF ..
  | mmaI8 => exact completes_mma ..
  | mmaMod => exact completes_execMmaMod ..
  | ldN8 | ldI8 | ldN16 | ldI16 | ld32 | ld64 | ld128 => exact completes_load ..
  | st8 | st16 | st32 | st64 | st128 => exact completes_store ..
  | ldt32 | ldt64 | ldt128 => exact completes_ldt ..
  | stt32 | stt64 | stt128 => exact completes_stt ..
  | sld64 => exact completes_execSld64 ..
  | sst64 => exact completes_execSst64 ..
  | amoAddI32 | amoAddI64 | amoMinI32 | amoMinN32 | amoMinI64 | amoMaxI32 | amoMaxN32 | amoMaxI64 | amoAnd | amoOr | amoXor | amoSwap
  | amoCas32 | amoCas64 => exact completes_amo ..
  | amoFaddF32 => exact completes_execAmoFaddF32 ..
  | redAddI32 | redAddI64 | redMin | redMax | redAnd | redOr | redXor => exact completes_red ..
  | dredAddI64 | dredFaddF32 | dredFaddB8 | dredMinF32 | dredMaxF32 | dredOr => exact completes_dred ..
  | dredModadd => exact completes_execDredModadd ..
  | fence => exact completes_execFence ..
  | cflush | cinv | cinvDiscard => exact completes_finish ..
  | cp | cpm | cpr | gth | sct | put | get => exact completes_asyncIssue ..
  | cpchute => exact completes_execCpchute ..
  | launch => exact completes_execLaunch ..
  | tlwait => exact completes_execTlwait ..
  | wcwait => exact completes_execWcwait ..
  | wcread => exact completes_execWcread ..
  | chqClaim => exact completes_execChqClaim ..
  | chqPub => exact completes_execChqPub ..
  | chqWait => exact completes_execChqWait ..
  | chqRel => exact completes_execChqRel ..
  | waitq => exact completes_execWaitq ..
  | wake => exact completes_execWake ..
  | mon => exact completes_execMon ..
  | mwait => exact completes_execMwait ..
  | talloc => exact completes_execTalloc ..
  | tfree => exact completes_execTfree ..
  | winreg => exact completes_execWinreg ..
  | winfree => exact completes_execWinfree ..
  | rankq => exact completes_execRankq ..
  | sprd => exact completes_execSprd ..
  | spwr => exact completes_execSpwr ..
  | tlbinvPage | tlbinvAsid | tlbinvPaddock => exact completes_tlbinv ..
  | tlbinvRank | tlbinvRankall | halt => exact completes_supervisor _ ⟨_, rfl⟩
  | launchPlacement => exact completes_execLaunchPlacement ..
  | cpchuteClaim => exact completes_execCpchuteClaim ..
  | icehouseExchange => exact completes_execIcehouseExchange ..
  | barLaunch => exact completes_execBarLaunch ..
  | tretRetry | tretSkip => exact completes_tret ..
  | tretKill => exact completes_execTretKill ..
  | tmask => exact completes_execTmask ..
  | tunmask => exact completes_execTunmask ..
  | brk => exact completes_execBrk ..
  | watchdogExpiry => exact completes_execWatchdogExpiry ..
  | mwaitTimeout => exact completes_execMwaitTimeout ..
  | quantumExpiry => exact completes_execQuantumExpiry ..
  | launchWindowPlace => exact completes_execLaunchWindowPlace ..
  | preemptionRequest => exact completes_execPreemptionRequest ..
  | preemptionResume => exact completes_execPreemptionResume ..
  | preemptionDeadline => exact completes_execPreemptionDeadline ..
  | paddockSwap => exact completes_execPaddockSwap ..
  | floorWindow => exact completes_execFloorWindow ..
  | _ => exact ⟨_, rfl⟩

/-! ## One step (04 R72, 19 R344) -/

theorem deliver_completes (h : Hdr) (m : Msg) (s : State) : Completes (deliver h m s) := by
  cases m <;> exact ⟨_, rfl⟩

section Step

variable {s : State}

theorem step_of_due {i : Instr} (h : s.due = some i) : step s = exec i { s.tick with agenda := s.agenda.tail } := by
  rw [step, advance, h]

theorem step_of_pick_none (hdue : s.due = none) (hpick : s.pick = none) : step s = .next s.tick := by
  rw [step, advance, hdue, hpick]

theorem step_of_pick {a : Action} (hdue : s.due = none) (hpick : s.pick = some a) : step s = perform s.tick a := by
  rw [step, advance, hdue, hpick]

/-- The word position at which an issue set performs its instruction, of n words. -/
def State.issuingAt (s : State) (q : SpanRef) (c : Clause) (n : Nat) : State :=
  { s with focus := ⟨q.g, q.sp, q.lanes, c.hdrPc, c.pos, c.pos + n⟩ }

/-- The words of a clause from the position at which it stands. -/
def Clause.wordsAt (c : Clause) : List Word := c.words.drop (c.pos - 1)

theorem focusOn_of_decode {q : SpanRef} {c : Clause} {i : Instr} (h : decode c.cls c.wordsAt = .ok i) :
    s.focusOn q c = s.issuingAt q c (encode i).length := by
  rw [State.focusOn, Clause.len, Clause.instr, ← Clause.wordsAt, h]; rfl

theorem focusOn_of_reject {q : SpanRef} {c : Clause} {e : Reject} (h : decode c.cls c.wordsAt = .error e) :
    s.focusOn q c = s.issuingAt q c 1 := by
  rw [State.focusOn, Clause.len, Clause.instr, ← Clause.wordsAt, h]; rfl

theorem perform_instr_of_decode {q : SpanRef} {c : Clause} {i : Instr} (hc : (s.spanAt q.g q.sp).clauseOf q.lanes = some c)
    (h : decode c.cls c.wordsAt = .ok i) : perform s (.instr q) = exec i (s.issuingAt q c (encode i).length) := by
  have hd : decode c.cls (c.words.drop (c.pos - 1)) = .ok i := h
  rw [perform, hc, ← focusOn_of_decode h]
  simp only [hd]

/-- The word at which a clause stands is that of a supervisor instruction, tlbinv or halt (18 R316). -/
theorem supervisorWord_iff (c : Clause) : supervisorWord c = true ↔ bits c.hdr 6 4 = 6 ∧
    (bits (c.words.getD (c.pos - 1) 0) 7 0 = 0x0E ∨ bits (c.words.getD (c.pos - 1) 0) 7 0 = 0x0F) := by
  have hop (w : Word) : (fldOp w).toNat = bits w 7 0 := by simp [fldOp, bits]
  simp [supervisorWord, Clause.cls, hop]

theorem perform_instr_of_reject {q : SpanRef} {c : Clause} {e : Reject} (hc : (s.spanAt q.g q.sp).clauseOf q.lanes = some c)
    (h : decode c.cls c.wordsAt = .error e) :
    perform s (.instr q) = fault (if supervisorWord c && !(s.issuingAt q c 1).privileged then 0x06 else 0x02) 0 (s.issuingAt q c 1) := by
  have hd : decode c.cls (c.words.drop (c.pos - 1)) = .error e := h
  rw [perform, hc, ← focusOn_of_reject h]
  simp only [hd]

theorem perform_completes (s : State) (a : Action) : Completes (perform s a) := by
  cases a with
  | event i => exact exec_completes i s
  | message h m => exact deliver_completes h m s
  | packet p => exact exec_completes (.remotePacket p) s
  | evict core n => exact exec_completes (.cacheEviction core n) s
  | retry core n => exact exec_completes (.requestRetry core n) s
  | double n => exact exec_completes (.trayWindowDouble n) s
  | place p a => exact exec_completes (.launchWindowPlace p a) _
  | instr q =>
    cases hc : (s.spanAt q.g q.sp).clauseOf q.lanes with
    | none => exact ⟨s, by rw [perform, hc]⟩
    | some c =>
      cases h : decode c.cls c.wordsAt with
      | ok i => exact perform_instr_of_decode hc h ▸ exec_completes i _
      | error e => exact perform_instr_of_reject hc h ▸ .fault ..
  | _ => exact ⟨_, rfl⟩

/-- Every step completes. -/
theorem step_completes (s : State) : Completes (step s) := by
  cases hdue : s.due with
  | some i => exact step_of_due hdue ▸ exec_completes i _
  | none =>
    cases hpick : s.pick with
    | none => exact ⟨_, step_of_pick_none hdue hpick⟩
    | some a => exact step_of_pick hdue hpick ▸ perform_completes _ a

/-- Nothing is enabled before power-good and after a halt (19 R344). -/
theorem pick_of_off (h : s.powered = false ∨ s.halted = true) : s.pick = none := by
  have henabled : s.enabled = [] := if_pos (by simpa using h)
  rw [State.pick, henabled]

end Step

/-! ## O56 -/

/-- Settles O56: a step is what is due, else what is picked, else time; every meaning completes, so every step does. -/
theorem stepRunsDecodedInstruction : Obligations.StepRunsDecodedInstruction := by
  intro s
  refine ⟨step_completes s, fun n i rest hag hn => ?_, fun hdue => ⟨fun hoff => step_of_pick_none hdue (pick_of_off hoff),
    step_of_pick_none hdue, fun a ha => by rw [State.pick, ha], fun i => step_of_pick hdue, fun p => step_of_pick hdue,
    fun h d e t => ⟨step_of_pick hdue, step_of_pick hdue, step_of_pick hdue, step_of_pick hdue⟩, fun core n => step_of_pick hdue,
    fun p a => step_of_pick hdue, fun a => step_of_pick hdue, fun p c => step_of_pick hdue, fun q c hpick hc => ?_⟩⟩
  · have hdue : s.due = some i := by rw [State.due, hag]; exact if_pos hn
    rw [step_of_due hdue, hag]; rfl
  · refine ⟨fun i hi => (step_of_pick hdue hpick).trans (perform_instr_of_decode hc hi), fun e he => ?_⟩
    intro u w
    rw [step_of_pick hdue hpick, perform_instr_of_reject hc he]
    refine congrArg (fun x : Byte => fault x 0 u) (if_congr ?_ rfl rfl)
    rw [Bool.and_eq_true, supervisorWord_iff, Bool.not_eq_true', and_assoc]
    rfl

end Sys2Proof.Machine
end

section
/-!
PROOFS. The modulus register (05 R79, 16 R298): what spwr makes of %mq and %mqr, and O58.
-/


namespace Sys2Proof.Machine

/-! ## Legal moduli and their Barrett constants (05 R79) -/

theorem modulusOk_iff (q : Dword) : modulusOk q = true ↔ q.toNat % 2 = 1 ∧ 3 ≤ q.toNat ∧ q.toNat < 2 ^ 62 := by
  simp [modulusOk, BitVec.getLsbD, Nat.testBit_zero, and_assoc]

/-- An odd number above 1 is no power of two. -/
theorem two_pow_log2_lt_of_odd {n : Nat} (hodd : n % 2 = 1) (hn : 1 < n) : 2 ^ Nat.log2 n < n := by
  refine lt_of_le_of_ne (Nat.log2_self_le (by omega)) (fun h => ?_)
  cases hk : Nat.log2 n with
  | zero => rw [hk] at h; omega
  | succ k => rw [hk, pow_succ] at h; omega

/-- The quotient of an odd modulus has exactly 64 bits, so the register loses none of them. -/
theorem barrett_quotient_bounds {n : Nat} (hodd : n % 2 = 1) (hn : 1 < n) :
    2 ^ 63 ≤ 2 ^ (Nat.log2 n + 1 + 63) / n ∧ 2 ^ (Nat.log2 n + 1 + 63) / n < 2 ^ 64 := by
  have hlo : 2 ^ Nat.log2 n < n := two_pow_log2_lt_of_odd hodd hn
  have hhi : n < 2 ^ (Nat.log2 n + 1) := Nat.lt_log2_self
  have hlow : 2 ^ (Nat.log2 n + 1 + 63) = 2 ^ 64 * 2 ^ Nat.log2 n := by ring
  have hhigh : 2 ^ (Nat.log2 n + 1 + 63) = 2 ^ 63 * 2 ^ (Nat.log2 n + 1) := by ring
  constructor
  · rw [Nat.le_div_iff_mul_le (by omega), hhigh]
    exact Nat.mul_le_mul_left _ hhi.le
  · rw [Nat.div_lt_iff_lt_mul (by omega), hlow]
    exact Nat.mul_lt_mul_of_pos_left hlo (by decide)

/-- The bit length of a number is its b with 2^(b - 1) ≤ n < 2^b. -/
theorem log2_add_one_eq {n b : Nat} (hn : n ≠ 0) (hlo : 2 ^ (b - 1) ≤ n) (hhi : n < 2 ^ b) : Nat.log2 n + 1 = b := by
  cases b with
  | zero => rw [pow_zero] at hhi; omega
  | succ k => exact congrArg (· + 1) ((Nat.log2_eq_iff hn).2 ⟨hlo, hhi⟩)

section Barrett

variable {q : Dword} (hodd : q.toNat % 2 = 1) (hq : 3 ≤ q.toNat)
include hodd hq

theorem toNat_barrett : (barrett q).toNat = 2 ^ (Nat.log2 q.toNat + 1 + 63) / q.toNat :=
  (BitVec.toNat_ofNat ..).trans (Nat.mod_eq_of_lt (barrett_quotient_bounds hodd (by omega)).2)

theorem toNat_barrett_of_length {b : Nat} (hlo : 2 ^ (b - 1) ≤ q.toNat) (hhi : q.toNat < 2 ^ b) :
    (barrett q).toNat = 2 ^ (b + 63) / q.toNat := by
  rw [toNat_barrett hodd hq, log2_add_one_eq (by omega) hlo hhi]

theorem two_pow_63_le_barrett : 2 ^ 63 ≤ (barrett q).toNat := by
  rw [toNat_barrett hodd hq]
  exact (barrett_quotient_bounds hodd (by omega)).1

end Barrett

/-! ## spwr of %mq (16 R298) -/

section Spwr

variable {s : State} {a : BitVec 6}

/-- A legal modulus goes into %mq, and its Barrett constant into %mqr. -/
theorem exec_spwr_mq (h : modulusOk (s.span.sr a) = true) : exec (.spwr a 0x20) s =
    done (s.updSpan (fun sp => { sp with mq := s.span.sr a, mqr := barrett (s.span.sr a) })) := if_pos h

/-- Any other value is code 02. -/
theorem exec_spwr_mq_bad (h : ¬modulusOk (s.span.sr a) = true) : exec (.spwr a 0x20) s = fault 0x02 0 s := if_neg h

end Spwr

/-! ## Exceptions that wait for results (18 R319) -/

/-- While a result of a span is outstanding, none of its exceptions is taken. -/
theorem takeNext_of_pending {s : State} {g n : Nat} (h : (s.spanAt g n).pending ≠ []) : s.takeNext g n = s := by
  have hnone : (s.spanAt g n).traps.find? (fun t => State.trapReady (s.spanAt g n) t) = none :=
    List.find?_eq_none.2 (fun t _ => by simp [State.trapReady, h])
  simp only [State.takeNext, hnone]

/-- An exception raised while results are outstanding changes the span's clauses, its raised exceptions and its wait alone. -/
theorem span_raiseL_of_pending {s : State} (h : s.span.pending ≠ []) (F : Lanes) (codes : Nat → Byte) (tv : Nat → Dword) :
    ∃ cs ts, (s.raiseL F codes tv).span = { s.span with clauses := cs, traps := ts, wait := .none } := by
  unfold State.raiseL
  split
  · exact ⟨_, _, State.span_retire s⟩
  · dsimp only
    rw [takeNext_of_pending]
    · exact ⟨_, _, State.span_updSpan s _⟩
    · show (State.span (s.updSpan _)).pending ≠ []
      rw [State.span_updSpan]
      exact h

/-! ## O58 -/

/-- Settles O58: the quotient of a legal modulus fits 64 bits, and an exception on a span with outstanding results writes no register. -/
theorem modulusRegister : Obligations.ModulusRegister := by
  intro s a k p d x y bs tA tB q r two
  refine ⟨fun hodd hq hlt => ?_, fun hbad => ?_, fun hz => ?_⟩
  · have hmqr : (s.updSpan (fun sp => { sp with mq := q, mqr := barrett q })).retire.span.mqr = barrett q := by
      rw [State.span_retire, State.span_updSpan]; rfl
    refine ⟨_, exec_spwr_mq ((modulusOk_iff q).2 ⟨hodd, hq, hlt⟩), ?_⟩
    rw [hmqr]
    refine ⟨retired_done s _, fun b => toNat_barrett_of_length hodd hq, two_pow_63_le_barrett hodd hq, fun h97 => ?_⟩
    have h : q.toNat = 97 := congrArg BitVec.toNat h97
    rw [toNat_barrett_of_length hodd hq (b := 7) (by omega) (by omega), h]
  · have hfault : exec (.spwr a 0x20) s = fault 0x02 0 s := exec_spwr_mq_bad (fun h => by
      obtain ⟨hodd, hq, hlt⟩ := (modulusOk_iff q).1 h
      rcases hbad with hbad | hbad | hbad <;> omega)
    refine ⟨hfault, fun hpend => ⟨_, hfault, ?_⟩⟩
    obtain ⟨cs, ts, hspan⟩ := span_raiseL_of_pending hpend s.lanes (fun _ => 0x02) (fun _ => 0)
    have hraised : (s.raiseAll 0x02 0).span = { s.span with clauses := cs, traps := ts, wait := .none } := hspan
    rw [hraised]
    exact ⟨rfl, rfl⟩
  · -- each modular instruction asks first whether %mq is 0
    exact ⟨if_pos hz, if_pos hz, if_pos hz, if_pos hz, if_pos hz, if_pos hz, if_pos hz⟩

end Sys2Proof.Machine
end

section
/-!
PROOFS. The registers of a span that starts, the registers that read constants, the reset state and its first step (03 R31, 05 R76-R78,
15 R282), and O59.
-/


namespace Sys2Proof.Machine

/-! ## s63 and p7 (05 R77) -/

namespace Span

variable (sp : Span)

@[simp] theorem sr_63 : sp.sr 63 = 0 := if_pos rfl
@[simp] theorem pr_7 : sp.pr 7 = allLanes := if_pos rfl
@[simp] theorem setS_63 (x : Dword) : sp.setS 63 x = sp := if_pos rfl
@[simp] theorem setP_7 (S x : Lanes) : sp.setP 7 S x = sp := if_pos rfl

end Span

/-! ## A span that starts (03 R31, 05 R76) -/

section StartSpan

variable (entry : Dword)

theorem vr_startSpan (r l : Nat) : (State.startSpan entry).vr r l = 0 := by rw [startSpan_rest]; rfl
theorem kc_startSpan (n : Nat) : (State.startSpan entry).kc n = 0 := by rw [startSpan_rest]; rfl
theorem sr_startSpan (r : BitVec 6) : (State.startSpan entry).sr r = 0 := by rw [startSpan_rest]; exact ite_self _
theorem pr_startSpan (r : BitVec 3) (h : r ≠ 7) : (State.startSpan entry).pr r = 0 := by rw [startSpan_rest]; exact if_neg h

end StartSpan

/-! ## The reset state (05 R78, 15 R282) -/

theorem canonical_reset : Canonical State.reset := ⟨State.wf_reset, rfl, rfl, fun _ => rfl⟩

/-- Time alone, at reset: the step counts itself, and only what the outside decides may change (logs 36, 67). -/
theorem tick_reset :
    State.reset.tick = { State.reset with steps := 1, carriage := State.reset.tick.carriage, podMap := State.reset.tick.podMap } := rfl

/-- Until the dies are released a step is time alone (19 R344). -/
theorem step_reset : step State.reset = .next State.reset.tick := step_of_pick_none rfl (pick_of_off (.inl rfl))

/-! ## O59 -/

/-- Settles O59: a span that starts differs from a fresh one in its lanes' pc alone, and at reset nothing is due or enabled. -/
theorem resetState : Obligations.ResetState := by
  refine ⟨?_, fun q x S y => ⟨q.sr_63, q.pr_7, q.setS_63 x, q.setP_7 S y⟩, ?_⟩
  · intro entry l hl q
    have hlane : q.laneAt l = { Lane.fresh with pc := entry } := laneAt_startSpan entry l hl
    have hrest : q = { Span.fresh with lane := q.lane } := startSpan_rest entry
    refine ⟨by rw [hlane], by rw [hlane]; rfl, by rw [hlane]; rfl, by rw [hlane]; rfl, by rw [hlane]; rfl,
      fun r => ⟨vr_startSpan entry r l, kc_startSpan entry r⟩, sr_startSpan entry, pr_startSpan entry, ?_⟩
    rw [hrest]
    exact ⟨rfl, rfl, rfl, rfl⟩
  · exact ⟨canonical_reset, rfl, rfl, rfl, rfl, fun _ => rfl, fun _ => ⟨rfl, rfl⟩, fun _ => rfl, rfl, rfl, _, step_reset, tick_reset⟩

end Sys2Proof.Machine
end

section
/-!
PROOFS. The scalar arithmetic of class 0 (07 R104): what each operation of the model computes, in the terms of its rule, and O1. The
values are stated at every width at which instructions use them.
-/

namespace Sys2Proof.Machine

/-! ## Products (07 R104) -/

section Products

variable (x y : Dword)

/-- The low half of a product does not depend on the width in which the product is formed. -/
theorem mul_eq_low_half : x * y = (x.setWidth 128 * y.setWidth 128).extractLsb' 0 64 := by
  apply BitVec.eq_of_toNat_eq
  rw [BitVec.extractLsb'_toNat, BitVec.toNat_mul, BitVec.toNat_mul, BitVec.toNat_setWidth_of_le (by decide),
    BitVec.toNat_setWidth_of_le (by decide), Nat.shiftRight_zero, Nat.mod_mod_of_dvd _ (by decide)]

theorem mulHighN_eq_high_half : mulHighN x y = (x.setWidth 128 * y.setWidth 128).extractLsb' 64 64 := by
  have hlt : x.toNat * y.toNat < 2 ^ 128 := (Nat.mul_lt_mul'' x.isLt y.isLt).trans_eq (Nat.pow_add 2 64 64).symm
  apply BitVec.eq_of_toNat_eq
  rw [BitVec.extractLsb'_toNat, BitVec.toNat_mul, BitVec.toNat_setWidth_of_le (by decide), BitVec.toNat_setWidth_of_le (by decide),
    Nat.mod_eq_of_lt hlt, Nat.shiftRight_eq_div_pow]
  rfl

/-- The high half of a 128-bit value is its quotient by 2^64, read as signed. -/
theorem extractLsb'_ofInt_high (z : Int) : (BitVec.ofInt 128 z).extractLsb' 64 64 = BitVec.ofInt 64 (z / 2 ^ 64) := by
  apply BitVec.eq_of_toNat_eq
  simp only [BitVec.extractLsb'_toNat, BitVec.toNat_ofInt, Nat.shiftRight_eq_div_pow]
  omega

theorem mulHighS_eq_high_half : mulHighS x y = (x.signExtend 128 * y.signExtend 128).extractLsb' 64 64 := by
  show _ = (BitVec.ofInt 128 x.toInt * BitVec.ofInt 128 y.toInt).extractLsb' 64 64
  rw [← BitVec.ofInt_mul, extractLsb'_ofInt_high]
  rfl

end Products

/-! ## Shifts, the lesser and the greater (07 R104) -/

theorem shCount_eq (y : Dword) : shCount y = (y.extractLsb' 0 6).toNat := by
  rw [BitVec.extractLsb'_toNat]; rfl

section Width

variable {w : Nat} (x y : BitVec w)

theorem shiftLeft_eq_mul_pow (n : Nat) : x <<< n = BitVec.ofNat w (x.toNat * 2 ^ n) :=
  BitVec.eq_of_toNat_eq (by rw [BitVec.toNat_shiftLeft, BitVec.toNat_ofNat, Nat.shiftLeft_eq])

theorem ushiftRight_eq_div_pow (n : Nat) : x >>> n = BitVec.ofNat w (x.toNat / 2 ^ n) := by
  rw [← Nat.shiftRight_eq_div_pow, ← BitVec.toNat_ushiftRight, BitVec.ofNat_toNat, BitVec.setWidth_eq]

theorem sshiftRight_eq_div_pow (n : Nat) : x.sshiftRight n = BitVec.ofInt w (x.toInt / 2 ^ n) := by
  rw [BitVec.sshiftRight, Int.shiftRight_eq_div_pow, Nat.cast_pow, Nat.cast_ofNat]

/-- A choice by < and one by ≤ differ only between equals, which are one value. -/
theorem select_lesser {i j : Int} (h : i = j → x = y) : (if decide (i < j) == false then y else x) = if i ≤ j then x else y := by
  rcases lt_trichotomy i j with hlt | heq | hgt
  · simp [hlt, hlt.le]
  · simp [h heq]
  · simp [hgt.not_gt, hgt.not_ge]

theorem select_greater {i j : Int} (h : i = j → x = y) : (if decide (i < j) == true then y else x) = if i ≤ j then y else x := by
  rcases lt_trichotomy i j with hlt | heq | hgt
  · simp [hlt, hlt.le]
  · simp [h heq]
  · simp [hgt.not_gt, hgt.not_ge]

theorem sMinMax_false : sMinMax false x y = if x.toInt ≤ y.toInt then x else y := select_lesser x y BitVec.toInt_inj.1
theorem sMinMax_true : sMinMax true x y = if x.toInt ≤ y.toInt then y else x := select_greater x y BitVec.toInt_inj.1

theorem uMinMax_false : uMinMax false x y = if x.toNat ≤ y.toNat then x else y := by
  simpa [uMinMax, BitVec.ult_eq_decide] using select_lesser x y (i := x.toNat) (j := y.toNat) (fun h => BitVec.eq_of_toNat_eq (Int.ofNat.inj h))

theorem uMinMax_true : uMinMax true x y = if x.toNat ≤ y.toNat then y else x := by
  simpa [uMinMax, BitVec.ult_eq_decide] using select_greater x y (i := x.toNat) (j := y.toNat) (fun h => BitVec.eq_of_toNat_eq (Int.ofNat.inj h))

end Width

/-! ## Scalar results -/

/-- An instruction that writes x to s[d], where x stands for the value z of its rule. -/
theorem scalarResult_of_eq {s : State} {d : BitVec 6} {x : Span → Dword} {z : Dword} (h : x s.span = z) :
    ScalarResult (done (s.updSpan (fun sp => sp.setS d (x sp)))) s d z := h ▸ scalarResult_done s d x

/-- An instruction that only completes. -/
theorem retired_retire (s : State) : Retired s s.retire s.span := ⟨onlySpan_updSpan s _, State.span_retire s⟩

/-- An immediate outside 0 to 31 is no shift count and names no lane (07 R104, R108). -/
theorem shiftOk_imm {v : BitVec 6} (h : 31 < v.toNat) : (SOp.imm v).shiftOk = false := decide_eq_false (by omega)

/-! ## O1 -/

/-- Settles O1: each instruction writes one scalar register, with the value that its rule gives. -/
theorem scalarArithmetic : Obligations.ScalarArithmetic := by
  intro s d a b x y
  have hshl : x <<< shCount y = BitVec.ofNat 64 (x.toNat * 2 ^ (y.extractLsb' 0 6).toNat) := by rw [shiftLeft_eq_mul_pow, shCount_eq]
  have hshr : x >>> shCount y = BitVec.ofNat 64 (x.toNat / 2 ^ (y.extractLsb' 0 6).toNat) := by rw [ushiftRight_eq_div_pow, shCount_eq]
  have hsar : x.sshiftRight (shCount y) = BitVec.ofInt 64 (x.toInt / 2 ^ (y.extractLsb' 0 6).toNat) := by
    rw [sshiftRight_eq_div_pow, shCount_eq]
  refine ⟨⟨rfl, retired_retire s⟩, scalarResult_of_eq rfl, scalarResult_of_eq rfl, scalarResult_of_eq (mul_eq_low_half x y),
    scalarResult_of_eq (mulHighS_eq_high_half x y), scalarResult_of_eq (mulHighN_eq_high_half x y), scalarResult_of_eq rfl,
    scalarResult_of_eq rfl, scalarResult_of_eq rfl, scalarResult_of_eq hshl, scalarResult_of_eq hshr, scalarResult_of_eq hsar,
    scalarResult_of_eq (sMinMax_false x y), scalarResult_of_eq (sMinMax_true x y), scalarResult_of_eq (uMinMax_false x y),
    scalarResult_of_eq (uMinMax_true x y), fun v hv => ⟨shiftOk_imm hv, shiftOk_imm hv, shiftOk_imm hv⟩⟩

end Sys2Proof.Machine
end

section
/-!
PROOFS. Scalar moves, selection, ballots, counts, compares and lane reads (07 R105-R109, R122), and O2.
-/

namespace Sys2Proof.Machine

/-! ## Conditions (02 R27) -/

theorem condInt_eq_condHolds (c : Nat) (i j : Int) : condInt c (decide (i < j)) (decide (i = j)) = condHolds c i j := by
  match c with
  | 0 | 1 | 2 => simp [condInt, condHolds]
  | 3 | 4 => exact Bool.eq_iff_iff.2 (by simp [condInt, condHolds]; omega)
  | n + 5 => exact Bool.eq_iff_iff.2 (by simp [condInt, condHolds])

section Width

variable {w : Nat} (c : Nat) (x y : BitVec w)

theorem condS_eq_condHolds : condS c x y = condHolds c x.toInt y.toInt := by
  rw [condS, BitVec.slt_eq_decide, beq_eq_decide, decide_eq_decide.2 BitVec.toInt_inj.symm, condInt_eq_condHolds]

theorem condN_eq_condHolds : condN c x y = condHolds c x.toNat y.toNat := by
  have hlt : x.ult y = decide ((x.toNat : Int) < y.toNat) := by rw [BitVec.ult_eq_decide]; simp
  have heq : (x == y) = decide ((x.toNat : Int) = y.toNat) := by rw [beq_eq_decide]; simp [BitVec.toNat_inj]
  rw [condN, hlt, heq, condInt_eq_condHolds]

/-! ## Counts (07 R109) -/

theorem popCount_eq_countP : popCount x = (List.range w).countP (fun i => x.getLsbD i) := List.countP_eq_length_filter.symm

theorem countP_range_le (m n : Nat) : (List.range n).countP (fun i => decide (m ≤ i)) = n - m := by
  induction n with
  | zero => simp
  | succ n ih =>
    rw [List.range_succ, List.countP_append, ih]
    by_cases h : m ≤ n
    · simp [h]; omega
    · simp [h]; omega

/-- The zeros above the highest 1 bit are the powers of two below the width that exceed the value. -/
theorem leadZeros_eq_countP : leadZeros x = (List.range w).countP (fun i => decide (x.toNat < 2 ^ i)) := by
  unfold leadZeros
  by_cases h0 : x = 0#w
  · subst h0; simp
  · have hx : x.toNat ≠ 0 := fun h => h0 (BitVec.eq_of_toNat_eq h)
    simp only [← Nat.log2_lt hx, Nat.lt_iff_add_one_le, countP_range_le, if_neg h0]
    omega

end Width

/-! ## The lanes of an issue set that a predicate selects (07 R107) -/

section Selection

variable (p S : Lanes)

@[simp] theorem laneIn_zero (l : Nat) : laneIn 0 l = false := BitVec.getLsbD_zero

theorem and_ne_zero_iff : (p &&& S != 0) = true ↔ ∃ l, l < 32 ∧ laneIn S l ∧ laneIn p l := by
  rw [bne_iff_ne]
  constructor
  · intro h
    by_contra hno
    refine h (lanes_ext fun l hl => (Bool.eq_false_iff.2 fun hin => hno ⟨l, hl, ?_⟩).trans (laneIn_zero l).symm)
    rw [laneIn_and, Bool.and_eq_true] at hin
    exact hin.symm
  · rintro ⟨l, -, hS, hp⟩ h
    have hin := laneIn_and p S l
    rw [h, hS, hp, laneIn_zero] at hin
    cases hin

theorem and_eq_right_iff : (p &&& S == S) = true ↔ ∀ l, l < 32 → laneIn S l → laneIn p l := by
  rw [beq_iff_eq]
  constructor
  · intro h l _ hS
    have := congrArg (laneIn · l) h
    simpa [hS] using this
  · exact fun h => lanes_ext fun l hl => by
      rw [laneIn_and]
      cases hS : laneIn S l with
      | false => simp
      | true => simp [h l hl hS]

end Selection

/-! ## Lane reads (07 R108) -/

theorem toNat_lane (y : Dword) : y.toNat % 32 = (y.extractLsb' 0 5).toNat := by
  rw [BitVec.extractLsb'_toNat]; rfl

theorem toNat_register (hi : BitVec 1) (lo : BitVec 6) : (hi ++ lo : BitVec 7).toNat = 64 * hi.toNat + lo.toNat := by
  rw [BitVec.toNat_append, ← Nat.shiftLeft_add_eq_or_of_lt lo.isLt, Nat.shiftLeft_eq, Nat.mul_comm]

theorem wf_sfromv (w64 hi : BitVec 1) (lo d : BitVec 6) (b : SOp) :
    Instr.wf (.sfromv w64 hi lo d b) = (b.shiftOk && (w64 == 0#1 || even6 lo)) := rfl

/-! ## Compares (07 R106) -/

theorem scmpResult_eq (n : BitVec 1) (c : BitVec 3) (x y : Dword) : scmpResult n c x y =
    if n = 1#1 then condHolds c.toNat x.toNat y.toNat else condHolds c.toNat x.toInt y.toInt := by
  rw [scmpResult, condN_eq_condHolds, condS_eq_condHolds]

/-! ## O2 -/

/-- Settles O2: each instruction writes one scalar register, or the bits of a predicate, with the value that its rule gives. -/
theorem scalarMoves : Obligations.ScalarMoves := by
  refine ⟨⟨fun s d a b lit q j => ?moves, fun s hi lo d b => ?lane⟩, fun s n c q d a b => ?compare⟩
  case moves =>
    intro y
    refine ⟨scalarResult_of_eq rfl, scalarResult_of_eq rfl, scalarResult_of_eq rfl, scalarResult_of_eq rfl, ?any, ?none, ?all, ?notAll,
      scalarResult_of_eq rfl, scalarResult_of_eq (congrArg (BitVec.ofNat 64) (popCount_eq_countP y)),
      scalarResult_of_eq (congrArg (BitVec.ofNat 64) (leadZeros_eq_countP y)), scalarResult_of_eq rfl, scalarResult_of_eq rfl⟩
    case any => exact fun h => scalarResult_of_eq (if_pos ((and_ne_zero_iff _ _).2 h))
    case none =>
      exact fun h => scalarResult_of_eq (if_neg fun hc => by
        obtain ⟨l, hl, hS, hp⟩ := (and_ne_zero_iff _ _).1 hc
        rw [h l hl hS] at hp
        cases hp)
    case all => exact fun h => scalarResult_of_eq (if_pos ((and_eq_right_iff _ _).2 h))
    case notAll =>
      rintro ⟨l, hl, hS, hp⟩
      exact scalarResult_of_eq (if_neg fun hc => by
        rw [(and_eq_right_iff _ _).1 hc l hl hS] at hp
        cases hp)
  case lane =>
    intro va l
    have hva : (hi ++ lo : BitVec 7).toNat = va := toNat_register hi lo
    have hl : (s.span.opB b).toNat % 32 = l := toNat_lane _
    refine ⟨scalarResult_of_eq ?_, scalarResult_of_eq ?_, fun hodd => ?odd, fun w64 v hv => ?imm⟩
    · rw [← hva, ← hl]; rfl
    · rw [← hva, ← hl]; rfl
    case odd => simp [wf_sfromv, even6, hodd]
    case imm => simp [wf_sfromv, shiftOk_imm hv]
  case compare =>
    intro x y r
    have hr : scmpResult n c x y = r := scmpResult_eq n c x y
    refine ⟨?_, ?_, fun hc => ?reserved⟩
    · exact scalarResult_of_eq (by rw [← hr])
    · rw [← hr]
      exact predResult_done s q s.lanes _
    case reserved => exact ⟨decide_eq_false (by omega), decide_eq_false (by omega)⟩

end Sys2Proof.Machine
end

section
/-!
PROOFS. Control transfers (07 R110-R115), and O3.
-/

namespace Sys2Proof.Machine

/-- The link of a call is the fall-through address of the issuing clause (07 R110, R113). -/
theorem nextPc_of_clauseOf {s : State} {c : Clause} (h : s.span.clauseOf s.lanes = some c) :
    s.nextPc = c.hdrPc + 4 * (BitVec.ofNat 64 (bits c.hdr 3 0) + 1) := by
  have hlink : s.nextPc = c.hdrPc + BitVec.ofNat 64 (4 * (bits c.hdr 3 0 + 1)) := by rw [State.nextPc, h]
  rw [hlink, BitVec.ofNat_mul, BitVec.ofNat_add]; rfl

theorem setS_clauses (sp : Span) (d : BitVec 6) (x : Dword) : (sp.setS d x).clauses = sp.clauses := by rw [setS_rest]

/-- The bits that a canonical address has clear: bit 63, and the unused bits above bit 47 (07 R113). -/
theorem bits_high_eq_zero_iff (x : Dword) : bits x 63 48 = 0 ↔ x.getLsbD 63 = false ∧ bits x 62 48 = 0 := by
  have h63 : x.getLsbD 63 = decide (x.toNat / 2 ^ 63 % 2 = 1) := Nat.testBit_eq_decide_div_mod_eq
  rw [h63, decide_eq_false_iff_not, bits, bits, Nat.shiftRight_eq_div_pow]
  omega

section Branch

variable (s : State) (a : BitVec 6) (lit : Word)

theorem exec_bz : exec (.bz a lit) s =
    if s.span.sr a = 0 then done (s.setTargets s.lanes (fun _ => s.branchTarget lit)) else done s := rfl

theorem exec_bnz : exec (.bnz a lit) s =
    if s.span.sr a = 0 then done s else done (s.setTargets s.lanes (fun _ => s.branchTarget lit)) := rfl

end Branch

section Jump

variable {s : State} {a : BitVec 6}

theorem jumpTo_of_canonical (h : bits (s.span.sr a) 63 48 = 0) : BranchResult (jumpTo a s) s s.span s.lanes (s.span.sr a) := by
  have : jumpTo a s = done (s.setTargets s.lanes (fun _ => s.span.sr a)) := if_neg (not_not_intro h)
  rw [this]
  exact branchResult_here ..

theorem jumpTo_of_noncanonical (h : (s.span.sr a).getLsbD 63 ∨ bits (s.span.sr a) 62 48 ≠ 0) :
    Faults (jumpTo a s) s 0x04 (s.span.sr a) :=
  if_pos fun h0 => by
    obtain ⟨h63, hlow⟩ := (bits_high_eq_zero_iff _).1 h0
    rcases h with h | h
    · rw [h63] at h; cases h
    · exact h hlow

end Jump

/-- Settles O3: where the lanes of the issue set go is what the clause keeps as their targets. -/
theorem controlTransfers : Obligations.ControlTransfers := by
  refine ⟨fun s d a q lit => ?_, fun s a h => ⟨jumpTo_of_noncanonical h, jumpTo_of_noncanonical h⟩⟩
  intro dest
  have hdest : s.branchTarget lit = dest := branchTarget_eq s lit
  have htaken (T : Lanes) : BranchResult (done (s.setTargets T (fun _ => s.branchTarget lit))) s s.span T dest :=
    hdest ▸ branchResult_here s T _
  refine ⟨htaken _, fun h => ?zero, fun h => ?nonzero, htaken _, htaken _, fun c hc => ?call,
    fun h => ⟨jumpTo_of_canonical h, jumpTo_of_canonical h⟩, clauseResult_done s _ (fun _ => ⟨rfl, rfl⟩),
    clauseResult_done s _ (fun _ => ⟨rfl, rfl⟩)⟩
  case zero =>
    rw [exec_bz, exec_bnz, if_pos h, if_pos h]
    exact ⟨htaken _, branchResult_none s dest⟩
  case nonzero =>
    rw [exec_bz, exec_bnz, if_neg h, if_neg h]
    exact ⟨branchResult_none s dest, htaken _⟩
  case call =>
    rw [← nextPc_of_clauseOf hc, ← hdest]
    exact branchResult_done s (fun sp => sp.setS d s.nextPc) s.lanes _ (setS_clauses ..)

end Sys2Proof.Machine
end

section
/-!
PROOFS. Rejoin masks (07 R117-R121): threads that enrol, threads that are struck, no mask due for release, and O4.
-/

namespace Sys2Proof.Store

/-- What is read after entries are taken out by their keys. -/
theorem get_filter_key {α : Type} (d : α) (p : Nat → Bool) (m : Store α) (k : Nat) :
    get d (m.filter (fun e => p e.1)) k = if p k then get d m k else d := by
  induction m with
  | nil => simp
  | cons e m ih =>
    rw [List.filter_cons]
    by_cases hk : k = e.1
    · subst hk
      by_cases hp : p e.1 <;> simp [hp, ih, get_cons]
    · by_cases hp : p e.1 <;> simp [hp, ih, get_cons, hk]

end Sys2Proof.Store

namespace Sys2Proof.Machine

/-! ## Masks and threads of a span -/

theorem laneIn_not (S : Lanes) (l : Nat) (hl : l < 32) : laneIn (~~~S) l = !laneIn S l := by simp [laneIn, hl]

namespace Span

@[simp] theorem movedOn_jm (sp : Span) (S : Lanes) (n m : Nat) : (sp.movedOn S n).jm m = sp.jm m := rfl
@[simp] theorem movedOn_laneAt (sp : Span) (S : Lanes) (n l : Nat) : (sp.movedOn S n).laneAt l = sp.laneAt l := rfl
@[simp] theorem laneAt_setJ (sp : Span) (n : Nat) (x : Rejoin) (l : Nat) : (sp.setJ n x).laneAt l = sp.laneAt l := rfl
@[simp] theorem jm_updLanes (sp : Span) (S : Lanes) (f : Nat → Lane → Lane) (m : Nat) : (sp.updLanes S f).jm m = sp.jm m := by
  rw [updLanes_rest]; rfl

/-- Only the masks and the threads' states of a span differ between p and q. -/
def MasksOnly (p q : Span) : Prop := q = { p with j := q.j, lane := q.lane }

/-! ## Threads that enrol (07 R119) -/

section Enrol

variable (sp : Span) (n : Nat) (S : Lanes) (a : Dword)

/-- mset is refused: another mask with meeting address a enrols a lane of S, or mask n enrols threads at another address. -/
def Clashes : Prop :=
  (∃ m, m < 8 ∧ m ≠ n ∧ (sp.jm m).enrol &&& S ≠ 0 ∧ (sp.jm m).addr = a) ∨ ((sp.jm n).enrol ≠ 0 ∧ (sp.jm n).addr ≠ a)

/-- The span once the threads of S have enrolled in mask n with meeting address a. -/
def enrolled : Span :=
  (sp.setJ n { sp.jm n with
    addr := a, enrol := (sp.jm n).enrol ||| S
    save := (lanesOf (S &&& ~~~(sp.jm n).enrol)).foldl (fun m l => Store.set 0 m l (sp.laneAt l).mr) (sp.jm n).save }).updLanes S
      (fun _ la => { la with mr := a })

theorem enrolIn_eq : sp.enrolIn n S a =
    if (List.range 8).any (fun m => m != n && ((sp.jm m).enrol &&& S != 0) && (sp.jm m).addr == a) then none
    else if (sp.jm n).enrol ≠ 0 ∧ (sp.jm n).addr ≠ a then none else some (sp.enrolled n S a) := rfl

theorem any_clash_iff : (List.range 8).any (fun m => m != n && ((sp.jm m).enrol &&& S != 0) && (sp.jm m).addr == a) = true ↔
    ∃ m, m < 8 ∧ m ≠ n ∧ (sp.jm m).enrol &&& S ≠ 0 ∧ (sp.jm m).addr = a := by
  simp [and_assoc]

variable {sp n S a}

theorem enrolIn_of_clashes (h : sp.Clashes n S a) : sp.enrolIn n S a = none := by
  rw [enrolIn_eq]
  rcases h with h | h
  · rw [if_pos ((any_clash_iff ..).2 h)]
  · rw [if_pos h, ite_self]

theorem enrolIn_of_not_clashes (h : ¬sp.Clashes n S a) : sp.enrolIn n S a = some (sp.enrolled n S a) := by
  rw [Clashes, not_or] at h
  rw [enrolIn_eq, if_neg (fun hany => h.1 ((any_clash_iff ..).1 hany)), if_neg h.2]

variable (sp n S a)

theorem enrolled_masksOnly : sp.MasksOnly (sp.enrolled n S a) := by
  rw [MasksOnly, enrolled, updLanes_rest]; rfl

theorem jm_enrolled_ne {m : Nat} (h : m ≠ n) : (sp.enrolled n S a).jm m = sp.jm m := by
  rw [enrolled, jm_updLanes, jm_setJ, if_neg h]

theorem jm_enrolled_self : (sp.enrolled n S a).jm n = { sp.jm n with
    addr := a, enrol := (sp.jm n).enrol ||| S, save := ((sp.enrolled n S a).jm n).save } := by
  simp only [enrolled, jm_updLanes, jm_setJ, if_true]

/-- The mr of a thread is saved when it enrols, and not again while it is enrolled. -/
theorem save_enrolled (l : Nat) (hl : l < 32) : Store.get 0 ((sp.enrolled n S a).jm n).save l =
    if laneIn S l ∧ laneIn (sp.jm n).enrol l = false then (sp.laneAt l).mr else Store.get 0 (sp.jm n).save l := by
  simp only [enrolled, jm_updLanes, jm_setJ, if_true]
  rw [Store.get_foldl_set _ _ _ _ (nodup_lanesOf _)]
  simp [mem_lanesOf, hl, laneIn_not]

theorem laneAt_enrolled (l : Nat) (hl : l < 32) :
    (sp.enrolled n S a).laneAt l = if laneIn S l then { sp.laneAt l with mr := a } else sp.laneAt l := by
  rw [enrolled, laneAt_updLanes _ _ _ _ hl, laneAt_setJ]

end Enrol

/-! ## Threads that are struck (07 R120) -/

section Strike

variable (sp : Span) (n : Nat) (S : Lanes)

/-- Mask n when its threads in S have left it; a mask that enrols nobody is empty (07 R117). -/
theorem jm_leaveMask_self : (sp.leaveMask n S).jm n =
    if (sp.jm n).enrol &&& ~~~S = 0 then Rejoin.empty else { sp.jm n with
      enrol := (sp.jm n).enrol &&& ~~~S, held := (sp.jm n).held &&& ~~~S, save := (sp.jm n).save.filter (fun x => !laneIn S x.1) } := by
  unfold leaveMask
  dsimp only
  split <;> rw [jm_setJ, if_pos rfl]

theorem jm_leaveMask_ne {m : Nat} (h : m ≠ n) : (sp.leaveMask n S).jm m = sp.jm m := by
  unfold leaveMask
  dsimp only
  split <;> rw [jm_setJ, if_neg h]

/-- The threads of mask n outside S: those that stay when S is struck. -/
def unstruck : Lanes := (sp.jm n).enrol &&& ~~~S

/-- A struck thread, and mr that stood at the mask's address returns. -/
def struckLane (l : Nat) (la : Lane) : Lane :=
  if la.mr = (sp.jm n).addr then { la with mr := Store.get 0 (sp.jm n).save l } else la

theorem strike_eq : sp.strike n S = (sp.updLanes (S &&& (sp.jm n).enrol) (sp.struckLane n)).leaveMask n (S &&& (sp.jm n).enrol) := rfl

/-- Of the mask's threads, those in S and those in S that it enrols are the same. -/
theorem enrol_and_not_struck : (sp.jm n).enrol &&& ~~~(S &&& (sp.jm n).enrol) = sp.unstruck n S :=
  lanes_ext fun l hl => by
    simp only [unstruck, laneIn_and, laneIn_not _ l hl]
    cases laneIn (sp.jm n).enrol l <;> simp

theorem strike_masksOnly : sp.MasksOnly (sp.strike n S) := by
  rw [MasksOnly, strike_eq, leaveMask_rest, updLanes_rest]

theorem jm_strike_ne {m : Nat} (h : m ≠ n) : (sp.strike n S).jm m = sp.jm m := by
  rw [strike_eq, jm_leaveMask_ne _ _ _ h, jm_updLanes]

theorem jm_strike_self : (sp.strike n S).jm n = if sp.unstruck n S = 0 then Rejoin.empty else { sp.jm n with
    enrol := sp.unstruck n S, held := (sp.jm n).held &&& ~~~(S &&& (sp.jm n).enrol)
    save := (sp.jm n).save.filter (fun x => !laneIn (S &&& (sp.jm n).enrol) x.1) } := by
  rw [strike_eq, jm_leaveMask_self, jm_updLanes, enrol_and_not_struck]

theorem enrol_strike : ((sp.strike n S).jm n).enrol = sp.unstruck n S := by
  rw [jm_strike_self]
  split
  · next h => exact h.symm
  · rfl

theorem addr_strike : ((sp.strike n S).jm n).addr = if sp.unstruck n S = 0 then allOnes64 else (sp.jm n).addr := by
  rw [jm_strike_self]
  split <;> rfl

theorem held_strike (h : (sp.jm n).held = 0) : ((sp.strike n S).jm n).held = 0 := by
  rw [jm_strike_self]
  split
  · rfl
  · rw [h]; exact BitVec.zero_and

/-- A thread that stays in the mask keeps its saved mr. -/
theorem save_strike (l : Nat) (hl : l < 32) (h : laneIn (sp.unstruck n S) l = true) :
    Store.get 0 ((sp.strike n S).jm n).save l = Store.get 0 (sp.jm n).save l := by
  have hne : sp.unstruck n S ≠ 0 := fun h0 => by rw [h0, laneIn_zero] at h; cases h
  have hout : laneIn (S &&& (sp.jm n).enrol) l = false := by
    rw [unstruck, laneIn_and, laneIn_not _ l hl, Bool.and_eq_true, Bool.not_eq_true'] at h
    rw [laneIn_and, h.2, Bool.false_and]
  rw [jm_strike_self, if_neg hne, Store.get_filter_key 0 (fun k => !laneIn (S &&& (sp.jm n).enrol) k), hout]
  rfl

theorem laneAt_strike (l : Nat) (hl : l < 32) : (sp.strike n S).laneAt l =
    if laneIn S l ∧ laneIn (sp.jm n).enrol l ∧ (sp.laneAt l).mr = (sp.jm n).addr
    then { sp.laneAt l with mr := Store.get 0 (sp.jm n).save l } else sp.laneAt l := by
  have hlane : (sp.strike n S).laneAt l = (sp.updLanes (S &&& (sp.jm n).enrol) (sp.struckLane n)).laneAt l := by
    rw [strike_eq, leaveMask_rest]; rfl
  rw [hlane, laneAt_updLanes _ _ _ _ hl]
  simp only [struckLane, laneIn_and, Bool.and_eq_true, ← ite_and, and_assoc]

end Strike

end Span

/-- No mask is due for release: release_check changes nothing (07 R118). -/
theorem releaseCheck_of_not_due (s : State) (g n : Nat)
    (h : ∀ i, i < 8 → ((s.spanAt g n).jm i).enrol = 0 ∨ ((s.spanAt g n).jm i).held ≠ ((s.spanAt g n).jm i).enrol) :
    s.releaseCheck g n = s :=
  List.foldl_fixed' (fun i => if_pos (h (i % 8) (Nat.mod_lt i (by decide)))) _

/-- After a strike of a mask at which nobody is held, no mask is due that was not due before. -/
theorem Span.strike_not_due (sp : Span) (n : Nat) (S : Lanes) (hheld : (sp.jm n).held = 0)
    (hdue : ∀ m, m < 8 → m ≠ n → (sp.jm m).enrol = 0 ∨ (sp.jm m).held ≠ (sp.jm m).enrol) (i : Nat) (hi : i < 8) :
    ((sp.strike n S).jm i).enrol = 0 ∨ ((sp.strike n S).jm i).held ≠ ((sp.strike n S).jm i).enrol := by
  by_cases h : i = n
  · subst h
    rw [sp.held_strike i S hheld]
    exact (eq_or_ne _ 0).imp_right Ne.symm
  · rw [sp.jm_strike_ne n S h]
    exact hdue i hi h

/-! ## Results in the masks and the threads' states -/

/-- A change of the masks and of the threads' states, and no more, that completes. -/
theorem retired_masks (s : State) {f : Span → Span} (h : s.span.MasksOnly (f s.span)) :
    Retired s (s.updSpan f).retire
      { s.span with j := (s.updSpan f).retire.span.j, lane := (s.updSpan f).retire.span.lane } := by
  have hret := retired_done s f
  rw [Span.MasksOnly] at h
  simp only [State.span_retire, State.span_updSpan, Span.movedOn_j, Span.movedOn_lane] at hret ⊢
  rwa [h] at hret

theorem retired_updLanes (s : State) (S : Lanes) (f : Span → Nat → Lane → Lane) :
    Retired s (s.updSpan (fun sp => sp.updLanes S (f sp))).retire
      { s.span with lane := (s.updSpan (fun sp => sp.updLanes S (f sp))).retire.span.lane } := by
  have hret := retired_done s (fun sp => sp.updLanes S (f sp))
  simp only [State.span_retire, State.span_updSpan, Span.movedOn_lane] at hret ⊢
  rwa [updLanes_rest] at hret

/-! ## O4 -/

theorem exec_mset_of_clashes {s : State} {j : BitVec 3} {lit : Word} (h : s.span.Clashes j.toNat s.lanes (s.branchTarget lit)) :
    exec (.mset j lit) s = fault 0x02 0 s := by
  show execMset j lit s = _
  rw [execMset, Span.enrolIn_of_clashes h]

theorem exec_mset_of_not_clashes {s : State} {j : BitVec 3} {lit : Word} (h : ¬s.span.Clashes j.toNat s.lanes (s.branchTarget lit)) :
    exec (.mset j lit) s = done (s.updSpan (fun _ => s.span.enrolled j.toNat s.lanes (s.branchTarget lit))) := by
  show execMset j lit s = _
  rw [execMset, Span.enrolIn_of_not_clashes h]

theorem exec_mstrike_of_not_due {s : State} {j : BitVec 3} (hheld : (s.span.jm j.toNat).held = 0)
    (hdue : ∀ m, m < 8 → m ≠ j.toNat → (s.span.jm m).enrol = 0 ∨ (s.span.jm m).held ≠ (s.span.jm m).enrol) :
    exec (.mstrike j) s = done (s.updSpan (fun sp => sp.strike j.toNat s.lanes)) := by
  refine congrArg done (releaseCheck_of_not_due _ _ _ ?_)
  have hspan : (s.updSpan (fun sp => sp.strike j.toNat s.lanes)).spanAt s.focus.g s.focus.sp = s.span.strike j.toNat s.lanes :=
    State.span_updSpan ..
  rw [hspan]
  exact s.span.strike_not_due j.toNat s.lanes hheld hdue

theorem toNat_pair (n : BitVec 6) : (n ++ 0#1 : BitVec 7).toNat = 2 * n.toNat := by
  rw [BitVec.toNat_append, BitVec.toNat_ofNat, Nat.zero_mod, Nat.or_zero, Nat.shiftLeft_eq, Nat.mul_comm]

/-- Settles O4: mset and mstrike change the masks and the threads' states as enrolling and striking do; mget and mput move mr. -/
theorem rejoinMasks : Obligations.RejoinMasks := by
  refine ⟨fun s j lit => ?mset, fun s j => ?mstrike, fun s n => ⟨?mget, ?mput⟩⟩
  case mset =>
    intro a old clash
    have ha : s.branchTarget lit = a := branchTarget_eq s lit
    refine ⟨fun h => ?_, fun h => ⟨_, exec_mset_of_not_clashes (ha ▸ h), ?_⟩⟩
    · exact exec_mset_of_clashes (ha ▸ h)
    · rw [ha]
      refine ⟨retired_masks s (s.span.enrolled_masksOnly ..), ?_⟩
      simp only [State.span_retire, State.span_updSpan, Span.movedOn_jm, Span.movedOn_laneAt]
      exact ⟨fun m hm => s.span.jm_enrolled_ne _ _ _ hm, s.span.jm_enrolled_self .., s.span.save_enrolled _ _ _,
        s.span.laneAt_enrolled _ _ _⟩
  case mstrike =>
    intro old left hheld hdue
    refine ⟨_, exec_mstrike_of_not_due hheld hdue, retired_masks s (s.span.strike_masksOnly ..), ?_⟩
    simp only [State.span_retire, State.span_updSpan, Span.movedOn_jm, Span.movedOn_laneAt]
    exact ⟨fun m hm => s.span.jm_strike_ne _ _ hm, s.span.enrol_strike .., s.span.held_strike _ _ hheld, s.span.addr_strike ..,
      s.span.save_strike _ _, s.span.laneAt_strike _ _⟩
  case mget =>
    have hres := pairResult_done s s.lanes (n ++ 0#1) (fun sp l => (sp.laneAt l).mr)
    rwa [toNat_pair] at hres
  case mput =>
    refine ⟨_, rfl, retired_updLanes s s.lanes (fun sp l la => { la with mr := sp.pair (2 * n.toNat) l }), fun l hl => ?_⟩
    rw [State.span_retire, State.span_updSpan, Span.movedOn_laneAt, laneAt_updLanes _ _ _ _ hl]
    rfl

end Sys2Proof.Machine
end

section
/-!
PROOFS. Words that the spec spells out (07 R105, R121 and the rules of the other classes), and O55.
-/

namespace Sys2Proof

/-- Settles O55: the decoder computes each instruction from its words. -/
theorem decodeWords : Obligations.DecodeWords := ⟨rfl, rfl, rfl, rfl, rfl, rfl, rfl⟩

end Sys2Proof
end

section
/-!
PROOFS. The shapes of vector results (08 R125): what an instruction that writes the active lanes answers, with values given lane by lane.
-/

namespace Sys2Proof.Machine

/-- Only the values of the lanes that are written, in the registers that are written, matter. -/
theorem VecResult.congr {r : Res} {s : State} {L : Lanes} {d : BitVec 7} {w : Nat} {f g : Nat → Nat → Word}
    (h : VecResult r s L d w f) (hfg : ∀ i l, i < w → laneIn L l → f i l = g i l) : VecResult r s L d w g := by
  obtain ⟨t, hnext, hret, hvr⟩ := h
  refine ⟨t, hnext, hret, fun n l hl => (hvr n l hl).trans (ite_congr rfl (fun hin => ?_) (fun _ => rfl))⟩
  obtain ⟨hlo, hhi, hlane⟩ := hin
  exact hfg _ _ (by omega) hlane

section Shapes

variable {s : State} {p : BitVec 3} {d : BitVec 7}

/-- One register in each active lane. -/
theorem vecW_result {f : Span → Nat → Word} {x : Nat → Word} (h : ∀ l, laneIn (s.active p) l → f s.span l = x l) :
    WordResult (vecW p d f s) s (s.active p) d x :=
  (wordResult_done s _ d f).congr (fun _ l _ hl => h l hl)

/-- One pair in each active lane. -/
theorem vecP_result {f : Span → Nat → Dword} {x : Nat → Dword} (h : ∀ l, f s.span l = x l) :
    PairResult (vecP p d f s) s (s.active p) d x :=
  (pairResult_done s _ d f).congr (fun i l _ _ => congrArg (BitVec.extractLsb' (32 * i) 32) (h l))

/-- One group in each active lane. -/
theorem vecG_result {f : Span → Nat → BitVec 128} {x : Nat → BitVec 128} (h : ∀ l, f s.span l = x l) :
    GroupResult (vecG p d f s) s (s.active p) d x :=
  (groupResult_done s _ d f).congr (fun i l _ _ => congrArg (BitVec.extractLsb' (32 * i) 32) (h l))

/-- The predicate bits of the active lanes. -/
theorem vecCmp_result {q : BitVec 3} {f : Span → Nat → Bool} {x : Nat → Bool} (h : ∀ l, f s.span l = x l) :
    PredResult (vecCmp p q f s) s q (s.active p) (lanesWhere x) :=
  (funext h : f s.span = x) ▸ predResult_done s q _ (fun sp => lanesWhere (f sp))

end Shapes

end Sys2Proof.Machine
end

section
/-!
PROOFS. Vector integers, shifts, bit fields, the selection and the compares (08 R128-R131, R136): the value of each in the terms of its
rule, and O5.
-/

namespace Sys2Proof.Machine

/-! ## Integers (08 R128) -/

section Words

variable (x y z : Word)

theorem mulHighWordS_eq_high_half :
    BitVec.ofInt 32 (x.toInt * y.toInt / 2 ^ 32) = (x.signExtend 64 * y.signExtend 64).extractLsb' 32 32 := by
  show _ = (BitVec.ofInt 64 x.toInt * BitVec.ofInt 64 y.toInt).extractLsb' 32 32
  rw [← BitVec.ofInt_mul]
  apply BitVec.eq_of_toNat_eq
  simp only [BitVec.extractLsb'_toNat, BitVec.toNat_ofInt, Nat.shiftRight_eq_div_pow]
  omega

theorem mulHighWordN_eq_high_half :
    BitVec.ofNat 32 (x.toNat * y.toNat / 2 ^ 32) = (x.setWidth 64 * y.setWidth 64).extractLsb' 32 32 := by
  have hlt : x.toNat * y.toNat < 2 ^ 64 := (Nat.mul_lt_mul'' x.isLt y.isLt).trans_eq (Nat.pow_add 2 32 32).symm
  apply BitVec.eq_of_toNat_eq
  rw [BitVec.extractLsb'_toNat, BitVec.toNat_mul, BitVec.toNat_setWidth_of_le (by decide), BitVec.toNat_setWidth_of_le (by decide),
    Nat.mod_eq_of_lt hlt, Nat.shiftRight_eq_div_pow, BitVec.toNat_ofNat]

theorem mul_eq_ofNat : x * y = BitVec.ofNat 32 (x.toNat * y.toNat) := BitVec.eq_of_toNat_eq (by simp)

theorem mul_add_eq_ofNat : x * y + z = BitVec.ofNat 32 (x.toNat * y.toNat + z.toNat) := BitVec.eq_of_toNat_eq (by simp)

/-- −2^31 has the absolute value 2^31, which as a word is itself. -/
theorem negate_if_negative_eq_natAbs : (if x.msb then -x else x) = BitVec.ofNat 32 x.toInt.natAbs := by
  apply BitVec.eq_of_toNat_eq
  rw [BitVec.toNat_ofNat, BitVec.toInt_eq_msb_cond]
  have hlt := x.isLt
  split
  · rw [BitVec.toNat_neg]; omega
  · omega

theorem clampI_eq_max_min {lo hi : Int} (h : lo ≤ hi) (v : Int) : clampI lo hi v = max lo (min hi v) := by
  unfold clampI
  split
  · omega
  · split <;> omega

/-! ## Shifts and bit fields (08 R129) -/

theorem sshiftRight_width : x.sshiftRight 32 = if x.getLsbD 31 then 0xFFFFFFFF#32 else 0 := by
  have hmsb : x.msb = x.getLsbD 31 := BitVec.msb_eq_getLsbD_last x
  rw [← hmsb]
  split
  · next h => rw [BitVec.sshiftRight_eq_of_msb_true h, BitVec.ushiftRight_eq_zero (le_refl 32)]; rfl
  · next h => rw [BitVec.sshiftRight_eq_of_msb_false (by simpa using h), BitVec.ushiftRight_eq_zero (le_refl 32)]; rfl

/-- A count of 32 or more leaves copies of the sign alone. -/
theorem sshiftRight_min_width (n : Nat) : x.sshiftRight (min n 32) =
    if 32 ≤ n then (if x.getLsbD 31 then 0xFFFFFFFF#32 else 0) else BitVec.ofInt 32 (x.toInt / 2 ^ n) := by
  split
  · next h => rw [min_eq_right h, sshiftRight_width]
  · next h => rw [min_eq_left (by omega), sshiftRight_eq_div_pow]

theorem fieldPos_eq : fieldPos y = y.toNat % 32 := by rw [fieldPos, bits, Nat.shiftRight_zero]; rfl

theorem fieldLen_eq : fieldLen y = min (y.toNat / 256 % 64) (32 - y.toNat % 32) := by
  rw [fieldLen, bits, bits, Nat.shiftRight_zero, Nat.shiftRight_eq_div_pow]; rfl

theorem fieldLen_le : fieldLen y ≤ 32 := by rw [fieldLen_eq]; omega

/-- A field with its mask is the quotient modulo a power of two. -/
theorem ushiftRight_and_fieldMask : x >>> fieldPos y &&& fieldMask y = BitVec.ofNat 32 (x.toNat / 2 ^ fieldPos y % 2 ^ fieldLen y) := by
  have hmask : 2 ^ fieldLen y - 1 < 2 ^ 32 :=
    (Nat.sub_lt (Nat.two_pow_pos _) Nat.one_pos).trans_le (Nat.pow_le_pow_right Nat.two_pos (fieldLen_le y))
  apply BitVec.eq_of_toNat_eq
  rw [fieldMask, BitVec.toNat_and, BitVec.toNat_ofNat, Nat.mod_eq_of_lt hmask, Nat.and_two_pow_sub_one_eq_mod, BitVec.toNat_ushiftRight,
    Nat.shiftRight_eq_div_pow, BitVec.toNat_ofNat, Nat.mod_eq_of_lt (a := _ % _)]
  exact ((Nat.mod_le ..).trans (Nat.div_le_self ..)).trans_lt x.isLt

end Words

/-! ## Compares of floating values (08 R136) -/

theorem condF_eq_floatHolds (c : Nat) (u v : FVal) : condF c u v = floatHolds c u v := by
  have hint : condInt c (decide (u.cmp v < 0)) (u.cmp v == 0) = condHolds c (u.cmp v) 0 := condInt_eq_condHolds c (u.cmp v) 0
  match c with
  | 1 => simp [condF, floatHolds]; rfl
  | 6 | 7 => rfl
  | 0 | 2 | 3 | 4 | 5 => simp [condF, floatHolds, ← hint]
  | n + 8 => simp [condF, floatHolds, ← hint]


/-! ## O5 -/

/-- Settles O5: each instruction writes the active lanes, vsel those of the issue set, with the value that its rule gives. -/
theorem vectorIntegers : Obligations.VectorIntegers := by
  refine ⟨⟨fun s p d a b lit => ?integers, fun s p d a b => ?shifts⟩, fun s p q c a b => ?compares⟩
  case integers =>
    intro A x y z x2 y2
    refine ⟨vecW_result fun _ _ => rfl, vecW_result fun _ _ => rfl, vecW_result fun _ _ => rfl, vecW_result fun _ _ => rfl,
      vecP_result fun _ => rfl, vecP_result fun _ => rfl, vecW_result fun l _ => mul_eq_ofNat _ _,
      vecW_result fun l _ => mulHighWordS_eq_high_half _ _, vecW_result fun l _ => mulHighWordN_eq_high_half _ _,
      vecW_result fun l _ => mul_add_eq_ofNat _ _ _,
      vecW_result fun _ _ => rfl, vecW_result fun _ _ => rfl, vecW_result fun _ _ => rfl, vecW_result fun _ _ => rfl,
      vecW_result fun l _ => sMinMax_false _ _, vecW_result fun l _ => sMinMax_true _ _, vecW_result fun l _ => uMinMax_false _ _,
      vecW_result fun l _ => uMinMax_true _ _, vecW_result fun l _ => negate_if_negative_eq_natAbs _,
      vecW_result fun l _ => congrArg (BitVec.ofNat 32) (leadZeros_eq_countP _),
      vecW_result fun l _ => congrArg (BitVec.ofNat 32) (popCount_eq_countP _), vecW_result fun _ _ => rfl,
      vecW_result fun l _ => congrArg (BitVec.ofInt 32) (clampI_eq_max_min (by decide) _)⟩
  case shifts =>
    intro A x n z pos len m
    have hpos (l : Nat) : fieldPos (s.span.vr b.toNat l) = pos l := fieldPos_eq _
    have hlen (l : Nat) : fieldLen (s.span.vr b.toNat l) = len l := fieldLen_eq _
    have hmask (l : Nat) : fieldMask (s.span.vr b.toNat l) = m l := congrArg (fun k => BitVec.ofNat 32 (2 ^ k - 1)) (hlen l)
    refine ⟨vecW_result fun l _ => congrArg (ite _ 0) (shiftLeft_eq_mul_pow _ _),
      vecW_result fun l _ => congrArg (ite _ 0) (ushiftRight_eq_div_pow _ _),
      vecW_result fun l _ => sshiftRight_min_width _ _, vecW_result fun l _ => ?extract, vecW_result fun l _ => ?insert,
      wordResult_done s s.lanes d _⟩
    case extract =>
      rw [← hpos, ← hlen]
      exact ushiftRight_and_fieldMask _ _
    case insert =>
      rw [← hpos, ← hmask]
  case compares =>
    intro A x y x2 y2
    refine ⟨vecCmp_result fun l => condS_eq_condHolds _ _ _, vecCmp_result fun l => condN_eq_condHolds _ _ _,
      vecCmp_result fun l => condS_eq_condHolds _ _ _, vecCmp_result fun l => condF_eq_floatHolds _ _ _,
      vecCmp_result fun l => condF_eq_floatHolds _ _ _, fun hc => ?reservedInt, fun hc => ?reservedFloat⟩
    case reservedInt =>
      have hno : decide (c.toNat ≤ 5) = false := decide_eq_false (by omega)
      exact ⟨hno, hno, congrArg (· && even7 a && even7 b) hno⟩
    case reservedFloat =>
      have hno : decide (c.toNat ≤ 7) = false := decide_eq_false (by omega)
      exact ⟨hno, congrArg (· && even7 a && even7 b) hno⟩

end Sys2Proof.Machine
end

section
/-!
PROOFS. Shuffles, lane numbers and running sums (08 R132, R133), and O6.
-/

namespace Sys2Proof.Machine

theorem lt_of_laneIn {S : Lanes} {l : Nat} (h : laneIn S l) : l < 32 := by
  by_contra hge
  rw [laneIn_ge S l (by omega)] at h
  cases h

/-! ## Shuffles (08 R132) -/

/-- Only lanes 0 to 31 are lanes of the issue set. -/
theorem shuffled_eq (s : State) (a : BitVec 7) (l : Nat) (m : Int) : shuffled s a l m =
    if 0 ≤ m ∧ laneIn s.lanes m.toNat then s.span.vr a.toNat m.toNat else s.span.vr a.toNat l := by
  refine if_congr (and_congr_right fun hm => and_iff_right_of_imp fun hin => ?_) rfl rfl
  have := lt_of_laneIn hin
  omega

theorem shuffle_result {s : State} {p : BitVec 3} {d a : BitVec 7} {src : Span → Nat → Int} {m : Nat → Int}
    (h : ∀ l, src s.span l = m l) : WordResult (shuffle p d a src s) s (s.active p) d (fun l => shuffled s a l (m l)) :=
  vecW_result fun l _ => by rw [← h, shuffled_eq]

/-! ## Running sums (08 R133) -/

theorem filter_le_range {n l : Nat} (h : l < n) : (List.range n).filter (fun m => decide (m ≤ l)) = List.range (l + 1) := by
  obtain ⟨k, rfl⟩ : ∃ k, n = l + 1 + k := ⟨n - (l + 1), by omega⟩
  rw [List.range_add, List.filter_append, List.filter_eq_self.2 (fun m hm => decide_eq_true (Nat.le_of_lt_succ (List.mem_range.1 hm))),
    List.filter_eq_nil_iff.2 (by simp; omega), List.append_nil]

/-- The lanes of S up to lane l. -/
theorem lanesOf_filter_le (S : Lanes) {l : Nat} (h : l < 32) :
    (lanesOf S).filter (fun m => decide (m ≤ l)) = (List.range (l + 1)).filter (fun m => laneIn S m) := by
  rw [lanesOf, List.filter_comm, filter_le_range h]

theorem foldl_add_eq_sum (f : Nat → Word) (xs : List Nat) : xs.foldl (fun x m => x + f m) 0 = (xs.map f).sum := by
  rw [List.sum_eq_foldl, List.foldl_map]

/-! ## O6 -/

/-- Settles O6: a shuffle gives each active lane what its rule's source lane holds; a running sum goes over the active lanes up to its own. -/
theorem vectorAcrossLanes : Obligations.VectorAcrossLanes := by
  intro s p d a b c A
  refine ⟨shuffle_result fun l => ?_, shuffle_result fun _ => rfl, shuffle_result fun _ => rfl, shuffle_result fun _ => rfl,
    shuffle_result fun _ => rfl, vecW_result fun _ _ => rfl, vecW_result fun l hl => ?_⟩
  · rw [BitVec.extractLsb'_toNat]; rfl
  · rw [lanesOf_filter_le _ (lt_of_laneIn hl), foldl_add_eq_sum]; rfl

end Sys2Proof.Machine
end

section
/-!
PROOFS. Vector floating point (08 R134, R135, R137): the lesser and the greater, the classes, and O7.
-/

namespace Sys2Proof.Machine

/-! ## The lesser and the greater (08 R135) -/

/-- A NaN operand gives the format's NaN. -/
theorem encode_fMinMax {n : Nat} (encode : FVal → BitVec n) (greater : Bool) (u v : FVal) :
    encode (fMinMax greater u v) = if u.isNan || v.isNan then encode .nan else encode (fMinMax greater u v) := by
  split
  · next h => exact congrArg encode (if_pos h)
  · rfl

/-! ## Classes (08 R137) -/

/-- The magnitude of a binary32 word is its exponent field above its fraction field. -/
theorem magnitude_eq_fields (x : Word) :
    (x.extractLsb' 0 31).toNat = 2 ^ 23 * (x.extractLsb' 23 8).toNat + (x.extractLsb' 0 23).toNat := by
  simp only [BitVec.extractLsb'_toNat, Nat.shiftRight_eq_div_pow]
  omega

/-- The classes by magnitude are the classes by fields. -/
theorem classF32_eq_classBits (x : Word) : classF32 x = classBits x := by
  have hmag := magnitude_eq_fields x
  have he : x.extractLsb' 23 8 = 0xFF#8 ↔ (x.extractLsb' 23 8).toNat = 255 := BitVec.toNat_inj.symm
  have he0 : x.extractLsb' 23 8 = 0 ↔ (x.extractLsb' 23 8).toNat = 0 := BitVec.toNat_inj.symm
  have hf0 : x.extractLsb' 0 23 = 0 ↔ (x.extractLsb' 0 23).toNat = 0 := BitVec.toNat_inj.symm
  have hlt := (x.extractLsb' 0 23).isLt
  unfold classF32 classBits
  dsimp only
  refine ite_congr (propext ?_) (fun _ => rfl) fun hnan => ite_congr (propext ?_) (fun _ => rfl) fun _ =>
    ite_congr (propext ?_) (fun _ => rfl) fun hnormal => ite_congr (propext ?_) (fun _ => rfl) fun _ => rfl
  all_goals simp only [ne_eq, he, he0, hf0] at *
  all_goals omega

/-! ## O7 -/

/-- Settles O7: each instruction rounds the exact result of the values read once, in every active lane. -/
theorem vectorFloats : Obligations.VectorFloats := by
  intro s p d a b A x y z x2 y2 z2 h
  exact ⟨vecW_result fun _ _ => rfl, vecW_result fun _ _ => rfl, vecW_result fun _ _ => rfl, vecW_result fun _ _ => rfl,
    vecW_result fun l _ => encode_fMinMax toF32 _ _ _, vecW_result fun l _ => encode_fMinMax toF32 _ _ _,
    vecP_result fun _ => rfl, vecP_result fun _ => rfl, vecP_result fun _ => rfl, vecP_result fun _ => rfl,
    vecP_result fun l => encode_fMinMax toF64 _ _ _, vecP_result fun l => encode_fMinMax toF64 _ _ _,
    vecW_result fun _ _ => rfl, vecW_result fun _ _ => rfl, vecW_result fun _ _ => rfl, vecW_result fun l _ => classF32_eq_classBits _⟩

end Sys2Proof.Machine
end

section
/-!
PROOFS. The transcendentals (08 R138): results with and without a pending counter, the special inputs, and O8.
-/

namespace Sys2Proof.Machine

/-! ## A result with an optional counter (04 R72, 05 R77) -/

/-- A change of the issuing span alone changes no byte of memory. -/
theorem OnlySpanAt.onlySpan {s t : State} (h : OnlySpanAt s t s.focus.g s.focus.sp) : OnlySpan s t := by
  obtain ⟨hrest, hgroups, hhere, hspans⟩ := h
  have hfocus : t.focus = s.focus := by rw [hrest]
  refine ⟨hrest, fun a => by rw [hrest]; rfl, hgroups, ?_, fun n hn => ?_⟩
  · rw [State.here, hfocus]; exact hhere
  · rw [State.here, hfocus]; exact hspans n hn

/-- An instruction completes after a change of the issuing span alone, which has become q. -/
theorem retired_of_onlySpanAt {s t : State} {q : Span} (h : OnlySpanAt s t s.focus.g s.focus.sp)
    (hq : t.spanAt s.focus.g s.focus.sp = q) : Retired s t.retire q := by
  have hfocus : t.focus = s.focus := by rw [h.1]
  refine ⟨h.onlySpan.trans (onlySpan_updSpan t _), ?_⟩
  rw [State.span_retire, State.span, State.lanes, hfocus, hq]; rfl

/-- A pending counter below 6 rises alone (05 R77). -/
theorem get_counter_rises (m : Store Nat) (c k : Nat) :
    Store.get 0 (if c < 6 then Store.upd 0 m c (fun v => v + 1) else m) k =
      if k = c ∧ k < 6 then Store.get 0 m k + 1 else Store.get 0 m k := by
  by_cases hc : c < 6
  · rw [if_pos hc, Store.get_upd]
    by_cases hk : k = c
    · subst hk; simp [hc]
    · simp [hk]
  · rw [if_neg hc, if_neg (fun h : k = c ∧ k < 6 => hc (h.1 ▸ h.2))]

section Counted

variable (s : State) {k : BitVec 3} {L : Lanes} {dests : List RegName} {ws : List RegWrite}

/-- Under a counter that can rise, the writes are outstanding. -/
theorem countedResult_counted (hk : k ≠ 7#3) (hlow : s.span.kc k.toNat < 63) : CountedResult (s.counted k L dests ws) s k L dests ws := by
  have hdone : s.counted k L dests ws = done (s.updSpan (fun sp => sp.addPending k.toNat L dests ws)) := by
    rw [State.counted, if_neg hk, if_neg (by omega)]
  have hspan : (s.updSpan (fun sp => sp.addPending k.toNat L dests ws)).retire.span =
      (s.span.addPending k.toNat L dests ws).movedOn s.lanes s.focus.next := by
    rw [State.span_retire, State.span_updSpan]; rfl
  refine ⟨_, hdone, ?_, fun n => ?_⟩
  · rw [hspan]
    exact retired_done s _
  · rw [hspan]
    exact get_counter_rises s.span.k k.toNat n

end Counted

/-- The writes of one register in the lanes of a list: what they give to lane l of register n. -/
theorem findSome_toLane_map (d : Nat) (x : Nat → Word) (xs : List Nat) (n l : Nat) :
    (xs.map (fun m => RegWrite.v d m (x m))).findSome? (RegWrite.toLane n l) = if n = d ∧ l ∈ xs then some (x l) else none := by
  induction xs with
  | nil => simp
  | cons m xs ih =>
    rw [List.map_cons, List.findSome?_cons, ih]
    by_cases hn : n = d
    · by_cases hm : l = m
      · subst hn hm; simp [RegWrite.toLane]
      · simp [RegWrite.toLane, hm, Ne.symm hm]
    · simp [RegWrite.toLane, hn, Ne.symm hn]

/-- The writes of one register in the lanes of a set are writes of single lanes. -/
theorem ofLane_of_mem_map {L : Lanes} {d : Nat} {x : Nat → Word} {w : RegWrite}
    (h : w ∈ (lanesOf L).map (fun l => RegWrite.v d l (x l))) : w.OfLane := by
  obtain ⟨l, hl, rfl⟩ := List.mem_map.1 h
  exact ⟨d, l, x l, rfl, ((mem_lanesOf L l).1 hl).1⟩

theorem RegWrite.OfLane.ne_t {w : RegWrite} (h : w.OfLane) (r off : Nat) (x : Byte) : w ≠ .t r off x := by
  obtain ⟨_, _, _, rfl, -⟩ := h
  exact nofun

/-- Without a counter, one register is written in the lanes of a set, none of which has ended (07 R114). -/
theorem wordResult_counted_none (s : State) {L : Lanes} {d : BitVec 7} {dests : List RegName} {x : Nat → Word}
    (halive : ∀ l, l < 32 → laneIn L l → (s.span.laneAt l).ended = false) :
    WordResult (s.counted 7#3 L dests ((lanesOf L).map (fun l => .v d.toNat l (x l)))) s L d x := by
  obtain ⟨honly, hspan⟩ := writeRegs_span s s.focus.g s.focus.sp ((lanesOf L).map (fun l => .v d.toNat l (x l)))
    (fun _ hw => (ofLane_of_mem_map hw).ne_t)
  obtain ⟨hrest, hvr⟩ := foldl_write1_ofLane s.span ((lanesOf L).map (fun l => .v d.toNat l (x l))) (fun _ hw => ofLane_of_mem_map hw)
  have hret := retired_of_onlySpanAt honly (hspan.trans hrest)
  refine ⟨_, if_pos rfl, ?_, fun n l hl => ?_⟩
  · rw [hret.2]
    exact hret
  · rw [hret.2, Span.movedOn_vr]
    refine (hvr n l hl).trans ?_
    have hin : (n = d.toNat ∧ l ∈ (lanesOf L).reverse) ↔ (d.toNat ≤ n ∧ n < d.toNat + 1 ∧ laneIn L l) := by
      rw [List.mem_reverse, mem_lanesOf]
      exact ⟨fun h => ⟨by omega, by omega, h.2.2⟩, fun h => ⟨by omega, hl, h.2.2⟩⟩
    rw [← List.map_reverse, findSome_toLane_map]
    by_cases hlane : laneIn L l
    · rw [halive l hl hlane, if_neg Bool.false_ne_true, apply_ite (Option.getD · _)]
      exact ite_congr (propext hin) (fun _ => rfl) (fun _ => rfl)
    · simp [hlane, mem_lanesOf]

/-! ## Transcendentals (08 R138) -/

section Transcendental

variable (s : State) (p : BitVec 3) (d a : BitVec 7) (k : BitVec 3) (f : FVal → FVal)

theorem vecTrans_result (hk : k = 7#3) (halive : ∀ l, l < 32 → laneIn (s.active p) l → (s.span.laneAt l).ended = false) :
    WordResult (vecTrans p d a k f s) s (s.active p) d (fun l => toF32 (f (f32Of (s.span.vr a.toNat l)))) := by
  subst hk
  exact wordResult_counted_none s halive

theorem vecTrans_counted (hk : k.toNat < 6) (hlow : s.span.kc k.toNat < 63) :
    CountedResult (vecTrans p d a k f s) s k (s.active p) [.v d.toNat]
      ((lanesOf (s.active p)).map (fun l => .v d.toNat l (toF32 (f (f32Of (s.span.vr a.toNat l)))))) :=
  countedResult_counted s (fun h => by rw [h] at hk; exact absurd hk (by decide)) hlow

end Transcendental

/-! ## Special inputs (08 R138) -/

/-- A binary32 word above the infinity of either sign is a NaN (06 R84). -/
theorem f32Of_of_nan {x : Word} (h : 0x7F800000 < (x &&& 0x7FFFFFFF#32).toNat) : f32Of x = .nan := by
  have hmag : (x &&& 0x7FFFFFFF#32).toNat = x.toNat % 2 ^ 31 := Nat.and_two_pow_sub_one_eq_mod x.toNat 31
  exact if_pos (hmag ▸ h)

/-! ## O8 -/

/-- Settles O8: without a counter the lanes are written, with one the results are outstanding; the special inputs are evaluated. -/
theorem vectorTranscendentals : Obligations.VectorTranscendentals := by
  refine ⟨fun s p d a k => ?_, ?special⟩
  · intro A both
    exact ⟨⟨vecTrans_result s p d a k fRcp, vecTrans_counted s p d a k fRcp⟩,
      ⟨vecTrans_result s p d a k fRsqrt, vecTrans_counted s p d a k fRsqrt⟩,
      ⟨vecTrans_result s p d a k fSqrt, vecTrans_counted s p d a k fSqrt⟩,
      ⟨vecTrans_result s p d a k fExp2, vecTrans_counted s p d a k fExp2⟩,
      ⟨vecTrans_result s p d a k fLog2, vecTrans_counted s p d a k fLog2⟩⟩
  case special =>
    intro f
    refine ⟨⟨rfl, rfl, rfl, rfl⟩, ⟨rfl, rfl, rfl, rfl, rfl⟩, ⟨rfl, rfl, rfl, rfl, rfl⟩, ⟨rfl, rfl, rfl, rfl⟩, ⟨rfl, rfl, rfl, rfl, rfl⟩,
      fun x hx => ?_⟩
    simp only [f, f32Of_of_nan hx]
    exact ⟨rfl, rfl, rfl, rfl, rfl⟩

end Sys2Proof.Machine
end

section
/-!
PROOFS. Conversions, byte packing, block scale, byte permutation and the binary8 dot product (08 R139-R143), and O9.
-/

namespace Sys2Proof.Machine

/-- Register i of a group put together from four words (05 R77). -/
theorem extractLsb'_group (f : Nat → Word) {i : Nat} (h : i < 4) :
    (f 3 ++ f 2 ++ f 1 ++ f 0 : BitVec 128).extractLsb' (32 * i) 32 = f i := by
  match i with
  | 0 => exact BitVec.extractLsb'_append_eq_right
  | 1 =>
    rw [BitVec.extractLsb'_append_eq_of_le (by decide)]
    exact BitVec.extractLsb'_append_eq_right
  | 2 =>
    rw [BitVec.extractLsb'_append_eq_of_le (by decide), BitVec.extractLsb'_append_eq_of_le (by decide)]
    exact BitVec.extractLsb'_append_eq_right
  | 3 =>
    rw [BitVec.extractLsb'_append_eq_of_le (by decide), BitVec.extractLsb'_append_eq_of_le (by decide)]
    exact BitVec.extractLsb'_append_eq_left

/-- Four words in each active lane. -/
theorem vecG_words_result {s : State} {p : BitVec 3} {d : BitVec 7} {g : Span → Nat → BitVec 128} {f : Nat → Nat → Word}
    (h : ∀ l, g s.span l = f 3 l ++ f 2 l ++ f 1 l ++ f 0 l) : VecResult (vecG p d g s) s (s.active p) d 4 f :=
  (groupResult_done s _ d g).congr fun i l hi _ => by rw [h, extractLsb'_group (f · l) hi]

/-- A conversion to a 64-bit format writes a pair, any other one register (08 R139). -/
theorem vcvt_wide {s : State} {p : BitVec 3} {d a : BitVec 7} {sat : BitVec 1} {rnd : BitVec 2} {df sf : BitVec 6}
    (h : code64 df = true) : execVcvt p d a sat rnd df sf s = vecP p d (fun sp l => destValue df (Rnd.of rnd) (sat == 1#1)
      (sourceValue sf (if code64 sf then sp.pair a.toNat l else (sp.vr a.toNat l).setWidth 64))) s := if_pos h

theorem vcvt_narrow {s : State} {p : BitVec 3} {d a : BitVec 7} {sat : BitVec 1} {rnd : BitVec 2} {df sf : BitVec 6}
    (h : code64 df = false) : execVcvt p d a sat rnd df sf s = vecW p d (fun sp l => (destValue df (Rnd.of rnd) (sat == 1#1)
      (sourceValue sf (if code64 sf then sp.pair a.toNat l else (sp.vr a.toNat l).setWidth 64))).setWidth 32) s :=
  if_neg (Bool.eq_false_iff.1 h)

/-- A scale byte of ones is a NaN; any other is an exponent with bias 127 (08 R141). -/
theorem scaleF32_eq (x y : Word) : scaleF32 x y = if y.extractLsb' 0 8 = 0xFF#8 then 0x7FC00000#32
    else toF32 ((f32Of x).scale ((y.extractLsb' 0 8).toNat - 127)) := by
  have hbits : bits y 7 0 = (y.extractLsb' 0 8).toNat := (BitVec.extractLsb'_toNat ..).symm
  rw [scaleF32, hbits]
  exact if_congr (BitVec.toNat_inj (y := 0xFF#8)) rfl rfl

/-- Which source byte a control byte names (08 R142). -/
theorem permBytes_eq (x c z : Word) : permBytes x c z =
    (let byte := fun i => let t := c.extractLsb' (8 * i) 8
      if t.getLsbD 7 then 0#8 else (z ++ x).extractLsb' (8 * (t.extractLsb' 0 3).toNat) 8
    byte 3 ++ byte 2 ++ byte 1 ++ byte 0) := rfl

/-! ## O9 -/

/-- Settles O9: each instruction writes the active lanes with the value that its rule gives. -/
theorem vectorConversions : Obligations.VectorConversions := by
  intro s p d a b sat rnd df sf f A x y z src cv pb ub
  refine ⟨fun h => ?wide, fun h => ?narrow, vecW_result fun _ _ => rfl, vecG_words_result fun _ => rfl,
    vecW_result fun l _ => scaleF32_eq _ _, vecW_result fun l _ => permBytes_eq _ _ _, vecW_result fun _ _ => rfl⟩
  case wide =>
    show PairResult (execVcvt p d a sat rnd df sf s) _ _ _ _
    rw [vcvt_wide h]
    exact vecP_result fun _ => rfl
  case narrow =>
    show WordResult (execVcvt p d a sat rnd df sf s) _ _ _ _
    rw [vcvt_narrow h]
    exact vecW_result fun _ _ => rfl

end Sys2Proof.Machine
end

section
/-!
PROOFS. Modular arithmetic and the butterflies (08 R144, R145): natural remainders as remainders of integers, and O10.
-/

namespace Sys2Proof.Machine

/-! ## Remainders of naturals and of integers -/

/-- A natural that is congruent to an integer modulo q has its remainder. -/
theorem ofNat_eq_ofInt_emod {n : Nat} {v q : Int} (h : (n : Int) = v % q) : BitVec.ofNat 64 n = BitVec.ofInt 64 (v % q) := by
  rw [← h, BitVec.ofInt_natCast]

theorem subMod_eq_emod {q : Nat} (hq : q ≠ 0) (x y : Nat) : (subMod q x y : Int) = ((x : Int) - y) % q := by
  have hlt : y % q < q := Nat.mod_lt y (Nat.pos_of_ne_zero hq)
  rw [subMod, Int.natCast_emod, Int.natCast_add, Nat.cast_sub hlt.le, Int.natCast_emod, Int.natCast_emod]
  calc ((x : Int) % q + (q - y % q)) % q = (x % q - y % q + q) % q := by ring_nf
    _ = (x % q - y % q) % q := Int.add_emod_right ..
    _ = (x - y) % q := (Int.sub_emod ..).symm

section Modular

variable {s : State} {p : BitVec 3} {d : BitVec 7} (hq : s.span.mq ≠ 0)
include hq

theorem modular_eq (f : Nat → Res) : modular s f = f s.span.mq.toNat := if_neg hq

theorem toNat_mq_ne_zero : s.span.mq.toNat ≠ 0 := fun h => hq (BitVec.eq_of_toNat_eq h)

end Modular

/-- A group is its lower pair and its upper one (05 R77). -/
theorem toNat_group (sp : Span) (r l : Nat) : (sp.group r l).toNat = (sp.pair r l).toNat + 2 ^ 64 * (sp.pair (r + 2) l).toNat := by
  rw [Span.group, BitVec.toNat_append, ← Nat.shiftLeft_add_eq_or_of_lt (sp.pair r l).isLt, Nat.shiftLeft_eq]
  ring

/-! ## O10 -/

/-- Settles O10: each result is the remainder that the integers modulo q give. -/
theorem vectorModular : Obligations.VectorModular := by
  intro s p d a b hmq A q P x w y R
  have hq : s.span.mq.toNat ≠ 0 := toNat_mq_ne_zero hmq
  refine ⟨?add, ?sub, ?mul, ?red, ?ct, ?gs⟩
  case add =>
    show PairResult (execVmodadd p d a b s) _ _ _ _
    rw [execVmodadd, modular_eq hmq]
    exact vecP_result fun l => ofNat_eq_ofInt_emod (by push_cast; rfl)
  case sub =>
    show PairResult (execVmodsub p d a b s) _ _ _ _
    rw [execVmodsub, modular_eq hmq]
    exact vecP_result fun l => ofNat_eq_ofInt_emod (subMod_eq_emod hq _ _)
  case mul =>
    show PairResult (execVmodmul p d a b s) _ _ _ _
    rw [execVmodmul, modular_eq hmq]
    exact vecP_result fun l => ofNat_eq_ofInt_emod (by push_cast; rfl)
  case red =>
    show PairResult (execVmodred p d a s) _ _ _ _
    rw [execVmodred, modular_eq hmq]
    exact vecP_result fun l => ofNat_eq_ofInt_emod (by rw [toNat_group]; push_cast; rfl)
  case ct =>
    show GroupResult (execVnttCt p d a b s) _ _ _ _
    rw [execVnttCt, modular_eq hmq]
    refine vecG_result fun l => congrArg₂ (· ++ ·) (ofNat_eq_ofInt_emod ?_) (ofNat_eq_ofInt_emod ?_)
    · rw [subMod_eq_emod hq, Int.natCast_emod, Int.sub_emod_emod]; push_cast; rfl
    · push_cast; rw [Int.add_emod_emod]; rfl
  case gs =>
    show GroupResult (execVnttGs p d a b s) _ _ _ _
    rw [execVnttGs, modular_eq hmq]
    refine vecG_result fun l => congrArg₂ (· ++ ·) (ofNat_eq_ofInt_emod ?_) (ofNat_eq_ofInt_emod ?_)
    · rw [Int.natCast_emod, Int.natCast_mul, subMod_eq_emod hq]
      exact (Int.mod_modEq _ _).mul_right _
    · push_cast; rfl

end Sys2Proof.Machine
end

section
/-!
PROOFS. Changes of the issuing workgroup (09 R153): what an instruction that changes it and completes leaves, the moves of bytes between tile
registers, and O11.
-/

namespace Sys2Proof.Machine

/-! ## A change of the issuing workgroup -/

section Here

variable (s : State) (f : Wg → Wg)

/-- The issuing workgroup once an instruction that has changed it is complete. -/
theorem here_retire_updHere : (s.updHere f).retire.here =
    (f s.here).updSpan s.focus.sp (fun sp => sp.movedOn s.lanes s.focus.next) := by
  have h : (s.updHere f).here = f s.here := State.wgAt_updWg_self ..
  rw [← h]
  exact State.wgAt_updWg_self ..

/-- An instruction changes the issuing workgroup, not its spans, and completes. -/
theorem hereRetired_done (hspan : (f s.here).span = s.here.span) : HereRetired s (s.updHere f).retire (f s.here) := by
  have hhere := here_retire_updHere s f
  have hat (n : Nat) : (f s.here).spanAt n = s.here.spanAt n := congrArg (fun m => Store.get Span.fresh m n) hspan
  refine ⟨rfl, fun _ => rfl, fun g hg => ?_, by rw [hhere]; rfl, fun n hn => ?_, ?_⟩
  · exact (State.wgAt_updWg_ne (s.updHere f) _ hg).trans (State.wgAt_updWg_ne s f hg)
  · rw [hhere, Wg.spanAt_updSpan, if_neg hn, hat]
  · show (s.updHere f).retire.here.spanAt s.focus.sp = _
    rw [hhere, Wg.spanAt_updSpan_self, hat]
    rfl

end Here

/-! ## Bytes of tile registers (09 R150) -/

/-- A position in row i of n rows of k lies below n · k. -/
theorem row_pos_lt {i n o k : Nat} (hi : i < n) (ho : o < k) : i * k + o < n * k :=
  calc i * k + o < i * k + k := Nat.add_lt_add_left ho _
    _ = (i + 1) * k := (Nat.succ_mul i k).symm
    _ ≤ n * k := Nat.mul_le_mul_right k hi

namespace Wg

/-- k bytes of tile register d from o on are those of f. -/
def putBytes (w : Wg) (d o k : Nat) (f : Nat → Byte) : Wg := (List.range k).foldl (fun a b => a.setTByte d (o + b) (f b)) w

/-- The first n elements of width k of tile register d are those of f. -/
def putElems (w : Wg) (d n k : Nat) (f : Nat → Nat → Byte) : Wg :=
  (List.range n).foldl (fun a i => a.putBytes d (i * k) k (f i)) w

theorem putBytes_succ (w : Wg) (d o k : Nat) (f : Nat → Byte) :
    w.putBytes d o (k + 1) f = (w.putBytes d o k f).setTByte d (o + k) (f k) := by
  rw [putBytes, List.range_succ, List.foldl_append]; rfl

theorem putElems_succ (w : Wg) (d n k : Nat) (f : Nat → Nat → Byte) :
    w.putElems d (n + 1) k f = (w.putElems d n k f).putBytes d (n * k) k (f n) := by
  rw [putElems, List.range_succ, List.foldl_append]; rfl

theorem putBytes_rest (w : Wg) (d o k : Nat) (f : Nat → Byte) : w.putBytes d o k f = { w with t := (w.putBytes d o k f).t } := by
  induction k with
  | zero => rfl
  | succ k ih => rw [putBytes_succ, ih]; rfl

theorem putElems_rest (w : Wg) (d n k : Nat) (f : Nat → Nat → Byte) :
    w.putElems d n k f = { w with t := (w.putElems d n k f).t } := by
  induction n with
  | zero => rfl
  | succ n ih => rw [putElems_succ, putBytes_rest, ih]

theorem get_putBytes (w : Wg) (d o k : Nat) (f : Nat → Byte) (x : Nat) : Store.get 0 (w.putBytes d o k f).t x =
    if 4096 * d + o ≤ x ∧ x < 4096 * d + o + k then f (x - (4096 * d + o)) else Store.get 0 w.t x := by
  induction k with
  | zero => rw [if_neg (by omega)]; rfl
  | succ k ih =>
    have hset : Store.get 0 (w.putBytes d o (k + 1) f).t x =
        if x = 4096 * d + (o + k) then f k else Store.get 0 (w.putBytes d o k f).t x := by
      rw [putBytes_succ]; exact Store.get_set ..
    rw [hset, ih]
    by_cases hx : x = 4096 * d + (o + k)
    · rw [if_pos hx, if_pos (by omega)]
      congr 1; omega
    · rw [if_neg hx]
      exact if_congr (by omega) rfl rfl

theorem tByte_putElems (w : Wg) (d n k : Nat) (f : Nat → Nat → Byte) {i o : Nat} (hi : i < n) (ho : o < k) :
    (w.putElems d n k f).tByte d (i * k + o) = f i o := by
  induction n with
  | zero => omega
  | succ n ih =>
    rw [tByte, putElems_succ, get_putBytes]
    by_cases hin : i = n
    · subst hin
      rw [if_pos (by omega)]
      congr 1; omega
    · have hlt : i < n := by omega
      have hbefore := row_pos_lt hlt ho
      rw [if_neg (by omega)]
      exact ih hlt

theorem get_putElems_outside (w : Wg) (d n k : Nat) (f : Nat → Nat → Byte) {x : Nat}
    (hx : x < 4096 * d ∨ 4096 * d + n * k ≤ x) : Store.get 0 (w.putElems d n k f).t x = Store.get 0 w.t x := by
  induction n with
  | zero => rfl
  | succ n ih =>
    have hsucc : (n + 1) * k = n * k + k := Nat.succ_mul n k
    rw [putElems_succ, get_putBytes, if_neg (by omega)]
    exact ih (by omega)

/-- Tile register d once its first size elements of width k have come from elements src of tile register n. -/
def moveElems (w : Wg) (d n size k : Nat) (src : Nat → Nat) : Wg := w.putElems d size k (fun i o => w.tByte n (src i * k + o))

/-- Bytes that have been cleared read zero. -/
theorem tByte_clearT (w : Wg) (lo hi m b : Nat) :
    (w.clearT lo hi).tByte m b = if lo ≤ 4096 * m + b ∧ 4096 * m + b < hi then 0 else w.tByte m b := by
  rw [tByte, clearT, Store.get_filter_key 0 (fun k => !(decide (lo ≤ k) && decide (k < hi)))]
  by_cases h : lo ≤ 4096 * m + b ∧ 4096 * m + b < hi
  · rw [if_pos h]; simp [h]
  · rw [if_neg h, if_pos (by simp; omega)]; rfl

end Wg

/-! ## Configuration and zeroing (09 R153) -/

section Configure

variable {s : State} {n : BitVec 4} (hn : n.toNat < s.tregsHere)
include hn

theorem exec_tcfgw {a : BitVec 6} (hx : s.span.sr a = 0 ∨ (tcV (s.span.sr a) = true ∧ tcfgLegal s.tregsHere n.toNat (s.span.sr a) = true)) :
    exec (.tcfgw n a) s = done (s.updHere (fun w => { w with tcfg := Store.set 0 w.tcfg n.toNat (s.span.sr a) })) := by
  show execTcfgw n a s = _
  rw [execTcfgw, if_neg (by omega)]
  rcases hx with hx | ⟨hv, hlegal⟩
  · simp [hx, tcV]
  · simp [hv, hlegal]

theorem exec_tcfgr (d : BitVec 7) :
    exec (.tcfgr d n) s = done (s.updSpan (fun sp => sp.mapPair s.lanes d.toNat (fun _ => s.here.cfg n.toNat))) :=
  if_neg (by omega)

theorem exec_tzero (habs : s.here.absorbed n.toNat = false) : exec (.tzero n) s = done (s.updHere (fun w => w.clearT (4096 * n.toNat)
    (4096 * n.toNat + (if tcV (s.here.cfg n.toNat) && tcPR (s.here.cfg n.toNat) then 8192 else 4096)))) := by
  have hname : s.tNameable n = true := by simp [State.tNameable, hn, habs]
  exact if_neg (by simp [hname])

end Configure

/-! ## Moves between tile registers (09 R159) -/

/-- What a legal move leaves: element i of D is element src i of S, every other byte of the tile registers is as it was. -/
theorem tileMove_result {s : State} {d n : BitVec 4} {ok : Dword → Dword → Bool} (src : Dword → Dword → Nat → Nat)
    (hd : s.tUsable d = true) (hn : s.tUsable n = true) :
    let x := s.here.cfg d.toNat
    let y := s.here.cfg n.toNat
    let w := tcW x
    tcW y = w → ok x y = true → ∃ t, tileMove d n ok src s = .next t ∧ HereRetired s t { s.here with t := t.here.t } ∧
      (∀ i o, i < tcRows x * tcCols x → o < w → t.here.tByte d.toNat (i * w + o) = s.here.tByte n.toNat (src x y i * w + o)) ∧
      ∀ k, k < 4096 * d.toNat ∨ 4096 * d.toNat + tcRows x * tcCols x * w ≤ k → Store.get 0 t.here.t k = Store.get 0 s.here.t k := by
  intro x y w hw hok
  let move (a : Wg) : Wg := a.moveElems d.toNat n.toNat (tcRows x * tcCols x) w (src x y)
  have hnext : tileMove d n ok src s = .next (s.updHere move).retire := by
    refine if_neg ?_
    have hok' : ok (s.here.cfg d.toNat) (s.here.cfg n.toNat) = true := hok
    have hw' : tcW (s.here.cfg n.toNat) = tcW (s.here.cfg d.toNat) := hw
    simp [hd, hn, hok', hw']
  have hrest : move s.here = { s.here with t := (move s.here).t } := Wg.putElems_rest ..
  have ht : (s.updHere move).retire.here.t = (move s.here).t := by rw [here_retire_updHere]; rfl
  have hret := hereRetired_done s move (by rw [hrest])
  refine ⟨_, hnext, ?_, fun i o hi ho => ?_, fun k hk => ?_⟩
  · rw [ht, ← hrest]; exact hret
  · rw [Wg.tByte, ht]; exact Wg.tByte_putElems s.here _ _ _ _ hi ho
  · rw [ht]; exact Wg.get_putElems_outside s.here _ _ _ _ hk

/-! ## O11 -/

/-- Settles O11: tcfgw, tcfgr and tzero by what they write; a move by where each element comes from. -/
theorem tileConfiguration : Obligations.TileConfiguration := by
  refine ⟨fun s n a d hn => ?configure, fun s d n hd hu => ?move⟩
  case configure =>
    intro x c
    refine ⟨fun hx => ?tcfgw, ?tcfgr, fun habs => ?tzero⟩
    case tcfgw =>
      have hhere := here_retire_updHere s (fun w => { w with tcfg := Store.set 0 w.tcfg n.toNat x })
      refine ⟨_, exec_tcfgw hn hx, ?_, fun m => ?_⟩
      · rw [hhere]; exact hereRetired_done s _ rfl
      · rw [hhere]; exact Store.get_set ..
    case tcfgr =>
      rw [exec_tcfgr hn]
      exact pairResult_done s s.lanes d (fun _ _ => c)
    case tzero =>
      have hhere := here_retire_updHere s (fun w => w.clearT (4096 * n.toNat) (4096 * n.toNat + (if tcV c && tcPR c then 8192 else 4096)))
      refine ⟨_, exec_tzero hn habs, ?_, fun m b hb => ?_⟩
      · rw [hhere]; exact hereRetired_done s _ rfl
      · rw [hhere]
        refine (Wg.tByte_clearT ..).trans (if_congr ?_ rfl rfl)
        by_cases hpair : tcV c = true ∧ tcPR c = true
        · rw [if_pos (by simp [hpair])]
          simp only [hpair, and_true]; omega
        · rw [if_neg (by simpa using hpair)]
          simp only [hpair, and_false, or_false]; omega
  case move =>
    intro x y w hw
    refine ⟨fun hsize => ?plain, fun hrows hcols => ?transposed⟩
    case plain =>
      exact tileMove_result (ok := fun x y => tcRows x * tcCols x == tcRows y * tcCols y) (fun _ _ i => i) hd hu hw (beq_iff_eq.2 hsize)
    case transposed =>
      obtain ⟨t, hnext, hret, hmoved, hkept⟩ := tileMove_result (fun x y i => i % tcCols x * tcCols y + i / tcCols x) hd hu
        (ok := fun x y => tcRows x == tcCols y && tcCols x == tcRows y) hw (by
          show (tcRows x == tcCols y && tcCols x == tcRows y) = true
          simp [hrows, hcols])
      refine ⟨t, hnext, hret, fun r c o hr hc ho => ?_, hkept⟩
      have hcol : (r * tcCols x + c) % tcCols x = c := Nat.mul_add_mod_of_lt hc
      have hrow : (r * tcCols x + c) / tcCols x = r := by
        rw [Nat.mul_comm, Nat.mul_add_div (by omega), Nat.div_eq_of_lt hc, Nat.add_zero]
      rw [hmoved (r * tcCols x + c) o (row_pos_lt hr hc) ho, hcol, hrow]

end Sys2Proof.Machine
end

section
/-!
PROOFS. The matrix instructions (09 R160-R168): what a legal one answers, the writes of its accumulators, integer and modular elements as sums
of products, and O14.
-/

namespace Sys2Proof.Machine

/-! ## Results of several registers without a counter (04 R72) -/

theorem RegWrite.toLane_eq_some {a : RegWrite} {n l : Nat} {x : Word} : a.toLane n l = some x ↔ a = .v n l x := by
  cases a with
  | v => simp [RegWrite.toLane, and_assoc]
  | s | t => simp [RegWrite.toLane]

/-- Writes that all give a register's lane one value give it that value. -/
theorem findSome_toLane_of_mem {ws : List RegWrite} {n l : Nat} {x : Word} (hx : .v n l x ∈ ws) (hone : ∀ y, .v n l y ∈ ws → y = x) :
    ws.findSome? (RegWrite.toLane n l) = some x := by
  cases hfind : ws.findSome? (RegWrite.toLane n l) with
  | none => simpa [RegWrite.toLane] using List.findSome?_eq_none_iff.1 hfind _ hx
  | some y =>
    obtain ⟨w, hw, hwy⟩ := List.exists_of_findSome?_eq_some hfind
    rw [RegWrite.toLane_eq_some] at hwy
    rw [hone y (hwy ▸ hw)]

theorem findSome_toLane_of_not_mem {ws : List RegWrite} {n l : Nat} (h : ∀ x, .v n l x ∉ ws) :
    ws.findSome? (RegWrite.toLane n l) = none :=
  List.findSome?_eq_none_iff.2 fun _ hw => Option.eq_none_iff_forall_ne_some.2 fun x hx =>
    h x (RegWrite.toLane_eq_some.1 hx ▸ hw)

/-- Without a counter, registers are written at once in the lanes of a set, none of which has ended (07 R114). -/
theorem vecResult_counted_none (s : State) {L S : Lanes} {d : BitVec 7} {w : Nat} {dests : List RegName} {ws : List RegWrite}
    {f : Nat → Nat → Word} (hof : ∀ a ∈ ws, a.OfLane)
    (hmem : ∀ n l x, .v n l x ∈ ws ↔ (d.toNat ≤ n ∧ n < d.toNat + w ∧ laneIn L l) ∧ x = f (n - d.toNat) l)
    (halive : ∀ l, l < 32 → laneIn L l → (s.span.laneAt l).ended = false) :
    VecResult (s.counted 7#3 S dests ws) s L d w f := by
  obtain ⟨honly, hspan⟩ := writeRegs_span s s.focus.g s.focus.sp ws (fun a ha => (hof a ha).ne_t)
  obtain ⟨hrest, hvr⟩ := foldl_write1_ofLane s.span ws hof
  have hret := retired_of_onlySpanAt honly (hspan.trans hrest)
  refine ⟨_, if_pos rfl, ?_, fun n l hl => ?_⟩
  · rw [hret.2]
    exact hret
  · rw [hret.2, Span.movedOn_vr]
    refine (hvr n l hl).trans ?_
    by_cases hin : d.toNat ≤ n ∧ n < d.toNat + w ∧ laneIn L l
    · rw [findSome_toLane_of_mem (x := f (n - d.toNat) l) (List.mem_reverse.2 ((hmem ..).2 ⟨hin, rfl⟩))
        (fun y hy => ((hmem ..).1 (List.mem_reverse.1 hy)).2), halive l hl hin.2.2, if_neg Bool.false_ne_true, if_pos hin]
      rfl
    · rw [findSome_toLane_of_not_mem (fun x hx => hin ((hmem ..).1 (List.mem_reverse.1 hx)).1), if_neg hin]
      exact ite_self _

/-! ## Accumulators (09 R161, R163) -/

/-- What accumulator register i of lane l gets from the elements of its quarter (09 R163). -/
def mmaWord (wide : Bool) (elem : Nat → Nat → Nat → Dword) (i l : Nat) : Word :=
  if wide then (elem (l / 8) (i / 2) (l % 8)).extractLsb' (32 * (i % 2)) 32 else (elem (l / 8) i (l % 8)).setWidth 32

/-- The writes of an element, as the instruction makes them. -/
def elemWrites (wide : Bool) (v : BitVec 7) (elem : Nat → Nat → Nat → Dword) (e : Nat × Nat × Nat) : List RegWrite :=
  if wide then
    [.v (v.toNat + 2 * e.2.1) (8 * e.1 + e.2.2) ((elem e.1 e.2.1 e.2.2).setWidth 32),
      .v (v.toNat + 2 * e.2.1 + 1) (8 * e.1 + e.2.2) ((elem e.1 e.2.1 e.2.2).extractLsb' 32 32)]
  else [.v (v.toNat + e.2.1) (8 * e.1 + e.2.2) ((elem e.1 e.2.1 e.2.2).setWidth 32)]

/-- The elements listed quarter by quarter, those of lanes that have ended left out, give the writes in order. -/
theorem flatMap_elemWrites (s : State) (wide : Bool) (v : BitVec 7) (elem : Nat → Nat → Nat → Dword) :
    ((((List.range 4).filter (quarterIn s)).flatMap (fun q => (List.range 64).map (fun i => (q, i / 8, i % 8)))).filter
      (fun e => laneIn s.span.alive (8 * e.1 + e.2.2))).flatMap (elemWrites wide v elem) = mmaWrites s wide v elem := by
  simp only [List.filter_flatMap, List.flatMap_assoc, List.filter_map, List.flatMap_map, mmaWrites, elemWrites,
    BitVec.setWidth_eq_extractLsb' (show 32 ≤ 64 by decide)]
  rfl

section Writes

variable (s : State) (wide : Bool) (v : BitVec 7) (elem : Nat → Nat → Nat → Dword)

theorem laneIn_mmaLanes {l : Nat} (hl : l < 32) : laneIn (mmaLanes s) l = (quarterIn s (l / 8) && laneIn s.span.alive l) :=
  laneIn_lanesWhere _ l hl

theorem mmaLanes_alive {l : Nat} (hl : l < 32) (h : laneIn (mmaLanes s) l) : (s.span.laneAt l).ended = false := by
  rw [laneIn_mmaLanes s hl, Bool.and_eq_true, Span.alive, laneIn_lanesWhere _ l hl, Bool.not_eq_true'] at h
  exact h.2

/-- How many registers one accumulator element takes (09 R163). -/
def mmaRegs (wide : Bool) : Nat := if wide then 2 else 1

theorem mmaRegs_eight : (if wide then 16 else 8) = 8 * mmaRegs wide := by cases wide <;> rfl

theorem mmaRegs_pos : 0 < mmaRegs wide := by cases wide <;> decide

theorem mmaWord_narrow {q c : Nat} (hc : c < 8) (r : Nat) : mmaWord false elem r (8 * q + c) = (elem q r c).extractLsb' 0 32 := by
  rw [mmaWord, if_neg Bool.false_ne_true, show (8 * q + c) / 8 = q by omega, show (8 * q + c) % 8 = c by omega,
    BitVec.setWidth_eq_extractLsb' (by decide)]

theorem mmaWord_wide {q c j : Nat} (hc : c < 8) (hj : j < 2) (r : Nat) :
    mmaWord true elem (2 * r + j) (8 * q + c) = (elem q r c).extractLsb' (32 * j) 32 := by
  rw [mmaWord, if_pos rfl, show (8 * q + c) / 8 = q by omega, show (8 * q + c) % 8 = c by omega, show (2 * r + j) / 2 = r by omega,
    show (2 * r + j) % 2 = j by omega]

/-- The writes of element (r, c) of quarter q are those of its registers. -/
theorem elemWrites_eq_map (q r : Nat) {c : Nat} (hc : c < 8) : elemWrites wide v elem (q, r, c) =
    (List.range (mmaRegs wide)).map (fun j =>
      .v (v.toNat + (mmaRegs wide * r + j)) (8 * q + c) (mmaWord wide elem (mmaRegs wide * r + j) (8 * q + c))) := by
  have hset : (elem q r c).setWidth 32 = (elem q r c).extractLsb' 0 32 := BitVec.setWidth_eq_extractLsb' (by decide)
  cases wide with
  | false => simp [elemWrites, mmaRegs, hset, mmaWord_narrow elem hc]
  | true =>
    have hlow : mmaWord true elem (2 * r) (8 * q + c) = (elem q r c).extractLsb' 0 32 := mmaWord_wide elem hc (j := 0) (by decide) r
    have hhigh : mmaWord true elem (2 * r + 1) (8 * q + c) = (elem q r c).extractLsb' 32 32 := mmaWord_wide elem hc (by decide) r
    simp [elemWrites, mmaRegs, List.range_succ, hset, hlow, hhigh, Nat.add_assoc]

/-- Each write is of a register of a lane of a quarter that takes part. -/
theorem mem_mmaWrites (a : RegWrite) : a ∈ mmaWrites s wide v elem ↔ ∃ i l, i < (if wide then 16 else 8) ∧ l < 32 ∧
    laneIn (mmaLanes s) l ∧ a = .v (v.toNat + i) l (mmaWord wide elem i l) := by
  rw [mmaRegs_eight, ← flatMap_elemWrites]
  simp only [List.mem_flatMap, List.mem_filter, List.mem_map, List.mem_range]
  constructor
  · rintro ⟨_, ⟨⟨q, ⟨hq, hquarter⟩, i, hi, rfl⟩, halive⟩, ha⟩
    rw [elemWrites_eq_map wide v elem q (i / 8) (Nat.mod_lt i (by decide))] at ha
    obtain ⟨j, hj, rfl⟩ := List.mem_map.1 ha
    rw [List.mem_range] at hj
    refine ⟨_, _, ?_, by omega, ?_, rfl⟩
    · rw [Nat.mul_comm (mmaRegs wide)]
      exact row_pos_lt (by omega) hj
    · rw [laneIn_mmaLanes s (by omega), halive, show (8 * q + i % 8) / 8 = q by omega, hquarter]; rfl
  · rintro ⟨i, l, hi, hl, hin, rfl⟩
    rw [laneIn_mmaLanes s hl, Bool.and_eq_true] at hin
    obtain ⟨hquarter, halive⟩ := hin
    have hr : i / mmaRegs wide < 8 := (Nat.div_lt_iff_lt_mul (mmaRegs_pos wide)).2 hi
    have hlane : 8 * (l / 8) + l % 8 = l := Nat.div_add_mod l 8
    refine ⟨(l / 8, i / mmaRegs wide, l % 8), ⟨⟨l / 8, ⟨by omega, hquarter⟩, 8 * (i / mmaRegs wide) + l % 8, by omega, ?_⟩, ?_⟩, ?_⟩
    · rw [show (8 * (i / mmaRegs wide) + l % 8) / 8 = i / mmaRegs wide by omega, show (8 * (i / mmaRegs wide) + l % 8) % 8 = l % 8 by omega]
    · rwa [hlane]
    · rw [elemWrites_eq_map wide v elem (l / 8) _ (Nat.mod_lt _ (by decide)), List.mem_map]
      refine ⟨i % mmaRegs wide, List.mem_range.2 (Nat.mod_lt i (mmaRegs_pos wide)), ?_⟩
      rw [hlane, Nat.div_add_mod]

theorem ofLane_of_mem_mmaWrites {a : RegWrite} (h : a ∈ mmaWrites s wide v elem) : a.OfLane := by
  obtain ⟨i, l, -, hl, -, rfl⟩ := (mem_mmaWrites s wide v elem a).1 h
  exact ⟨_, _, _, rfl, hl⟩

theorem v_mem_mmaWrites (n l : Nat) (x : Word) : .v n l x ∈ mmaWrites s wide v elem ↔
    (v.toNat ≤ n ∧ n < v.toNat + (if wide then 16 else 8) ∧ laneIn (mmaLanes s) l) ∧ x = mmaWord wide elem (n - v.toNat) l := by
  rw [mem_mmaWrites]
  constructor
  · rintro ⟨i, k, hi, hk, hlane, h⟩
    obtain ⟨rfl, rfl, rfl⟩ := RegWrite.v.inj h
    exact ⟨⟨by omega, by omega, hlane⟩, by rw [Nat.add_sub_cancel_left]⟩
  · rintro ⟨⟨hlo, hhi, hlane⟩, rfl⟩
    have hl : l < 32 := Nat.lt_of_not_le fun h => by rw [laneIn_ge _ l h] at hlane; cases hlane
    exact ⟨n - v.toNat, l, by omega, hl, hlane, by rw [Nat.add_sub_cancel' hlo]⟩

end Writes

/-! ## Records (17 R306, 09 R168) -/

/-- Changes that leave the trace alone different leave it alone different one after the other. -/
theorem foldl_traced {α : Type} (f : State → α → State) (hf : ∀ s x, f s x = s.traced (f s x)) (xs : List α) (s : State) :
    xs.foldl f s = s.traced (xs.foldl f s) := by
  induction xs generalizing s with
  | nil => rfl
  | cons x xs ih =>
    rw [List.foldl_cons, ih, hf s x]; rfl

/-- s with the trace of t, and the last quarters that the issuing workgroup has in t. -/
def State.mmaBase (s t : State) : State := (s.traced t).updHere (fun w => { w with mmaLast := t.here.mmaLast })

theorem State.span_mmaBase (s t : State) : (s.mmaBase t).span = s.span := by
  show ((s.traced t).updHere _).here.spanAt s.focus.sp = _
  rw [State.here, State.updHere, updWg_focus, wgAt_updWg_self]
  rfl

/-- Only the trace and the last quarters of the issuing workgroup differ between s and u. -/
def MmaRecorded (s u : State) : Prop := u = s.mmaBase u

theorem mmaRecorded_updHere {s u : State} (hu : u = s.traced u) (f : Store Nat → Store Nat) :
    MmaRecorded s (u.updHere (fun w => { w with mmaLast := f w.mmaLast })) := by
  have hhere : (u.updHere (fun w => { w with mmaLast := f w.mmaLast })).here = { u.here with mmaLast := f u.here.mmaLast } :=
    State.wgAt_updWg_self ..
  rw [MmaRecorded, State.mmaBase, hhere]
  show _ = (s.traced u).updHere _
  rw [← hu]
  rfl

/-- A count and a record change the trace alone. -/
theorem count_emitWg_traced (s : State) (core i n typ unit g sp : Nat) (w3 : Dword) :
    (s.count core i n).emitWg typ unit g sp w3 = s.traced ((s.count core i n).emitWg typ unit g sp w3) := rfl

theorem mmaRecorded_mmaRecords (F : MmaForm) (s : State) (bs tA tB tM : Nat) : MmaRecorded s (mmaRecords F s bs tA tB tM) := by
  unfold mmaRecords
  extract_lets qs own fused s1
  exact mmaRecorded_updHere (foldl_traced _ (fun a q => count_emitWg_traced ..) qs s)
    (fun m => qs.foldl (fun m q => Store.set 0 m (4 * s.focus.sp + q) (fuseKey F s bs tB q)) m)

section Recorded

variable {s u t : State} (h : MmaRecorded s u)
include h

theorem MmaRecorded.span : u.span = s.span := (congrArg State.span h).trans (s.span_mmaBase u)

/-- A change of the issuing span alone hides nothing of it. -/
theorem MmaRecorded.mmaBase_eq (ht : OnlySpan u t) : s.mmaBase t = u := by
  have hlast : t.here.mmaLast = u.here.mmaLast := by rw [ht.here]
  rw [State.mmaBase, hlast, ht.rest]
  exact h.symm

end Recorded

/-! ## What a legal matrix instruction answers (09 R160-R163) -/

section Legal

variable {F : MmaForm} {k : BitVec 3} {bs : BitVec 2} {tA tB tM : BitVec 4} {s : State} (hlegal : mmaLegal F s bs tA tB tM) (v : BitVec 7)
  (elem : Nat → Nat → Nat → Dword)
include hlegal

theorem mma_of_legal (hk : k = 7#3 ∨ s.span.kc k.toNat < 63) : mma F k bs tA tB tM v elem s =
    (mmaRecords F s bs.toNat tA.toNat tB.toNat tM.toNat).counted k s.lanes (vN (if F.wide then 16 else 8) v) (mmaWrites s F.wide v elem) := by
  obtain ⟨hA, hB, hM, hgeo, hsplit⟩ := hlegal
  have hsp : (F.sp && !s.tUsable tM) = false := by
    cases hF : F.sp with
    | false => rfl
    | true => rw [hM hF]; rfl
  have hany : (List.range 4).any (quarterSplit s) = false :=
    List.any_eq_false.2 fun q hq => by rw [hsplit q (List.mem_range.1 hq)]; exact Bool.false_ne_true
  have hwait : ¬(63 ≤ s.span.kc k.toNat ∧ k ≠ 7#3) := fun h => hk.elim h.2 (by omega)
  rw [mma, if_neg (by rw [hA, hB, hsp, hgeo, hany]; decide), ← flatMap_elemWrites]
  exact if_neg hwait

/-- Every form writes its accumulator elements, at once or under its counter; the records and the last quarters change besides. -/
theorem mma_result : MmaResult (mma F k bs tA tB tM v elem s) s F.wide k v elem := by
  have hrec := mmaRecorded_mmaRecords F s bs.toNat tA.toNat tB.toNat tM.toNat
  refine ⟨fun hk => ?_, fun hk hlow => ?_⟩
  · subst hk
    obtain ⟨t, hnext, ⟨honly, hspan⟩, hvr⟩ := vecResult_counted_none (mmaRecords F s bs.toNat tA.toNat tB.toNat tM.toNat) (S := s.lanes)
      (dests := vN (if F.wide then 16 else 8) v)
      (fun a ha => ofLane_of_mem_mmaWrites s F.wide v elem ha) (v_mem_mmaWrites s F.wide v elem)
      (fun l hl hin => by rw [hrec.span]; exact mmaLanes_alive s hl hin)
    refine ⟨t, (mma_of_legal hlegal v elem (.inl rfl)).trans hnext, ?_⟩
    show VecLeaves (s.mmaBase t) t _ _ _ _
    rw [hrec.mmaBase_eq honly]
    exact ⟨⟨honly, hspan⟩, hvr⟩
  · have hne : k ≠ 7#3 := by rintro rfl; exact absurd hk (by decide)
    obtain ⟨t, hnext, ⟨honly, hspan⟩, hkc⟩ := countedResult_counted (mmaRecords F s bs.toNat tA.toNat tB.toNat tM.toNat) hne
      (L := s.lanes) (dests := vN (if F.wide then 16 else 8) v) (ws := mmaWrites s F.wide v elem) (by rw [hrec.span]; exact hlow)
    refine ⟨t, (mma_of_legal hlegal v elem (.inr hlow)).trans hnext, ?_⟩
    show Outstanding (s.mmaBase t) t _ _ _ _
    rw [hrec.mmaBase_eq honly]
    exact ⟨⟨honly, hspan⟩, hkc⟩

/-- The same with the elements in the terms of a rule. -/
theorem mma_result_of_eq {elem elem' : Nat → Nat → Nat → Dword} (h : ∀ q r c, elem q r c = elem' q r c) :
    MmaResult (mma F k bs tA tB tM v elem s) s F.wide k v elem' := by
  obtain rfl : elem = elem' := funext fun q => funext fun r => funext fun c => h q r c
  exact mma_result hlegal v elem

end Legal

/-! ## Integer and modular elements (09 R164, 06 R96) -/

theorem foldl_add_eq_add_sum {α M : Type} [AddMonoid M] (f : α → M) (xs : List α) (c : M) :
    xs.foldl (fun a x => a + f x) c = c + (xs.map f).sum := by
  rw [← List.foldl_map]
  exact List.foldl_eq_apply_foldr

/-- The row of A that gives row r of quarter q (09 R162). -/
def mmaRow (a : Dword) (q r : Nat) : Nat := (if tcRows a = 32 then 8 * q else 0) + r
/-- The column of B that gives column c of quarter q (09 R162). -/
def mmaCol (b : Dword) (q c : Nat) : Nat := (if tcCols b = 32 then 8 * q else 0) + c

/-- An element as an integer: signed in format 0 (06 R83). -/
def intElem (x : Dword) (n : Nat) : Int := if tcFmt x = 0 then (BitVec.ofNat 8 n).toInt else n

section Exact

variable {F : MmaForm} (s : State) (bs tA tB v q r c : Nat) (hsp : F.sp = false)
include hsp

/-- A dense block has 32 terms: term i takes column 32 bs + i of A and that row of B. -/
theorem foldl_mmaTerms_dense {M : Type} [AddMonoid M] (w : Wg) (tM : Nat) (f : Nat × Nat × Nat × Nat → M) (x : M) :
    (mmaTerms F w bs tA tB tM q r c).foldl (fun x jt => jt.2.foldl (fun a t => a + f t) x) x =
      x + ((List.range 32).map (fun i => f (mmaRow (w.cfg tA) q r, 32 * bs + i, 32 * bs + i, mmaCol (w.cfg tB) q c))).sum := by
  rw [mmaTerms, hsp, if_neg Bool.false_ne_true, List.foldl_cons, List.foldl_nil, foldl_add_eq_add_sum, List.map_map]
  rfl

theorem mmaInt_dense (hwide : F.wide = false) : mmaInt F s bs tA tB v q r c =
    (BitVec.ofInt 32 (((s.span.vr (v + r) (8 * q + c)).toNat : Int) + ((List.range 32).map (fun i =>
      intElem (s.here.cfg tA) (s.here.tElem tA (mmaRow (s.here.cfg tA) q r) (32 * bs + i)) *
        intElem (s.here.cfg tB) (s.here.tElem tB (32 * bs + i) (mmaCol (s.here.cfg tB) q c)))).sum)).setWidth 64 := by
  have hacc : (mmaAcc F s.span v q r c).toNat = (s.span.vr (v + r) (8 * q + c)).toNat := by
    rw [mmaAcc, hwide, if_neg Bool.false_ne_true, BitVec.toNat_setWidth_of_le (by decide)]
  rw [← hacc]
  exact congrArg (fun x => (BitVec.ofInt 32 x).setWidth 64) (foldl_mmaTerms_dense bs tA tB q r c hsp s.here 0 _ _)

theorem mmaResidue_dense (hwide : F.wide = true) : mmaResidue F s bs tA tB v q r c =
    BitVec.ofNat 64 (((s.span.pair (v + 2 * r) (8 * q + c)).toNat + ((List.range 32).map (fun i =>
      s.here.tElem tA (mmaRow (s.here.cfg tA) q r) (32 * bs + i) *
        s.here.tElem tB (32 * bs + i) (mmaCol (s.here.cfg tB) q c))).sum) % s.span.mq.toNat) := by
  have hacc : mmaAcc F s.span v q r c = s.span.pair (v + 2 * r) (8 * q + c) := by rw [mmaAcc, hwide, if_pos rfl]
  rw [← hacc]
  exact congrArg (fun x => BitVec.ofNat 64 (x % s.span.mq.toNat)) (foldl_mmaTerms_dense bs tA tB q r c hsp s.here 0 _ _)

end Exact

/-! ## O14 -/

/-- Settles O14: a legal form writes its elements; those of integers and residues are sums over one dense block. -/
theorem matrixMultiply : Obligations.MatrixMultiply := by
  refine ⟨fun s k bs tA tB tM v vA vB => ?floating, fun s k bs tA tB v => ?exact⟩
  case floating =>
    intro go
    exact ⟨fun h => mma_result h v _, fun h => mma_result h v _, fun h => mma_result h v _, fun h => mma_result h v _,
      fun h => mma_result h v _, fun h => mma_result h v _, fun h => mma_result h v _, fun h => mma_result h v _⟩
  case exact =>
    intro a b ra cb A B sg
    refine ⟨fun h => ?integers, fun hmq h => ?residues⟩
    case integers => exact mma_result_of_eq h v fun q r c => mmaInt_dense s _ _ _ _ q r c rfl rfl
    case residues =>
      have hmma : exec (.mmaMod k bs tB tA v) s = mma ⟨0x19, fun f => f == 0x0E, false, false, true⟩ k bs tA tB 0 v _ s := if_neg hmq
      rw [hmma]
      exact mma_result_of_eq h v fun q r c => mmaResidue_dense s _ _ _ _ q r c rfl rfl

end Sys2Proof.Machine
end

section
/-!
PROOFS. The answer to a load that another device sends (11 R212, 15 R281): what every span reads after it, in the canonical form, and O48, which
says it without the canonical form.
-/

namespace Sys2Proof.Store

/-- In the canonical form a change of every listed value that keeps the default is read at every key. -/
theorem get_mapVals_of_wf {α : Type} [DecidableEq α] (d : α) (f : Nat → α → α) (m : Store α) (hw : wf d m = true) (k : Nat) (hd : f k d = d) :
    get d (mapVals d f m) k = f k (get d m k) := by
  rw [wf_iff] at hw
  obtain ⟨hord, -⟩ := hw
  induction m with
  | nil => exact hd.symm
  | cons e m ih =>
    obtain ⟨hlt, hord⟩ := List.pairwise_cons.1 hord
    have hcons : mapVals d f (e :: m) = if f e.1 e.2 = d then mapVals d f m else (e.1, f e.1 e.2) :: mapVals d f m := by
      unfold mapVals
      rw [List.filterMap_cons]
      split <;> simp_all
    rw [hcons, get_cons]
    by_cases hk : k = e.1
    · have hrest : get d m k = d := get_of_not_mem d m k fun x hx => by have := hlt x hx; omega
      rw [if_pos hk]
      subst hk
      split
      · next hv => rw [ih hord, hrest, hd, hv]
      · simp [get_cons]
    · rw [if_neg hk]
      split
      · exact ih hord
      · rw [get_cons, if_neg hk, ih hord]

end Sys2Proof.Store

namespace Sys2Proof.Machine

/-! ## The answer to a load -/

/-- A span after the answer x to the request with a tag: each request that it has sent under the tag to another pod's memory has the answer. -/
def Span.loadAnswered (tag : Nat) (x : Answer) (sp : Span) : Span :=
  { sp with memWait := sp.memWait.map (fun w => { w with sent := w.sent.map (fun y =>
      if 2 ^ 58 ≤ y.line ∧ y.req = tag then { y with resp := some x } else y) }) }

/-- The spans of a workgroup after it. -/
def Wg.loadAnswered (tag : Nat) (x : Answer) (w : Wg) : Wg :=
  { w with span := Store.mapVals Span.fresh (fun _ => Span.loadAnswered tag x) w.span }

/-- In the canonical form every span is read with its answers: a fresh one, which no entry lists, has none to take. -/
theorem State.spanAt_answerLoad (s : State) (hs : Canonical s) (tag : Nat) (x : Answer) (g k : Nat) :
    (s.answerLoad tag x).spanAt g k = (s.spanAt g k).loadAnswered tag x := by
  have hg : (s.answerLoad tag x).wgAt g = (s.wgAt g).loadAnswered tag x :=
    Store.get_mapVals_of_wf Wg.none (fun _ => Wg.loadAnswered tag x) s.wg hs.wg g rfl
  rw [State.spanAt, hg]
  exact Store.get_mapVals_of_wf Span.fresh (fun _ => Span.loadAnswered tag x) (s.wgAt g).span (hs.span g) k rfl

/-- What the acknowledgement of the oldest kept packet answers, where it brings the answer to a load. -/
theorem exec_remoteAck_load (s : State) (r : RemoteReq) (code : Byte) (kind : Nat) (stamp : Dword) (data : List Byte)
    (hr : s.remote.head? = some r) :
    exec (.remoteAck ⟨r.tag, code, kind, stamp, .load data⟩) s =
      .next (({ s with remote := s.remote.filter (fun x => x.tag != r.tag) }.congested r).answerLoad r.tag
        (if code = 0 then .bytes data else .err kind)) := by
  obtain ⟨rs, hrs⟩ : ∃ rs, s.remote = r :: rs := List.head?_eq_some_iff.1 hr
  have hfind : s.remote.find? (fun x => x.tag == r.tag) = some r := by simp [hrs]
  show execRemoteAck _ s = _
  unfold execRemoteAck
  rw [hfind]

theorem State.congested_rest (s : State) (r : RemoteReq) : s.congested r = { s with congestion := (s.congested r).congestion } := by
  unfold State.congested
  split <;> rfl

/-- The clause of O48 that speaks of a load's answer holds of every state in the canonical form. -/
theorem remoteAck_load_of_canonical (s : State) (hs : Canonical s) (r : RemoteReq) (code : Byte) (kind : Nat) (stamp : Dword)
    (data : List Byte) (hr : s.remote.head? = some r) :
    ∃ t, exec (.remoteAck ⟨r.tag, code, kind, stamp, .load data⟩) s = .next t ∧
      t.remote = s.remote.filter (fun x => x.tag ≠ r.tag) ∧ t.mem = s.mem ∧
      ∀ g k, t.spanAt g k = (s.spanAt g k).loadAnswered r.tag (if code = 0 then .bytes data else .err kind) := by
  refine ⟨_, exec_remoteAck_load s r code kind stamp data hr, ?_⟩
  rw [State.congested_rest]
  refine ⟨?_, rfl, State.spanAt_answerLoad _ ⟨hs.mem, hs.cache, hs.wg, hs.span⟩ _ _⟩
  exact List.filter_congr fun x _ => by rw [Bool.eq_iff_iff]; simp

/-! ## O48 -/

/-- A kept load of one byte. -/
def keptLoad : RemoteReq :=
  { tag := 0, die := 0, scaleOut := false, paddock := 0, serial := 0, core := 0, ordinal := 0, addr := 0, size := 1, counts := false
    packet := { job := 0, rank := 0, region := 0, off := 0, key := 0, peer := 0, tag := 0, kind := .read 1 } }

/-- The state after reset with a kept load, whose workgroups are no canonical collection: key 0 is listed twice, first with the default, which
is what is read there, then with a workgroup whose span 0 has s1 = 1. -/
def listedTwice : State := { State.reset with
  remote := [keptLoad], wg := [(0, Wg.none), (0, { Wg.none with span := [(0, { Span.fresh with s := [(1, 1)] })] })] }

/-- Refutes O48: its clause on the answer to a load is said of every state, the canonical form not asked for. In a state that lists a workgroup's
key twice, the default first, the answer takes the default entry out, and span 0 of workgroup 0 reads s1 = 1 where it read 0. Of canonical
states the clause holds: remoteAck_load_of_canonical. -/
theorem not_remoteTraffic : ¬ Obligations.RemoteTraffic := by
  unfold Obligations.RemoteTraffic
  rintro ⟨-, hack⟩
  obtain ⟨-, hkept⟩ := hack listedTwice keptLoad 0 0 0 []
  obtain ⟨-, -, -, ⟨t, ht, -, -, hspan⟩, -⟩ := hkept rfl
  have hread : (t.spanAt 0 0).s = (listedTwice.spanAt 0 0).s := congrArg Span.s (hspan 0 0)
  obtain rfl := Host.Outcome.next.inj ((exec_remoteAck_load listedTwice keptLoad 0 0 0 [] rfl).symm.trans ht)
  exact absurd hread (by decide)

end Sys2Proof.Machine
end

section
/-!
PROOFS. The checks of an address (11 R186), what an access answers all of whose lanes fail them, and O57.
-/

namespace Sys2Proof.Machine

/-! ## One address (11 R186, 15 R273, 10 R180) -/

section Address

variable (s : State) (core pkn asid size : Nat) {align : Nat} {a : Dword} (acc : State.Access) (priv page : Bool)

theorem checkAddr_misaligned (h : a.toNat % align ≠ 0) :
    s.checkAddr core pkn asid a size align acc priv page = (s, .error 0x03) := if_pos h

theorem checkAddr_noncanonical (hal : a.toNat % align = 0) (h63 : a.getLsbD 63 = false) (h : bits a 62 48 ≠ 0) :
    s.checkAddr core pkn asid a size align acc priv page = (s, .error 0x04) := by
  unfold State.checkAddr
  rw [if_neg (not_not.2 hal), if_pos (by rw [h63]; simpa using h)]

/-- A rank that does not resolve is code 0C. -/
theorem checkAddr_rankMiss (hal : a.toNat % align = 0) (h63 : a.getLsbD 63 = true) {s1 : State}
    (h : s.resolve core pkn (bits a 62 41) = (s1, none)) :
    s.checkAddr core pkn asid a size align acc priv page = (s1, .error 0x0C) := by
  unfold State.checkAddr
  rw [if_neg (not_not.2 hal), if_neg (by simp [h63]), if_pos h63, h]

section Resolved

variable (hal : a.toNat % align = 0) (h63 : a.getLsbD 63 = true) {s1 : State} {p : State.Place}
  (h : s.resolve core pkn (bits a 62 41) = (s1, some p))

include hal h63 h

theorem checkAddr_far (hpod : p.pod ≠ s1.podId) :
    s.checkAddr core pkn asid a size align acc priv page = (s1, .ok (.far 2)) := by
  have hsc : s1.scopeOf p = 2 := if_neg hpod
  unfold State.checkAddr
  rw [if_neg (not_not.2 hal), if_neg (by simp [h63]), if_pos h63, h]
  simp [hsc]

theorem checkAddr_peer (hpod : p.pod = s1.podId) (hslot : p.group ≠ s1.groupId ∨ p.slot ≠ s1.slotId) :
    s.checkAddr core pkn asid a size align acc priv page = (s1,
      if s1.podRefuses (s1.pk pkn).cfg.job a then .error 0x0A else .ok (.phys (s1.podTarget (s1.pk pkn).cfg.job a p) none)) := by
  have hsc : s1.scopeOf p = 1 := by
    unfold State.scopeOf
    rw [if_pos hpod, if_neg (by tauto)]
  unfold State.checkAddr
  rw [if_neg (not_not.2 hal), if_neg (by simp [h63]), if_pos h63, h]
  dsimp only
  rw [hsc, if_neg Nat.one_ne_zero, if_pos rfl]
  split <;> rfl

theorem checkAddr_unowned (hpod : p.pod = s1.podId) (hgroup : p.group = s1.groupId) (hslot : p.slot = s1.slotId)
    (hown : s1.ownerLaunch (s1.pk pkn).cfg.job (bits a 62 41) = none) :
    s.checkAddr core pkn asid a size align acc priv page = (s1, .error 0x06) := by
  have hsc : s1.scopeOf p = 0 := by
    unfold State.scopeOf
    rw [if_pos hpod, if_pos ⟨hgroup, hslot⟩]
  unfold State.checkAddr
  rw [if_neg (not_not.2 hal), if_neg (by simp [h63]), if_pos h63, h]
  simp [hsc, State.windowTarget, hown]

end Resolved

/-- A canonical local address has no bit above its 48. -/
theorem local_bits (h : a.toNat < 2 ^ 48) : a.getLsbD 63 = false ∧ bits a 62 48 = 0 ∧ bits a 47 0 = a.toNat := by
  refine ⟨?_, ?_, ?_⟩
  · exact Nat.testBit_lt_two_pow (Nat.lt_trans h (by decide))
  · unfold bits
    rw [Nat.shiftRight_eq_div_pow, Nat.div_eq_of_lt h, Nat.zero_mod]
  · unfold bits
    rw [Nat.shiftRight_zero]
    exact Nat.mod_eq_of_lt h

/-- What the translation of a local address says of it. -/
def localTarget : State.Look Xlat → State.Look State.Target
  | .ok x => .ok (.phys x none)
  | .wait n => .wait n
  | .fail k n => .fail k n
  | .error c => .error c

/-- A local address is checked by its translation. -/
theorem checkAddr_local (h : a.toNat < 2 ^ 48) (hal : a.toNat % align = 0) :
    s.checkAddr core pkn asid a size align acc priv page =
      ((s.translate core asid a.toNat acc priv page).1, localTarget (s.translate core asid a.toNat acc priv page).2) := by
  obtain ⟨h63, h48, h47⟩ := local_bits h
  unfold State.checkAddr
  rw [if_neg (not_not.2 hal), if_neg (by simp [h48]), if_neg (h63 ▸ Bool.false_ne_true), h47]
  rcases s.translate core asid a.toNat acc priv page with ⟨s1, _ | _ | _ | _⟩ <;> rfl

end Address

/-! ## Exceptions (04 R74) -/

/-- The values of the lanes of a set make its map. -/
theorem laneMap_congr {α : Type} [DecidableEq α] (d : α) {F : Lanes} {f g : Nat → α} (h : ∀ l ∈ lanesOf F, f l = g l) :
    State.laneMap d F f = State.laneMap d F g :=
  List.foldl_ext _ _ _ fun _ l hl => by rw [h l hl]

/-- An exception depends on the codes and addresses of its own lanes. -/
theorem raiseL_congr (s : State) {F : Lanes} {c c' : Nat → Byte} {tv tv' : Nat → Dword} (hc : ∀ l ∈ lanesOf F, c l = c' l)
    (htv : ∀ l ∈ lanesOf F, tv l = tv' l) : s.raiseL F c tv = s.raiseL F c' tv' := by
  unfold State.raiseL
  rw [laneMap_congr 0 hc, laneMap_congr 0 htv]

/-- The lanes of a list of faults made from a set are that set. -/
theorem faultSet_map (S : Lanes) (c : Nat → Byte) : State.faultSet ((lanesOf S).map fun l => (l, c l)) = S := by
  refine lanes_ext fun l hl => ?_
  rw [State.faultSet, laneIn_lanesWhere _ _ hl, Bool.eq_iff_iff]
  simp [mem_lanesOf, hl]

/-- What a list made from the lanes of a set gives for one of them. -/
theorem find_lane_map {α : Type} {xs : List Nat} {l : Nat} (f : Nat → α) (h : l ∈ xs) :
    (xs.map fun n => (n, f n)).find? (fun e => e.1 == l) = some (l, f l) := by
  induction xs with
  | nil => cases h
  | cons x xs ih =>
    rw [List.map_cons, List.find?_cons]
    by_cases hx : x = l
    · subst hx; simp
    · rw [beq_eq_false_iff_ne.2 hx]
      exact ih ((List.mem_cons.1 h).resolve_left (Ne.symm hx))

theorem find_lane_map_none {α : Type} {xs : List Nat} {l : Nat} (f : Nat → α) (h : l ∉ xs) :
    (xs.map fun n => (n, f n)).find? (fun e => e.1 == l) = none := by
  rw [List.find?_eq_none]
  intro e he
  obtain ⟨n, hn, rfl⟩ := List.mem_map.1 he
  simpa using fun hnl : n = l => h (hnl ▸ hn)

theorem faultCode_map {S : Lanes} {c : Nat → Byte} {l : Nat} (h : l ∈ lanesOf S) :
    State.faultCode ((lanesOf S).map fun l => (l, c l)) l = c l := by
  rw [State.faultCode, find_lane_map c h]
  rfl

/-- The address of a lane as an access that has begun at this step has read it. -/
theorem laneAt'_map {S : Lanes} {addr : Nat → Dword} {a : State.Acc'} (h : a.addrs = (lanesOf S).map fun l => (l, addr l)) (l : Nat) :
    State.laneAt' a addr l = addr l := by
  rw [State.laneAt', h]
  by_cases hl : l ∈ lanesOf S
  · rw [find_lane_map addr hl]; rfl
  · rw [find_lane_map_none addr hl]; rfl

/-! ## The checks of every lane (11 R186) -/

/-- Checks that change nothing are those of each lane. -/
theorem checkLanes_of_stable {s : State} {S : Lanes} {addr : Nat → Dword} {size align : Nat} {acc : State.Access} {page : Bool}
    {f : Nat → State.Look State.Target}
    (h : ∀ l ∈ lanesOf S, s.checkAddr s.here.core s.here.paddock s.asid (addr l) size align acc s.privileged page = (s, f l)) :
    s.checkLanes S addr size align acc page = (s, (lanesOf S).map fun l => (l, f l)) := by
  have key : ∀ (xs : List Nat) (ts : List (Nat × State.Look State.Target)),
      (∀ l ∈ xs, s.checkAddr s.here.core s.here.paddock s.asid (addr l) size align acc s.privileged page = (s, f l)) →
      xs.foldl (fun (a : State × List (Nat × State.Look State.Target)) l =>
        let (s', t) := a.1.checkAddr s.here.core s.here.paddock s.asid (addr l) size align acc s.privileged page
        (s', a.2 ++ [(l, t)])) (s, ts) = (s, ts ++ xs.map fun l => (l, f l)) := by
    intro xs
    induction xs with
    | nil => intro ts _; simp
    | cons x xs ih =>
      intro ts hx
      rw [List.foldl_cons, hx x (by simp)]
      dsimp only
      rw [ih _ fun l hl => hx l (List.mem_cons_of_mem _ hl)]
      simp
  exact key _ [] h

theorem no_farCode {S : Lanes} {c : Nat → Byte} (hc : ∀ l ∈ lanesOf S, c l ≠ 0x0A) :
    (((lanesOf S).map fun l => (l, c l)).filter fun b => b.2 == 0x0A#8) = [] := by
  rw [List.filter_eq_nil_iff]
  intro e he
  obtain ⟨l, hl, rfl⟩ := List.mem_map.1 he
  simpa using hc l hl

/-- An access that begins, all of whose lanes fail their checks with codes that no other device gives, keeps those codes and has no
line. -/
theorem start_of_errors {s : State} {S : Lanes} {addr : Nat → Dword} {arg : Dword} {size : Nat} {acc : State.Access}
    {far : List (Nat × Nat) → State.Acc' → Nat × Nat → State.Acc'} {c : Nat → Byte} (hprog : s.memProg = none)
    (hbad : ∀ l ∈ lanesOf S, s.checkAddr s.here.core s.here.paddock s.asid (addr l) size size acc s.privileged false = (s, .error (c l)))
    (hc : ∀ l ∈ lanesOf S, c l ≠ 0x0A) :
    s.start S addr arg size acc far =
      (⟨s, (lanesOf S).map (fun l => (l, c l)), [], [], arg, (lanesOf S).map (fun l => (l, addr l)), []⟩, [], []) := by
  have hts := checkLanes_of_stable (S := S) hbad
  unfold State.start
  simp only [hprog, hts]
  simp [State.farLanes, State.physLanes, State.badLanes, State.failLanes, State.walkWaits, State.linesOf, List.filterMap_map,
    Function.comp_def, no_farCode hc]

theorem memOver_of_none {s : State} (h : s.memProg = none) : s.memOver = s := by
  unfold State.memOver
  rw [h]

theorem addrOr_of_none {s : State} (h : s.memProg = none) (addr : Nat → Dword) : s.addrOr addr = addr := by
  funext l
  unfold State.addrOr
  rw [h]

theorem counterFull_eq_false {s : State} {k : BitVec 3} (h : k = 7#3 ∨ (k.toNat < 6 ∧ s.span.kc k.toNat < 63)) :
    s.counterFull k = false := by
  unfold State.counterFull
  rcases h with rfl | ⟨-, h⟩
  · rfl
  · simp [Nat.not_le.2 h]

/-! ## Accesses all of whose lanes fail -/

section Failing

variable {s : State} {addr : Nat → Dword} {c : Nat → Byte} {arg : Dword}

/-- What an access has come to when all its lanes have failed their checks. -/
def failedAcc (s : State) (addr : Nat → Dword) (c : Nat → Byte) (arg : Dword) : State.Acc' :=
  ⟨s, (lanesOf s.lanes).map (fun l => (l, c l)), [], [], arg, (lanesOf s.lanes).map (fun l => (l, addr l)), []⟩

theorem raiseL_failedAcc : s.raiseL (State.faultSet (failedAcc s addr c arg).bad) (State.faultCode (failedAcc s addr c arg).bad)
    (State.laneAt' (failedAcc s addr c arg) addr) = s.raiseL s.lanes c addr := by
  rw [show (failedAcc s addr c arg).bad = (lanesOf s.lanes).map fun l => (l, c l) from rfl, faultSet_map]
  exact raiseL_congr s (fun l hl => faultCode_map hl) (fun l _ => laneAt'_map rfl l)

theorem finish_failedAcc (hprog : s.memProg = none) (ps : State.Phys) :
    State.finish (failedAcc s addr c arg, ps) addr = .next (s.raiseL s.lanes c addr) := by
  unfold State.finish
  rw [if_neg (by simp [failedAcc]), show (failedAcc s addr c arg).s = s from rfl, memOver_of_none hprog, raiseL_failedAcc]

theorem finishCounted_failedAcc (hprog : s.memProg = none) (ps : State.Phys) (k : BitVec 3) (dests : List RegName)
    (wr : Nat → Nat → List RegWrite) :
    State.finishCounted (failedAcc s addr c arg, ps) addr k dests wr = .next (s.raiseL s.lanes c addr) := by
  have hok : s.lanes &&& ~~~(State.faultSet (failedAcc s addr c arg).bad) = 0 := by
    rw [show (failedAcc s addr c arg).bad = (lanesOf s.lanes).map fun l => (l, c l) from rfl, faultSet_map]
    exact BitVec.and_not_self _
  unfold State.finishCounted
  dsimp only
  rw [if_neg (by simp [failedAcc]), show (failedAcc s addr c arg).s = s from rfl, memOver_of_none hprog, if_pos hok,
    show (failedAcc s addr c arg).vals = [] from rfl, List.flatMap_nil, show s.writeRegs s.focus.g s.focus.sp [] = s from rfl,
    ite_self, raiseL_failedAcc]

variable {size : Nat} {acc : State.Access} (hprog : s.memProg = none) (hc : ∀ l, c l ≠ 0x0A)

include hprog hc

theorem doLoad_of_errors {m : MemMod}
    (hbad : ∀ l ∈ lanesOf s.lanes, s.checkAddr s.here.core s.here.paddock s.asid (addr l) size size .read s.privileged false = (s, .error (c l))) :
    s.doLoad s.lanes m size addr = (failedAcc s addr c 0, []) := by
  unfold State.doLoad
  dsimp only
  rw [addrOr_of_none hprog, start_of_errors hprog hbad (fun l _ => hc l)]
  rfl

section Write

variable (hbad : ∀ l ∈ lanesOf s.lanes,
  s.checkAddr s.here.core s.here.paddock s.asid (addr l) size size .write s.privileged false = (s, .error (c l)))

include hbad

theorem doStore_of_errors {m : MemMod} {val : Dword → Nat → Nat} :
    s.doStore s.lanes m size addr arg val = (failedAcc s addr c arg, []) := by
  unfold State.doStore
  dsimp only
  rw [addrOr_of_none hprog, start_of_errors hprog hbad (fun l _ => hc l)]
  rfl

theorem doAmo_of_errors {m : MemMod} {red : Bool} {req : Nat → Nat → AmoReq} :
    s.doAmo s.lanes m red size addr req = (failedAcc s addr c 0, []) := by
  unfold State.doAmo
  dsimp only
  rw [addrOr_of_none hprog, start_of_errors hprog hbad (fun l _ => hc l)]
  rfl

end Write

theorem doDred_of_errors {op : BitVec 3} {q : Dword} {val : Nat → Dword}
    (hbad : ∀ l ∈ lanesOf s.lanes,
      s.checkAddr s.here.core s.here.paddock s.asid (addr l) (dtagWidth ⟨op, q⟩) (dtagWidth ⟨op, q⟩) .write s.privileged false =
        (s, .error (c l))) :
    s.doDred s.lanes op q addr val = (failedAcc s addr c q, []) := by
  unfold State.doDred
  dsimp only
  rw [addrOr_of_none hprog, start_of_errors hprog hbad (fun l _ => hc l)]
  rfl

theorem doCache_of_errors {m : MemMod} {k : CacheOp} (hk : k ≠ .discard)
    (hbad : ∀ l ∈ lanesOf s.lanes, s.checkAddr s.here.core s.here.paddock s.asid (addr l) 1 1 .read s.privileged false = (s, .error (c l))) :
    s.doCache m k addr = (failedAcc s addr c 0, []) := by
  have hts := checkLanes_of_stable (S := s.lanes) hbad
  unfold State.doCache
  simp only [hprog, beq_eq_false_iff_ne.2 hk, hts]
  simp [State.physLanes, State.badLanes, State.failLanes, State.walkWaits, State.linesOf, List.filterMap_map, Function.comp_def,
    no_farCode (fun l _ => hc l), failedAcc]

end Failing

/-! ## Instructions all of whose lanes fail -/

section Instructions

variable {s : State} {c : Nat → Byte} (i d : BitVec 7) (b : BitVec 6) (m : MemMod) (hprog : s.memProg = none) (hc : ∀ l, c l ≠ 0x0A)

include hprog hc

theorem load_of_errors {size : Nat} {k : BitVec 3} (sx : Bool) (hk : k = 7#3 ∨ (k.toNat < 6 ∧ s.span.kc k.toNat < 63))
    (hbad : ∀ l ∈ lanesOf s.lanes, s.checkAddr s.here.core s.here.paddock s.asid (s.laneAddr b i m.off l) size size .read s.privileged false =
      (s, .error (c l))) : load size sx k i b d m s = .next (s.raiseL s.lanes c (s.laneAddr b i m.off)) := by
  unfold load
  dsimp only
  rw [counterFull_eq_false hk, if_neg Bool.false_ne_true, doLoad_of_errors hprog hc hbad, finishCounted_failedAcc hprog]

theorem cache_of_errors {k : CacheOp} (hk : k ≠ .discard)
    (hbad : ∀ l ∈ lanesOf s.lanes, s.checkAddr s.here.core s.here.paddock s.asid (s.laneAddr b i m.off l) 1 1 .read s.privileged false =
      (s, .error (c l))) :
    State.finish (s.doCache m k (s.laneAddr b i m.off)) (s.laneAddr b i m.off) = .next (s.raiseL s.lanes c (s.laneAddr b i m.off)) := by
  rw [doCache_of_errors hprog hc hk hbad, finish_failedAcc hprog]

section Write

variable {size : Nat} (hbad : ∀ l ∈ lanesOf s.lanes,
  s.checkAddr s.here.core s.here.paddock s.asid (s.laneAddr b i m.off l) size size .write s.privileged false = (s, .error (c l)))

include hbad

theorem store_of_errors : store size i b d m s = .next (s.raiseL s.lanes c (s.laneAddr b i m.off)) := by
  unfold store
  dsimp only
  rw [doStore_of_errors hprog hc hbad, finish_failedAcc hprog]

theorem amo_of_errors {k : BitVec 3} (hk : k = 7#3 ∨ (k.toNat < 6 ∧ s.span.kc k.toNat < 63)) {op : AmoOp} (hop : State.amoSize op = size) :
    amo op k i b d m s = .next (s.raiseL s.lanes c (s.laneAddr b i m.off)) := by
  subst hop
  unfold amo
  dsimp only
  rw [counterFull_eq_false hk, if_neg Bool.false_ne_true, doAmo_of_errors hprog hc hbad, finishCounted_failedAcc hprog]

theorem red_of_errors {op : AmoOp} (hop : State.amoSize op = size) :
    red op i b d m s = .next (s.raiseL s.lanes c (s.laneAddr b i m.off)) := by
  subst hop
  unfold red
  dsimp only
  rw [doAmo_of_errors hprog hc hbad, finish_failedAcc hprog]

theorem dred_of_errors {op : BitVec 3} {q : Dword} {val : Nat → Dword} (hop : dtagWidth ⟨op, q⟩ = size) :
    dred op q val i b m s = .next (s.raiseL s.lanes c (s.laneAddr b i m.off)) := by
  subst hop
  unfold dred
  dsimp only
  rw [doDred_of_errors hprog hc hbad, finish_failedAcc hprog]

end Write

/-- An amo.fadd.f32 that no lane performs leaves no mark (11 R196). -/
theorem amoFadd_of_errors {k : BitVec 3} (hk : k = 7#3 ∨ (k.toNat < 6 ∧ s.span.kc k.toNat < 63))
    (hbad : ∀ l ∈ lanesOf s.lanes, s.checkAddr s.here.core s.here.paddock s.asid (s.laneAddr b i m.off l) 4 4 .write s.privileged false =
      (s, .error (c l))) : execAmoFaddF32 k i b d m s = .next (s.raiseL s.lanes c (s.laneAddr b i m.off)) := by
  unfold execAmoFaddF32
  dsimp only
  rw [counterFull_eq_false hk, if_neg Bool.false_ne_true, doAmo_of_errors hprog hc hbad,
    show faddMarks s (failedAcc s (s.laneAddr b i m.off) c 0, []) = (failedAcc s (s.laneAddr b i m.off) c 0, []) from if_pos (.inl rfl),
    finishCounted_failedAcc hprog]

end Instructions

/-! ## Scalar accesses (11 R192) -/

theorem lowLane_lt (s : State) : s.lowLane < 32 := by
  unfold State.lowLane
  cases h : lanesOf s.lanes with
  | nil => decide
  | cons l ls => exact ((mem_lanesOf s.lanes l).1 (h ▸ List.mem_cons_self ..)).1

/-- The set of one lane. -/
theorem lanesOf_twoPow {n : Nat} (h : n < 32) : lanesOf (BitVec.twoPow 32 n) = [n] := by
  refine List.perm_singleton.1 ((List.perm_ext_iff_of_nodup (nodup_lanesOf _) (List.nodup_singleton n)).2 fun l => ?_)
  rw [mem_lanesOf, List.mem_singleton, laneIn, BitVec.getLsbD_twoPow, Bool.and_eq_true, decide_eq_true_eq, decide_eq_true_eq]
  exact ⟨fun hl => hl.2.2.symm, by rintro rfl; exact ⟨h, h, rfl⟩⟩

section Scalar

variable {s : State} {e : Byte} {a arg : Dword} (hprog : s.memProg = none) (he : e ≠ 0x0A)

/-- What a scalar access has come to that has failed its checks. -/
def failedScalar (s : State) (a : Dword) (e : Byte) (arg : Dword) : State.Acc' :=
  ⟨s, [(s.lowLane, e)], [], [], arg, [(s.lowLane, a)], []⟩

/-- A scalar access whose address fails its checks raises the code on every lane. -/
theorem raise_failedScalar : (failedScalar s a e arg).s.raise s.lanes (State.faultCode (failedScalar s a e arg).bad s.lowLane)
    (fun _ => State.laneAt' (failedScalar s a e arg) (fun _ => a) s.lowLane) = s.raiseAll e a := by
  have hcode : State.faultCode (failedScalar s a e arg).bad s.lowLane = e := by simp [State.faultCode, failedScalar]
  have haddr : State.laneAt' (failedScalar s a e arg) (fun _ => a) s.lowLane = a := by simp [State.laneAt', failedScalar]
  rw [hcode, haddr]
  rfl

include hprog he

/-- A scalar access whose address fails its checks keeps the code and has no line. -/
theorem start_scalar_of_error {acc : State.Access} {far : List (Nat × Nat) → State.Acc' → Nat × Nat → State.Acc'}
    (hbad : s.checkAddr s.here.core s.here.paddock s.asid a 8 8 acc s.privileged false = (s, .error e)) :
    s.start (oneLane s) (fun _ => a) arg 8 acc far = (failedScalar s a e arg, [], []) := by
  have h := start_of_errors (S := oneLane s) (addr := fun _ => a) (arg := arg) (far := far) (c := fun _ => e) hprog
    (fun _ _ => hbad) (fun _ _ => he)
  rw [h, oneLane, lanesOf_twoPow (lowLane_lt s)]
  rfl

theorem sld64_of_error {k : BitVec 3} {b d : BitVec 6} {m : MemMod} (hk : k = 7#3 ∨ (k.toNat < 6 ∧ s.span.kc k.toNat < 63))
    (hbad : s.checkAddr s.here.core s.here.paddock s.asid (scalarAddr b m s) 8 8 .read s.privileged false = (s, .error e)) :
    execSld64 k b d m s = .next (s.raiseAll e (scalarAddr b m s)) := by
  have hload : s.doLoad (oneLane s) m 8 (fun _ => scalarAddr b m s) = (failedScalar s (scalarAddr b m s) e 0, []) := by
    unfold State.doLoad
    dsimp only
    rw [addrOr_of_none hprog, start_scalar_of_error hprog he hbad]
    rfl
  unfold execSld64
  dsimp only
  rw [hload, counterFull_eq_false hk, if_neg Bool.false_ne_true, if_neg (by simp [failedScalar]), if_pos (by simp [failedScalar]),
    show (failedScalar s (scalarAddr b m s) e 0).s.memOver = (failedScalar s (scalarAddr b m s) e 0).s from memOver_of_none hprog,
    raise_failedScalar]

theorem sst64_of_error {b r : BitVec 6} {m : MemMod}
    (hbad : s.checkAddr s.here.core s.here.paddock s.asid (scalarAddr b m s) 8 8 .write s.privileged false = (s, .error e)) :
    execSst64 b r m s = .next (s.raiseAll e (scalarAddr b m s)) := by
  have hstore : s.doStore (oneLane s) m 8 (fun _ => scalarAddr b m s) (s.span.sr r) (fun v _ => v.toNat) =
      (failedScalar s (scalarAddr b m s) e (s.span.sr r), []) := by
    unfold State.doStore
    dsimp only
    rw [addrOr_of_none hprog, start_scalar_of_error hprog he hbad]
    rfl
  unfold execSst64
  dsimp only
  rw [hstore, if_neg (by simp [failedScalar]), if_pos (by simp [failedScalar]),
    show (failedScalar s (scalarAddr b m s) e (s.span.sr r)).s.memOver = (failedScalar s (scalarAddr b m s) e (s.span.sr r)).s from
      memOver_of_none hprog, raise_failedScalar]

end Scalar

/-! ## O57 -/

/-- Settles O57: each check in turn, then each instruction, whose lanes have all failed. -/
theorem accessChecks : Obligations.AccessChecks := by
  unfold Obligations.AccessChecks
  refine ⟨fun s core pkn asid size align a acc priv page _ => ⟨?_, ?_, ?_, ?_, ?_⟩, ?_⟩
  · exact checkAddr_misaligned s core pkn asid size acc priv page
  · exact checkAddr_noncanonical s core pkn asid size acc priv page
  · exact fun s1 hal h63 h => checkAddr_rankMiss s core pkn asid size acc priv page hal h63 h
  · exact fun s1 p hal h63 h => ⟨checkAddr_far s core pkn asid size acc priv page hal h63 h,
      checkAddr_peer s core pkn asid size acc priv page hal h63 h, checkAddr_unowned s core pkn asid size acc priv page hal h63 h⟩
  · intro s1 c hlt hal h
    rw [checkAddr_local s core pkn asid size acc priv page hlt hal, h]
    rfl
  intro s k i d b r m c addr chk bad f one hprog hc _ hk
  have lanesBad {size : Nat} {acc : State.Access} (h : bad size acc) : ∀ l ∈ lanesOf s.lanes, chk (addr l) size acc = (s, .error (c l)) :=
    fun l hl => h l ((mem_lanesOf _ _).1 hl).1 ((mem_lanesOf _ _).1 hl).2
  have ld {size : Nat} (sx : Bool) (h : bad size .read) : load size sx k i b d m s = .next (s.raiseL s.lanes c addr) :=
    load_of_errors i d b m hprog hc sx hk (lanesBad h)
  have cache {op : CacheOp} (hop : op ≠ .discard) (h : bad 1 .read) :
      State.finish (s.doCache m op addr) addr = .next (s.raiseL s.lanes c addr) := cache_of_errors i b m hprog hc hop (lanesBad h)
  have st {size : Nat} (h : bad size .write) : store size i b d m s = .next (s.raiseL s.lanes c addr) :=
    store_of_errors i d b m hprog hc (lanesBad h)
  have am {size : Nat} (op : AmoOp) (hop : State.amoSize op = size) (h : bad size .write) :
      amo op k i b d m s = .next (s.raiseL s.lanes c addr) := amo_of_errors i d b m hprog hc (lanesBad h) hk hop
  have rd {size : Nat} (op : AmoOp) (hop : State.amoSize op = size) (h : bad size .write) :
      red op i b d m s = .next (s.raiseL s.lanes c addr) := red_of_errors i d b m hprog hc (lanesBad h) hop
  have dr {size : Nat} (op : BitVec 3) (q : Dword) (val : Nat → Dword) (hop : dtagWidth ⟨op, q⟩ = size) (h : bad size .write) :
      dred op q val i b m s = .next (s.raiseL s.lanes c addr) := dred_of_errors i b m hprog hc (lanesBad h) hop
  refine ⟨fun h => ⟨ld _ h, ld _ h, cache (by decide) h, cache (by decide) h⟩, fun h => ⟨ld _ h, ld _ h⟩, fun h => ld _ h, fun h => ld _ h,
    fun h => ld _ h, fun h => st h, fun h => st h, fun h => st h, fun h => ?_, fun h => ?_, fun e he => ⟨fun h => ?_, fun h => ?_⟩⟩
  · exact ⟨st h, am _ rfl h, am _ rfl h, am _ rfl h, am _ rfl h, am _ rfl h, am _ rfl h, am _ rfl h, am _ rfl h, am _ rfl h, am _ rfl h,
      amoFadd_of_errors i d b m hprog hc hk (lanesBad h), rd _ rfl h, rd _ rfl h, rd _ rfl h, rd _ rfl h, rd _ rfl h, rd _ rfl h,
      dr _ _ _ rfl h, dr _ _ _ rfl h, dr _ _ _ rfl h, dr _ _ _ rfl h, dr _ _ _ rfl h⟩
  · exact ⟨st h, am _ rfl h, am _ rfl h, am _ rfl h, am _ rfl h, rd _ rfl h, dr _ _ _ rfl h, fun hmq =>
      (if_neg fun hz => hmq hz.1 : execDredModadd i b d m s = _).trans (dr _ _ _ rfl h)⟩
  · exact sld64_of_error hprog he hk h
  · exact sst64_of_error hprog he h

end Sys2Proof.Machine
end

section
/-!
PROOFS. The copies of a line in the cores' caches (13 R231): which they are after one is written, and what the line then reads as.
-/

namespace Sys2Proof.Store

variable {α : Type} [DecidableEq α] (d : α)

/-- In the canonical form the entries are the keys with a value of their own. -/
theorem mem_iff_get (m : Store α) (hw : wf d m = true) (k : Nat) (v : α) : (k, v) ∈ m ↔ get d m k = v ∧ v ≠ d := by
  constructor
  · intro h
    exact ⟨get_of_mem d m hw _ h, ((wf_iff d m).1 hw).2 _ h⟩
  · rintro ⟨rfl, hv⟩
    exact (mem_or_get_eq d m k).resolve_right hv

/-- Entries that no change of one key can add or take are kept in their order. -/
theorem filter_set (m : Store α) (k : Nat) (v : α) (p : Nat × α → Bool) (hp : ∀ x, p (k, x) = false) :
    (set d m k v).filter p = m.filter p := by
  have herase : (erase m k).filter p = m.filter p := by
    rw [erase_eq_filter, List.filter_filter]
    refine List.filter_congr fun e _ => ?_
    by_cases he : e.1 = k
    · obtain ⟨j, x⟩ := e
      subst he
      simp [hp]
    · simp [he]
  have hinsert (n : Store α) : (insert n k v).filter p = n.filter p := by
    induction n with
    | nil => simp [insert, hp]
    | cons e n ih =>
      obtain ⟨j, x⟩ := e
      rw [insert]
      split
      · rw [List.filter_cons, hp]; rfl
      · rw [List.filter_cons, ih, ← List.filter_cons]
  unfold set
  split
  · exact herase
  · rw [hinsert, herase]

/-- A new value of a listed key stands in its entry's place. -/
theorem set_eq_map (m : Store α) (hw : wf d m = true) (k : Nat) (v : α) (hk : get d m k ≠ d) (hv : v ≠ d) :
    set d m k v = m.map (fun e => if e.1 = k then (k, v) else e) := by
  rw [wf_iff] at hw
  obtain ⟨hord, -⟩ := hw
  rw [set, if_neg hv]
  induction m with
  | nil => exact absurd rfl hk
  | cons e m ih =>
    obtain ⟨j, x⟩ := e
    obtain ⟨hlt, hord⟩ := List.pairwise_cons.1 hord
    rw [erase, List.map_cons]
    by_cases hj : k = j
    · subst hj
      have hrest : ∀ e ∈ m, e.1 ≠ k := fun e he => Nat.ne_of_gt (hlt e he)
      have herase : erase m k = m := by
        rw [erase_eq_filter, List.filter_eq_self]
        simpa using fun a b h => hrest (a, b) h
      have hmap : m.map (fun e => if e.1 = k then (k, v) else e) = m :=
        (List.map_congr_left fun e he => if_neg (hrest e he)).trans (List.map_id m)
      rw [if_pos rfl, if_pos rfl, herase, hmap]
      cases m with
      | nil => rfl
      | cons a m => exact if_pos (hlt a (List.mem_cons_self ..))
    · rw [get_cons, if_neg hj] at hk
      have hkm : (k, get d m k) ∈ m := (mem_or_get_eq d m k).resolve_right hk
      rw [if_neg hj, if_neg (Ne.symm hj), insert, if_neg (Nat.not_lt.2 (Nat.le_of_lt (hlt _ hkm))), ih hk hord]

end Sys2Proof.Store

namespace Sys2Proof.Machine.State

/-! ## The copies of a line -/

variable {s t : State} {core line n : Nat}

theorem cacheKey_line (h : line < 2 ^ 53) : cacheKey core line % 2 ^ 53 = line := by
  unfold cacheKey
  rw [Nat.mul_comm, Nat.mul_add_mod, Nat.mod_eq_of_lt h]

theorem cacheKey_core (h : line < 2 ^ 53) : cacheKey core line / 2 ^ 53 = core := by
  unfold cacheKey
  rw [Nat.mul_comm, Nat.mul_add_div (by decide), Nat.div_eq_of_lt h, Nat.add_zero]

theorem cacheKey_inj {core' line' : Nat} (h : line < 2 ^ 53) (h' : line' < 2 ^ 53) :
    cacheKey core line = cacheKey core' line' ↔ core = core' ∧ line = line' := by
  constructor
  · intro e
    exact ⟨by rw [← cacheKey_core (core := core) h, e, cacheKey_core h'], by rw [← cacheKey_line (core := core) h, e, cacheKey_line h']⟩
  · rintro ⟨rfl, rfl⟩; rfl

/-- The copies of a line are those that the cores hold. -/
theorem mem_copiesOf (hw : Store.wf CacheLine.none s.cache = true) (hl : line < 2 ^ 53) (c : CacheLine) :
    (core, c) ∈ s.copiesOf line ↔ s.cacheAt core line = c ∧ c ≠ CacheLine.none := by
  unfold copiesOf cacheAt
  rw [← Store.mem_iff_get _ _ hw, List.mem_map]
  constructor
  · rintro ⟨⟨k, x⟩, he, hx⟩
    obtain ⟨hmem, hline⟩ := List.mem_filter.1 he
    obtain ⟨rfl, rfl⟩ := Prod.mk.inj hx
    have hkey : k = cacheKey (k / 2 ^ 53) line := by
      unfold cacheKey
      have := Nat.div_add_mod k (2 ^ 53)
      rw [beq_iff_eq] at hline
      rw [Nat.mul_comm, ← hline, this]
    rw [← hkey]
    exact hmem
  · intro h
    exact ⟨_, List.mem_filter.2 ⟨h, beq_iff_eq.2 (cacheKey_line hl)⟩, by rw [cacheKey_core hl]⟩

/-- A copy of one line is a copy of no other. -/
theorem copiesOf_setCache_ne (hl : line < 2 ^ 53) (c : CacheLine) (hn : n ≠ line) : (s.setCache core line c).copiesOf n = s.copiesOf n := by
  unfold copiesOf setCache
  rw [Store.filter_set]
  exact fun _ => beq_eq_false_iff_ne.2 (by rw [cacheKey_line hl]; exact hn.symm)

theorem wf_setCache (hw : Store.wf CacheLine.none s.cache = true) (c : CacheLine) :
    Store.wf CacheLine.none (s.setCache core line c).cache = true := Store.wf_set _ _ _ _ hw

theorem cacheAt_setCache_self (c : CacheLine) : (s.setCache core line c).cacheAt core line = c := by
  rw [cacheAt_setCache, if_pos rfl]

theorem cacheAt_setCache_line (hl : line < 2 ^ 53) (c : CacheLine) (o : Nat) :
    (s.setCache core line c).cacheAt o line = if o = core then c else s.cacheAt o line := by
  rw [cacheAt_setCache]
  by_cases h : o = core
  · rw [if_pos h, if_pos (by rw [h])]
  · rw [if_neg h, if_neg (fun e => h ((cacheKey_inj hl hl).1 e).1)]

/-- The copies of a line of which one is written. -/
theorem mem_copiesOf_setCache (hw : Store.wf CacheLine.none s.cache = true) (hl : line < 2 ^ 53) (x : CacheLine) (o : Nat) (c : CacheLine) :
    (o, c) ∈ (s.setCache core line x).copiesOf line ↔ if o = core then x = c ∧ c ≠ CacheLine.none else (o, c) ∈ s.copiesOf line := by
  rw [mem_copiesOf (wf_setCache hw x) hl, cacheAt_setCache_line hl]
  by_cases h : o = core
  · simp [h]
  · simp [h, mem_copiesOf hw hl]

/-! ## What a line reads as (13 R231) -/

/-- The bytes of memory are those of its lines. -/
theorem memLine_congr (h : t.mem = s.mem) (n : Nat) : t.memLine n = s.memLine n := by
  have key : ∀ k a, t.bytesAt a k = s.bytesAt a k := by
    intro k
    induction k with
    | zero => intro _; rfl
    | succ k ih => intro a; rw [bytesAt, bytesAt, ih, byte, byte, h]
  unfold memLine
  rw [key]

theorem memLine_setCache (c : CacheLine) (n : Nat) : (s.setCache core line c).memLine n = s.memLine n :=
  memLine_congr (s := s) (t := s.setCache core line c) rfl n

theorem memLine_setDir (d : DirEntry) (n : Nat) : (s.setDir line d).memLine n = s.memLine n :=
  memLine_congr (s := s) (t := s.setDir line d) rfl n

theorem copiesOf_congr (h : t.cache = s.cache) (n : Nat) : t.copiesOf n = s.copiesOf n := by rw [copiesOf, h]; rfl

/-- What a line reads as hangs on its copies and its bytes in memory. -/
theorem lineView_congr (hc : t.copiesOf n = s.copiesOf n) (hm : t.memLine n = s.memLine n) : t.lineView n = s.lineView n := by
  unfold lineView ownerOf
  rw [hc, hm]

theorem ownerOf_eq_none (h : ∀ e ∈ s.copiesOf n, owns e.2 = false) : s.ownerOf n = none := by
  unfold ownerOf
  rw [List.find?_eq_none]
  intro e he
  simp [h e he]

/-- A line that no core owns reads as its home's data. -/
theorem lineView_of_unowned (h : ∀ e ∈ s.copiesOf n, owns e.2 = false) : s.lineView n = s.memLine n := by
  unfold lineView
  rw [ownerOf_eq_none h]

theorem ownerOf_eq_some {o : Nat} {c : CacheLine} (hmem : (o, c) ∈ s.copiesOf n) (hown : owns c = true)
    (hone : ∀ e ∈ s.copiesOf n, owns e.2 = true → e = (o, c)) : s.ownerOf n = some (o, c) := by
  unfold ownerOf
  cases h : (s.copiesOf n).find? (fun e => owns e.2) with
  | none => exact absurd hown (by simpa using List.find?_eq_none.1 h _ hmem)
  | some e => rw [hone e (List.mem_of_find?_eq_some h) (by simpa using List.find?_some h)]

/-- A line that one core owns reads as its copy. -/
theorem lineView_of_owner {o : Nat} {c : CacheLine} (hmem : (o, c) ∈ s.copiesOf n) (hown : owns c = true)
    (hone : ∀ e ∈ s.copiesOf n, owns e.2 = true → e = (o, c)) : s.lineView n = c.data := by
  unfold lineView
  rw [ownerOf_eq_some hmem hown hone]

/-- Every line reads as before after a copy has changed but neither its data nor who owns them. -/
theorem lineView_setCache_same (hw : Store.wf CacheLine.none s.cache = true) {c : CacheLine} (hold : s.cacheAt core line ≠ CacheLine.none)
    (hnew : c ≠ CacheLine.none) (hown : owns c = owns (s.cacheAt core line)) (hdata : c.data = (s.cacheAt core line).data) (n : Nat) :
    (s.setCache core line c).lineView n = s.lineView n := by
  have hset : (s.setCache core line c).cache = s.cache.map (fun e => if e.1 = cacheKey core line then (cacheKey core line, c) else e) :=
    Store.set_eq_map _ _ hw _ _ hold hnew
  have hentry : ∀ e ∈ s.cache, e.1 = cacheKey core line → e.2 = s.cacheAt core line := by
    rintro ⟨k, x⟩ he rfl
    exact ((Store.mem_iff_get _ _ hw _ _).1 he).1.symm
  have hfind : ∀ xs : List (Nat × CacheLine), (∀ e ∈ xs, e.1 = cacheKey core line → e.2 = s.cacheAt core line) →
      ((((xs.map (fun e => if e.1 = cacheKey core line then (cacheKey core line, c) else e)).filter (fun e => e.1 % 2 ^ 53 == n)).map
        (fun e => (e.1 / 2 ^ 53, e.2))).find? (fun e => owns e.2)).map (·.2.data) =
      (((xs.filter (fun e => e.1 % 2 ^ 53 == n)).map (fun e => (e.1 / 2 ^ 53, e.2))).find? (fun e => owns e.2)).map (·.2.data) := by
    intro xs
    induction xs with
    | nil => intro _; rfl
    | cons e xs ih =>
      intro h
      have ih := ih fun e he => h e (List.mem_cons_of_mem _ he)
      have hkey : (if e.1 = cacheKey core line then (cacheKey core line, c) else e).1 = e.1 := by split <;> simp_all
      have howns : owns (if e.1 = cacheKey core line then (cacheKey core line, c) else e).2 = owns e.2 := by
        split
        · next he => rw [h e (List.mem_cons_self ..) he, hown]
        · rfl
      have hval : (if e.1 = cacheKey core line then (cacheKey core line, c) else e).2.data = e.2.data := by
        split
        · next he => rw [h e (List.mem_cons_self ..) he, hdata]
        · rfl
      rw [List.map_cons, List.filter_cons, List.filter_cons, hkey]
      by_cases hn : e.1 % 2 ^ 53 == n
      · rw [if_pos hn, if_pos hn, List.map_cons, List.map_cons, List.find?_cons, List.find?_cons]
        dsimp only
        rw [howns]
        cases owns e.2
        · exact ih
        · exact congrArg some hval
      · rw [if_neg hn, if_neg hn]
        exact ih
  have hview (u : State) : u.lineView n = ((u.ownerOf n).map (·.2.data)).getD (u.memLine n) := by
    unfold lineView
    rcases u.ownerOf n with _ | ⟨_, _⟩ <;> rfl
  rw [hview, hview, memLine_setCache]
  refine congrArg (Option.getD · (s.memLine n)) ?_
  unfold ownerOf copiesOf
  rw [hset]
  exact hfind _ hentry

end Sys2Proof.Machine.State
end

section
/-!
PROOFS. What an access leaves besides its line: the trace, the clocks that a transaction raises (12 R223), and the copies of the line; and how an
access of lanes that share one line begins (11 R186).
-/

namespace Sys2Proof.Machine

/-! ## Changes of the trace (17 R304, 16 R296) -/

namespace State

theorem traced_trans {s t u : State} (h1 : t = s.traced t) (h2 : u = t.traced u) : u = s.traced u := by
  rw [h2, h1]; rfl

theorem count_traced (s : State) (core i n : Nat) : s.count core i n = s.traced (s.count core i n) := rfl

theorem emitHome_traced (s : State) (typ unit line : Nat) (pk : Option Nat) (ord : BitVec 20) (timing : Bool) (w3 c : Dword) :
    s.emitHome typ unit line pk ord timing w3 c = s.traced (s.emitHome typ unit line pk ord timing w3 c) := rfl

theorem ite_traced {s t u : State} {p : Prop} [Decidable p] (ht : t = s.traced t) (hu : u = s.traced u) :
    (if p then t else u) = s.traced (if p then t else u) := by
  split
  · exact ht
  · exact hu

/-- The records that drift leaves are records. -/
theorem traceDriftBy_traced (s0 s2 : State) (line : Nat) (pk : Option Nat) (ord : BitVec 20) (c : Dword) :
    traceDriftBy s0 s2 line pk ord c = s2.traced (traceDriftBy s0 s2 line pk ord c) := by
  unfold traceDriftBy
  extract_lets a b c' sw q s3 s4
  have h3 : s3 = s2.traced s3 := ite_traced (traced_trans (emitHome_traced ..) (emitHome_traced ..)) rfl
  have h4 : s4 = s2.traced s4 := ite_traced (traced_trans h3 (emitHome_traced ..)) h3
  exact ite_traced (traced_trans h4 (emitHome_traced ..)) h4

theorem traceDrift_traced (s0 s2 : State) (line core : Nat) (pk : Option Nat) (ord : BitVec 20) :
    traceDrift s0 s2 line core pk ord = s2.traced (traceDrift s0 s2 line core pk ord) := by
  unfold traceDrift
  extract_lets merged
  exact traced_trans (ite_traced (count_traced ..) rfl) (traceDriftBy_traced ..)

/-- The records of a request that a home serves are records. -/
theorem traceHome_traced (s0 s1 : State) (line core : Nat) (pk : Option Nat) (ord : BitVec 20) (r : ReqCode) :
    traceHome s0 s1 line core pk ord r = s1.traced (traceHome s0 s1 line core pk ord r) := by
  unfold traceHome traceServed
  extract_lets a b s2
  have h2 : s2 = s1.traced s2 := traced_trans (emitHome_traced ..) (traceDrift_traced ..)
  exact ite_traced (traced_trans h2 (emitHome_traced ..)) h2

theorem hearSlice_rest (s : State) (line : Nat) (c : BitVec 48) :
    s.hearSlice line c = { s with sliceClock := (s.hearSlice line c).sliceClock } := by
  unfold hearSlice
  split <;> rfl

theorem gained_rest (s : State) (line : Nat) : s.gained line = { s with proxy := (s.gained line).proxy } := by
  unfold gained
  split <;> rfl

/-- The access for which a proxy was asked has been performed: of that line's proxy alone the due access may differ. -/
theorem proxyAt_gained (s : State) (line n : Nat) : (s.gained line).proxyAt n = { s.proxyAt n with owed := ((s.gained line).proxyAt n).owed } ∧
    (n ≠ line ∨ isPod line = false → (s.gained line).proxyAt n = s.proxyAt n) := by
  unfold gained
  split
  · next h =>
    rw [Bool.and_eq_true] at h
    rw [proxyAt_setProxy]
    split
    · next hn => subst hn; exact ⟨rfl, fun h' => by simp [h.1] at h'⟩
    · exact ⟨rfl, fun _ => rfl⟩
  · exact ⟨rfl, fun _ => rfl⟩

end State

/-! ## Changes of clocks (12 R223) -/

/-- Only the trace, the clocks of cores and home slices and the due access of the proxy of the line differ between s and t. -/
structure Heard (s t : State) (line : Nat) : Prop where
  rest : t = { s.traced t with lamport := t.lamport, sliceClock := t.sliceClock, proxy := t.proxy }
  due : ∀ n, t.proxyAt n = { s.proxyAt n with owed := (t.proxyAt n).owed }
  others : ∀ n, (n ≠ line ∨ isPod line = false) → t.proxyAt n = s.proxyAt n

namespace Heard

variable {s t u : State} {line : Nat}

theorem trans (h1 : Heard s t line) (h2 : Heard t u line) : Heard s u line := by
  refine ⟨?_, fun n => ?_, fun n hn => (h2.others n hn).trans (h1.others n hn)⟩
  · rw [h2.rest, h1.rest]; rfl
  · rw [h2.due, h1.due]

theorem of_traced (h : t = s.traced t) : Heard s t line :=
  have hp (n : Nat) : t.proxyAt n = s.proxyAt n := by rw [h]; rfl
  ⟨by rw [h]; rfl, fun n => by rw [hp], fun n _ => hp n⟩

theorem refl (s : State) (line : Nat) : Heard s s line := of_traced rfl

theorem of_clocks (h : t = { s with lamport := t.lamport, sliceClock := t.sliceClock }) : Heard s t line :=
  have hp (n : Nat) : t.proxyAt n = s.proxyAt n := by rw [h]; rfl
  ⟨by rw [h]; rfl, fun n => by rw [hp], fun n _ => hp n⟩

theorem gained (s : State) (line : Nat) : Heard s (s.gained line) line :=
  ⟨by rw [State.gained_rest]; rfl, fun n => (s.proxyAt_gained line n).1, fun n => (s.proxyAt_gained line n).2⟩

theorem hearSlice (s : State) (n : Nat) (c : BitVec 48) : Heard s (s.hearSlice n c) line := of_clocks (by rw [State.hearSlice_rest])
theorem hearClock (s : State) (core : Nat) (c : BitVec 48) : Heard s (s.hearClock core c) line := of_clocks (by rw [hearClock_rest])

theorem answered (s : State) (core line : Nat) (giver : Option Nat) : Heard s (s.answered core line giver) line := by
  unfold State.answered
  cases giver with
  | none => exact ((hearSlice ..).trans (hearClock ..)).trans (gained ..)
  | some o => exact (((hearSlice ..).trans (hearSlice ..)).trans (hearClock ..)).trans (gained ..)

theorem answeredTo (s : State) (p : BitVec 13) (line : Nat) : Heard s (s.answeredTo p line) line := by
  unfold State.answeredTo
  split
  · exact answered ..
  · exact gained ..

variable (h : Heard s t line)
include h

theorem cache : t.cache = s.cache := by rw [h.rest]; rfl
theorem mem : t.mem = s.mem := by rw [h.rest]; rfl
theorem wg : t.wg = s.wg := by rw [h.rest]; rfl
theorem dirAt (n : Nat) : t.dirAt n = s.dirAt n := by rw [h.rest]; rfl
theorem cacheAt (core n : Nat) : t.cacheAt core n = s.cacheAt core n := by rw [h.rest]; rfl
theorem memLine (n : Nat) : t.memLine n = s.memLine n := State.memLine_congr h.mem n
theorem lineView (n : Nat) : t.lineView n = s.lineView n := State.lineView_congr (State.copiesOf_congr h.cache n) (h.memLine n)

end Heard

/-! ## Changes of copies -/

/-- t is s but for copies of lines, directory entries, clocks and the trace, and every line reads as it did (13 R231). -/
structure Copied (s t : State) : Prop where
  rest : t = { s.traced t with
    cache := t.cache, dir := t.dir, ro := t.ro, lamport := t.lamport, sliceClock := t.sliceClock, driftOrder := t.driftOrder, proxy := t.proxy }
  due : ∀ n, t.proxyAt n = { s.proxyAt n with owed := (t.proxyAt n).owed }
  view : ∀ n, t.lineView n = s.lineView n

namespace Copied

variable {s t u : State} {line : Nat}

theorem trans (h1 : Copied s t) (h2 : Copied t u) : Copied s u := by
  refine ⟨?_, fun n => ?_, fun n => (h2.view n).trans (h1.view n)⟩
  · rw [h2.rest, h1.rest]; rfl
  · rw [h2.due, h1.due]

theorem of_heard (h : Heard s t line) : Copied s t := ⟨by rw [h.rest]; rfl, h.due, h.lineView⟩

theorem of_traced (h : t = s.traced t) : Copied s t := of_heard (line := 0) (.of_traced h)

/-- A change of copies and entries that leaves each line reading as it did. -/
theorem of_view (h : t = { s with cache := t.cache, dir := t.dir, ro := t.ro, driftOrder := t.driftOrder })
    (hview : ∀ n, t.lineView n = s.lineView n) : Copied s t :=
  have hp (n : Nat) : t.proxyAt n = s.proxyAt n := by rw [h]; rfl
  ⟨by rw [h]; rfl, fun n => by rw [hp], hview⟩

theorem wg (h : Copied s t) : t.wg = s.wg := by rw [h.rest]; rfl

end Copied

/-- An access that has changed copies, and then the issuing span, has only read. -/
theorem readsOnly_of_copied {s u t : State} (h1 : Copied s u) (h2 : OnlySpan u t) : ReadsOnly s t := by
  have hwg : u.wg = s.wg := h1.wg
  have hfocus : u.focus = s.focus := by rw [h1.rest]; rfl
  have hgroup (g : Nat) : u.wgAt g = s.wgAt g := by unfold State.wgAt; rw [hwg]
  have hhere : u.here = s.here := by unfold State.here; rw [hgroup, hfocus]
  have hcache : t.cache = u.cache := by rw [h2.rest]
  have hmem : t.mem = u.mem := by rw [h2.rest]
  have hproxy (n : Nat) : t.proxyAt n = u.proxyAt n := by unfold State.proxyAt; rw [h2.rest]
  refine ⟨?_, fun n => ?_, fun a => ?_, fun n => ?_, fun g hg => ?_, ?_, fun n hn => ?_⟩
  · rw [h2.rest, h1.rest]; rfl
  · rw [hproxy]; exact h1.due n
  · rw [h2.bytes, h1.rest]; rfl
  · rw [← h1.view]
    exact State.lineView_congr (State.copiesOf_congr hcache n) (State.memLine_congr hmem n)
  · rw [h2.groups g (hfocus ▸ hg), hgroup]
  · rw [h2.here, hhere]
  · rw [h2.spans n (hfocus ▸ hn), hhere]

/-! ## Lanes that share one line (11 R186) -/

/-- A translation that is at hand is what translating gives, and changes nothing. -/
theorem translate_of_atHand {s : State} {core asid : Nat} {priv page : Bool} {a : Dword} {acc : State.Access} {x : Xlat}
    (h : AtHandFor s core asid priv a acc page x) : s.translate core asid a.toNat acc priv page = (s, .ok x) := by
  unfold State.translate
  rcases h with ⟨rfl, hhit⟩ | ⟨hmiss, e, he, rfl⟩
  · rw [if_neg Bool.false_ne_true, hhit]
  · have hnone : (if page then none else s.l1Hit core asid a.toNat acc priv) = none := by
      rcases hmiss with rfl | hmiss
      · exact if_pos rfl
      · rw [hmiss, ite_self]
    have hcount : s.countMiss core asid a.toNat acc priv = s := by
      unfold State.countMiss
      rw [if_pos (by rw [he]; rfl)]
    rw [hnone, hcount]
    unfold State.translateL2
    rw [he]

/-- The distinct lines of lanes that share one are that line. -/
theorem linesOf_one {ps : State.Phys} {line : Nat} (hne : ps ≠ []) (h : ∀ p ∈ ps, p.2.1.pa / 128 = line) : State.linesOf ps = [line] := by
  have key : ∀ xs : List Nat, (∀ n ∈ xs, n = line) → xs.foldl (fun a n => if a.contains n then a else a ++ [n]) [line] = [line] := by
    intro xs
    induction xs with
    | nil => intro _; rfl
    | cons x xs ih =>
      intro hx
      rw [List.foldl_cons, hx x (List.mem_cons_self ..), if_pos (by simp)]
      exact ih fun n hn => hx n (List.mem_cons_of_mem _ hn)
  cases ps with
  | nil => exact absurd rfl hne
  | cons p ps =>
    unfold State.linesOf
    rw [List.map_cons, List.foldl_cons, if_neg (by simp), List.nil_append, h p (List.mem_cons_self ..)]
    refine key _ fun n hn => ?_
    obtain ⟨q, hq, rfl⟩ := List.mem_map.1 hn
    exact h q (List.mem_cons_of_mem _ hq)

/-- What an access that has begun at this step has come to before its first line. -/
def begunAcc (s : State) (S : Lanes) (addr : Nat → Dword) (arg : Dword) : State.Acc' :=
  ⟨s, [], [], [], arg, (lanesOf S).map (fun l => (l, addr l)), []⟩

/-- The lanes of a set with their translations. -/
def physOf (S : Lanes) (x : Nat → Xlat) : State.Phys := (lanesOf S).map fun l => (l, x l, none)

theorem lanesOf_ne_nil {S : Lanes} (h : S ≠ 0) : lanesOf S ≠ [] := by
  intro hnil
  refine h (lanes_ext fun l hl => ?_)
  have hl' : l ∉ lanesOf S := by rw [hnil]; exact List.not_mem_nil
  rw [mem_lanesOf] at hl'
  rw [Bool.not_eq_true _ |>.mp fun h => hl' ⟨hl, h⟩]
  simp [laneIn]

section OneLine

variable {s : State} {S : Lanes} {addr : Nat → Dword} {size : Nat} {acc : State.Access} {pa : Nat → Nat} {line : Nat}

/-- An access of lanes that share one line begins with that line alone. -/
theorem OneLine.start (h : OneLine s S addr size acc false pa line) : ∃ x : Nat → Xlat, (∀ l ∈ lanesOf S, (x l).pa = pa l) ∧
    ∀ arg far, s.start S addr arg size acc far = (begunAcc s S addr arg, physOf S x, [line]) := by
  have hlane : ∀ l ∈ lanesOf S, _ := fun l hl => h.fits l ((mem_lanesOf S l).1 hl).1 ((mem_lanesOf S l).1 hl).2
  have : Nonempty Xlat := ⟨⟨0, false, false, false⟩⟩
  have hfound : ∀ l, ∃ x, l ∈ lanesOf S → AtHand s (addr l) acc false x ∧ x.pa = pa l := by
    intro l
    by_cases hl : l ∈ lanesOf S
    · obtain ⟨-, -, -, -, -, x, hx⟩ := hlane l hl
      exact ⟨x, fun _ => hx⟩
    · exact ⟨Classical.arbitrary _, fun h => absurd h hl⟩
  choose x hx using hfound
  refine ⟨x, fun l hl => (hx l hl).2, fun arg far => ?_⟩
  have hcheck : ∀ l ∈ lanesOf S, s.checkAddr s.here.core s.here.paddock s.asid (addr l) size size acc s.privileged false =
      (s, .ok (.phys (x l) none)) := by
    intro l hl
    obtain ⟨hlt, hal, -⟩ := hlane l hl
    rw [checkAddr_local s _ _ _ _ _ _ _ hlt hal, translate_of_atHand (hx l hl).1]
    rfl
  have hts := checkLanes_of_stable (S := S) hcheck
  have hcarry : acc = .write → (lanesOf S).filter (fun l => laneIn s.carriage l) = [] := by
    intro hacc
    rw [List.filter_eq_nil_iff]
    intro l hl hc
    have hzero : laneIn (S &&& s.carriage) l = true := by
      rw [laneIn, BitVec.getLsbD_and]
      exact Bool.and_eq_true_iff.2 ⟨((mem_lanesOf S l).1 hl).2, hc⟩
    rw [h.carried hacc] at hzero
    simp [laneIn] at hzero
  have hhit : (if acc = .write then (lanesOf S).filter (fun l => laneIn s.carriage l) else []) = [] := by
    split
    · next hacc => exact hcarry hacc
    · rfl
  have hlines : State.linesOf (physOf S x) = [line] := by
    refine linesOf_one (by simpa [physOf] using lanesOf_ne_nil h.some) fun p hp => ?_
    obtain ⟨l, hl, rfl⟩ := List.mem_map.1 hp
    obtain ⟨-, -, hpa, -⟩ := hlane l hl
    exact (congrArg (· / 128) (hx l hl).2).trans hpa
  have hphys : State.physLanes ((lanesOf S).map fun l => (l, .ok (.phys (x l) none))) = physOf S x := by
    simp [State.physLanes, physOf, List.filterMap_map]
  unfold State.start
  simp only [h.fresh, hts, hphys]
  simp [State.farLanes, State.badLanes, State.failLanes, State.walkWaits, List.filterMap_map, hhit, hlines, begunAcc]

end OneLine

end Sys2Proof.Machine
end

section
/-!
PROOFS. A settled line, and a line that nobody holds, as a core's load meets it (13 R239, R240): the core takes a copy, and every line reads as before.
-/

namespace Sys2Proof.Machine

open State

variable {s : State} {core line : Nat}

/-! ## A settled line -/

theorem not_moving_of_settled_copy {c : CacheLine} (h : c.state = .S ∨ c.state = .M ∨ c.state = .E) : c.state.moving = false := by
  rcases h with h | h | h <;> rw [h] <;> rfl

theorem owns_of_state {c : CacheLine} (h : c.state = .M ∨ c.state = .E ∨ c.state = .O) : owns c = true := by
  unfold owns
  rcases h with h | h | h <;> rw [h] <;> rfl

theorem owns_of_shared {c : CacheLine} (h : c.state = .S) : owns c = false := by
  unfold owns
  rw [h]
  rfl

namespace Settled

variable (h : Settled s line)
include h

theorem copy_state {e : Nat × CacheLine} (he : e ∈ s.copiesOf line) : e.2.state = .S ∨ e.2.state = .M ∨ e.2.state = .E := by
  rcases h.copies with hs | ⟨-, o, c, hoc, hc⟩
  · exact .inl (hs e he)
  · rw [hoc, List.mem_singleton] at he
    subst he
    rcases hc with hc | ⟨hc, -⟩
    · exact .inr (.inl hc)
    · exact .inr (.inr hc)

theorem quietHere : s.quietHere line = .ok s := by
  have hquiet : ¬(outsideHolders (s.dirAt line) ≠ [] ∨ (s.dirAt line).queue ≠ [] ∨ (s.dirAt line).held ≠ [] ∨
      (s.copiesOf line).any (fun e => e.2.state.moving) ∨ s.msgs.any (fun m => m.1.line == line && !m.1.pod)) := by
    rintro (ha | hq | hh | hm | hm)
    · exact ha h.agents
    · exact hq h.queue.1
    · exact hh h.queue.2
    · obtain ⟨e, he, hmoving⟩ := List.any_eq_true.1 hm
      rw [not_moving_of_settled_copy (h.copy_state he)] at hmoving
      cases hmoving
    · obtain ⟨m, hm, hline⟩ := List.any_eq_true.1 hm
      exact h.still m hm (by simp only [Bool.and_eq_true, beq_iff_eq] at hline; exact hline.1)
  have hstate := h.state
  unfold State.quietHere
  dsimp only
  rw [if_neg hquiet]
  split <;> simp_all

/-- The home of a settled line is quiet for an access for which the pod leaves the line to this device. -/
theorem quietFor {n : Need} (hpod : s.podOk line n = true) : s.quietFor line n = .ok s := by
  unfold State.quietFor
  rw [h.quietHere]
  dsimp only
  rw [if_neg (by simp [h.pod.2]), if_pos hpod]

theorem podOk_home : s.podOk line .home = true := h.pod.1

theorem podOk_read : s.podOk line .read = true := by
  have hw := h.pod.1
  unfold podOk at hw ⊢
  split
  · next hp =>
    rw [if_pos hp] at hw
    simp only [Bool.or_eq_true, beq_iff_eq] at hw
    dsimp only
    rcases hw with hw | hw <;> rw [hw] <;> rfl
  · next hp =>
    rw [if_neg hp] at hw
    exact Bool.or_eq_true_iff.2 (.inl hw)

theorem not_drift : (s.dirAt line).state ≠ .D := by
  have := h.state
  intro hd
  rw [hd] at this
  simp at this

theorem not_poisoned : (s.dirAt line).state ≠ .P := by
  have := h.state
  intro hd
  rw [hd] at this
  simp at this

theorem not_reserved (p : BitVec 13) : s.reservedFor p line = false := by
  have := h.state
  unfold reservedFor
  dsimp only
  rw [show ((s.dirAt line).state == .BInv) = false from beq_eq_false_iff_ne.2 fun hd => by rw [hd] at this; simp at this]
  rfl

theorem proxy_no_fill (hp : isPod line = true) (q : SpanRef) : fillServes (s.proxyAt line) q = false := by
  have hw := h.pod.1
  unfold podOk at hw
  rw [if_pos hp] at hw
  simp only [Bool.or_eq_true, beq_iff_eq] at hw
  unfold fillServes
  rcases hw with hw | hw <;> rw [hw] <;> rfl

/-- A core that cannot read its copy of a settled line has none. -/
theorem cacheAt_none (hw : Store.wf CacheLine.none s.cache = true) (hl : line < 2 ^ 53) (hr : s.holds core line = false) :
    s.cacheAt core line = CacheLine.none := by
  by_contra hne
  have hmem := (mem_copiesOf hw hl _).2 ⟨rfl, hne⟩
  unfold holds at hr
  rcases h.copy_state hmem with hc | hc | hc <;> dsimp only at hc <;> rw [hc] at hr <;> cases hr

end Settled

/-- A line that nobody holds is settled. -/
theorem LineFree.settled (h : LineFree s line) : Settled s line where
  state := by rw [h.entry]; decide
  queue := by rw [h.entry]; exact ⟨rfl, rfl⟩
  agents := by rw [h.entry]; rfl
  pod := ⟨by simp [podOk, h.own, h.peers, DirEntry.idle], by simp [podFailed, h.own]⟩
  still := h.still
  copies := .inl fun e he => by rw [h.copies] at he; cases he

/-! ## The line read after a copy is written -/

/-- At most one core owns the data of the line. -/
def OneOwner (s : State) (line : Nat) : Prop := ∀ e ∈ s.copiesOf line, ∀ e' ∈ s.copiesOf line, owns e.2 = true → owns e'.2 = true → e = e'

theorem Settled.oneOwner (h : Settled s line) : OneOwner s line := by
  intro e he e' he' hown hown'
  rcases h.copies with hs | ⟨-, o, c, hoc, -⟩
  · rw [owns_of_shared (hs e he)] at hown
    cases hown
  · rw [hoc, List.mem_singleton] at he he'
    rw [he, he']

section Write

variable (hw : Store.wf CacheLine.none s.cache = true) (hl : line < 2 ^ 53) {c : CacheLine}
include hw hl

/-- A core's copy that does not own the data changes no line's data, where one core owns them at most. -/
theorem lineView_setCache_shared (hone : OneOwner s line) (hold : owns (s.cacheAt core line) = false) (hnew : owns c = false) (n : Nat) :
    (s.setCache core line c).lineView n = s.lineView n := by
  by_cases hn : n = line
  · subst hn
    have hkept : ∀ e ∈ (s.setCache core n c).copiesOf n, owns e.2 = true → e ∈ s.copiesOf n := by
      rintro ⟨o, x⟩ he hown
      rw [mem_copiesOf_setCache hw hl] at he
      split at he
      · rw [← he.1, hnew] at hown; cases hown
      · exact he
    by_cases hnone : ∀ e ∈ s.copiesOf n, owns e.2 = false
    · rw [lineView_of_unowned hnone, lineView_of_unowned fun e he => ?_, memLine_setCache]
      by_contra hown
      rw [Bool.not_eq_false] at hown
      rw [hnone e (hkept e he hown)] at hown
      cases hown
    · push Not at hnone
      obtain ⟨⟨o, x⟩, he, hown⟩ := hnone
      rw [ne_eq, Bool.not_eq_false] at hown
      have ho : o ≠ core := by
        rintro rfl
        rw [((mem_copiesOf hw hl _).1 he).1] at hold
        rw [hold] at hown; cases hown
      rw [lineView_of_owner he hown fun e' he' hown' => hone _ he' _ he hown' hown,
        lineView_of_owner ((mem_copiesOf_setCache hw hl c o x).2 (by rw [if_neg ho]; exact he)) hown
          fun e' he' hown' => hone _ (hkept _ he' hown') _ he hown' hown]
  · exact lineView_congr (copiesOf_setCache_ne hl c hn) (memLine_setCache c n)

/-- A core's copy of a line that no core owns, with the home's data, changes no line's data. -/
theorem lineView_setCache_home (hnone : ∀ e ∈ s.copiesOf line, owns e.2 = false) (hown : owns c = true) (hdata : c.data = s.memLine line) (n : Nat) :
    (s.setCache core line c).lineView n = s.lineView n := by
  have hc : c ≠ CacheLine.none := by rintro rfl; cases hown
  by_cases hn : n = line
  · subst hn
    have hentry := (mem_copiesOf_setCache hw hl c core c).2 (by rw [if_pos rfl]; exact ⟨rfl, hc⟩)
    rw [lineView_of_unowned hnone, ← hdata]
    refine lineView_of_owner hentry hown ?_
    rintro ⟨o, x⟩ he hx
    rw [mem_copiesOf_setCache hw hl] at he
    split at he
    · next ho => rw [ho, he.1]
    · rw [hnone _ he] at hx; cases hx
  · exact lineView_congr (copiesOf_setCache_ne hl c hn) (memLine_setCache c n)

/-- The copies of a line that one core holds alone, after that core's copy is written. -/
theorem eq_of_mem_copiesOf_sole {x : CacheLine} (hsole : s.copiesOf line = [(core, x)]) {e : Nat × CacheLine}
    (he : e ∈ (s.setCache core line c).copiesOf line) : e = (core, c) := by
  obtain ⟨o, y⟩ := e
  rw [mem_copiesOf_setCache hw hl] at he
  split at he
  · next ho => rw [ho, he.1]
  · next ho =>
    rw [hsole, List.mem_singleton] at he
    exact absurd (congrArg Prod.fst he) ho

/-- A line that one core holds alone and clean reads as before once that core's copy is shared. -/
theorem lineView_setCache_clean {x : CacheLine} (hsole : s.copiesOf line = [(core, x)]) (hshared : owns c = false)
    (hclean : s.lineView line = s.memLine line) (n : Nat) : (s.setCache core line c).lineView n = s.lineView n := by
  by_cases hn : n = line
  · subst hn
    rw [hclean, lineView_of_unowned fun e he => ?_, memLine_setCache]
    rw [eq_of_mem_copiesOf_sole hw hl hsole he]
    exact hshared
  · exact lineView_congr (copiesOf_setCache_ne hl c hn) (memLine_setCache c n)

end Write

/-! ## A core takes a copy -/

theorem addParty_state (d : DirEntry) (p : BitVec 13) : (addParty d p).state = d.state := by
  unfold addParty
  split_ifs <;> rfl

theorem joined_ne_poisoned {d : DirEntry} {p : BitVec 13} (h : d.state ≠ .P) : (addParty d p).state ≠ .P := by rwa [addParty_state]

theorem Copied.setDir (s : State) (n : Nat) (d : DirEntry) : Copied s (s.setDir n d) :=
  .of_view rfl fun m => lineView_congr (copiesOf_congr (s := s) (t := s.setDir n d) rfl m) (memLine_setDir d m)

theorem Copied.setCache {c : CacheLine} (h : ∀ n, (s.setCache core line c).lineView n = s.lineView n) : Copied s (s.setCache core line c) :=
  .of_view rfl h

theorem Copied.refl : Copied s s := .of_traced rfl

/-- The core holds a copy with the line's data, and no more than copies, entries and clocks have changed. -/
structure Filled (s t : State) (core line : Nat) : Prop where
  copied : Copied s t
  data : (t.cacheAt core line).data = s.lineView line
  sound : (t.dirAt line).state ≠ .P

/-- A core's copy and the home's entry are written and the core is answered, where the copy leaves each line reading as it did. -/
theorem copied_answered {s1 : State} (h1 : Copied s s1) (d : DirEntry) {c : CacheLine}
    (hview : ∀ n, (s1.setCache core line c).lineView n = s1.lineView n) (g : Option Nat) :
    Copied s (((s1.setDir line d).setCache core line c).answered core line g) := by
  have hset (n : Nat) : ((s1.setDir line d).setCache core line c).lineView n = (s1.setDir line d).lineView n := by
    have hcopies : ((s1.setDir line d).setCache core line c).copiesOf n = (s1.setCache core line c).copiesOf n := copiesOf_congr rfl n
    rw [lineView_congr hcopies (by rw [memLine_setCache, memLine_setDir, memLine_setCache]), hview, (Copied.setDir s1 line d).view]
  exact ((h1.trans (.setDir ..)).trans (.setCache hset)).trans (.of_heard (.answered _ core line g))

theorem cacheAt_answered (s1 : State) (d : DirEntry) (c : CacheLine) (g : Option Nat) :
    (((s1.setDir line d).setCache core line c).answered core line g).cacheAt core line = c := by
  rw [(Heard.answered ..).cacheAt, cacheAt_setCache_self]

theorem dirAt_answered (s1 : State) (d : DirEntry) (c : CacheLine) (g : Option Nat) :
    (((s1.setDir line d).setCache core line c).answered core line g).dirAt line = d := by
  rw [(Heard.answered ..).dirAt]
  show (s1.setDir line d).dirAt line = d
  rw [dirAt_setDir, if_pos rfl]

/-- The core takes a copy with the line's data, the home's entry becomes d, and the core is answered. -/
theorem filled_of_copied {s1 : State} (h1 : Copied s s1) {d : DirEntry} {c : CacheLine} (hd : d.state ≠ .P) (hdata : c.data = s.lineView line)
    (hview : ∀ n, (s1.setCache core line c).lineView n = s1.lineView n) (g : Option Nat) :
    Filled s (((s1.setDir line d).setCache core line c).answered core line g) core line :=
  ⟨copied_answered h1 d hview g, by rw [cacheAt_answered, hdata], by rw [dirAt_answered]; exact hd⟩

/-- A load that finds the line in its core's cache adds its tags to the copy (10 R178). -/
theorem loadLine_held {tags : List L1Tag} {pk : Option Nat} {q : SpanRef} (h : s.holds core line = true) :
    s.loadLine core line tags pk q = .ok (s.setCache core line (CacheLine.addTags (s.cacheAt core line) tags)) := if_pos h

/-- A load of a settled line that its core cannot read gives the core a copy of it (13 R240). -/
theorem loadLine_settled (h : Settled s line) (hw : Store.wf CacheLine.none s.cache = true) (hl : line < 2 ^ 53)
    (hmiss : s.holds core line = false) (hroom : s.l1Full core = false) (tags : List L1Tag) (pk : Option Nat) (q : SpanRef) :
    ∃ t, s.loadLine core line tags pk q = .ok t ∧ Filled s t core line := by
  have hnone := h.cacheAt_none hw hl hmiss
  have hfill : ¬(fillServes (s.cacheAt core line) q = true ∨
      (isPod line = true ∧ (s.cacheAt core line).state = .I ∧ fillServes (s.proxyAt line) q = true)) := by
    rintro (hf | ⟨hp, -, hf⟩)
    · rw [hnone] at hf; cases hf
    · rw [h.proxy_no_fill hp] at hf; cases hf
  have hold : owns (s.cacheAt core line) = false := by rw [hnone]; rfl
  unfold State.loadLine
  dsimp only
  rw [if_neg (by rw [show (s.cacheAt core line).state.readable = false from hmiss]; exact Bool.false_ne_true), if_neg hfill, h.quietFor h.podOk_read]
  dsimp only
  rw [hroom, if_neg Bool.false_ne_true]
  have hstate := h.state
  simp only [List.mem_cons, List.not_mem_nil, or_false] at hstate
  have hshare (c : CacheLine) (hc : owns c = false) (n : Nat) := lineView_setCache_shared hw hl h.oneOwner hold hc n
  rcases h.copies with hS | ⟨hXO, o, c, hoc, hc⟩
  · -- every copy is shared: the line reads as the home's data
    have hunowned : ∀ e ∈ s.copiesOf line, owns e.2 = false := fun e he => owns_of_shared (hS e he)
    have hdata : s.memLine line = s.lineView line := (lineView_of_unowned hunowned).symm
    have hview (c : CacheLine) (hc : owns c = true) (hd : c.data = s.memLine line) := lineView_setCache_home hw hl (core := core) hunowned hc hd
    have hown : s.ownerOf line = none := ownerOf_eq_none hunowned
    rcases hstate with hd | hd | hd | hd <;> rw [hd]
    · dsimp only
      rw [if_pos h.pod.1]
      refine ⟨_, rfl, ?_⟩
      refine filled_of_copied .refl ?_ ?_ ?_ _
      · exact nofun
      · exact hdata
      · exact hview _ rfl rfl
    · refine ⟨_, rfl, ?_⟩
      refine filled_of_copied .refl (joined_ne_poisoned h.not_poisoned) ?_ ?_ _
      · exact hdata
      · exact hshare _ rfl
    · dsimp only
      rw [hown]
      refine ⟨_, rfl, ?_⟩
      refine filled_of_copied .refl ?_ ?_ ?_ _
      · exact nofun
      · exact hdata
      · exact hview _ rfl rfl
    · refine ⟨_, rfl, ?_⟩
      refine filled_of_copied .refl (joined_ne_poisoned h.not_poisoned) ?_ ?_ _
      · rfl
      · exact hshare _ rfl
  · -- one core holds the line alone: it keeps the data, which are the line's
    have hmem : (o, c) ∈ s.copiesOf line := by rw [hoc]; exact List.mem_cons_self ..
    obtain ⟨hat, hcne⟩ := (mem_copiesOf hw hl c).1 hmem
    have hone : ∀ e ∈ s.copiesOf line, owns e.2 = true → e = (o, c) := fun e he _ => by rw [hoc, List.mem_singleton] at he; exact he
    have howns : owns c = true := owns_of_state (hc.imp_right fun hE => .inl hE.1)
    have hown : s.ownerOf line = some (o, c) := ownerOf_eq_some hmem howns hone
    have hdata : c.data = s.lineView line := (lineView_of_owner hmem howns hone).symm
    have ho : o ≠ core := by rintro rfl; exact hcne (hat ▸ hnone)
    simp only [List.mem_cons, List.not_mem_nil, or_false] at hXO
    rcases hXO with hd | hd <;> rw [hd]
    · dsimp only
      rw [hown]
      dsimp only
      have hsole (x : CacheLine) : OneOwner (s.setCache o line x) line := fun e he e' he' _ _ =>
        (eq_of_mem_copiesOf_sole hw hl hoc he).trans (eq_of_mem_copiesOf_sole hw hl hoc he').symm
      have hmine (x : CacheLine) : owns ((s.setCache o line x).cacheAt core line) = false := by
        rw [cacheAt_setCache_line hl, if_neg (Ne.symm ho)]; exact hold
      rcases hc with hM | ⟨hE, hclean⟩
      · rw [if_pos hM]
        have hdown : Copied s (s.setCache o line { c with state := .O }) :=
          .setCache (lineView_setCache_same hw (by rw [hat]; exact hcne) (fun hn => by cases congrArg CacheLine.state hn)
            (by rw [hat, howns]; rfl) (by rw [hat]))
        refine ⟨_, rfl, ?_⟩
        refine filled_of_copied hdown (joined_ne_poisoned ?_) ?_ ?_ _
        · exact nofun
        · exact hdata
        · exact lineView_setCache_shared (wf_setCache hw _) hl (hsole _) (hmine _) rfl
      · rw [if_neg (by rw [hE]; exact nofun)]
        have hdown : Copied s (s.setCache o line { c with state := .S }) :=
          .setCache (lineView_setCache_clean hw hl hoc (owns_of_shared rfl) (hdata.symm.trans hclean))
        refine ⟨_, rfl, ?_⟩
        refine filled_of_copied hdown (joined_ne_poisoned (joined_ne_poisoned ?_)) ?_ ?_ _
        · exact nofun
        · exact hdata
        · exact lineView_setCache_shared (wf_setCache hw _) hl (hsole _) (hmine _) rfl
    · refine ⟨_, rfl, ?_⟩
      refine filled_of_copied .refl (joined_ne_poisoned h.not_poisoned) ?_ ?_ _
      · rfl
      · exact hshare _ rfl

end Sys2Proof.Machine
end

section
/-!
PROOFS. The loads (11 R187, R190, R192): the transaction of their line, what they answer, and O15.
-/

namespace Sys2Proof.Machine

open State

/-! ## One line of a load -/

/-- The line's data as a core's load sees them: its own copy's, where it holds one (13 R231). -/
def nowAt (s : State) (core line : Nat) : LineData := if s.holds core line then (s.cacheAt core line).data else s.lineView line

theorem failedFor_eq_none {s : State} {line : Nat} (h : (s.cacheAt s.here.core line).failed = none) : s.failedFor line = none := by
  unfold failedFor
  dsimp only
  rw [h, ite_self]

theorem scLine_of_not_stamped {m : MemMod} (h : stamped m = false) (s : State) (line : Nat) : s.scLine m line = some s := by
  unfold scLine
  rw [h]
  rfl

theorem addTags_data (c : CacheLine) (ts : List L1Tag) : (CacheLine.addTags c ts).data = c.data := rfl

section Step

variable {s : State} {line : Nat} {m : MemMod} {size : Nat} {addr : Nat → Dword} {ps : Phys} {a : Acc'} {p : Nat × Xlat × Option (Nat × Nat)}
  {rest : Phys} (hmine : ps.filter (fun q => q.2.1.pa / 128 == line) = p :: rest) (hfail : (a.s.cacheAt a.s.here.core line).failed = none)
  (hreach : a.s.unreachable p.2.1.pa = false)

/-- The values of the lanes of a line with these data. -/
def lineVals (size : Nat) (mine : Phys) (d : LineData) : List (Nat × Nat) := mine.map (fun q => (q.1, lineBytes d (q.2.1.pa % 128) size))

include hmine hfail in
/-- A load whose core holds the line reads the core's copy (13 R231). -/
theorem loadStep_hit (hst : stamped m = false) (hro : m.order ≠ 5#3) (hhit : a.s.holds a.s.here.core line = true) : loadStep m size addr ps a line =
    { a with
      s := (a.s.setCache a.s.here.core line (CacheLine.addTags (a.s.cacheAt a.s.here.core line) (tagsFor a.s.asid (addr p.1) p.2.1))).count a.s.here.core 23 1
      vals := a.vals ++ lineVals size (p :: rest) (a.s.cacheAt a.s.here.core line).data } := by
  have hdead : fillServes (a.s.cacheAt a.s.here.core line) a.s.me = false := by
    unfold holds at hhit
    unfold fillServes
    cases hc : (a.s.cacheAt a.s.here.core line).state <;> rw [hc] at hhit <;> first | cases hhit; done | rfl
  unfold loadStep
  simp only [hmine, failedFor_eq_none hfail, beq_eq_false_iff_ne.2 hro, hhit, hdead, loadLine_held, scLine_of_not_stamped hst]
  simp [cacheAt_setCache_self, addTags_data, lineVals]

section Miss

variable (hst : stamped m = false) (hmiss : a.s.holds a.s.here.core line = false)
  (hdead : fillServes (a.s.cacheAt a.s.here.core line) a.s.me = false) (hpod : isPod line = true → fillServes (a.s.proxyAt line) a.s.me = false)
  {t : State} (hsound : (t.dirAt line).state ≠ .P)

include hmine hfail hreach hst hmiss hdead hpod hsound

/-- A load whose core gets a copy reads that copy. -/
theorem loadStep_fill (hro : m.order ≠ 5#3) (hhint : m.hint ≠ 3#3)
    (hans : a.s.loadLine a.s.here.core line (tagsFor a.s.asid (addr p.1) p.2.1) (some a.s.here.paddock) a.s.me = .ok t) :
    let u := traceHome a.s t line a.s.here.core (some a.s.here.paddock) a.s.span.lastStop .getS
    loadStep m size addr ps a line = { a with
      s := u.count a.s.here.core 24 1, vals := a.vals ++ lineVals size (p :: rest) (u.cacheAt a.s.here.core line).data } := by
  unfold loadStep
  simp only [hmine, failedFor_eq_none hfail, beq_eq_false_iff_ne.2 hro, beq_eq_false_iff_ne.2 hhint, hmiss, hreach, hdead, hans,
    scLine_of_not_stamped hst]
  cases hp : isPod line <;> simp_all [lineVals]

/-- A load that is served from L2 reads the line as the device does (11 R185). -/
theorem loadStep_home (hro : m.order ≠ 5#3) (hhint : m.hint = 3#3)
    (hans : a.s.loadHome (corePtr a.s.here.core) line (some a.s.here.paddock) = .ok t) :
    let u := traceHome a.s t line a.s.here.core (some a.s.here.paddock) a.s.span.lastStop .getS
    loadStep m size addr ps a line = { a with
      s := u.count a.s.here.core 24 1, vals := a.vals ++ lineVals size (p :: rest) (u.lineView line) } := by
  unfold loadStep
  simp only [hmine, failedFor_eq_none hfail, beq_eq_false_iff_ne.2 hro, hhint, hmiss, hreach, hdead, hans, scLine_of_not_stamped hst]
  cases hp : isPod line <;> simp_all [lineVals]

end Miss

include hmine hfail hreach in
/-- A load on the read-only path reads the core's read-only copy (11 R190). -/
theorem loadStep_ro {t : State} (hro : m.order = 5#3) (hsound : (t.dirAt line).state ≠ .P) (hans : a.s.loadRo line = .ok t) :
    loadStep m size addr ps a line = { a with s := t, vals := a.vals ++ lineVals size (p :: rest) (t.roCopy line) } := by
  have hst : stamped m = false := by
    unfold stamped
    rw [hro]
    rfl
  unfold loadStep
  simp only [hmine, failedFor_eq_none hfail, hro, hreach, hans, scLine_of_not_stamped hst]
  simp [hsound, lineVals]

end Step

/-! ## The line of a load that is at hand -/

/-- What a load of lanes that share one line has come to: the state, and the lanes' values of the line's data. -/
def loadedAcc (s u : State) (S : Lanes) (addr : Nat → Dword) (pa : Nat → Nat) (size : Nat) (d : LineData) : Acc' :=
  { begunAcc s S addr 0 with s := u, vals := (lanesOf S).map (fun l => (l, lineBytes d (pa l % 128) size)) }

/-- Is a read-only copy of the line the issuing core's, for its launch (11 R190). -/
def State.roMine (s : State) (line : Nat) (c : RoCopy) : Bool := c.core == s.here.core && c.line == line && c.launch == s.here.launchKey
/-- The read-only copy of the line that the issuing core has for its launch. -/
def State.roAt (s : State) (line : Nat) : Option RoCopy := s.ro.find? (s.roMine line)
/-- s with one read-only copy more. -/
def State.withRo (s : State) (c : RoCopy) : State := { s with ro := s.ro ++ [c] }

theorem State.roCopy_eq (s : State) (line : Nat) : s.roCopy line = ((s.roAt line).map (·.data)).getD 0 := rfl

theorem State.roMine_withRo (s : State) (line : Nat) (c : RoCopy) : (s.withRo c).roMine line = s.roMine line := rfl

theorem copied_withRo (s : State) (c : RoCopy) : Copied s (s.withRo c) :=
  .of_view rfl fun n => lineView_congr (copiesOf_congr (s := s) (t := s.withRo c) rfl n) (memLine_congr (s := s) (t := s.withRo c) rfl n)

/-- A load on the read-only path takes the core's copy for its launch, or makes one of the line at hand (11 R190). -/
theorem loadRo_ok {s : State} {line : Nat} (hsound : (s.dirAt line).state ≠ .P ∧ s.podFailed line = false)
    (hread : (s.roAt line).isSome = true ∨ s.atHand line = true) : ∃ t, s.loadRo line = .ok t ∧ (t.dirAt line).state ≠ .P ∧ Copied s t ∧
      t.roCopy line = ((s.roAt line).map (·.data)).getD (s.handView line) := by
  have hany : s.ro.any (fun c => c.core == s.here.core && c.line == line && c.launch == s.here.launchKey) = (s.roAt line).isSome :=
    Bool.eq_iff_iff.2 (by rw [State.roAt, List.find?_isSome, List.any_eq_true]; rfl)
  unfold loadRo
  dsimp only
  rw [hany]
  cases hcopy : s.roAt line with
  | some c =>
    refine ⟨s, rfl, hsound.1, .refl, ?_⟩
    rw [State.roCopy_eq, hcopy]
    rfl
  | none =>
    have hhand : s.atHand line = true := hread.resolve_left (by rw [hcopy]; exact Bool.false_ne_true)
    rw [if_neg (by simp), if_neg (by simp [hsound]), hhand]
    refine ⟨s.withRo ⟨s.here.core, line, s.here.launchKey, s.handView line⟩, rfl, hsound.1, copied_withRo .., ?_⟩
    have hfind : (s.withRo ⟨s.here.core, line, s.here.launchKey, s.handView line⟩).roAt line =
        some ⟨s.here.core, line, s.here.launchKey, s.handView line⟩ := by
      rw [State.roAt, State.roMine_withRo, State.withRo, List.find?_append, show s.ro.find? (s.roMine line) = none from hcopy]
      simp [State.roMine]
    rw [State.roCopy_eq, hfind]
    rfl

section Load

variable {s : State} {S : Lanes} {m : MemMod} {size : Nat} {addr : Nat → Dword} {pa : Nat → Nat} {line : Nat} {x : Nat → Xlat}

/-- The lanes of an access that has begun, all of which share its line. -/
theorem OneLine.phys_filter {acc : State.Access} (h : OneLine s S addr size acc false pa line) (hx : ∀ l ∈ lanesOf S, (x l).pa = pa l) :
    (physOf S x).filter (fun q => q.2.1.pa / 128 == line) = physOf S x ∧
      ∃ l ls, lanesOf S = l :: ls ∧ physOf S x = (l, x l, none) :: ls.map (fun l => (l, x l, none)) ∧ s.unreachable (x l).pa = false := by
  have hfits : ∀ l ∈ lanesOf S, (x l).pa / 128 = line ∧ s.unreachable (x l).pa = false := by
    intro l hl
    obtain ⟨-, -, hline, -, hreach, -⟩ := h.fits l ((mem_lanesOf S l).1 hl).1 ((mem_lanesOf S l).1 hl).2
    rw [hx l hl]
    exact ⟨hline, hreach⟩
  constructor
  · rw [List.filter_eq_self]
    intro q hq
    obtain ⟨l, hl, rfl⟩ := List.mem_map.1 hq
    exact beq_iff_eq.2 (hfits l hl).1
  · obtain ⟨l, ls, hls⟩ := List.exists_cons_of_ne_nil (lanesOf_ne_nil h.some)
    exact ⟨l, ls, hls, by rw [physOf, hls]; rfl, (hfits l (by rw [hls]; exact List.mem_cons_self ..)).2⟩

theorem lineVals_physOf (hx : ∀ l ∈ lanesOf S, (x l).pa = pa l) (d : LineData) :
    lineVals size (physOf S x) d = (lanesOf S).map (fun l => (l, lineBytes d (pa l % 128) size)) := by
  unfold lineVals physOf
  rw [List.map_map]
  exact List.map_congr_left fun l hl => by simp [hx l hl]

/-- A load that is served from L2 of a settled line answers its core, and changes nothing else. -/
theorem loadHome_settled (h : Settled s line) (p : BitVec 13) (pk : Option Nat) : s.loadHome p line pk = .ok (s.answeredTo p line) := by
  unfold loadHome
  rw [h.not_reserved, if_neg Bool.false_ne_true, h.quietFor h.podOk_read]
  dsimp only
  rw [if_neg h.not_drift]

variable (h : OneLine s S addr size .read false pa line) (hx : ∀ l ∈ lanesOf S, (x l).pa = pa l)
include h hx

/-- A load of lanes that share one line, which the core holds or which is settled, reads it (11 R187). -/
theorem loadStep_reads (hst : stamped m = false) (hro : m.order ≠ 5#3) (hread : s.holds s.here.core line = true ∨ Settled s line) :
    ∃ u, loadStep m size addr (physOf S x) (begunAcc s S addr 0) line = loadedAcc s u S addr pa size (nowAt s s.here.core line) ∧ Copied s u := by
  obtain ⟨hfilter, l, ls, -, hcons, hreach⟩ := h.phys_filter hx
  have hmine := hfilter.trans hcons
  have hacc (u : State) (d : LineData) : ({ begunAcc s S addr 0 with
      s := u, vals := (begunAcc s S addr 0).vals ++ lineVals size ((l, x l, none) :: ls.map (fun l => (l, x l, none))) d } : Acc') =
      loadedAcc s u S addr pa size d := by
    rw [← hcons, lineVals_physOf hx]
    rfl
  have hfail : ((begunAcc s S addr 0).s.cacheAt (begunAcc s S addr 0).s.here.core line).failed = none := h.whole.2
  have hw : Store.wf CacheLine.none s.cache = true := h.canon.cache
  cases hhit : s.holds s.here.core line with
  | true =>
    rw [nowAt, if_pos hhit]
    refine ⟨_, (loadStep_hit hmine hfail hst hro hhit).trans (hacc _ _), ?_⟩
    have hheld : s.cacheAt s.here.core line ≠ CacheLine.none := by
      intro hn
      rw [holds, hn] at hhit
      cases hhit
    have htags : CacheLine.addTags (s.cacheAt s.here.core line) (tagsFor s.asid (addr l) (x l)) ≠ CacheLine.none := by
      intro hn
      have hstate := congrArg CacheLine.state hn
      rw [holds, show (s.cacheAt s.here.core line).state = .I from hstate] at hhit
      cases hhit
    exact (Copied.setCache (lineView_setCache_same hw hheld htags rfl rfl)).trans (.of_traced (count_traced ..))
  | false =>
    have hset : Settled s line := hread.resolve_left (by rw [hhit]; exact Bool.false_ne_true)
    have hnone := hset.cacheAt_none hw h.small hhit
    have hdead : fillServes ((begunAcc s S addr 0).s.cacheAt s.here.core line) s.me = false := by
      show fillServes (s.cacheAt s.here.core line) s.me = false
      rw [hnone]
      rfl
    have hpod : isPod line = true → fillServes (s.proxyAt line) s.me = false := fun hp => hset.proxy_no_fill hp _
    rw [nowAt, hhit, if_neg Bool.false_ne_true]
    by_cases hhint : m.hint = 3#3
    · have hans := loadHome_settled hset (corePtr s.here.core) (some s.here.paddock)
      have hheard := Heard.answeredTo s (corePtr s.here.core) line
      have htrace := traceHome_traced s (s.answeredTo (corePtr s.here.core) line) line s.here.core (some s.here.paddock) s.span.lastStop .getS
      have hall := Copied.trans (.of_heard hheard) (.of_traced htrace)
      rw [← hall.view line]
      refine ⟨_, (loadStep_home hmine hfail hreach hst hhit hdead hpod ?_ hro hhint hans).trans (hacc _ _), ?_⟩
      · rw [hheard.dirAt]; exact hset.not_poisoned
      · exact hall.trans (.of_traced (count_traced ..))
    · obtain ⟨t, hans, hfilled⟩ := loadLine_settled hset hw h.small hhit h.room (tagsFor s.asid (addr l) (x l)) (some s.here.paddock) s.me
      have htrace := traceHome_traced s t line s.here.core (some s.here.paddock) s.span.lastStop .getS
      rw [← hfilled.data, ← (Heard.of_traced (line := line) htrace).cacheAt]
      refine ⟨_, (loadStep_fill hmine hfail hreach hst hhit hdead hpod hfilled.sound hro hhint hans).trans (hacc _ _), ?_⟩
      exact (hfilled.copied.trans (.of_traced htrace)).trans (.of_traced (count_traced ..))

/-- A load on the read-only path of a line that is at hand, or of which the core has a read-only copy, reads that copy (11 R190). -/
theorem loadStep_reads_ro (hro : m.order = 5#3) (hread : (s.roAt line).isSome = true ∨ s.atHand line = true) :
    ∃ u, loadStep m size addr (physOf S x) (begunAcc s S addr 0) line =
      loadedAcc s u S addr pa size (((s.roAt line).map (·.data)).getD (s.handView line)) ∧ Copied s u := by
  obtain ⟨hfilter, l, ls, -, hcons, hreach⟩ := h.phys_filter hx
  have hmine := hfilter.trans hcons
  have hfail : ((begunAcc s S addr 0).s.cacheAt (begunAcc s S addr 0).s.here.core line).failed = none := h.whole.2
  obtain ⟨t, hans, hsound, hcopied, hcopy⟩ := loadRo_ok h.sound hread
  refine ⟨t, (loadStep_ro hmine hfail hreach hro hsound hans).trans ?_, hcopied⟩
  rw [hcopy, ← hcons, lineVals_physOf hx]
  rfl

end Load

end Sys2Proof.Machine
end

section
/-!
PROOFS. What a load answers (11 R187, R190, R192): O15 and O17.
-/

namespace Sys2Proof.Machine

open State

/-! ## The end of an access all of whose lanes have passed -/

theorem faultSet_nil : faultSet [] = 0 := by
  refine lanes_ext fun l hl => ?_
  rw [faultSet, laneIn_lanesWhere _ _ hl]
  simp [laneIn]

/-- An access without a fault, of which nothing is awaited, ends as a result with an optional counter does (04 R72). -/
theorem finishCounted_of_done {a : Acc'} (hwaits : a.waits = []) (hbad : a.bad = []) (hprog : a.s.memProg = none) (hne : a.s.lanes ≠ 0)
    {k : BitVec 3} (hk : k = 7#3 ∨ (k.toNat < 6 ∧ a.s.span.kc k.toNat < 63)) (ps : Phys) (addr : Nat → Dword) (dests : List RegName)
    (wr : Nat → Nat → List RegWrite) :
    finishCounted (a, ps) addr k dests wr = a.s.counted k a.s.lanes dests (a.vals.flatMap fun v => wr v.1 v.2) := by
  have hraise (u : State) (c : Nat → Byte) (tv : Nat → Dword) : u.raiseL 0 c tv = u.retire := if_pos rfl
  have hall : a.s.lanes &&& ~~~(0 : Lanes) = a.s.lanes := BitVec.and_allOnes
  unfold finishCounted counted
  dsimp only
  rw [if_neg (not_not.2 hwaits), memOver_of_none hprog, hbad, faultSet_nil, hall, if_neg hne, hraise]
  split
  · rfl
  · next h7 =>
    rw [if_neg (Nat.not_le.2 (hk.resolve_left h7).2)]
    rfl

/-- The same where there are no register results. -/
theorem finish_of_done {a : Acc'} (hwaits : a.waits = []) (hbad : a.bad = []) (hprog : a.s.memProg = none) (ps : Phys) (addr : Nat → Dword) :
    State.finish (a, ps) addr = done a.s := by
  unfold State.finish
  rw [if_neg (not_not.2 hwaits), memOver_of_none hprog, hbad, faultSet_nil]
  exact congrArg Host.Outcome.next (if_pos rfl)

/-! ## The results of a load (11 R187) -/

/-- The writes of w registers from d on in the lanes of a set. -/
def lanesWrites (L : Lanes) (d : BitVec 7) (w : Nat) (f : Nat → Nat → Word) : List RegWrite :=
  (lanesOf L).flatMap (fun l => (List.range w).map (fun i => .v (d.toNat + i) l (f i l)))

theorem ofLane_of_mem_lanesWrites {L : Lanes} {d : BitVec 7} {w : Nat} {f : Nat → Nat → Word} {a : RegWrite} (h : a ∈ lanesWrites L d w f) :
    a.OfLane := by
  obtain ⟨l, hl, ha⟩ := List.mem_flatMap.1 h
  obtain ⟨i, -, rfl⟩ := List.mem_map.1 ha
  exact ⟨_, l, _, rfl, ((mem_lanesOf L l).1 hl).1⟩

theorem mem_lanesWrites {L : Lanes} {d : BitVec 7} {w : Nat} {f : Nat → Nat → Word} (n l : Nat) (x : Word) :
    .v n l x ∈ lanesWrites L d w f ↔ (d.toNat ≤ n ∧ n < d.toNat + w ∧ laneIn L l) ∧ x = f (n - d.toNat) l := by
  unfold lanesWrites
  rw [List.mem_flatMap]
  constructor
  · rintro ⟨m, hm, ha⟩
    obtain ⟨i, hi, heq⟩ := List.mem_map.1 ha
    obtain ⟨rfl, rfl, rfl⟩ := RegWrite.v.inj heq
    have hi := List.mem_range.1 hi
    exact ⟨⟨by omega, by omega, ((mem_lanesOf L m).1 hm).2⟩, by rw [Nat.add_sub_cancel_left]⟩
  · rintro ⟨⟨hlo, hhi, hl⟩, rfl⟩
    have hlt : l < 32 := Nat.lt_of_not_le fun h => by rw [laneIn_ge _ l h] at hl; cases hl
    refine ⟨l, (mem_lanesOf L l).2 ⟨hlt, hl⟩, List.mem_map.2 ⟨n - d.toNat, List.mem_range.2 (by omega), ?_⟩⟩
    rw [Nat.add_sub_cancel' hlo]

theorem span_of_wg {s u : State} (hw : u.wg = s.wg) (hf : u.focus = s.focus) : u.span = s.span := by
  unfold State.span State.spanAt State.wgAt
  rw [hw, hf]

theorem Copied.focus {s u : State} (h : Copied s u) : u.focus = s.focus := by rw [h.rest]; rfl

theorem Copied.span {s u : State} (h : Copied s u) : u.span = s.span := span_of_wg h.wg h.focus

/-- Values loaded after copies have changed are the answer of a load. -/
theorem loadResult_of_copied {s u : State} (h : Copied s u) {k : BitVec 3} (hk : k = 7#3 ∨ (k.toNat < 6 ∧ s.span.kc k.toNat < 63)) (d : BitVec 7)
    (w : Nat) (f : Nat → Nat → Word) : LoadResult (u.counted k s.lanes (vN w d) (lanesWrites s.lanes d w f)) s k d w f := by
  have hspan := h.span
  have hfocus := h.focus
  have hlanes : u.lanes = s.lanes := by unfold State.lanes; rw [hfocus]
  by_cases h7 : k = 7#3
  · subst h7
    obtain ⟨honly, -⟩ := writeRegs_span u u.focus.g u.focus.sp (lanesWrites s.lanes d w f) fun a ha => (ofLane_of_mem_lanesWrites ha).ne_t
    refine ⟨_, if_pos rfl, readsOnly_of_copied h (honly.onlySpan.trans (onlySpan_updSpan ..)), fun _ halive => ?_, fun hne => absurd rfl hne⟩
    obtain ⟨t, ht, ⟨-, hret⟩, hvr⟩ := vecResult_counted_none u (S := s.lanes) (dests := vN w d) (fun a ha => ofLane_of_mem_lanesWrites ha)
      (mem_lanesWrites (L := s.lanes) (d := d) (w := w) (f := f)) (by rw [hspan]; exact halive)
    rw [hspan, hlanes, hfocus] at hret
    rw [hspan] at hvr
    obtain rfl := Host.Outcome.next.inj ((if_pos rfl).symm.trans ht)
    exact ⟨hret, hvr⟩
  · have hlow : u.span.kc k.toNat < 63 := by rw [hspan]; exact (hk.resolve_left h7).2
    obtain ⟨t, ht, ⟨honly, hret⟩, hkc⟩ := countedResult_counted u (L := s.lanes) (dests := vN w d) (ws := lanesWrites s.lanes d w f) h7 hlow
    rw [hspan, hlanes, hfocus] at hret
    rw [hspan] at hkc
    exact ⟨t, ht, readsOnly_of_copied h honly, fun h => absurd h h7, fun _ => ⟨hret, hkc⟩⟩

section Load

variable {s : State} {S : Lanes} {m : MemMod} {size : Nat} {addr : Nat → Dword} {pa : Nat → Nat} {line : Nat}

/-- A load of lanes that share one line is that line's transaction. -/
theorem doLoad_oneLine (h : OneLine s S addr size .read false pa line) : ∃ x : Nat → Xlat, (∀ l ∈ lanesOf S, (x l).pa = pa l) ∧
    s.doLoad S m size addr = (loadStep m size addr (physOf S x) (begunAcc s S addr 0) line, physOf S x) := by
  obtain ⟨x, hx, hstart⟩ := h.start
  refine ⟨x, hx, ?_⟩
  unfold doLoad
  dsimp only
  rw [addrOr_of_none h.fresh, hstart]
  have hfar : ¬farKey 0 ≤ line := by
    have := h.small
    unfold farKey
    omega
  dsimp only
  rw [List.foldl_cons, List.foldl_nil, if_neg hfar]

end Load

/-- A load of lanes that share one line answers with their bytes of the data that the line's transaction has read. -/
theorem load_result {s : State} {k : BitVec 3} {i d : BitVec 7} {b : BitVec 6} {m : MemMod} {size w : Nat} {sx : Bool} {pa : Nat → Nat} {line : Nat}
    {data : LineData} {f : Nat → Nat → Word} (h : OneLine s s.lanes (s.laneAddr b i m.off) size .read false pa line)
    (hk : k = 7#3 ∨ (k.toNat < 6 ∧ s.span.kc k.toNat < 63))
    (hstep : ∀ x : Nat → Xlat, (∀ l ∈ lanesOf s.lanes, (x l).pa = pa l) → ∃ u, loadStep m size (s.laneAddr b i m.off) (physOf s.lanes x)
      (begunAcc s s.lanes (s.laneAddr b i m.off) 0) line = loadedAcc s u s.lanes (s.laneAddr b i m.off) pa size data ∧ Copied s u)
    (hw : (size + 3) / 4 = w)
    (hf : ∀ l ∈ lanesOf s.lanes, loadWrites size sx d.toNat l (lineBytes data (pa l % 128) size) =
      (List.range w).map (fun i => .v (d.toNat + i) l (f i l))) : LoadResult (load size sx k i b d m s) s k d w f := by
  subst hw
  obtain ⟨x, hx, hload⟩ := doLoad_oneLine (m := m) h
  obtain ⟨u, hstep, hcopied⟩ := hstep x hx
  have hlanes : u.lanes = s.lanes := by unfold State.lanes; rw [hcopied.focus]
  have hprog : u.memProg = none := by
    unfold State.memProg
    rw [hcopied.span, hlanes]
    exact h.fresh
  have hws : (loadedAcc s u s.lanes (s.laneAddr b i m.off) pa size data).vals.flatMap (fun v => loadWrites size sx d.toNat v.1 v.2) =
      lanesWrites s.lanes d ((size + 3) / 4) f := by
    show ((lanesOf s.lanes).map _).flatMap _ = _
    rw [List.flatMap_map]
    exact List.flatMap_congr hf
  unfold load
  dsimp only
  rw [counterFull_eq_false hk, if_neg Bool.false_ne_true, hload, hstep]
  have hend := finishCounted_of_done (a := loadedAcc s u s.lanes (s.laneAddr b i m.off) pa size data) rfl rfl hprog
    (by rw [show (loadedAcc s u s.lanes (s.laneAddr b i m.off) pa size data).s.lanes = s.lanes from hlanes]; exact h.some)
    (k := k) (by rw [show (loadedAcc s u s.lanes (s.laneAddr b i m.off) pa size data).s.span = s.span from hcopied.span]; exact hk)
  rw [hend, hws]
  show LoadResult (u.counted k u.lanes _ _) s k d _ f
  rw [hlanes]
  exact loadResult_of_copied hcopied hk d _ f

/-- The registers that an element of whole words gives a lane (11 R187). -/
theorem loadWrites_words {size : Nat} (h : ¬size < 4) (sx : Bool) (d l x : Nat) :
    loadWrites size sx d l x = (List.range (size / 4)).map (fun i => .v (d + i) l (BitVec.ofNat 32 (x / 2 ^ (32 * i)))) := by
  rw [loadWrites, if_neg h]
  unfold State.elemWrites
  simp only [Nat.shiftRight_eq_div_pow]

/-- Settles O15: the line's transaction reads the core's own copy, a copy that it gets, or L2, or the read-only copy; every line then reads as
before. -/
theorem loadsRead : Obligations.LoadsRead := by
  unfold Obligations.LoadsRead
  constructor
  · intro s k i d b m pa line ok now x readable hst hro hread hk
    have hsettled : s.holds s.here.core line = true ∨ Settled s line := hread.imp_right (Or.rec LineFree.settled And.left)
    have go {size w : Nat} {f : Nat → Nat → Word} (sx : Bool) (h : ok size) (hw : (size + 3) / 4 = w)
        (hf : ∀ l ∈ lanesOf s.lanes, loadWrites size sx d.toNat l (x size l) = (List.range w).map (fun i => .v (d.toNat + i) l (f i l))) :
        LoadResult (load size sx k i b d m s) s k d w f :=
      load_result h hk (fun _ hx => loadStep_reads h hx hst hro hsettled) hw hf
    refine ⟨fun h => ⟨go false h rfl fun l _ => rfl, go true h rfl fun l _ => rfl⟩, fun h => ⟨go false h rfl fun l _ => rfl, go true h rfl fun l _ => rfl⟩,
      fun h => go false h rfl fun l _ => ?_, fun h => go false h rfl fun l _ => ?_, fun h => go false h rfl fun l _ => ?_⟩
    · rw [loadWrites_words (by decide)]
      simp
    · exact loadWrites_words (by decide) ..
    · exact loadWrites_words (by decide) ..
  · intro s i d b m pa line hro h mine now
    have go {data : LineData} (hread : (s.roAt line).isSome = true ∨ s.atHand line = true)
        (hdata : ((s.roAt line).map (·.data)).getD (s.handView line) = data) :
        LoadResult (load 4 false 7 i b d m s) s 7 d 1 (fun _ l => BitVec.ofNat 32 (lineBytes data (pa l % 128) 4)) :=
      load_result h (.inl rfl) (fun _ hx => hdata ▸ loadStep_reads_ro h hx hro hread) rfl fun l _ => by
        rw [loadWrites_words (by decide)]
        simp
    refine ⟨fun c hc => go ?_ ?_, fun hc hhand => go (.inr hhand) ?_⟩
    · exact .inl (by rw [show s.roAt line = some c from hc]; rfl)
    · rw [show s.roAt line = some c from hc]; rfl
    · rw [show s.roAt line = none from hc]; rfl

end Sys2Proof.Machine
end

section
/-!
PROOFS. Bytes of a line (11 R187): which they are after some are replaced, and after the stores of several lanes.
-/

namespace Sys2Proof.Machine

open State

theorem pow_256 (n : Nat) : 256 ^ n = 2 ^ (8 * n) := by rw [Nat.pow_mul]

/-- A byte of a line of which n bytes have been replaced. -/
theorem lineByte_setLineBytes (d : LineData) {off n b : Nat} (x : Nat) (hb : b < 128) :
    lineByte (setLineBytes d off n x) b = if off ≤ b ∧ b < off + n then BitVec.ofNat 8 (x / 256 ^ (b - off)) else lineByte d b := by
  refine BitVec.eq_of_getLsbD_eq fun i hi => ?_
  have hbit (y : LineData) : (lineByte y b).getLsbD i = y.getLsbD (8 * b + i) := by simp [lineByte, hi]
  have hk : 8 * b + i < 1024 := by omega
  rw [hbit]
  unfold setLineBytes
  simp only [BitVec.getLsbD_or, BitVec.getLsbD_and, BitVec.getLsbD_not, BitVec.getLsbD_shiftLeft, BitVec.getLsbD_ofNat, pow_256,
    Nat.testBit_mod_two_pow, Nat.testBit_two_pow_sub_one, hk]
  by_cases hin : off ≤ b ∧ b < off + n
  · have hlo : ¬8 * b + i < 8 * off := by omega
    have hhi : 8 * b + i - 8 * off < 8 * n := by omega
    have hsum : i + 8 * (b - off) = 8 * b + i - 8 * off := by omega
    have hlt : 8 * b + i - 8 * off < 1024 := by omega
    rw [if_pos hin, BitVec.getLsbD_ofNat, Nat.testBit_div_two_pow, hsum]
    simp [hlo, hhi, hlt, hi]
  · rw [if_neg hin, hbit]
    by_cases hlo : 8 * b + i < 8 * off
    · simp [hlo]
    · have hhi : ¬8 * b + i - 8 * off < 8 * n := by omega
      simp [hhi]

section Stores

variable {size : Nat} {o val : Nat → Nat}

/-- The stores of lanes of which none writes a byte leave it. -/
theorem lineByte_stores_outside (ls : List Nat) (d : LineData) {b : Nat} (hb : b < 128) (h : ∀ l ∈ ls, ¬(o l ≤ b ∧ b < o l + size)) :
    lineByte (ls.foldl (fun d l => setLineBytes d (o l) size (val l)) d) b = lineByte d b := by
  induction ls generalizing d with
  | nil => rfl
  | cons l ls ih =>
    rw [List.foldl_cons, ih _ fun m hm => h m (List.mem_cons_of_mem _ hm), lineByte_setLineBytes _ _ hb, if_neg (h l (List.mem_cons_self ..))]

/-- The last store of a byte stands. -/
theorem lineByte_stores_last (a c : List Nat) (d : LineData) {l b : Nat} (hb : b < 128) (hl : o l ≤ b ∧ b < o l + size)
    (h : ∀ m ∈ c, ¬(o m ≤ b ∧ b < o m + size)) :
    lineByte ((a ++ l :: c).foldl (fun d l => setLineBytes d (o l) size (val l)) d) b = BitVec.ofNat 8 (val l / 256 ^ (b - o l)) := by
  rw [List.foldl_append, List.foldl_cons, lineByte_stores_outside c _ hb h, lineByte_setLineBytes _ _ hb, if_pos hl]

end Stores

theorem pairwise_lanesOf (S : Lanes) : (lanesOf S).Pairwise (· < ·) := List.pairwise_lt_range.filter _

/-- The stores of the lanes of a set to aligned places of one line: at one address the highest lane stands (11 R187). -/
theorem stored_foldl {S : Lanes} {pa val : Nat → Nat} {size line : Nat} (hsize : 0 < size) (hdiv : size ∣ 128)
    (hpa : ∀ l ∈ lanesOf S, pa l / 128 = line ∧ pa l % 128 % size = 0) (x : LineData) :
    Stored x ((lanesOf S).foldl (fun d l => setLineBytes d (pa l % 128) size (val l)) x) S pa size val := by
  constructor
  · intro l j hl hlane hj hlast
    have hmem := (mem_lanesOf S l).2 ⟨hl, hlane⟩
    obtain ⟨hline, halign⟩ := hpa l hmem
    have hfit : pa l % 128 + size ≤ 128 := by
      obtain ⟨k, hk⟩ := hdiv
      obtain ⟨q, hq⟩ := Nat.dvd_of_mod_eq_zero halign
      have hlt : size * q < size * k := by rw [← hk, ← hq]; exact Nat.mod_lt _ (by decide)
      have hle : size * (q + 1) ≤ size * k := Nat.mul_le_mul_left _ (Nat.lt_of_mul_lt_mul_left hlt)
      rw [hq]
      exact hle.trans (Nat.le_of_eq hk.symm)
    obtain ⟨a, c, hsplit⟩ := List.append_of_mem hmem
    have hlater : ∀ m ∈ c, l < m := by
      have hp := pairwise_lanesOf S
      rw [hsplit, List.pairwise_append] at hp
      exact (List.pairwise_cons.1 hp.2.1).1
    rw [hsplit, lineByte_stores_last a c x (by omega) ⟨by omega, by omega⟩, Nat.add_sub_cancel_left]
    rintro m hm ⟨hlo, hhi⟩
    have hmS : m ∈ lanesOf S := by rw [hsplit]; exact List.mem_append_right _ (List.mem_cons_of_mem _ hm)
    obtain ⟨hline', halign'⟩ := hpa m hmS
    obtain ⟨hm32, hmlane⟩ := (mem_lanesOf S m).1 hmS
    refine hlast m (hlater m hm) hm32 hmlane ?_
    have hsame : pa m % 128 = pa l % 128 := by
      have hq : ∀ p, p % size = 0 → p ≤ pa l % 128 + j → pa l % 128 + j < p + size → p / size = (pa l % 128 + j) / size := by
        intro p hp hle hlt
        obtain ⟨q, rfl⟩ := Nat.dvd_of_mod_eq_zero hp
        rw [Nat.mul_div_cancel_left _ hsize]
        refine (Nat.div_eq_of_lt_le ?_ ?_).symm
        · rw [Nat.mul_comm]; exact hle
        · rw [Nat.add_mul, Nat.mul_comm q, Nat.one_mul]; exact hlt
      have hm' := hq _ halign' hlo hhi
      have hl' := hq _ halign (by omega) (by omega)
      have hdivs : pa m % 128 / size = pa l % 128 / size := hm'.trans hl'.symm
      rw [← Nat.div_add_mod (pa m % 128) size, ← Nat.div_add_mod (pa l % 128) size, halign, halign', hdivs]
    omega
  · intro b hb hout
    exact lineByte_stores_outside _ _ hb fun l hl => hout l ((mem_lanesOf S l).1 hl).1 ((mem_lanesOf S l).1 hl).2

/-- Where every byte is stored, the line before does not matter. -/
theorem Stored.of_covered {x x' y : LineData} {S : Lanes} {pa val : Nat → Nat} {size : Nat} (h : Stored x y S pa size val)
    (hcovers : ∀ b, b < 128 → ∃ l, l < 32 ∧ laneIn S l ∧ pa l % 128 ≤ b ∧ b < pa l % 128 + size) : Stored x' y S pa size val := by
  refine ⟨h.1, fun b hb hout => ?_⟩
  obtain ⟨l, hl, hlane, hin⟩ := hcovers b hb
  exact absurd hin (hout l hl hlane)

/-- Stores whose bytes agree are the same stores. -/
theorem Stored.congr {x y : LineData} {S : Lanes} {pa val val' : Nat → Nat} {size : Nat} (h : Stored x y S pa size val)
    (hval : ∀ l, l < 32 → laneIn S l → ∀ j, j < size → BitVec.ofNat 8 (val' l / 256 ^ j) = BitVec.ofNat 8 (val l / 256 ^ j)) :
    Stored x y S pa size val' :=
  ⟨fun l j hl hlane hj hlast => (h.1 l j hl hlane hj hlast).trans (hval l hl hlane j hj).symm, h.2⟩

end Sys2Proof.Machine
end

section
/-!
PROOFS. A write to one line at its home or in a core's cache (13 R239, R240), and what it leaves as it was.
-/

namespace Sys2Proof.Machine

open State

/-! ## Changes of one line -/

/-- t is s but for copies, entries, memory, clocks and the trace; every line but one reads as it did, and of the proxies that line's alone may
differ, where it is another device's. -/
structure LineOnly (s t : State) (line : Nat) : Prop where
  rest : t = { s.traced t with
    cache := t.cache, dir := t.dir, mem := t.mem, lamport := t.lamport, sliceClock := t.sliceClock, driftOrder := t.driftOrder, proxy := t.proxy }
  pod : ∀ n, (n ≠ line ∨ isPod line = false) → t.proxyAt n = s.proxyAt n
  view : ∀ n, n ≠ line → t.lineView n = s.lineView n

namespace LineOnly

variable {s t u : State} {line : Nat}

theorem trans (h1 : LineOnly s t line) (h2 : LineOnly t u line) : LineOnly s u line := by
  refine ⟨?_, fun n hn => (h2.pod n hn).trans (h1.pod n hn), fun n hn => (h2.view n hn).trans (h1.view n hn)⟩
  rw [h2.rest, h1.rest]; rfl

theorem of_heard (h : Heard s t line) : LineOnly s t line := ⟨by rw [h.rest]; rfl, h.others, fun n _ => h.lineView n⟩

theorem refl (s : State) (line : Nat) : LineOnly s s line := of_heard (.refl s line)

theorem of_proxy (h : t = { s with cache := t.cache, dir := t.dir, mem := t.mem, driftOrder := t.driftOrder })
    (hview : ∀ n, n ≠ line → t.lineView n = s.lineView n) : LineOnly s t line :=
  ⟨by rw [h]; rfl, fun n _ => by rw [h]; rfl, hview⟩

theorem setDir (s : State) (n : Nat) (d : DirEntry) : LineOnly s (s.setDir n d) line :=
  .of_proxy rfl fun m _ => lineView_congr (copiesOf_congr (s := s) (t := s.setDir n d) rfl m) (memLine_setDir d m)

theorem setCache (hl : line < 2 ^ 53) (core : Nat) (c : CacheLine) : LineOnly s (s.setCache core line c) line :=
  .of_proxy rfl fun n hn => lineView_congr (copiesOf_setCache_ne hl c hn) (memLine_setCache c n)

theorem setMemLine (s : State) (line : Nat) (d : LineData) : LineOnly s (s.setMemLine line d) line :=
  .of_proxy (by rw [setMemLine_rest]) fun n hn =>
    lineView_congr (copiesOf_congr (by rw [setMemLine_rest]) n) (memLine_setMemLine_ne s d hn)

theorem soil (s : State) (line : Nat) : LineOnly s (s.soil line) line := by
  unfold State.soil
  split
  · next hp =>
    refine ⟨rfl, fun n hn => ?_, fun n _ => ?_⟩
    · rw [proxyAt_setProxy, if_neg (hn.resolve_right (by simp [hp]))]
    · exact lineView_congr (copiesOf_congr (s := s) (t := s.setProxy line _) rfl n) (memLine_congr (s := s) (t := s.setProxy line _) rfl n)
  · exact refl s line

/-- A change of the copies of a line alone. -/
theorem of_copies (h : t = { s with cache := t.cache }) (hcopies : ∀ n, n ≠ line → t.copiesOf n = s.copiesOf n) : LineOnly s t line :=
  .of_proxy (by rw [h]) fun n hn => lineView_congr (hcopies n hn) (memLine_congr (by rw [h]) n)

theorem wg (h : LineOnly s t line) : t.wg = s.wg := by rw [h.rest]; rfl
theorem focus (h : LineOnly s t line) : t.focus = s.focus := by rw [h.rest]; rfl

end LineOnly

/-! ## Copies that go -/

section Copies

variable {s : State} {line n : Nat}

theorem copiesOf_dropCopies_ne (hn : n ≠ line) : (s.dropCopies line).copiesOf n = s.copiesOf n := by
  unfold copiesOf dropCopies
  rw [List.filter_filter]
  refine congrArg _ (List.filter_congr fun e _ => ?_)
  rw [Bool.eq_iff_iff, Bool.and_eq_true, beq_iff_eq, bne_iff_ne]
  exact ⟨And.left, fun he => ⟨he, he ▸ hn⟩⟩

theorem copiesOf_dropCopies : (s.dropCopies line).copiesOf line = [] := by
  unfold copiesOf dropCopies
  rw [List.filter_filter, List.map_eq_nil_iff, List.filter_eq_nil_iff]
  intro e _
  simp

theorem dropCopies_lineOnly : LineOnly s (s.dropCopies line) line := .of_copies rfl fun _ hn => copiesOf_dropCopies_ne hn

/-- What is left of a core's copy of a line that every core gives up (13 R240). -/
def outCopy (line : Nat) (e : Nat × CacheLine) : Option (Nat × CacheLine) :=
  if e.1 % 2 ^ 53 != line then some e
  else match e.2.state with
    | .IS | .IM | .ID | .MI | .EI | .II => some e
    | .SM | .OM => some (e.1, { e.2 with state := .IM, haveData := false, haveGrant := false })
    | _ => none

theorem cache_outCopies : (s.outCopies line).cache = s.cache.filterMap (outCopy line) := rfl

theorem outCopy_key {e e' : Nat × CacheLine} (h : outCopy line e = some e') : e'.1 = e.1 := by
  unfold outCopy at h
  split at h
  · cases h; rfl
  · split at h <;> cases h <;> rfl

theorem outCopy_of_ne {e : Nat × CacheLine} (h : e.1 % 2 ^ 53 ≠ line) : outCopy line e = some e := if_pos (bne_iff_ne.2 h)

theorem outCopy_moving {e e' : Nat × CacheLine} (hline : e.1 % 2 ^ 53 = line) (h : outCopy line e = some e') :
    e.2.state.moving = true ∧ e'.2.state.moving = true := by
  unfold outCopy at h
  rw [if_neg (by rw [bne_iff_ne, hline]; exact not_not.2 rfl)] at h
  split at h <;> cases h <;> simp_all [CacheState.moving]

theorem copiesOf_outCopies_ne (hn : n ≠ line) : (s.outCopies line).copiesOf n = s.copiesOf n := by
  unfold copiesOf
  rw [cache_outCopies]
  refine congrArg _ ?_
  induction s.cache with
  | nil => rfl
  | cons e m ih =>
    rw [List.filterMap_cons, List.filter_cons]
    by_cases he : e.1 % 2 ^ 53 = n
    · rw [outCopy_of_ne (by rw [he]; exact hn), if_pos (beq_iff_eq.2 he)]
      dsimp only
      rw [List.filter_cons, if_pos (beq_iff_eq.2 he), ih]
    · rw [if_neg (by simpa using he)]
      cases hout : outCopy line e with
      | none => exact ih
      | some e' =>
        dsimp only
        rw [List.filter_cons, if_neg (by rw [outCopy_key hout]; simpa using he), ih]

/-- What is left of a line that every core gives up is on the way, as it was before. -/
theorem copiesOf_outCopies {e : Nat × CacheLine} (h : e ∈ (s.outCopies line).copiesOf line) :
    e.2.state.moving = true ∧ ∃ e' ∈ s.copiesOf line, e'.2.state.moving = true := by
  obtain ⟨x, hx, rfl⟩ := List.mem_map.1 h
  obtain ⟨hmem, hline⟩ := List.mem_filter.1 hx
  rw [cache_outCopies, List.mem_filterMap] at hmem
  obtain ⟨y, hy, hout⟩ := hmem
  rw [beq_iff_eq, outCopy_key hout] at hline
  obtain ⟨hold, hnew⟩ := outCopy_moving hline hout
  exact ⟨hnew, _, List.mem_map.2 ⟨y, List.mem_filter.2 ⟨hy, beq_iff_eq.2 hline⟩, rfl⟩, hold⟩

theorem outCopies_lineOnly : LineOnly s (s.outCopies line) line := .of_copies rfl fun _ hn => copiesOf_outCopies_ne hn

theorem Settled.copiesOf_outCopies (h : Settled s line) : (s.outCopies line).copiesOf line = [] := by
  rw [List.eq_nil_iff_forall_not_mem]
  intro e he
  obtain ⟨-, e', he', hmoving⟩ := Machine.copiesOf_outCopies he
  rw [not_moving_of_settled_copy (h.copy_state he')] at hmoving
  cases hmoving

end Copies

/-! ## A write is seen (14 R264) -/

/-- The monitor of a span after a write to a line. -/
def triggered (line : Nat) (m : Option Monitor) : Option Monitor := m.map (fun m => if m.line = line then { m with triggered := true } else m)

/-- A span after a write to a line: its monitor, where it is armed on it, is triggered. -/
def Span.triggered (line : Nat) (sp : Span) : Span :=
  match sp.mon with
  | some m => if m.line = line then { sp with mon := some { m with triggered := true } } else sp
  | none => sp

theorem Span.triggered_eq (line : Nat) (sp : Span) : sp.triggered line = { sp with mon := Machine.triggered line sp.mon } := by
  obtain ⟨lane, v, sr, p, j, k, mq, mqr, tmask, trapMask, nested, stopNext, clauses, pending, traps, deferred, wait, tileWait, memWait, mon, node, lastStop⟩ := sp
  unfold Span.triggered Machine.triggered
  cases mon with
  | none => rfl
  | some m => dsimp only [Option.map_some]; split <;> rfl

theorem wgAt_trigger {s : State} (hc : Canonical s) (line g : Nat) :
    (s.trigger line).wgAt g = { s.wgAt g with span := Store.mapVals Span.fresh (fun _ => Span.triggered line) (s.wgAt g).span } :=
  Store.get_mapVals_of_wf Wg.none (fun _ w => { w with span := Store.mapVals Span.fresh (fun _ => Span.triggered line) w.span }) s.wg hc.wg g rfl

theorem spanAt_trigger {s : State} (hc : Canonical s) (line g n : Nat) :
    (s.trigger line).spanAt g n = { s.spanAt g n with mon := triggered line (s.spanAt g n).mon } := by
  rw [← Span.triggered_eq]
  unfold State.spanAt Wg.spanAt
  rw [wgAt_trigger hc]
  exact Store.get_mapVals_of_wf Span.fresh (fun _ => Span.triggered line) _ (hc.span g) n rfl

/-- t is s after a write of one line, which then reads as y: the line's monitors are triggered, and what LineOnly names may differ. -/
structure Wrote (s t : State) (line : Nat) (y : LineData) : Prop where
  rest : t = { s.traced t with
    wg := t.wg, cache := t.cache, dir := t.dir, mem := t.mem, lamport := t.lamport, sliceClock := t.sliceClock, driftOrder := t.driftOrder
    proxy := t.proxy }
  wg : t.wg = (s.trigger line).wg
  pod : ∀ n, (n ≠ line ∨ isPod line = false) → t.proxyAt n = s.proxyAt n
  view : ∀ n, n ≠ line → t.lineView n = s.lineView n
  data : t.lineView line = y

namespace Wrote

variable {s t u : State} {line : Nat} {y : LineData}

theorem of_lineOnly (h : LineOnly s t line) (hdata : t.lineView line = y) : Wrote s (t.trigger line) line y := by
  have hview (n : Nat) : (t.trigger line).lineView n = t.lineView n :=
    lineView_congr (copiesOf_congr (s := t) (t := t.trigger line) rfl n) (memLine_congr (s := t) (t := t.trigger line) rfl n)
  refine ⟨?_, ?_, h.pod, fun n hn => (hview n).trans (h.view n hn), (hview line).trans hdata⟩
  · unfold State.trigger
    rw [h.rest]
    rfl
  · unfold State.trigger
    rw [h.wg]

theorem heard (h1 : Wrote s t line y) (h2 : Heard t u line) : Wrote s u line y := by
  refine ⟨?_, h2.wg.trans h1.wg, fun n hn => (h2.others n hn).trans (h1.pod n hn), fun n hn => (h2.lineView n).trans (h1.view n hn),
    (h2.lineView line).trans h1.data⟩
  rw [h2.rest, h1.rest]; rfl

theorem traced (h1 : Wrote s t line y) (h2 : u = t.traced u) : Wrote s u line y := h1.heard (.of_traced h2)

theorem focus (h : Wrote s t line y) : t.focus = s.focus := by rw [h.rest]; rfl

theorem spanAt (h : Wrote s t line y) (hc : Canonical s) (g n : Nat) :
    t.spanAt g n = { s.spanAt g n with mon := triggered line (s.spanAt g n).mon } := by
  rw [← spanAt_trigger hc]
  unfold State.spanAt State.wgAt
  rw [h.wg]

theorem wgAt (h : Wrote s t line y) (hc : Canonical s) (g : Nat) : t.wgAt g = { s.wgAt g with span := (t.wgAt g).span } := by
  have hg : t.wgAt g = (s.trigger line).wgAt g := by unfold State.wgAt; rw [h.wg]
  rw [hg, wgAt_trigger hc]

theorem span (h : Wrote s t line y) (hc : Canonical s) : t.span = { s.span with mon := triggered line s.span.mon } := by
  unfold State.span
  rw [h.focus]
  exact h.spanAt hc _ _

end Wrote

/-- After a write of one line, a change of the issuing span alone that keeps its monitor. -/
theorem writesLine_of_wrote {s u t : State} {line : Nat} {y : LineData} (hc : Canonical s) (h1 : Wrote s u line y) (h2 : OnlySpan u t)
    (hmon : t.span.mon = u.span.mon) : WritesLine s t line ∧ t.lineView line = y := by
  have hfocus : t.focus = u.focus := by rw [h2.rest]
  have hview (n : Nat) : t.lineView n = u.lineView n :=
    lineView_congr (copiesOf_congr (by rw [h2.rest]) n) (memLine_congr (by rw [h2.rest]) n)
  have hgroup (g : Nat) : t.wgAt g = { u.wgAt g with span := (t.wgAt g).span } := by
    by_cases hg : g = u.focus.g
    · have hhere := h2.here
      unfold State.here at hhere
      rw [hfocus] at hhere
      rw [hg]
      exact hhere
    · rw [h2.groups g hg]
  have hspan (g n : Nat) (hgn : g ≠ s.focus.g ∨ n ≠ s.focus.sp) : t.spanAt g n = u.spanAt g n := by
    rw [← h1.focus] at hgn
    by_cases hg : g = u.focus.g
    · have hother := h2.spans n (hgn.resolve_left (not_not.2 hg))
      unfold State.here at hother
      rw [hfocus] at hother
      rw [hg]
      exact hother
    · unfold State.spanAt
      rw [h2.groups g hg]
  refine ⟨⟨?_, fun n hn => ?_, fun n hn => (hview n).trans (h1.view n hn), fun g => ?_, fun g n hgn => ?_, fun g n => ?_⟩, (hview line).trans h1.data⟩
  · rw [h2.rest, h1.rest]; rfl
  · rw [← h1.pod n hn]
    unfold State.proxyAt
    rw [h2.rest]
  · rw [hgroup, h1.wgAt hc]
  · rw [hspan g n hgn, h1.spanAt hc]
  · show (t.spanAt g n).mon = triggered line (s.spanAt g n).mon
    by_cases hgn : g = s.focus.g ∧ n = s.focus.sp
    · obtain ⟨rfl, rfl⟩ := hgn
      have hmine : t.spanAt s.focus.g s.focus.sp = t.span := by unfold State.span; rw [hfocus, h1.focus]
      rw [hmine, hmon, h1.span hc]
      rfl
    · rw [hspan g n (by tauto), h1.spanAt hc]

/-- An instruction without results that has written its line is complete. -/
theorem lineResult_of_wrote {s u : State} {line : Nat} {y : LineData} (hc : Canonical s) (h : Wrote s u line y) (d : BitVec 7)
    (f : Nat → Nat → Word) : LineResult (done u) s line y d 0 f := by
  have hspan : u.retire.span = (u.span).movedOn s.lanes s.focus.next := by
    rw [span_retire, h.focus]
    unfold State.lanes
    rw [h.focus]
  have honly : OnlySpan u u.retire := onlySpan_updSpan u _
  obtain ⟨hwrites, hdata⟩ := writesLine_of_wrote hc h honly (by rw [hspan]; rfl)
  refine ⟨_, rfl, hwrites, hdata, ?_, fun n l hl => ?_⟩
  · rw [hspan, h.span hc]
    rfl
  · rw [if_neg (by omega), hspan, Span.movedOn_vr, h.span hc]
    rfl

end Sys2Proof.Machine
end

section
/-!
PROOFS. The stores (11 R187-R189, R192): the transaction of their line, what they answer, O16 and O17.
-/

namespace Sys2Proof.Machine

open State

variable {s : State} {line : Nat}

/-! ## A settled line is written -/

theorem ownerOf_mem {o : Nat} {c : CacheLine} (h : s.ownerOf line = some (o, c)) : (o, c) ∈ s.copiesOf line ∧ owns c = true :=
  ⟨List.mem_of_find?_eq_some h, by simpa using List.find?_some h⟩

/-- The data that the home of a settled line has after it has taken its owner's (13 R239). -/
def recalled (s : State) (line : Nat) : State :=
  match s.ownerOf line with
  | some (_, c) => if c.state = CacheState.E ∨ c.state = CacheState.EI then s else (s.setMemLine line c.data).soil line
  | none => s

theorem copiesOut_eq (h : (s.dirAt line).state ≠ .D) (pk : Option Nat) :
    s.copiesOut line pk = ((recalled s line).outCopies line).freeDir line .I := by
  unfold copiesOut
  dsimp only
  rw [if_neg h]
  rfl

theorem mem_soil (s : State) (line : Nat) : (s.soil line).mem = s.mem := by
  unfold soil
  split <;> rfl

theorem cache_soil (s : State) (line : Nat) : (s.soil line).cache = s.cache := by
  unfold soil
  split <;> rfl

theorem cache_recalled : (recalled s line).cache = s.cache := by
  unfold recalled
  split
  · split
    · rfl
    · rw [cache_soil, setMemLine_rest]
  · rfl

theorem recalled_lineOnly : LineOnly s (recalled s line) line := by
  unfold recalled
  split
  · split
    · exact .refl ..
    · exact (LineOnly.setMemLine ..).trans (.soil ..)
  · exact .refl ..

/-- The home of a settled line has the line's data once its owner has given them up. -/
theorem Settled.memLine_recalled (h : Settled s line) : (recalled s line).memLine line = s.lineView line := by
  unfold recalled lineView
  cases hown : s.ownerOf line with
  | none => rfl
  | some e =>
    obtain ⟨o, c⟩ := e
    obtain ⟨hmem, howns⟩ := ownerOf_mem hown
    dsimp only
    rcases h.copies with hs | ⟨-, o', c', hoc, hc⟩
    · rw [owns_of_shared (hs _ hmem)] at howns
      cases howns
    · rw [hoc, List.mem_singleton] at hmem
      obtain ⟨rfl, rfl⟩ := Prod.mk.inj hmem
      rcases hc with hM | ⟨hE, hclean⟩
      · rw [if_neg (by rw [hM]; exact nofun)]
        exact (memLine_congr (mem_soil ..) line).trans (memLine_setMemLine ..)
      · rw [if_pos (.inl hE), hclean]

theorem memLine_outCopies (n : Nat) : (s.outCopies line).memLine n = s.memLine n :=
  memLine_congr (s := s) (t := s.outCopies line) rfl n

/-- The copies of a settled line are out: no core holds it, its home has its data, and the entry is idle. -/
theorem Settled.copiesOut (h : Settled s line) (pk : Option Nat) :
    let t := s.copiesOut line pk
    LineOnly s t line ∧ t.copiesOf line = [] ∧ t.memLine line = s.lineView line ∧ (t.dirAt line).state = .I := by
  dsimp only
  rw [copiesOut_eq h.not_drift]
  refine ⟨(recalled_lineOnly.trans outCopies_lineOnly).trans (.setDir ..), ?_, ?_, ?_⟩
  · have hcopies : (recalled s line).outCopies line = { recalled s line with cache := (s.outCopies line).cache } := by
      show ({ recalled s line with cache := ((recalled s line).outCopies line).cache } : State) = _
      rw [cache_outCopies, cache_recalled]
      rfl
    rw [← h.copiesOf_outCopies]
    exact copiesOf_congr (by rw [hcopies]; rfl) line
  · unfold freeDir
    rw [memLine_setDir, memLine_outCopies, h.memLine_recalled]
  · unfold freeDir
    rw [dirAt_setDir, if_pos rfl]

/-- An access performed at the home of a settled line, for any party, changes the line's bytes (13 R239). -/
theorem homeLine_settled (h : Settled s line) (p : BitVec 13) (pk : Option Nat) (f : LineData → LineData) :
    ∃ t, s.homeLine p line pk f = .ok t ∧ Wrote s t line (f (s.lineView line)) := by
  have hroom : s.roomAt line p pk = s.copiesOut line pk := if_neg (by rw [h.not_reserved]; exact Bool.false_ne_true)
  obtain ⟨honly, hnone, hmem, hidle⟩ := h.copiesOut pk
  unfold homeLine quietHome
  rw [h.not_reserved, if_neg Bool.false_ne_true, h.quietFor h.podOk_home]
  dsimp only
  rw [hroom, if_neg (by rw [hidle]; exact nofun), hmem]
  refine ⟨_, rfl, .heard (.of_lineOnly ((honly.trans (.setMemLine ..)).trans (.soil ..)) ?_) (.answeredTo ..)⟩
  have hcache : (((s.copiesOut line pk).setMemLine line (f (s.lineView line))).soil line).copiesOf line = [] := by
    rw [← hnone]
    exact copiesOf_congr (by rw [cache_soil, setMemLine_rest]) line
  rw [lineView_of_unowned fun e he => by rw [hcache] at he; cases he]
  exact (memLine_congr (mem_soil ..) line).trans (memLine_setMemLine ..)

/-- A store whose core holds the line alone changes the bytes of its copy (13 R240). -/
theorem storeLine_held (h : Settled s line) (hw : Store.wf CacheLine.none s.cache = true) (hl : line < 2 ^ 53) {core : Nat}
    (hhit : (s.cacheAt core line).state = .M ∨ (s.cacheAt core line).state = .E) (tags : List L1Tag) (pk : Option Nat) (f : LineData → LineData) :
    ∃ t, s.storeLine core line tags pk f = .ok t ∧ Wrote s t line (f (s.lineView line)) := by
  have hne : s.cacheAt core line ≠ CacheLine.none := by
    intro hn
    rw [hn] at hhit
    simp [CacheLine.none] at hhit
  have howns : owns (s.cacheAt core line) = true := owns_of_state (hhit.imp_right .inl)
  have hmem := (mem_copiesOf hw hl _).2 ⟨rfl, hne⟩
  have hview : s.lineView line = (s.cacheAt core line).data :=
    lineView_of_owner hmem howns fun e he hown => h.oneOwner _ he _ hmem hown howns
  have hsole : s.copiesOf line = [(core, s.cacheAt core line)] := by
    rcases h.copies with hs | ⟨-, o, c, hoc, -⟩
    · rw [owns_of_shared (hs _ hmem)] at howns
      cases howns
    · rw [hoc, List.mem_singleton] at hmem
      rw [hoc, hmem]
  refine ⟨_, if_pos hhit, .of_lineOnly (.setCache hl core _) ?_⟩
  have hnew (c : CacheLine) (hc : owns c = true) : (s.setCache core line c).lineView line = c.data :=
    lineView_of_owner ((mem_copiesOf_setCache hw hl c core c).2 (by rw [if_pos rfl]; exact ⟨rfl, fun hn => by rw [hn] at hc; cases hc⟩)) hc
      fun e he _ => eq_of_mem_copiesOf_sole hw hl hsole he
  rw [hnew _ rfl, hview]

/-- A store of a settled line that its core does not hold alone makes it the core's alone (13 R240). -/
theorem storeLine_settled (h : Settled s line) (hw : Store.wf CacheLine.none s.cache = true) (hl : line < 2 ^ 53) {core : Nat}
    (hmiss : ¬((s.cacheAt core line).state = .M ∨ (s.cacheAt core line).state = .E)) (hroom : s.l1Full core = false) (tags : List L1Tag)
    (pk : Option Nat) (f : LineData → LineData) :
    ∃ t, s.storeLine core line tags pk f = .ok t ∧ Wrote s t line (f (s.lineView line)) := by
  unfold storeLine
  dsimp only
  rw [if_neg hmiss, h.quietFor (n := .write) h.pod.1]
  dsimp only
  rw [if_neg (by rw [hroom]; exact fun hn => absurd hn.2 Bool.false_ne_true), if_neg h.not_drift, if_neg h.not_poisoned]
  refine ⟨_, rfl, .heard (.of_lineOnly ((dropCopies_lineOnly.trans (.setDir ..)).trans (.setCache hl core _)) ?_) (.answered ..)⟩
  have hw' (d : DirEntry) : Store.wf CacheLine.none ((s.dropCopies line).setDir line d).cache = true := Store.wf_filter _ _ _ hw
  have hnone (d : DirEntry) : ((s.dropCopies line).setDir line d).copiesOf line = [] := by
    rw [← copiesOf_dropCopies (s := s)]
    exact copiesOf_congr rfl line
  have hnew (d : DirEntry) (c : CacheLine) (hc : owns c = true) : (((s.dropCopies line).setDir line d).setCache core line c).lineView line = c.data := by
    refine lineView_of_owner ((mem_copiesOf_setCache (hw' d) hl c core c).2 (by rw [if_pos rfl]; exact ⟨rfl, fun hn => by rw [hn] at hc; cases hc⟩)) hc ?_
    rintro ⟨o, x⟩ he -
    rw [mem_copiesOf_setCache (hw' d) hl, hnone] at he
    split at he
    · next ho => rw [ho, he.1]
    · cases he
  rw [hnew _ _ rfl]

/-! ## One line of a store -/

/-- The transaction of a store's line: a whole line at its home, with .l2only at the home, else in the core's cache (11 R185, R188, R189). -/
def storeAns (s : State) (m : MemMod) (size : Nat) (addr : Nat → Dword) (val : Nat → Nat) (p : Nat × Xlat × Option (Nat × Nat)) (mine : Phys)
    (line : Nat) : HomeAns :=
  let core := s.here.core
  let pk := some s.here.paddock
  let hit := ((s.cacheAt core line).state = .M ∨ (s.cacheAt core line).state = .E) ∧ !coversLine size mine
  if coversLine size mine then s.wrLineHome (corePtr core) line pk (storeData size mine val 0)
  else if m.hint = 3#3 ∧ ¬hit then s.homeLine (corePtr core) line pk (storeData size mine val)
  else s.storeLine core line (tagsFor s.asid (addr p.1) p.2.1) pk (storeData size mine val)

/-- Stores through local addresses are counted in no window (16 R291). -/
theorem countLine_eq (s : State) (size line : Nat) {addr : Nat → Dword} {mine : Phys}
    (h : ∀ p ∈ mine, p.2.2 = none ∧ (addr p.1).getLsbD 63 = false) : s.countLine size line addr mine = s := by
  unfold countLine
  have key : ∀ xs : Phys, (∀ p ∈ xs, p.2.2 = none ∧ (addr p.1).getLsbD 63 = false) → ∀ a : State,
      xs.foldl (fun a p => (a.countStore s.here.paddock s.here.serial (addr p.1) p.2.2 size).countPod s.here.paddock s.here.serial
        s.here.core (addr p.1) line size) a = a := by
    intro xs
    induction xs with
    | nil => intro _ _; rfl
    | cons p xs ih =>
      intro hx a
      obtain ⟨hwin, h63⟩ := hx p (List.mem_cons_self ..)
      have hone : (a.countStore s.here.paddock s.here.serial (addr p.1) p.2.2 size).countPod s.here.paddock s.here.serial s.here.core
          (addr p.1) line size = a := by
        rw [hwin]
        unfold countPod
        rw [h63]
        rfl
      rw [List.foldl_cons, hone]
      exact ih (fun q hq => hx q (List.mem_cons_of_mem _ hq)) a
  exact key _ (fun p hp => h p (List.mem_filter.1 hp).1) s

section Step

variable {m : MemMod} {size : Nat} {addr : Nat → Dword} {val : Nat → Nat} {ps : Phys} {a : Acc'}
  {p : Nat × Xlat × Option (Nat × Nat)} {rest : Phys} (hmine : ps.filter (fun q => q.2.1.pa / 128 == line) = p :: rest)
  (hsent : a.sent = []) (hfail : (a.s.cacheAt a.s.here.core line).failed = none) (hreach : a.s.unreachable p.2.1.pa = false)

include hmine hsent hfail hreach

/-- A store whose line's transaction completes changes nothing more but the trace. -/
theorem storeStep_done (hst : stamped m = false) (hlocal : ∀ q ∈ p :: rest, q.2.2 = none ∧ (addr q.1).getLsbD 63 = false) {t : State}
    (hans : storeAns a.s m size addr val p (p :: rest) line = .ok t) :
    ∃ u, storeStep m size addr val ps a line = { a with s := u } ∧ u = t.traced u := by
  have hnone : sentFor a line = none := by unfold sentFor; rw [hsent]; rfl
  unfold storeAns at hans
  dsimp only at hans
  unfold storeStep
  simp only [hmine, hnone, failedFor_eq_none hfail, hreach, hans, scLine_of_not_stamped hst, countLine_eq _ size line hlocal, Option.getD_some]
  rw [if_neg (by simp), if_neg (by simp)]
  exact ⟨_, rfl, traced_trans (ite_traced rfl (traceHome_traced ..)) (count_traced ..)⟩

/-- A store of a whole line of another device is a request to the pod home (11 R189). -/
theorem storeStep_asks (hwhole : coversLine size (p :: rest) = true) (hpod : isPod line = true) :
    storeStep m size addr val ps a line = sendReq m a line (.wrLine (storeData size (p :: rest) val 0)) := by
  have hnone : sentFor a line = none := by unfold sentFor; rw [hsent]; rfl
  have hans : a.s.wrLineHome (corePtr a.s.here.core) line (some a.s.here.paddock) (storeData size (p :: rest) val 0) = .wait a.s := if_pos hpod
  unfold storeStep
  simp only [hmine, hnone, failedFor_eq_none hfail, hreach, hwhole, hans]
  simp

end Step

/-! ## The stores of lanes that share one line -/

section Store

variable {S : Lanes} {m : MemMod} {size : Nat} {addr : Nat → Dword} {pa : Nat → Nat} {x : Nat → Xlat} {val : Nat → Nat}

theorem storeData_physOf (hx : ∀ l ∈ lanesOf S, (x l).pa = pa l) (d : LineData) :
    storeData size (physOf S x) val d = (lanesOf S).foldl (fun d l => setLineBytes d (pa l % 128) size (val l)) d := by
  unfold storeData physOf
  rw [List.foldl_map]
  exact List.foldl_ext _ _ _ fun d l hl => by rw [hx l hl]

/-- Do the lanes' stores cover the whole line (11 R189). -/
def Covers (S : Lanes) (pa : Nat → Nat) (size : Nat) : Prop :=
  ∀ b, b < 128 → ∃ l, l < 32 ∧ laneIn S l ∧ pa l % 128 ≤ b ∧ b < pa l % 128 + size

theorem coversLine_physOf (hx : ∀ l ∈ lanesOf S, (x l).pa = pa l) : coversLine size (physOf S x) = true ↔ Covers S pa size := by
  unfold coversLine Covers physOf
  simp only [List.all_eq_true, List.mem_range, List.any_eq_true, List.mem_map, Bool.and_eq_true, decide_eq_true_eq]
  refine forall₂_congr fun b _ => ⟨?_, ?_⟩
  · rintro ⟨q, ⟨l, hl, rfl⟩, hlo, hhi⟩
    rw [hx l hl] at hlo hhi
    obtain ⟨h32, hlane⟩ := (mem_lanesOf S l).1 hl
    exact ⟨l, h32, hlane, hlo, hhi⟩
  · rintro ⟨l, h32, hlane, hlo, hhi⟩
    have hl := (mem_lanesOf S l).2 ⟨h32, hlane⟩
    rw [← hx l hl] at hlo hhi
    exact ⟨_, ⟨l, hl, rfl⟩, hlo, hhi⟩

variable (h : OneLine s S addr size .write false pa line) (hx : ∀ l ∈ lanesOf S, (x l).pa = pa l)
include h

/-- Each lane's place in the line is aligned. -/
theorem OneLine.places (hdiv : size ∣ 128) : ∀ l ∈ lanesOf S, pa l / 128 = line ∧ pa l % 128 % size = 0 := by
  intro l hl
  obtain ⟨-, halign, hline, hoff, -⟩ := h.fits l ((mem_lanesOf S l).1 hl).1 ((mem_lanesOf S l).1 hl).2
  refine ⟨hline, ?_⟩
  rw [hoff, Nat.mod_mod_of_dvd _ hdiv, halign]

/-- The line after the stores of the lanes. -/
theorem OneLine.stored (hsize : 0 < size) (hdiv : size ∣ 128) (d : LineData) :
    Stored d ((lanesOf S).foldl (fun d l => setLineBytes d (pa l % 128) size (val l)) d) S pa size val :=
  stored_foldl hsize hdiv (h.places hdiv) d

include hx

/-- The line's transaction of a store that no pod home performs writes the lanes' bytes. -/
theorem storeAns_settled (hset : Settled s line) (hpart : isPod line = false ∨ ¬Covers S pa size) (hsize : 0 < size) (hdiv : size ∣ 128)
    (p : Nat × Xlat × Option (Nat × Nat)) : ∃ t y, storeAns s m size addr val p (physOf S x) line = .ok t ∧ Wrote s t line y ∧
      Stored (s.lineView line) y S pa size val := by
  have hdata := storeData_physOf (size := size) (val := val) hx
  have hw := h.canon.cache
  unfold storeAns
  dsimp only
  split
  · next hwhole =>
    rw [coversLine_physOf hx] at hwhole
    have hpod : isPod line = false := hpart.resolve_right (not_not.2 hwhole)
    obtain ⟨t, hans, hwrote⟩ := homeLine_settled hset (corePtr s.here.core) (some s.here.paddock) fun _ => storeData size (physOf S x) val 0
    refine ⟨t, _, ?_, hwrote, ?_⟩
    · unfold wrLineHome
      rw [hpod, if_neg Bool.false_ne_true, if_neg hset.not_poisoned]
      exact hans
    · rw [hdata]
      exact (h.stored hsize hdiv 0).of_covered hwhole
  · next hwhole =>
    split
    · obtain ⟨t, hans, hwrote⟩ := homeLine_settled hset (corePtr s.here.core) (some s.here.paddock) (storeData size (physOf S x) val)
      refine ⟨t, _, hans, hwrote, ?_⟩
      rw [hdata]
      exact h.stored hsize hdiv _
    · have hline : ∃ t, s.storeLine s.here.core line (tagsFor s.asid (addr p.1) p.2.1) (some s.here.paddock) (storeData size (physOf S x) val) =
          .ok t ∧ Wrote s t line (storeData size (physOf S x) val (s.lineView line)) := by
        by_cases hhit : (s.cacheAt s.here.core line).state = .M ∨ (s.cacheAt s.here.core line).state = .E
        · exact storeLine_held hset hw h.small hhit ..
        · exact storeLine_settled hset hw h.small hhit h.room ..
      obtain ⟨t, hans, hwrote⟩ := hline
      refine ⟨t, _, hans, hwrote, ?_⟩
      rw [hdata]
      exact h.stored hsize hdiv _

/-- A store of lanes that share one settled line writes their bytes, unless the pod home must (11 R187, R188). -/
theorem storeStep_writes (hst : stamped m = false) (hset : Settled s line) (hpart : isPod line = false ∨ ¬Covers S pa size) (hsize : 0 < size)
    (hdiv : size ∣ 128) (arg : Dword) : ∃ u y, storeStep m size addr val (physOf S x) (begunAcc s S addr arg) line =
      { begunAcc s S addr arg with s := u } ∧ Wrote s u line y ∧ Stored (s.lineView line) y S pa size val := by
  obtain ⟨hfilter, l, ls, hls, hcons, hreach⟩ := h.phys_filter hx
  have hlocal : ∀ q ∈ physOf S x, q.2.2 = none ∧ (addr q.1).getLsbD 63 = false := by
    intro q hq
    obtain ⟨l, hl, rfl⟩ := List.mem_map.1 hq
    obtain ⟨hlt, -⟩ := h.fits l ((mem_lanesOf S l).1 hl).1 ((mem_lanesOf S l).1 hl).2
    exact ⟨rfl, (local_bits hlt).1⟩
  obtain ⟨t, y, hans, hwrote, hstored⟩ := storeAns_settled (m := m) (addr := addr) (val := val) h hx hset hpart hsize hdiv (l, x l, none)
  rw [hcons] at hlocal hans
  obtain ⟨u, hstep, htrace⟩ := storeStep_done (a := begunAcc s S addr arg) (hfilter.trans hcons) rfl h.whole.2 hreach hst hlocal hans
  exact ⟨u, y, hstep, hwrote.traced htrace, hstored⟩

end Store

end Sys2Proof.Machine
end

section
/-!
PROOFS. What a store answers (11 R187-R189, R192): O16 and O17.
-/

namespace Sys2Proof.Machine

open State

section Access

variable {s : State} {S : Lanes} {m : MemMod} {size line : Nat} {addr : Nat → Dword} {pa : Nat → Nat}

/-- A store of lanes that share one line is that line's transaction. -/
theorem doStore_oneLine (h : OneLine s S addr size .write false pa line) (arg : Dword) (val : Dword → Nat → Nat) :
    ∃ x : Nat → Xlat, (∀ l ∈ lanesOf S, (x l).pa = pa l) ∧
      s.doStore S m size addr arg val = (storeStep m size addr (val arg) (physOf S x) (begunAcc s S addr arg) line, physOf S x) := by
  obtain ⟨x, hx, hstart⟩ := h.start
  refine ⟨x, hx, ?_⟩
  unfold doStore
  dsimp only
  rw [addrOr_of_none h.fresh, hstart]
  rfl

/-- After a write of its line an instruction that had not begun before has nothing to wait for. -/
theorem Wrote.memProg {t : State} {y : LineData} (h : Wrote s t line y) (hc : Canonical s) (hprog : s.memProg = none) : t.memProg = none := by
  have hlanes : t.lanes = s.lanes := by unfold State.lanes; rw [h.focus]
  unfold State.memProg
  rw [h.span hc, hlanes]
  exact hprog

end Access

section Results

variable {s : State} {i d : BitVec 7} {b : BitVec 6} {m : MemMod} {size line : Nat} {pa : Nat → Nat}

/-- A store of lanes that share one settled line writes it (11 R187, R188). -/
theorem store_result (h : OneLine s s.lanes (s.laneAddr b i m.off) size .write false pa line) (hst : stamped m = false) (hset : Settled s line)
    (hpart : isPod line = false ∨ ¬Covers s.lanes pa size) (hsize : 0 < size) (hdiv : size ∣ 128) :
    ∃ y, Stored (s.lineView line) y s.lanes pa size (elemOf s.span size d.toNat) ∧
      LineResult (store size i b d m s) s line y d 0 (fun _ _ => 0) := by
  obtain ⟨x, hx, hstore⟩ := doStore_oneLine (m := m) h 0 (fun _ => elemOf s.span size d.toNat)
  obtain ⟨u, y, hstep, hwrote, hstored⟩ := storeStep_writes (m := m) (val := elemOf s.span size d.toNat) h hx hst hset hpart hsize hdiv 0
  refine ⟨y, hstored, ?_⟩
  unfold store
  dsimp only
  rw [hstore, hstep]
  have hend := finish_of_done (a := { begunAcc s s.lanes (s.laneAddr b i m.off) 0 with s := u }) rfl rfl (hwrote.memProg h.canon h.fresh)
    (physOf s.lanes x) (s.laneAddr b i m.off)
  rw [hend]
  exact lineResult_of_wrote h.canon hwrote d _

/-- A scalar store to a settled line writes it for the whole issue set (11 R192). -/
theorem sst64_result {b r : BitVec 6} {pa : Nat} (h : OneLine s (oneLane s) (fun _ => scalarAddr b m s) 8 .write false (fun _ => pa) line)
    (hst : stamped m = false) (hset : Settled s line) :
    ∃ y, Stored (s.lineView line) y (oneLane s) (fun _ => pa) 8 (fun _ => (s.span.sr r).toNat) ∧
      LineResult (execSst64 b r m s) s line y 0 0 (fun _ _ => 0) := by
  obtain ⟨x, hx, hstore⟩ := doStore_oneLine (m := m) h (s.span.sr r) (fun v _ => v.toNat)
  have hpart : ¬Covers (oneLane s) (fun _ => pa) 8 := by
    intro hc
    obtain ⟨_, -, -, h0⟩ := hc 0 (by decide)
    obtain ⟨_, -, -, h127⟩ := hc 127 (by decide)
    dsimp only at h0 h127
    omega
  obtain ⟨u, y, hstep, hwrote, hstored⟩ := storeStep_writes (m := m) (val := fun _ => (s.span.sr r).toNat) h hx hst hset (.inr hpart)
    (by decide) (by decide) (s.span.sr r)
  refine ⟨y, hstored, ?_⟩
  have hprog : u.memOver = u := memOver_of_none (hwrote.memProg h.canon h.fresh)
  unfold execSst64
  dsimp only
  rw [hstore, hstep, if_neg (by simp [begunAcc]), if_neg (by simp [begunAcc])]
  dsimp only
  rw [hprog]
  exact lineResult_of_wrote h.canon hwrote 0 _

end Results

/-! ## A whole line of another device (11 R189, 13 R236) -/

section Asks

variable {s : State} {S : Lanes} {m : MemMod} {size line : Nat} {addr : Nat → Dword} {pa : Nat → Nat} {val : Nat → Nat}

/-- The request for a line of another device that an issue set makes of its pod home. -/
def podRequest (s : State) (line : Nat) : Hdr :=
  { s.fromCoreFor s.here.core line (some s.me) with src := s.mySlot, dst := s.podHome line, pod := true, req := s.steps + 1, sc := false }

/-- A request for a settled line of another device leaves for its pod home (13 R236). -/
theorem sendReq_pod {a : Acc'} (hset : Settled a.s line) (hw : Store.wf CacheLine.none a.s.cache = true) (hl : line < 2 ^ 53)
    (hpod : isPod line = true) (hhome : a.s.podHome line ≠ a.s.mySlot) (hst : stamped m = false) (msg : Msg) :
    sendReq m a line msg = { a with
      s := { a.s with outbox := a.s.outbox ++ [.coh (podRequest a.s line) msg] }, waits := a.waits ++ [line]
      sent := a.sent ++ [⟨line, a.s.steps + 1, none⟩] } := by
  have hcopy : (a.s.cacheAt a.s.here.core line).state.moving = false := by
    by_cases hn : a.s.cacheAt a.s.here.core line = CacheLine.none
    · rw [hn]; rfl
    · exact not_moving_of_settled_copy (hset.copy_state ((mem_copiesOf hw hl _).2 ⟨rfl, hn⟩))
  have hproxy : (a.s.proxyAt line).state = .E ∨ (a.s.proxyAt line).state = .M := by
    have hok := hset.pod.1
    unfold podOk at hok
    rw [if_pos hpod] at hok
    simpa using hok
  have hmoving : (a.s.proxyAt line).state.moving = false := by rcases hproxy with hp | hp <;> rw [hp] <;> rfl
  have hholds : ((a.s.proxyAt line).state == .S || (a.s.proxyAt line).state == .D) = false := by
    rcases hproxy with hp | hp <;> rw [hp] <;> rfl
  unfold sendReq
  simp only [hcopy, hmoving, hholds, hpod, hst]
  simp [send, podRequest, hhome]

/-- Without an instruction that has begun there, none of the issue set waits for memory. -/
theorem memWait_filter (hprog : s.memProg = none) : s.span.memWait.filter (fun w => w.own != s.lanes) = s.span.memWait := by
  rw [List.filter_eq_self]
  intro w hw
  have := List.find?_eq_none.1 hprog w hw
  simpa using this

end Asks

/-- A request that has left, for which the issue set waits, is asked (13 R236). -/
theorem asked_of_request {s : State} {line : Nat} (hprog : s.memProg = none) (hl : line < 2 ^ 53) {k : Nat} {msg : Msg}
    {addrs : List (Nat × Dword)} {arg : Dword} {sent : List Sent} (ps : Phys) :
    Asked (.next (memWaits k ⟨{ s with outbox := s.outbox ++ [.coh (podRequest s line) msg] }, [], [], [line], arg, addrs, sent⟩ ps)) s k line msg := by
  have hnone : ({ s with outbox := s.outbox ++ [.coh (podRequest s line) msg] } : State).memProg = none := hprog
  have hline : [line].contains noLine = false := by
    rw [List.contains_cons, List.contains_nil, Bool.or_false, beq_eq_false_iff_ne]
    unfold noLine
    omega
  unfold memWaits
  dsimp only
  rw [hline, if_neg Bool.false_ne_true]
  refine ⟨_, podRequest s line, ⟨s.lanes, [], [], ps, [line], arg, addrs, sent, k⟩, rfl, onlySpan_updSpan _ _, rfl, rfl, rfl, rfl,
    Nat.succ_ne_zero _, rfl, ?_, rfl, rfl, rfl, fun n => ?_⟩
  · rw [span_updSpan]
    show ({ s.span with memWait := s.span.memWait.filter (fun w => w.own != s.lanes) ++ _, k := _ } : Span) = _
    rw [memWait_filter hprog]
    rfl
  · rw [span_updSpan, hnone]
    show Store.get 0 (if none.isNone = true ∧ k < 6 then Store.upd 0 s.span.k k (fun v => v + 1) else s.span.k) n = _
    rw [if_congr (Q := k < 6) (by simp) rfl rfl]
    exact get_counter_rises s.span.k k n

section Results

variable {s : State} {i d : BitVec 7} {b : BitVec 6} {m : MemMod} {size line : Nat} {pa : Nat → Nat}

/-- A store of a whole settled line of another device leaves for its pod home as WrLine (11 R189). -/
theorem store_asks (h : OneLine s s.lanes (s.laneAddr b i m.off) size .write false pa line) (hst : stamped m = false) (hset : Settled s line)
    (hpod : isPod line = true) (hhome : s.podHome line ≠ s.mySlot) (hcovers : Covers s.lanes pa size) (hsize : 0 < size) (hdiv : size ∣ 128) :
    ∃ y, Stored (s.lineView line) y s.lanes pa size (elemOf s.span size d.toNat) ∧ Asked (store size i b d m s) s 7 line (.wrLine y) := by
  obtain ⟨x, hx, hstore⟩ := doStore_oneLine (m := m) h 0 (fun _ => elemOf s.span size d.toNat)
  obtain ⟨hfilter, l, ls, hls, hcons, hreach⟩ := h.phys_filter hx
  have hwhole : coversLine size ((l, x l, none) :: ls.map (fun l => (l, x l, none))) = true := by
    rw [← hcons]
    exact (coversLine_physOf hx).2 hcovers
  have hstep := storeStep_asks (m := m) (addr := s.laneAddr b i m.off) (val := elemOf s.span size d.toNat)
    (a := begunAcc s s.lanes (s.laneAddr b i m.off) 0) (hfilter.trans hcons) rfl h.whole.2 hreach hwhole hpod
  have hreq := sendReq_pod (a := begunAcc s s.lanes (s.laneAddr b i m.off) 0) hset h.canon.cache h.small hpod hhome hst
    (.wrLine (storeData size ((l, x l, none) :: ls.map (fun l => (l, x l, none))) (elemOf s.span size d.toNat) 0))
  refine ⟨storeData size (physOf s.lanes x) (elemOf s.span size d.toNat) 0, ?_, ?_⟩
  · rw [storeData_physOf hx]
    exact (h.stored hsize hdiv 0).of_covered hcovers
  · unfold store
    dsimp only
    rw [hstore, hstep, hreq, hcons]
    unfold State.finish
    rw [if_pos (by simp)]
    exact asked_of_request h.fresh h.small _

end Results

/-! ## The data of an element (05 R77) -/

theorem byte_mod_pow (x : Nat) {n j : Nat} (hj : j < n) : BitVec.ofNat 8 (x % 256 ^ n / 256 ^ j) = BitVec.ofNat 8 (x / 256 ^ j) := by
  have hsplit : (256 : Nat) ^ n = 256 ^ j * 256 ^ (n - j) := by rw [← Nat.pow_add, Nat.add_sub_cancel' (Nat.le_of_lt hj)]
  have hdvd : (256 : Nat) ∣ 256 ^ (n - j) := Dvd.dvd.pow (Nat.dvd_refl _) (by omega)
  apply BitVec.eq_of_toNat_eq
  rw [BitVec.toNat_ofNat, BitVec.toNat_ofNat, hsplit, Nat.mod_mul_right_div_self]
  exact Nat.mod_mod_of_dvd _ hdvd

theorem toNat_pair_eq (sp : Span) (r l : Nat) : (sp.pair r l).toNat = (sp.vr r l).toNat + (sp.vr (r + 1) l).toNat * 2 ^ 32 := by
  rw [Span.pair, BitVec.toNat_append, ← Nat.shiftLeft_add_eq_or_of_lt (sp.vr r l).isLt, Nat.shiftLeft_eq, Nat.add_comm]

/-- Settles O16: a settled line's transaction, in the core's cache, at the home or at the pod home, has the lanes' bytes. -/
theorem storesWrite : Obligations.StoresWrite := by
  intro s i d b m pa line ok V done covers go hst hset
  have store_ok {ins : Instr} {size : Nat} {val : Nat → Nat} (hexec : exec ins s = store size i b d m s) (hsize : 0 < size) (hdiv : size ∣ 128)
      (hval : ∀ l, l < 32 → laneIn s.lanes l → ∀ j, j < size →
        BitVec.ofNat 8 (val l / 256 ^ j) = BitVec.ofNat 8 (elemOf s.span size d.toNat l / 256 ^ j)) : go ins size val := by
    refine fun h => ⟨fun hpart => ?_, fun hpod hhome hcovers => ?_⟩
    · obtain ⟨y, hstored, hresult⟩ := store_result (d := d) h hst hset hpart hsize hdiv
      exact ⟨y, hstored.congr hval, hexec ▸ hresult⟩
    · obtain ⟨y, hstored, hasked⟩ := store_asks (d := d) h hst hset hpod hhome hcovers hsize hdiv
      exact ⟨y, hstored.congr hval, hexec ▸ hasked⟩
  have small {size : Nat} (hle : size ≤ 4) : ∀ l, l < 32 → laneIn s.lanes l → ∀ j, j < size →
      BitVec.ofNat 8 (V 0 l / 256 ^ j) = BitVec.ofNat 8 (elemOf s.span size d.toNat l / 256 ^ j) := by
    intro l _ _ j hj
    unfold elemOf
    rw [if_pos hle, byte_mod_pow _ hj]
    simp [V]
  refine ⟨store_ok rfl (by decide) (by decide) (small (by decide)), store_ok rfl (by decide) (by decide) (small (by decide)),
    store_ok rfl (by decide) (by decide) (small (by decide)), store_ok rfl (by decide) (by decide) fun l _ _ j _ => ?_,
    store_ok rfl (by decide) (by decide) fun l _ _ j _ => ?_⟩
  · have hpair : elemOf s.span 8 d.toNat l = V 0 l + V 1 l := by
      show (s.span.pair d.toNat l).toNat = _
      rw [toNat_pair_eq]
      simp [V]
    rw [hpair]
  · have hgroup : elemOf s.span 16 d.toNat l = V 0 l + V 1 l + V 2 l + V 3 l := by
      show (s.span.group d.toNat l).toNat = _
      rw [toNat_group, toNat_pair_eq, toNat_pair_eq]
      simp [V, Nat.add_assoc]
      omega
    rw [hgroup]

/-! ## The scalar load (11 R192) -/

/-- A scalar load of a line that the core holds, or that is settled, reads it for the whole issue set. -/
theorem sld64_result {s : State} {k : BitVec 3} {b r : BitVec 6} {m : MemMod} {pa line : Nat}
    (h : OneLine s (oneLane s) (fun _ => scalarAddr b m s) 8 .read false (fun _ => pa) line) (hst : stamped m = false) (hro : m.order ≠ 5#3)
    (hread : s.holds s.here.core line = true ∨ Settled s line) (hk : k = 7#3 ∨ (k.toNat < 6 ∧ s.span.kc k.toNat < 63)) :
    let x := BitVec.ofNat 64 (lineBytes (nowAt s s.here.core line) (pa % 128) 8)
    ∃ t, execSld64 k b r m s = .next t ∧ ReadsOnly s t ∧
      (k = 7#3 → t.span = Span.movedOn { s.span with s := t.span.s } s.lanes s.focus.next ∧
        ∀ n, t.span.sr n = if n = r ∧ r ≠ 63#6 then x else s.span.sr n) ∧
      (k ≠ 7#3 → t.span = (s.span.addPending k.toNat s.lanes (sR r) [.s r.toNat x]).movedOn s.lanes s.focus.next) := by
  intro x
  obtain ⟨X, hX, hload⟩ := doLoad_oneLine (m := m) h
  obtain ⟨u, hstep, hcopied⟩ := loadStep_reads (m := m) h hX hst hro hread
  have hlanes : u.lanes = s.lanes := by unfold State.lanes; rw [hcopied.focus]
  have hprog : u.memOver = u := memOver_of_none (by
    unfold State.memProg
    rw [hcopied.span, hlanes]
    exact h.fresh)
  have hvals : (loadedAcc s u (oneLane s) (fun _ => scalarAddr b m s) (fun _ => pa) 8 (nowAt s s.here.core line)).vals.map
      (fun v => RegWrite.s r.toNat (BitVec.ofNat 64 v.2)) = [.s r.toNat x] := by
    show ((lanesOf (oneLane s)).map _).map _ = _
    rw [oneLane, lanesOf_twoPow (lowLane_lt s)]
    rfl
  have hexec : execSld64 k b r m s = u.counted k s.lanes (sR r) [.s r.toNat x] := by
    unfold execSld64
    dsimp only
    rw [counterFull_eq_false hk, if_neg Bool.false_ne_true, hload, hstep, if_neg (by simp [loadedAcc, begunAcc]),
      if_neg (by simp [loadedAcc, begunAcc]), hvals]
    show u.memOver.counted k s.lanes _ _ = _
    rw [hprog]
  rw [hexec]
  unfold State.counted
  by_cases h7 : k = 7#3
  · rw [if_pos h7]
    obtain ⟨honly, hspan⟩ := writeRegs_span u u.focus.g u.focus.sp [.s r.toNat x] (by simp)
    have hset : (u.writeRegs u.focus.g u.focus.sp [.s r.toNat x]).spanAt u.focus.g u.focus.sp = s.span.setS r x := by
      rw [hspan, ← hcopied.span]
      show (u.spanAt u.focus.g u.focus.sp).setS (BitVec.ofNat 6 r.toNat) x = _
      rw [BitVec.ofNat_toNat, BitVec.setWidth_eq]
      rfl
    have hret := retired_of_onlySpanAt honly hset
    obtain ⟨hend, hspan'⟩ := hret
    rw [hlanes, hcopied.focus] at hspan'
    refine ⟨_, rfl, readsOnly_of_copied hcopied hend, fun _ => ⟨?_, fun n => ?_⟩, fun h => absurd h7 h⟩
    · rw [← hcopied.focus] at hspan' ⊢
      rw [hspan', setS_rest]
      rfl
    · rw [← hcopied.focus] at hspan'
      rw [hspan']
      exact Span.sr_setS s.span r n x
  · rw [if_neg h7, if_neg (by rw [hcopied.span]; exact Nat.not_le.2 (hk.resolve_left h7).2)]
    refine ⟨_, rfl, readsOnly_of_copied hcopied ((onlySpan_updSpan ..).trans (onlySpan_updSpan ..)), fun h => absurd h h7, fun _ => ?_⟩
    rw [span_retire, span_updSpan, hcopied.span, updSpan_focus, hcopied.focus]
    exact congrArg (fun S => Span.movedOn _ S _) hlanes

/-- Settles O17: the scalar forms are the access of the issue set's lowest lane. -/
theorem scalarMemory : Obligations.ScalarMemory := by
  intro s k b r m pa line a S now x readable hst
  exact ⟨fun hro hread hk h => sld64_result h hst hro (hread.imp_right (Or.rec LineFree.settled And.left)) hk,
    fun hset h => sst64_result h hst hset⟩

end Sys2Proof.Machine
end

section
/-!
PROOFS. Drift (06 R98, R99, 11 R198, 13 R241-R246): accumulators combine in any order; the merge of a drift line; a drift reduction of lanes that share
one line; O19.
-/

namespace Sys2Proof.Machine

open State

/-! ## Accumulators in any order (06 R98, R99) -/

theorem f32Key_eq (x : Word) : f32Key x = if 2 ^ 31 ≤ x.toNat then (2 ^ 31 - 1 - (x.toNat : Int) : Int) else (x.toNat : Int) := by
  have hlow : (x.extractLsb' 0 31).toNat = x.toNat % 2 ^ 31 := by rw [BitVec.extractLsb'_toNat, Nat.shiftRight_zero]
  have hhigh : x.getLsbD 31 = decide (2 ^ 31 ≤ x.toNat) := by
    have := BitVec.msb_eq_decide x
    rwa [BitVec.msb_eq_getLsbD_last] at this
  have := x.isLt
  unfold f32Key
  rw [hlow, hhigh]
  by_cases hx : 2 ^ 31 ≤ x.toNat
  · have hmod : x.toNat = x.toNat % 2 ^ 31 + 2 ^ 31 := by omega
    rw [if_pos hx, if_pos (decide_eq_true hx)]; omega
  · rw [if_neg hx, if_neg (by rw [decide_eq_false hx]; exact Bool.false_ne_true), Nat.mod_eq_of_lt (Nat.not_le.1 hx)]

theorem f32Key_inj {a b : Word} (h : f32Key a = f32Key b) : a = b := by
  apply BitVec.eq_of_toNat_eq
  rw [f32Key_eq, f32Key_eq] at h
  split at h <;> split at h <;> omega

/-- The key of the lesser or greater of two numbers is the lesser or greater key. -/
theorem f32Key_f32MinMax {g : Bool} {a b : Word} (ha : f32NaN a = false) (hb : f32NaN b = false) :
    f32Key (f32MinMax g a b) = if g then max (f32Key a) (f32Key b) else min (f32Key a) (f32Key b) := by
  unfold f32MinMax
  rw [ha, hb, if_neg (by decide)]
  by_cases hlt : f32Key a < f32Key b
  · cases g
    · simp [hlt, hlt.le]
    · simp [hlt, hlt.le]
  · cases g
    · simp [hlt, not_lt.1 hlt]
    · simp [hlt, not_lt.1 hlt]

/-- The lesser or greater of two words is no number where one of them is none. -/
theorem f32NaN_f32MinMax (g : Bool) (a b : Word) : f32NaN (f32MinMax g a b) = (f32NaN a || f32NaN b) := by
  unfold f32MinMax
  split
  · next h => rw [h]; decide
  · next h =>
    rw [Bool.not_eq_true, Bool.or_eq_false_iff] at h
    rw [h.1, h.2]
    split
    · exact h.2
    · exact h.1

theorem f32MinMax_of_nan {g : Bool} {a b : Word} (h : (f32NaN a || f32NaN b) = true) : f32MinMax g a b = 0x7FC00000#32 := if_pos h

/-- The lesser or greater of two words does not hang on their order. -/
theorem f32MinMax_comm (g : Bool) (a b : Word) : f32MinMax g a b = f32MinMax g b a := by
  cases hn : f32NaN a || f32NaN b with
  | true => rw [f32MinMax_of_nan hn, f32MinMax_of_nan (by rw [Bool.or_comm]; exact hn)]
  | false =>
    obtain ⟨ha, hb⟩ := Bool.or_eq_false_iff.1 hn
    refine f32Key_inj ?_
    rw [f32Key_f32MinMax ha hb, f32Key_f32MinMax hb ha, max_comm, min_comm]

/-- The lesser or greater of three words does not hang on their order. -/
theorem f32MinMax_right_comm (g : Bool) (a b c : Word) : f32MinMax g (f32MinMax g a b) c = f32MinMax g (f32MinMax g a c) b := by
  cases hn : f32NaN a || f32NaN b || f32NaN c with
  | true =>
    rw [f32MinMax_of_nan (by rw [f32NaN_f32MinMax]; exact hn), f32MinMax_of_nan (by rw [f32NaN_f32MinMax, Bool.or_right_comm]; exact hn)]
  | false =>
    obtain ⟨hab, hc⟩ := Bool.or_eq_false_iff.1 hn
    obtain ⟨ha, hb⟩ := Bool.or_eq_false_iff.1 hab
    have hac : f32NaN (f32MinMax g a c) = false := by rw [f32NaN_f32MinMax, ha, hc]; rfl
    have hab : f32NaN (f32MinMax g a b) = false := by rw [f32NaN_f32MinMax, ha, hb]; rfl
    refine f32Key_inj ?_
    rw [f32Key_f32MinMax hab hc, f32Key_f32MinMax hac hb, f32Key_f32MinMax ha hb, f32Key_f32MinMax ha hc]
    cases g
    · exact min_right_comm ..
    · exact max_right_comm ..

/-- An accumulator of a least or greatest value. -/
def markAcc (x : Word) : Acc := x.setWidth 320 ||| (1#320 <<< 32)

theorem setWidth_markAcc (x : Word) : (markAcc x).setWidth 32 = x := by
  refine BitVec.eq_of_getLsbD_eq fun i hi => ?_
  simp [markAcc, hi]

theorem markAcc_ne_zero (x : Word) : markAcc x ≠ 0 := by
  intro h
  have := congrArg (fun y : Acc => y.getLsbD 32) h
  simp [markAcc] at this

/-- Combine two accumulators of a least or greatest value; zero holds none. -/
def minMaxAcc (g : Bool) (a b : Acc) : Acc := if a = 0 then b else if b = 0 then a else markAcc (f32MinMax g (a.setWidth 32) (b.setWidth 32))

theorem minMaxAcc_zero_right (g : Bool) (a : Acc) : minMaxAcc g a 0 = a := by
  unfold minMaxAcc
  split
  · next h => exact h.symm
  · rfl

theorem minMaxAcc_of_ne {g : Bool} {a b : Acc} (ha : a ≠ 0) (hb : b ≠ 0) :
    minMaxAcc g a b = markAcc (f32MinMax g (a.setWidth 32) (b.setWidth 32)) := by
  rw [minMaxAcc, if_neg ha, if_neg hb]

theorem minMaxAcc_right_comm (g : Bool) (a b c : Acc) : minMaxAcc g (minMaxAcc g a b) c = minMaxAcc g (minMaxAcc g a c) b := by
  by_cases hb : b = 0
  · subst hb; rw [minMaxAcc_zero_right, minMaxAcc_zero_right]
  by_cases hc : c = 0
  · subst hc; rw [minMaxAcc_zero_right, minMaxAcc_zero_right]
  by_cases ha : a = 0
  · subst ha
    have hzero (x : Acc) : minMaxAcc g 0 x = x := if_pos rfl
    rw [hzero, hzero, minMaxAcc_of_ne hb hc, minMaxAcc_of_ne hc hb, f32MinMax_comm]
  · rw [minMaxAcc_of_ne ha hb, minMaxAcc_of_ne ha hc, minMaxAcc_of_ne (markAcc_ne_zero _) hc, minMaxAcc_of_ne (markAcc_ne_zero _) hb,
      setWidth_markAcc, setWidth_markAcc, f32MinMax_right_comm]

/-- Combine two accumulators of a sum: the exact sum, and which classes of values have come. -/
def sumAcc (a b : Acc) : Acc := ((a ||| b) &&& (0xF#320 <<< 316)) ||| (a.setWidth 316 + b.setWidth 316).setWidth 320

theorem setWidth_sumAcc (a b : Acc) : (sumAcc a b).setWidth 316 = a.setWidth 316 + b.setWidth 316 := by
  refine BitVec.eq_of_getLsbD_eq fun i hi => ?_
  unfold sumAcc
  rw [BitVec.getLsbD_setWidth, BitVec.getLsbD_or, BitVec.getLsbD_and, BitVec.getLsbD_shiftLeft, BitVec.getLsbD_setWidth]
  simp [hi, show i < 320 by omega]

theorem or_sumAcc (a b c : Acc) : (sumAcc a b ||| c) &&& (0xF#320 <<< 316) = (a ||| b ||| c) &&& (0xF#320 <<< 316) := by
  refine BitVec.eq_of_getLsbD_eq fun i hi => ?_
  unfold sumAcc
  simp only [BitVec.getLsbD_and, BitVec.getLsbD_or, BitVec.getLsbD_shiftLeft, BitVec.getLsbD_setWidth]
  by_cases h : i < 316
  · simp [h]
  · have hout : (a.setWidth 316 + b.setWidth 316).getLsbD i = false := BitVec.getLsbD_of_ge _ _ (Nat.not_lt.1 h)
    simp only [hout, h, hi, decide_true, decide_false, Bool.not_false, Bool.true_and, Bool.and_false, Bool.or_false]
    cases (0xF#320).getLsbD (i - 316)
    · simp
    · simp

theorem sumAcc_right_comm (a b c : Acc) : sumAcc (sumAcc a b) c = sumAcc (sumAcc a c) b := by
  have hstep (x y : Acc) : sumAcc (sumAcc a x) y =
      ((a ||| x ||| y) &&& (0xF#320 <<< 316)) ||| (a.setWidth 316 + x.setWidth 316 + y.setWidth 316).setWidth 320 := by
    rw [sumAcc, or_sumAcc, setWidth_sumAcc]
  rw [hstep, hstep, BitVec.or_assoc, BitVec.or_assoc, BitVec.or_comm b c, BitVec.add_assoc, BitVec.add_assoc, BitVec.add_comm (b.setWidth 316)]

/-- Sums modulo q change places. -/
theorem modAcc_right_comm (q : Dword) (a b c : Acc) :
    BitVec.ofNat 320 (((BitVec.ofNat 320 ((a.toNat + b.toNat) % q.toNat)).toNat + c.toNat) % q.toNat) =
      BitVec.ofNat 320 (((BitVec.ofNat 320 ((a.toNat + c.toNat) % q.toNat)).toNat + b.toNat) % q.toNat) := by
  by_cases hq : q.toNat = 0
  · rw [hq]
    simp only [Nat.mod_zero, BitVec.toNat_ofNat]
    apply BitVec.eq_of_toNat_eq
    rw [BitVec.toNat_ofNat, BitVec.toNat_ofNat, Nat.mod_add_mod, Nat.mod_add_mod, Nat.add_right_comm]
  · have hsmall (x : Nat) : (BitVec.ofNat 320 (x % q.toNat)).toNat = x % q.toNat := by
      rw [BitVec.toNat_ofNat]
      refine Nat.mod_eq_of_lt (Nat.lt_of_lt_of_le (Nat.mod_lt _ (Nat.pos_of_ne_zero hq)) (Nat.le_of_lt (Nat.lt_of_lt_of_le q.isLt ?_)))
      exact Nat.pow_le_pow_right (by decide) (by decide)
    rw [hsmall, hsmall, Nat.mod_add_mod, Nat.mod_add_mod, Nat.add_right_comm]

theorem addAcc_right_comm (a b c : Acc) : (((a.setWidth 64 + b.setWidth 64).setWidth 320).setWidth 64 + c.setWidth 64).setWidth 320 =
    (((a.setWidth 64 + c.setWidth 64).setWidth 320).setWidth 64 + b.setWidth 64).setWidth 320 := by
  have hback (x : Dword) : (x.setWidth 320).setWidth 64 = x := by
    refine BitVec.eq_of_getLsbD_eq fun i hi => ?_
    simp [hi]
  rw [hback, hback, BitVec.add_assoc, BitVec.add_assoc, BitVec.add_comm (b.setWidth 64)]

/-- How each operator combines accumulators (06 R98, R99). -/
theorem accAdd_eq (t : DTag) : accAdd t =
    if t.op.toNat = 0 then fun a b => (a.setWidth 64 + b.setWidth 64).setWidth 320
    else if t.op.toNat = 3 then fun a b => BitVec.ofNat 320 ((a.toNat + b.toNat) % t.q.toNat)
    else if t.op.toNat = 4 then minMaxAcc false
    else if t.op.toNat = 5 then minMaxAcc true
    else if t.op.toNat = 6 then fun a b => a ||| b
    else sumAcc := by
  funext a b
  unfold accAdd
  split
  · next h => rw [if_pos h]
  · next h => rw [h]; rfl
  · next h => rw [h]; rfl
  · next h => rw [h]; rfl
  · next h => rw [h]; rfl
  · next h0 h3 h4 h5 h6 => rw [if_neg h0, if_neg h3, if_neg h4, if_neg h5, if_neg h6]; rfl

/-- Two contributions to an accumulator change places. -/
theorem accAdd_right_comm (t : DTag) (a b c : Acc) : accAdd t (accAdd t a b) c = accAdd t (accAdd t a c) b := by
  rw [accAdd_eq]
  split_ifs
  · exact addAcc_right_comm a b c
  · exact modAcc_right_comm t.q a b c
  · exact minMaxAcc_right_comm false a b c
  · exact minMaxAcc_right_comm true a b c
  · exact (BitVec.or_assoc ..).trans ((congrArg (a ||| ·) (BitVec.or_comm b c)).trans (BitVec.or_assoc ..).symm)
  · exact sumAcc_right_comm a b c

/-- The partials of one operator combine to the same accumulator in whatever order they come. -/
theorem foldl_accAdd_perm (t : DTag) {xs ys : List Acc} (h : xs.Perm ys) (a : Acc) : xs.foldl (accAdd t) a = ys.foldl (accAdd t) a :=
  h.foldl_eq' (fun x _ y _ z => accAdd_right_comm t z x y) a

/-! ## The merge (13 R243) -/

theorem byte_congr {s t : State} (h : t.mem = s.mem) (a : Nat) : t.byte a = s.byte a := by unfold byte; rw [h]

/-- Copies that are on the way after every core has given the line up. -/
theorem copiesOf_moving_of_cache {s t : State} {line : Nat} (h : t.cache = (s.outCopies line).cache) :
    ∀ e ∈ t.copiesOf line, e.2.state.moving = true := by
  intro e he
  rw [copiesOf_congr h] at he
  exact (copiesOf_outCopies he).1

theorem dirAt_freeDir (s : State) (line : Nat) (st : HomeState) :
    (s.freeDir line st).dirAt line = { DirEntry.idle with state := st, queue := (s.dirAt line).queue, held := (s.dirAt line).held } := by
  unfold freeDir
  rw [dirAt_setDir, if_pos rfl]

section Merge

variable {s : State} {line : Nat} {pk : Option Nat} (hlost : (s.dirAt line).lostHolder = false) (hpod : isPod line = false)

include hpod in
/-- Where peers hold the line in drift as well, the merge joins theirs (13 R246). -/
theorem mergeHome_joins (h : (s.podAt line).state = .D ∨ (s.podAt line).state = .BMrg) : s.mergeHome line pk = s.joinPod line := by
  unfold mergeHome
  dsimp only
  rw [hpod, if_neg Bool.false_ne_true, if_pos h]

include hpod in
/-- Values that a cinv.discard drops are written nowhere (11 R203). -/
theorem mergeHome_drops (h : ¬((s.podAt line).state = .D ∨ (s.podAt line).state = .BMrg)) (hdrop : (s.dirAt line).drop = true) :
    s.mergeHome line pk = (s.outCopies line).freeDir line .I := by
  unfold mergeHome
  dsimp only
  rw [hpod, if_neg Bool.false_ne_true, if_neg h, hdrop, if_pos rfl]

include hpod hlost in
/-- The merge of a line that this device holds alone writes its sum. -/
theorem mergeHome_writes (h : ¬((s.podAt line).state = .D ∨ (s.podAt line).state = .BMrg)) (hdrop : (s.dirAt line).drop = false) :
    s.mergeHome line pk =
      (((s.outCopies line).setMemLine line (accsLine (s.dirAt line).tag (s.driftSum line))).freeDir line .I).trigger line := by
  unfold mergeHome
  dsimp only
  rw [hpod, if_neg Bool.false_ne_true, if_neg h, hdrop, if_neg Bool.false_ne_true, hlost, if_neg Bool.false_ne_true]

end Merge

end Sys2Proof.Machine
end

section
/-!
PROOFS. The drift reductions (11 R198, 13 R241): a core adds its lanes' values into its accumulators of their line; O19.
-/

namespace Sys2Proof.Machine

open State

/-! ## The line of a drift reduction -/

/-- The accumulators after contributions (element, value) under an operator. -/
def contributed (t : DTag) (xs : List (Nat × Dword)) (m : Store Acc) : Store Acc :=
  xs.foldl (fun a e => Store.set 0 a e.1 (accAdd t (Store.get 0 a e.1) (accOf t e.2))) m

theorem owns_of_none {s : State} {core line : Nat} (h : s.cacheAt core line = CacheLine.none) : owns (s.cacheAt core line) = false := by
  rw [h]
  rfl

section Line

variable {s : State} {line core : Nat} {t : DTag} (hw : Store.wf CacheLine.none s.cache = true) (pk : Option Nat) (xs : List (Nat × Dword))
include hw

/-- A core that holds the line under the operator's tag adds into its accumulators. -/
theorem dredLine_held (hc : (s.cacheAt core line).state = .D ∧ (s.cacheAt core line).tag = t) :
    ∃ u, s.dredLine core line t pk xs = .ok u ∧ Copied s u ∧
      u.cacheAt core line = { s.cacheAt core line with accs := contributed t xs (s.cacheAt core line).accs } ∧ ∀ n, u.dirAt n = s.dirAt n := by
  refine ⟨_, if_pos hc, ?_, cacheAt_setCache_self _, fun n => rfl⟩
  refine .setCache (lineView_setCache_same hw ?_ ?_ rfl rfl)
  · intro hn
    rw [hn] at hc
    cases hc.1
  · intro hn
    have hstate := hc.1
    rw [show (s.cacheAt core line).state = .I from congrArg CacheLine.state hn] at hstate
    cases hstate

omit hw in
/-- A line that no core holds has no copies to give up. -/
theorem outCopies_of_none (h : s.copiesOf line = []) : s.outCopies line = s := by
  have hcache : (s.outCopies line).cache = s.cache := by
    rw [cache_outCopies]
    conv_rhs => rw [← List.filterMap_some (l := s.cache)]
    refine List.filterMap_congr fun e he => outCopy_of_ne fun hline => ?_
    have hmem : (e.1 / 2 ^ 53, e.2) ∈ s.copiesOf line := List.mem_map.2 ⟨e, List.mem_filter.2 ⟨he, beq_iff_eq.2 hline⟩, rfl⟩
    rw [h] at hmem
    cases hmem
  show ({ s with cache := (s.outCopies line).cache } : State) = s
  rw [hcache]

omit hw in
/-- A line that nobody holds has no copies to give up, and stays idle. -/
theorem LineFree.copiesOut (h : LineFree s line) : s.copiesOut line pk = s.freeDir line .I := by
  have hown : s.ownerOf line = none := ownerOf_eq_none fun e he => by rw [h.copies] at he; cases he
  rw [copiesOut_eq h.settled.not_drift]
  unfold recalled
  rw [hown]
  exact congrArg (State.freeDir · line .I) (outCopies_of_none h.copies)

/-- A line that nobody holds enters drift at the home with its base value, at the core with its lanes' values (13 R241). -/
theorem dredLine_free (h : LineFree s line) (hl : line < 2 ^ 53) (hfull : s.driftFull core = false) (hroom : s.driftRoom line = true) :
    ∃ u, s.dredLine core line t pk xs = .ok u ∧ Copied s u ∧
      u.cacheAt core line = { CacheLine.none with state := .D, tag := t, accs := contributed t xs [] } ∧
      u.dirAt line = addParty { DirEntry.idle with state := .D, tag := t, accs := baseAccs t (s.memLine line) } (BitVec.ofNat 13 core) := by
  have hnone : s.cacheAt core line = CacheLine.none := by
    by_contra hne
    have := (mem_copiesOf hw hl (core := core) _).2 ⟨rfl, hne⟩
    rw [h.copies] at this
    cases this
  have hquiet : s.quietFor line (.drift t) = .ok s := h.settled.quietFor (by simp [podOk, h.own, h.peers, DirEntry.idle])
  have hidle : (s.dirAt line).state = .I := by rw [h.entry]; rfl
  have hown : s.ownerOf line = none := ownerOf_eq_none fun e he => by rw [h.copies] at he; cases he
  have hentry : (s.freeDir line .I).entryAccs line t = baseAccs t (s.memLine line) := by
    have hpod : (s.freeDir line .I).podAt line = DirEntry.idle := h.peers
    unfold entryAccs
    rw [h.own, hpod, if_neg (by simp [DirEntry.idle])]
    exact congrArg _ (memLine_setDir ..)
  have hfree : ((s.freeDir line .I).dirAt line).state ≠ .P := by
    rw [dirAt_freeDir]
    exact nofun
  unfold dredLine
  dsimp only
  rw [hnone, if_neg (by rintro ⟨hd, -⟩; cases hd), hquiet]
  dsimp only
  rw [if_neg (by rw [hfull]; simp), hidle, if_neg (by simp), if_neg (by rw [hroom]; simp), h.copiesOut, if_neg hfree, hentry, hown]
  refine ⟨_, rfl, copied_answered (.setDir ..) _ ?_ _, cacheAt_answered .., dirAt_answered ..⟩
  exact lineView_setCache_shared (s := s.freeDir line .I) hw hl h.settled.oneOwner (owns_of_none hnone) rfl

end Line

/-! ## One line of the instruction -/

/-- A drift reduction whose line's transaction completes changes nothing more but the trace. -/
theorem dredStep_done {t : DTag} {addr val : Nat → Dword} {ps : Phys} {a : Acc'} {line : Nat} {p : Nat × Xlat × Option (Nat × Nat)} {rest : Phys}
    (hmine : ps.filter (fun q => q.2.1.pa / 128 == line) = p :: rest) (hfail : (a.s.cacheAt a.s.here.core line).failed = none)
    (hreach : a.s.unreachable p.2.1.pa = false) {u : State}
    (hans : a.s.dredLine a.s.here.core line t (some a.s.here.paddock) ((p :: rest).map (fun q => (q.2.1.pa % 128 / dtagWidth t, val q.1))) = .ok u) :
    ∃ v, dredStep t addr val ps a line = { a with s := v } ∧ v = u.traced v := by
  unfold dredStep
  simp only [hmine, failedFor_eq_none hfail, hreach, hans]
  rw [if_neg (by simp), if_neg (by simp)]
  exact ⟨_, rfl, traced_trans (ite_traced rfl (traceHome_traced ..)) (count_traced ..)⟩

/-! ## The instruction -/

/-- The accumulators of a line after the lanes of a set have added their values, in lane order. -/
def lanesAdd (t : DTag) (pa : Nat → Nat) (val : Nat → Dword) (S : Lanes) (m : Store Acc) : Store Acc :=
  (lanesOf S).foldl (fun a l => Store.set 0 a (pa l % 128 / dtagWidth t)
    (accAdd t (Store.get 0 a (pa l % 128 / dtagWidth t)) (accOf t (val l)))) m

theorem contributed_physOf {S : Lanes} {x : Nat → Xlat} {pa : Nat → Nat} (hx : ∀ l ∈ lanesOf S, (x l).pa = pa l) (t : DTag) (val : Nat → Dword)
    (m : Store Acc) : contributed t ((physOf S x).map (fun q => (q.2.1.pa % 128 / dtagWidth t, val q.1))) m = lanesAdd t pa val S m := by
  unfold contributed lanesAdd physOf
  rw [List.foldl_map, List.foldl_map]
  exact List.foldl_ext _ _ _ fun a l hl => by rw [hx l hl]

section Instr

variable {s : State} {i : BitVec 7} {b : BitVec 6} {m : MemMod} {op : BitVec 3} {q : Dword} {pa : Nat → Nat} {line : Nat}

/-- Where the line's transaction completes, a drift reduction leaves what it leaves, and moves on. -/
theorem dred_of_line (h : OneLine s s.lanes (s.laneAddr b i m.off) (dtagWidth ⟨op, q⟩) .write false pa line) (val : Nat → Dword) {Q : State → Prop}
    (hline : ∀ pk xs, (∀ m, contributed ⟨op, q⟩ xs m = lanesAdd ⟨op, q⟩ pa val s.lanes m) →
      ∃ u, s.dredLine s.here.core line ⟨op, q⟩ pk xs = .ok u ∧ Copied s u ∧ Q u) :
    ∃ t u, dred op q val i b m s = .next t ∧ ReadsOnly s t ∧ t.span = s.span.movedOn s.lanes s.focus.next ∧
      Q u ∧ t.cache = u.cache ∧ t.dir = u.dir := by
  obtain ⟨x, hx, hstart⟩ := h.start
  obtain ⟨hfilter, l, ls, -, hcons, hreach⟩ := h.phys_filter hx
  obtain ⟨u, hans, hcopied, hq⟩ := hline (some s.here.paddock) _ (contributed_physOf hx ⟨op, q⟩ val)
  rw [hcons] at hans
  obtain ⟨v, hstep, htrace⟩ := dredStep_done (a := begunAcc s s.lanes (s.laneAddr b i m.off) q) (addr := s.laneAddr b i m.off)
    (hfilter.trans hcons) h.whole.2 hreach hans
  have hread : Copied s v := hcopied.trans (.of_traced htrace)
  have hlanes : v.lanes = s.lanes := by unfold State.lanes; rw [hread.focus]
  have hprog : v.memProg = none := by
    unfold State.memProg
    rw [hread.span, hlanes]
    exact h.fresh
  refine ⟨v.retire, u, ?_, readsOnly_of_copied hread (onlySpan_updSpan ..), ?_, hq, ?_, ?_⟩
  · unfold dred doDred
    dsimp only
    rw [addrOr_of_none h.fresh, hstart]
    dsimp only
    rw [List.foldl_cons, List.foldl_nil]
    have hstep' : dredStep ⟨op, q⟩ (s.laneAddr b i m.off) val (physOf s.lanes x) (begunAcc s s.lanes (s.laneAddr b i m.off) q) line = _ := hstep
    rw [show (begunAcc s s.lanes (s.laneAddr b i m.off) q).arg = q from rfl, hstep']
    exact finish_of_done (a := { begunAcc s s.lanes (s.laneAddr b i m.off) q with s := v }) rfl rfl hprog _ _
  · rw [span_retire, hread.span, hread.focus, hlanes]
  · rw [show v.retire.cache = v.cache from rfl, htrace]
    rfl
  · rw [show v.retire.dir = v.dir from rfl, htrace]
    rfl

/-- A drift reduction into a line that the core holds under the operator's tag. -/
theorem dred_held (h : OneLine s s.lanes (s.laneAddr b i m.off) (dtagWidth ⟨op, q⟩) .write false pa line) (val : Nat → Dword)
    (hc : (s.cacheAt s.here.core line).state = .D ∧ (s.cacheAt s.here.core line).tag = ⟨op, q⟩) :
    ∃ t, dred op q val i b m s = .next t ∧ ReadsOnly s t ∧ t.span = s.span.movedOn s.lanes s.focus.next ∧
      t.cacheAt s.here.core line = { s.cacheAt s.here.core line with
        accs := lanesAdd ⟨op, q⟩ pa val s.lanes (s.cacheAt s.here.core line).accs } ∧ ∀ n, t.dirAt n = s.dirAt n := by
  obtain ⟨t, u, ht, hread, hspan, ⟨hcopy, hdir⟩, hcache, hdirs⟩ := dred_of_line h val fun pk xs hxs => by
    have := dredLine_held h.canon.cache pk xs hc
    rwa [hxs] at this
  refine ⟨t, ht, hread, hspan, ?_, fun n => ?_⟩
  · unfold State.cacheAt at hcopy ⊢
    rw [hcache, hcopy]
  · unfold State.dirAt at hdir ⊢
    rw [hdirs, hdir]

/-- A drift reduction into a line that nobody holds. -/
theorem dred_free (h : OneLine s s.lanes (s.laneAddr b i m.off) (dtagWidth ⟨op, q⟩) .write false pa line) (val : Nat → Dword)
    (hfree : LineFree s line) (hfull : s.driftFull s.here.core = false) (hroom : s.driftRoom line = true) :
    ∃ t, dred op q val i b m s = .next t ∧ ReadsOnly s t ∧ t.span = s.span.movedOn s.lanes s.focus.next ∧
      t.cacheAt s.here.core line = { CacheLine.none with state := .D, tag := ⟨op, q⟩, accs := lanesAdd ⟨op, q⟩ pa val s.lanes [] } ∧
      t.dirAt line = addParty { DirEntry.idle with state := .D, tag := ⟨op, q⟩, accs := baseAccs ⟨op, q⟩ (s.memLine line) }
        (BitVec.ofNat 13 s.here.core) := by
  obtain ⟨t, u, ht, hread, hspan, ⟨hcopy, hdir⟩, hcache, hdirs⟩ := dred_of_line h val fun pk xs hxs => by
    have := dredLine_free h.canon.cache pk xs (t := ⟨op, q⟩) hfree h.small hfull hroom
    rwa [hxs] at this
  refine ⟨t, ht, hread, hspan, ?_, ?_⟩
  · unfold State.cacheAt at hcopy ⊢
    rw [hcache, hcopy]
  · unfold State.dirAt at hdir ⊢
    rw [hdirs, hdir]

end Instr

/-! ## The merge -/

section Merge

variable {s : State} {line : Nat} (pk : Option Nat) (hpod : isPod line = false)
include hpod

/-- After the merge of a drift line nobody holds it, and what a core waits for alone still comes (13 R243). -/
theorem mergeHome_frees (hlost : (s.dirAt line).lostHolder = false) : (∀ e ∈ (s.mergeHome line pk).copiesOf line, e.2.state.moving = true) ∧
    (s.mergeHome line pk).dirAt line = { DirEntry.idle with queue := (s.dirAt line).queue, held := (s.dirAt line).held } := by
  by_cases h : (s.podAt line).state = .D ∨ (s.podAt line).state = .BMrg
  · rw [mergeHome_joins hpod h]
    exact ⟨copiesOf_moving_of_cache rfl, dirAt_freeDir (s.outCopies line) line .I⟩
  · cases hdrop : (s.dirAt line).drop
    · rw [mergeHome_writes hlost hpod h hdrop, setMemLine_rest]
      generalize ((s.outCopies line).setMemLine line _).mem = bytes
      exact ⟨copiesOf_moving_of_cache (s := s) rfl, dirAt_freeDir { s.outCopies line with mem := bytes } line .I⟩
    · rw [mergeHome_drops hpod h hdrop]
      exact ⟨copiesOf_moving_of_cache rfl, dirAt_freeDir (s.outCopies line) line .I⟩

/-- The merge of a drift line that this device holds alone writes its sum into the line, and nothing else. -/
theorem mergeHome_bytes (hlost : (s.dirAt line).lostHolder = false) (h : ¬((s.podAt line).state = .D ∨ (s.podAt line).state = .BMrg))
    (hdrop : (s.dirAt line).drop = false) :
    (s.mergeHome line pk).memLine line = accsLine (s.dirAt line).tag (s.driftSum line) ∧
      ∀ a, a / 128 ≠ line → (s.mergeHome line pk).byte a = s.byte a := by
  rw [mergeHome_writes hlost hpod h hdrop]
  have hmem : ((((s.outCopies line).setMemLine line (accsLine (s.dirAt line).tag (s.driftSum line))).freeDir line .I).trigger line).mem =
      ((s.outCopies line).setMemLine line (accsLine (s.dirAt line).tag (s.driftSum line))).mem := rfl
  refine ⟨?_, fun a ha => ?_⟩
  · rw [memLine_congr hmem line, memLine_setMemLine]
  · rw [byte_congr hmem, byte_setMemLine_ne _ _ _ _ ha]
    rfl

end Merge

/-- Settles O19: contributions commute, a core adds them into its accumulators, and the merge writes what they add up to. -/
theorem driftReductions : Obligations.DriftReductions := by
  unfold Obligations.DriftReductions
  refine ⟨?_, fun g xs ys h => foldl_accAdd_perm g h 0, ?_⟩
  · intro s i d b m pa line W P B8 go
    have each (op : BitVec 3) (q : Dword) (val : Nat → Dword) (ins : Instr) (hins : exec ins s = dred op q val i b m s) :
        go ins ⟨op, q⟩ val := by
      intro h
      rw [hins]
      exact ⟨fun hd ht => dred_held h val ⟨hd, ht⟩, dred_free h val⟩
    exact ⟨each 0 0 _ _ rfl, each 1 0 _ _ rfl, each 2 0 _ _ rfl, fun hq => each 3 _ _ _ (if_neg fun hz => hq hz.1), each 4 0 _ _ rfl,
      each 5 0 _ _ rfl, each 6 0 _ _ rfl⟩
  · intro s line pk hlost hpod d q t sum alone
    obtain ⟨hmoving, hidle⟩ := mergeHome_frees pk hpod hlost
    have hjoins (h : ¬alone) : (s.podAt line).state = .D ∨ (s.podAt line).state = .BMrg := by
      by_contra hn
      exact h (not_or.1 hn)
    refine ⟨hmoving, hidle, fun h hdrop => mergeHome_bytes pk hpod hlost (not_or.2 h) hdrop, fun h hdrop a => ?_, fun h => ⟨fun a => ?_, ?_⟩⟩
    · exact byte_congr (congrArg State.mem (mergeHome_drops hpod (not_or.2 h) hdrop)) a
    · exact byte_congr (congrArg State.mem (mergeHome_joins hpod (hjoins h))) a
    · show (s.mergeHome line pk).podAt line = _
      rw [mergeHome_joins hpod (hjoins h)]
      unfold joinPod
      dsimp only
      rw [podAt_setPod, if_pos rfl, hlost, Bool.or_false]
      exact rfl

end Sys2Proof.Machine
end

section
/-!
PROOFS. The issue of class 4 operations (11 R204-R212): an operation whose lanes pass their checks is in flight on its timeline; O21.
-/

namespace Sys2Proof.Machine

open State

/-! ## An operation in flight -/

/-- An operation takes the next number of its timeline (11 R205). -/
def Wg.numbered (w : Wg) (tl : Nat) : Wg := w.updTl tl fun t => { t with i := t.i + 1 }

theorem Wg.tlAt_numbered (w : Wg) (tl n : Nat) :
    (w.numbered tl).tlAt n = if n = tl then { w.tlAt tl with i := (w.tlAt tl).i + 1 } else w.tlAt n :=
  Store.get_upd Timeline.fresh w.tl tl n fun t => { t with i := t.i + 1 }

/-- s with one operation more, and these chutes. -/
def State.withOp (s : State) (a : AsyncOp) (ch : Store Chute) : State := { s with async := s.async ++ [a], opSeq := s.opSeq + 1, chute := ch }

/-- An operation that has units, and claims no chute, is in flight. -/
theorem startOp_units {s : State} {a : AsyncOp} (hk : (∃ addr b, a.kind = .launch addr b) ∨ ((∀ key c, a.kind ≠ .cpchute key c) ∧ a.units ≠ [])) :
    s.startOp a = ((s.withOp a s.chute).updWg a.g (·.numbered a.tl)).traced (s.startOp a) := by
  unfold startOp
  dsimp only
  split
  · rfl
  · next hc =>
    obtain ⟨_, _, hl⟩ | ⟨hc', -⟩ := hk
    · rw [hl] at hc; cases hc
    · exact (hc' _ _ hc).elim
  · next hl hc =>
    obtain ⟨_, _, hl'⟩ | ⟨-, hu⟩ := hk
    · exact (hl _ _ hl').elim
    · rw [if_neg hu]
      rfl

/-- A cpchute that has units is in flight, and waits at its chute for a slot (11 R212). -/
theorem startOp_chute {s : State} {a : AsyncOp} {key : Nat} {c : Option Nat} (hk : a.kind = .cpchute key c) (hu : a.units ≠ []) :
    s.startOp a = ((s.withOp a (Store.upd Chute.none s.chute key fun c => { c with prodWait := c.prodWait ++ [(2 ^ 50 + a.uid, 0, 0)] })).updWg
      a.g (·.numbered a.tl)).traced (s.startOp a) := by
  unfold startOp
  rw [hk]
  dsimp only
  rw [if_neg hu]
  rfl

/-- An instruction whose operation is in flight is complete. -/
theorem issued_of_withOp {s u : State} {kind : AsyncKind} {tl : Nat} {m : AMod} {us : List AUnit} {ch : Store Chute}
    (h : u = ((s.withOp (s.newOp kind tl m us) ch).updWg s.focus.g (·.numbered tl)).traced u) :
    Issued s u.retire kind tl m us ∧ u.retire.chute = ch := by
  have hch : u.retire.chute = ch := by
    show u.chute = ch
    rw [h]
    rfl
  have hbase : u = ((s.traced u).withOp (s.newOp kind tl m us) ch).updHere (·.numbered tl) := h
  have hdone := hereRetired_done ((s.traced u).withOp (s.newOp kind tl m us) ch) (·.numbered tl) rfl
  rw [← hbase] at hdone
  have htl : u.retire.here.tl = (s.here.numbered tl).tl := by
    obtain ⟨-, -, -, hhere, -⟩ := hdone
    rw [hhere]
    rfl
  refine ⟨⟨?_, fun n => ?_⟩, hch⟩
  · rw [hch, htl]
    exact hdone
  · unfold Wg.tlAt
    rw [htl]
    exact Wg.tlAt_numbered s.here tl n

/-! ## The checks of the lanes -/

/-- Lanes whose checks change nothing are checked one by one. -/
theorem lanesUnits_of_stable {s : State} {S : Lanes} {f : State → Nat → State × LaneUnits} {g : Nat → LaneUnits}
    (h : ∀ l ∈ lanesOf S, f s l = (s, g l)) : s.lanesUnits S f = (s, (lanesOf S).map fun l => (l, g l)) := by
  have key : ∀ (xs : List Nat) (us : List (Nat × LaneUnits)), (∀ l ∈ xs, f s l = (s, g l)) →
      xs.foldl (fun (a : State × List (Nat × LaneUnits)) l => let r := f a.1 l; (r.1, a.2 ++ [(l, r.2)])) (s, us) =
        (s, us ++ xs.map fun l => (l, g l)) := by
    intro xs
    induction xs with
    | nil => intro us _; simp
    | cons x xs ih =>
      intro us hx
      rw [List.foldl_cons, hx x (List.mem_cons_self ..)]
      dsimp only
      rw [ih _ fun l hl => hx l (List.mem_cons_of_mem _ hl)]
      simp
  exact key _ [] h

theorem goodUnits_map (xs : List Nat) (us : Nat → List AUnit) : goodUnits (xs.map fun l => (l, LaneUnits.ok (us l))) = xs.flatMap us := by
  unfold goodUnits
  rw [List.flatMap_map]

theorem laneErr_ok (xs : List Nat) (us : Nat → List AUnit) (l : Nat) : laneErr (xs.map fun l => (l, LaneUnits.ok (us l))) l = none := by
  unfold laneErr
  cases hf : (xs.map fun l => (l, LaneUnits.ok (us l))).find? (fun x => x.1 == l) with
  | none => rfl
  | some e =>
    obtain ⟨l', -, rfl⟩ := List.mem_map.1 (List.mem_of_find?_eq_some hf)
    rfl

theorem laneErr_bad {xs : List Nat} (c : Byte) (tv : Dword) {l : Nat} (h : l ∈ xs) :
    laneErr (xs.map fun l => (l, LaneUnits.bad c tv)) l = some (c, tv) := by
  unfold laneErr
  rw [find_lane_map (fun _ => LaneUnits.bad c tv) h]
  rfl

theorem laneErr_none {xs : List Nat} (f : Nat → LaneUnits) {l : Nat} (h : l ∉ xs) : laneErr (xs.map fun l => (l, f l)) l = none := by
  unfold laneErr
  rw [List.find?_eq_none.2]
  · rfl
  · rintro x hx
    obtain ⟨l', hl', rfl⟩ := List.mem_map.1 hx
    intro heq
    exact h (beq_iff_eq.1 heq ▸ hl')

/-! ## Issue (11 R205) -/

section Issue

variable {s : State} {kind : AsyncKind} {p : BitVec 3} {sz : BitVec 2} {tl : BitVec 3} {dst src : ASide} {m : AMod}
  (hfree : s.tlFree tl.toNat = true)
include hfree

/-- An operation all of whose lanes pass their checks begins, and the clause moves on. -/
theorem asyncIssue_passes (hA : s.active p ≠ 0) (hsrc : s.penBad src = false) (hdst : s.penBad dst = false) {us : Nat → List AUnit}
    (hus : ∀ l ∈ lanesOf (s.active p), s.laneUnits kind (4 * 2 ^ sz.toNat) dst src l = (s, .ok (us l))) :
    asyncIssue kind true p sz tl dst src m s =
      .next (s.startOp (s.newOp kind tl.toNat m ((lanesOf (s.active p)).flatMap us))).retire := by
  have hS : s.lanes ≠ 0 := by
    intro h0
    exact hA (by unfold State.active; rw [h0]; exact BitVec.zero_and)
  have hnone : lanesWhere (fun l => (laneErr ((lanesOf (s.active p)).map fun l => (l, LaneUnits.ok (us l))) l).isSome) = 0 :=
    lanes_ext fun l hl => by rw [laneIn_lanesWhere _ _ hl, laneErr_ok]; simp [laneIn]
  have hwait : ((lanesOf (s.active p)).map fun l => (l, LaneUnits.ok (us l))).any (fun x => x.2 == .wait) = false :=
    List.any_eq_false.2 fun x hx => by obtain ⟨l, -, rfl⟩ := List.mem_map.1 hx; simp
  unfold asyncIssue
  dsimp only
  rw [hfree, hsrc, hdst, lanesUnits_of_stable hus]
  simp only [Bool.not_true, Bool.or_self, Bool.false_eq_true, if_false]
  rw [hwait, hnone, goodUnits_map, if_neg Bool.false_ne_true, if_neg (by rw [show s.lanes &&& ~~~(0 : Lanes) = s.lanes from BitVec.and_allOnes]; exact hS)]
  exact congrArg Host.Outcome.next (if_pos rfl)

/-- A cpchute to a handle that is not its own or its stage's raises code 07 on every lane (11 R212). -/
theorem asyncIssue_refused (hall : s.active p = s.lanes) :
    asyncIssue kind false p sz tl dst src m s = .next (s.raise (s.active p) 0x07 fun _ => 0) := by
  have herr : lanesWhere (fun l => (laneErr ((lanesOf (s.active p)).map fun l => (l, LaneUnits.bad 0x07 0)) l).isSome) = s.active p := by
    refine lanes_ext fun l hl => ?_
    rw [laneIn_lanesWhere _ _ hl]
    cases hin : laneIn (s.active p) l
    · rw [laneErr_none _ (by rw [mem_lanesOf, hin]; simp)]
      rfl
    · rw [laneErr_bad _ _ ((mem_lanesOf ..).2 ⟨hl, hin⟩)]
      rfl
  have hwait : ((lanesOf (s.active p)).map fun l => (l, LaneUnits.bad 0x07 0)).any (fun x => x.2 == .wait) = false :=
    List.any_eq_false.2 fun x hx => by obtain ⟨l, -, rfl⟩ := List.mem_map.1 hx; simp
  unfold asyncIssue
  dsimp only
  rw [hfree]
  simp only [Bool.not_true, Bool.not_false, Bool.or_true, Bool.false_eq_true, if_false, if_true]
  rw [hwait, herr, if_neg Bool.false_ne_true, hall, if_pos (BitVec.and_not_self _)]
  refine congrArg Host.Outcome.next (raiseL_congr s (fun l hl => ?_) fun l hl => ?_)
  · rw [laneErr_bad _ _ hl]
    rfl
  · rw [laneErr_bad _ _ hl]
    rfl

end Issue

section Issued

variable {s : State} {kind : AsyncKind} {p : BitVec 3} {sz : BitVec 2} {tl : BitVec 3} {dst src : ASide} {m : AMod} {us : Nat → List AUnit}
  (hfree : s.tlFree tl.toNat = true) (hA : s.active p ≠ 0) (hsrc : s.penBad src = false) (hdst : s.penBad dst = false)
  (hus : ∀ l ∈ lanesOf (s.active p), us l ≠ [] ∧ s.laneUnits kind (4 * 2 ^ sz.toNat) dst src l = (s, .ok (us l)))
include hA hus

theorem flatMap_units_ne_nil : (lanesOf (s.active p)).flatMap us ≠ [] := by
  obtain ⟨l, hl⟩ := List.exists_mem_of_ne_nil _ (lanesOf_ne_nil hA)
  intro hnil
  exact (hus l hl).1 (List.flatMap_eq_nil_iff.1 hnil l hl)

include hfree hsrc hdst

/-- An operation all of whose lanes pass their checks is in flight (11 R205). -/
theorem issued_of_passes (hk : ∀ key c, kind ≠ .cpchute key c) :
    ∃ t, asyncIssue kind true p sz tl dst src m s = .next t ∧ Issued s t kind tl.toNat m ((lanesOf (s.active p)).flatMap us) ∧ t.chute = s.chute := by
  refine ⟨_, asyncIssue_passes hfree hA hsrc hdst fun l hl => (hus l hl).2, ?_⟩
  exact issued_of_withOp (startOp_units (.inr ⟨hk, flatMap_units_ne_nil hA hus⟩))

/-- A cpchute all of whose lanes pass their checks is in flight, and waits at its chute (11 R212). -/
theorem issued_of_chute {key : Nat} (hk : kind = .cpchute key none) :
    ∃ t, asyncIssue kind true p sz tl dst src m s = .next t ∧ Issued s t kind tl.toNat m ((lanesOf (s.active p)).flatMap us) ∧
      t.chuteAt key = { s.chuteAt key with prodWait := (s.chuteAt key).prodWait ++ [(2 ^ 50 + s.opSeq, 0, 0)] } ∧
      ∀ k, k ≠ key → t.chuteAt k = s.chuteAt k := by
  obtain ⟨hissued, hchute⟩ := issued_of_withOp (startOp_chute (a := s.newOp kind tl.toNat m ((lanesOf (s.active p)).flatMap us)) hk (flatMap_units_ne_nil hA hus))
  refine ⟨_, asyncIssue_passes hfree hA hsrc hdst fun l hl => (hus l hl).2, hissued, ?_, fun k hne => ?_⟩
  · unfold State.chuteAt
    rw [hchute]
    exact (Store.get_upd ..).trans (if_pos rfl)
  · unfold State.chuteAt
    rw [hchute]
    exact (Store.get_upd ..).trans (if_neg hne)

end Issued

/-- Settles O21: the lanes' checks leave the state as it is, so the operation starts with their units. -/
theorem asyncOperationsIssue : Obligations.AsyncOperationsIssue := by
  unfold Obligations.AsyncOperationsIssue
  intro s p sz tl dst src m size A T own alone go many hA hroom hsrc hdst
  have hfree : s.tlFree tl.toNat = true := decide_eq_true hroom
  have pass {kind : AsyncKind} {us : Nat → List AUnit} (hk : ∀ key c, kind ≠ .cpchute key c)
      (hus : ∀ l ∈ lanesOf A, us l ≠ [] ∧ s.laneUnits kind size dst src l = (s, .ok (us l))) :=
    issued_of_passes (m := m) hfree hA hsrc hdst hus hk
  have single (h : alone) (kind : AsyncKind) (hk : ∀ l, s.laneUnits kind size dst src l =
      s.checkSides (s.sideAt src l) (s.sideAt dst l) size size false [own l]) :
      ∀ l ∈ lanesOf A, [own l] ≠ [] ∧ s.laneUnits kind size dst src l = (s, .ok [own l]) := by
    intro l hl
    obtain ⟨h32, hin⟩ := (mem_lanesOf A l).1 hl
    exact ⟨List.cons_ne_nil _ _, (hk l).trans (h l h32 hin)⟩
  have multi (kind : AsyncKind) (us : Nat → List AUnit)
      (h : ∀ l, l < 32 → laneIn A l → us l ≠ [] ∧ s.laneUnits kind size dst src l = (s, .ok (us l))) :
      ∀ l ∈ lanesOf A, us l ≠ [] ∧ s.laneUnits kind size dst src l = (s, .ok (us l)) :=
    fun l hl => h l ((mem_lanesOf A l).1 hl).1 ((mem_lanesOf A l).1 hl).2
  refine ⟨fun h => ⟨pass nofun (single h .cp fun _ => rfl), pass nofun (single h (.cpr m.hint.toNat) fun _ => rfl),
      pass nofun (single h .put fun _ => rfl), pass nofun (single h .get fun _ => rfl)⟩,
    fun us h => pass nofun (multi .cpm us h), fun us h => pass nofun (multi .gth us h), fun us h => pass nofun (multi .sct us h), ?_⟩
  rintro h ref c rfl key q into unit mine
  have hexec : exec (.cpchute p sz tl (.tile h ref c) src m) s =
      asyncIssue (.cpchute key none) (ref.sib == 0#1 && q.live && q.fromStage == s.here.stage) p sz tl (.tile h ref c) src m s := rfl
  have hmine : (ref.sib == 0#1 && q.live && q.fromStage == s.here.stage) = decide mine := by
    rw [Bool.eq_iff_iff]
    simp [mine, and_assoc]
  rw [hexec, hmine]
  refine ⟨fun hnot hall => ?_, fun hyes hpass => ?_⟩
  · rw [decide_eq_false hnot]
    exact asyncIssue_refused hfree hall
  · rw [decide_eq_true hyes]
    have hus : ∀ l ∈ lanesOf A, [unit l] ≠ [] ∧ s.laneUnits (.cpchute key none) size (.tile h ref c) src l = (s, .ok [unit l]) := by
      intro l hl
      obtain ⟨h32, hin⟩ := (mem_lanesOf A l).1 hl
      exact ⟨List.cons_ne_nil _ _, hpass l h32 hin⟩
    have hmap : (lanesOf A).map unit = (lanesOf A).flatMap fun l => [unit l] := List.map_eq_flatMap
    rw [hmap]
    exact issued_of_chute hfree hA hsrc hdst hus rfl

end Sys2Proof.Machine
end

section
/-!
PROOFS. The placement of launches (11 R212, 14 R253, 19 R335): writes of the machine itself leave the paddocks' launch queues alone; O22.
-/

namespace Sys2Proof.Machine

open State

/-! ## What leaves the launch queues as they are -/

/-- The serial that a paddock's next launch takes, and its launch queues (14 R253). -/
def State.queues (s : State) (n : Nat) : Word × List QueuedLaunch := ((s.pk n).nextSerial, (s.pk n).queue)

section Queues

variable (s : State)

theorem queues_congr {s t : State} (h : t.paddock = s.paddock) : t.queues = s.queues := by
  funext n
  unfold State.queues State.pk
  rw [h]

/-- A change of a paddock that leaves its queues. -/
theorem queues_updPk {f : Paddock → Paddock} (h : ∀ p, (f p).nextSerial = p.nextSerial ∧ (f p).queue = p.queue) (n : Nat) :
    (s.updPk n f).queues = s.queues := by
  funext k
  unfold State.queues
  rw [pk_updPk]
  split
  · next hk => rw [hk, (h _).1, (h _).2]
  · rfl

theorem queues_foldl {α : Type} {f : State → α → State} (hf : ∀ s x, (f s x).queues = s.queues) (xs : List α) :
    (xs.foldl f s).queues = s.queues := by
  induction xs generalizing s with
  | nil => rfl
  | cons x xs ih => exact (ih _).trans (hf s x)

@[simp] theorem queues_setDir (n : Nat) (d : DirEntry) : (s.setDir n d).queues = s.queues := rfl
@[simp] theorem queues_setPod (n : Nat) (d : DirEntry) : (s.setPod n d).queues = s.queues := rfl
@[simp] theorem queues_setProxy (n : Nat) (c : CacheLine) : (s.setProxy n c).queues = s.queues := rfl
@[simp] theorem queues_dropCopies (n : Nat) : (s.dropCopies n).queues = s.queues := rfl
@[simp] theorem queues_outCopies (n : Nat) : (s.outCopies n).queues = s.queues := rfl
@[simp] theorem queues_freeDir (n : Nat) (x : HomeState) : (s.freeDir n x).queues = s.queues := rfl
@[simp] theorem queues_trigger (n : Nat) : (s.trigger n).queues = s.queues := rfl
@[simp] theorem queues_late (ws : List LateWrite) : State.queues { s with late := ws } = s.queues := rfl
@[simp] theorem queues_setBytes (a n x : Nat) : (s.setBytes a n x).queues = s.queues := queues_congr (by rw [setBytes_rest])
@[simp] theorem queues_setMemLine (n : Nat) (d : LineData) : (s.setMemLine n d).queues = s.queues := queues_setBytes ..

@[simp] theorem queues_send (h : Hdr) (m : Msg) : (s.send h m).queues = s.queues := by
  unfold send
  split_ifs <;> rfl

@[simp] theorem queues_toPod (p : BitVec 13) (n : Nat) (m : Msg) : (s.toPod p n m).queues = s.queues := queues_send ..

@[simp] theorem queues_soil (n : Nat) : (s.soil n).queues = s.queues := by
  unfold soil
  split_ifs <;> rfl

@[simp] theorem queues_logError (pkn : Nat) (a : Dword) (rank : Option (BitVec 22)) (r c k : Nat) (o : BitVec 20) :
    (s.logError pkn a rank r c k o).queues = s.queues := by
  unfold logError
  dsimp only
  split_ifs
  · refine queues_updPk s ?_ pkn
    exact fun _ => ⟨rfl, rfl⟩
  · refine (queues_updPk _ ?_ pkn).trans ((queues_trigger ..).trans (queues_setBytes ..))
    exact fun _ => ⟨rfl, rfl⟩
  · refine (queues_updPk _ ?_ pkn).trans (queues_late ..)
    exact fun _ => ⟨rfl, rfl⟩

@[simp] theorem queues_logLine (n : Nat) (p : BitVec 13) (k : Nat) (pk : Option Nat) : (s.logLine n p k pk).queues = s.queues :=
  queues_foldl s (fun _ _ => queues_logError ..) _

@[simp] theorem queues_proxyMerge (n k : Nat) : (s.proxyMerge n k).queues = s.queues := by simp [proxyMerge]

@[simp] theorem queues_mergeHome (n : Nat) (pk : Option Nat) : (s.mergeHome n pk).queues = s.queues := by
  unfold mergeHome
  dsimp only
  split_ifs <;> simp [joinPod]

@[simp] theorem queues_copiesOut (n : Nat) (pk : Option Nat) : (s.copiesOut n pk).queues = s.queues := by
  by_cases h : (s.dirAt n).state = .D
  · rw [show s.copiesOut n pk = s.mergeHome n pk from if_pos h, queues_mergeHome]
  · rw [copiesOut_eq h, queues_freeDir, queues_outCopies]
    unfold recalled
    split
    · split_ifs <;> simp
    · rfl

@[simp] theorem queues_takeIn (n : Nat) : (s.takeIn n).queues = s.queues := by
  have hasked (d : DirEntry) (f : State → BitVec 13 → Hdr) (m : Msg) (ps : List (BitVec 13)) :
      (ps.foldl (fun a p => a.send (f a p) m) (s.setDir n d)).queues = s.queues :=
    (queues_foldl _ (fun _ _ => queues_send ..) ps).trans (queues_setDir ..)
  unfold takeIn
  dsimp only
  split_ifs <;> simp [hasked]

@[simp] theorem queues_leaveProxy (n k : Nat) : (s.leaveProxy n k).queues = s.queues := by
  unfold leaveProxy
  dsimp only
  split_ifs
  · simp
  · split <;> simp
  · split <;> simp

@[simp] theorem queues_podMerge (n : Nat) (pk : Option Nat) : (s.podMerge n pk).queues = s.queues := by
  unfold podMerge
  dsimp only
  split_ifs <;> simp

@[simp] theorem queues_podAsk (n : Nat) (need : Need) : (s.podAsk n need).queues = s.queues := by
  have hasked (d : DirEntry) (m : Msg) (ps : List (BitVec 13)) :
      (ps.foldl (fun a p => a.toPod p n m) (s.setPod n d)).queues = s.queues :=
    (queues_foldl _ (fun _ _ => queues_toPod ..) ps).trans (queues_setPod ..)
  unfold podAsk
  dsimp only
  split
  · split <;> simp [apply_ite State.queues]
  · split_ifs <;> simp [hasked]

@[simp] theorem queues_askHome (p : BitVec 13) (n : Nat) (need : Need) : (s.askHome p n need).queues = s.queues := by
  unfold askHome askRoom
  split <;> simp [apply_ite State.queues]

@[simp] theorem queues_roomAt (n : Nat) (p : BitVec 13) (pk : Option Nat) : (s.roomAt n p pk).queues = s.queues := by
  unfold roomAt
  split_ifs <;> simp

/-! ## A write of the machine itself (14 R252) -/

theorem queues_answeredTo (p : BitVec 13) (n : Nat) : (s.answeredTo p n).queues = s.queues :=
  queues_congr (by rw [(Heard.answeredTo s p n).rest]; rfl)

theorem queues_homeLine {t : State} {p : BitVec 13} {n : Nat} {pk : Option Nat} {f : LineData → LineData}
    (h : s.homeLine p n pk f = .ok t) : t.queues = s.queues := by
  rw [homeLine_ok h, queues_answeredTo]
  simp

theorem queues_lateHome {t : State} {w : LateWrite} (h : s.lateHome w = .ok t) : t.queues = s.queues := by
  unfold lateHome at h
  split at h
  · split at h
    · unfold wrLineHome at h
      split_ifs at h
      · cases h
        rw [queues_answeredTo]
        simp
      · exact queues_homeLine s h
    · cases h
  · exact queues_homeLine s h

theorem queues_homeWrite (w : LateWrite) : (s.homeWrite w).queues = s.queues := by
  unfold homeWrite
  split
  · rfl
  · split
    · next h =>
      split at h
      · cases h
      · exact queues_lateHome s h
    · simp
    · rfl

/-- The yard's write of a status word leaves the launch queues. -/
theorem queues_putStatus (k : Nat) : (s.putStatus k).queues = s.queues := by
  unfold putStatus
  dsimp only
  split
  · rfl
  · exact queues_homeWrite ..

end Queues

/-! ## Placement (14 R253) -/

/-- The launch that a record makes (14 R253). -/
def State.recordLaunch (s : State) (pkn asid : Nat) (ds : List Dword) (pa : Nat) (issuer : Option Nat) : Launch :=
  { Launch.none with live := true, paddock := pkn, serial := (s.pk pkn).nextSerial, record := ds, statusPa := pa, asid := asid, state := 1,
                     issuer := issuer, clock := ((issuer.bind s.asyncAt).map (fun a => Store.get 0 s.lamport a.core)).getD 0 }

/-- A paddock once a launch has entered its queues. -/
def Paddock.enqueue (p : Paddock) (q : QueuedLaunch) : Paddock := { p with nextSerial := p.nextSerial + 1, queue := p.queue ++ [q] }

/-- A record is placed: it waits in its paddock's queue at its priority, in state 1. -/
theorem queued_placeRecord (s : State) (pkn asid : Nat) (ds : List Dword) (pa : Nat) (issuer : Option Nat) :
    Queued s (s.placeRecord pkn asid ds pa issuer) pkn asid ds ∧ (s.placeRecord pkn asid ds pa issuer).async = s.async := by
  have hplace : s.placeRecord pkn asid ds pa issuer = ((s.updLaunch (2 ^ 32 * pkn + (s.pk pkn).nextSerial.toNat) fun _ =>
      s.recordLaunch pkn asid ds pa issuer).updPk pkn (·.enqueue ⟨bits (ds.getD 1 0) 45 40, (s.pk pkn).nextSerial⟩)).putStatus
        (2 ^ 32 * pkn + (s.pk pkn).nextSerial.toNat) := rfl
  have hlive : (s.recordLaunch pkn asid ds pa issuer).live = true ∧ (s.recordLaunch pkn asid ds pa issuer).state = 1 ∧
      (s.recordLaunch pkn asid ds pa issuer).record = ds ∧ (s.recordLaunch pkn asid ds pa issuer).asid = asid ∧
      (s.recordLaunch pkn asid ds pa issuer).serial = (s.pk pkn).nextSerial ∧ (s.recordLaunch pkn asid ds pa issuer).paddock = pkn :=
    ⟨rfl, rfl, rfl, rfl, rfl, rfl⟩
  rw [hplace]
  generalize s.recordLaunch pkn asid ds pa issuer = l at hlive ⊢
  have hhome := HomeOnly.putStatus ((s.updLaunch (2 ^ 32 * pkn + (s.pk pkn).nextSerial.toNat) fun _ => l).updPk pkn
    (·.enqueue ⟨bits (ds.getD 1 0) 45 40, (s.pk pkn).nextSerial⟩)) (2 ^ 32 * pkn + (s.pk pkn).nextSerial.toNat)
  have hqueues := congrFun (queues_putStatus ((s.updLaunch (2 ^ 32 * pkn + (s.pk pkn).nextSerial.toNat) fun _ => l).updPk pkn
    (·.enqueue ⟨bits (ds.getD 1 0) 45 40, (s.pk pkn).nextSerial⟩)) (2 ^ 32 * pkn + (s.pk pkn).nextSerial.toNat)) pkn
  have hlaunch (k : Nat) := (hhome.launchAt k).trans (launchAt_updLaunch s _ k fun _ => l)
  rw [State.queues, State.queues, pk_updPk, if_pos rfl] at hqueues
  obtain ⟨hserial, hqueue⟩ := Prod.mk.inj hqueues
  refine ⟨⟨hserial, hqueue, ?_, fun k hk => (hlaunch k).trans (if_neg hk)⟩, ?_⟩
  · rw [(hlaunch _).trans (if_pos rfl)]
    exact hlive
  · rw [hhome.rest]
    rfl

/-- Settles O22: the checks of a record's address by cases, and a record that has been read is placed. -/
theorem launchesArePlaced : Obligations.LaunchesArePlaced := by
  unfold Obligations.LaunchesArePlaced
  refine ⟨?_, ?_, ?_⟩
  · intro s p tl src m A T l a hA hroom
    have hfree : s.tlFree tl.toNat = true := decide_eq_true hroom
    have hexec : exec (.launch p tl src m) s = match s.recordCheck s.here.core s.asid s.privileged a with
        | (s1, .error c) => .next (s1.raise A c (fun _ => a))
        | (s1, .fail k n) => .next ((s1.errLine a n (State.errCode n) k).raise A (BitVec.ofNat 8 (State.errCode n)) (fun _ => a))
        | (s1, .wait _) => .next s1
        | (s1, .ok _) => done (s1.startOp (s1.newOp (.launch a false) tl.toNat m [])) := by
      show execLaunch p tl src m s = _
      unfold execLaunch
      dsimp only
      rw [hfree, if_neg (by decide), if_neg (show s.active p ≠ 0 from hA)]
      rfl
    rw [hexec]
    refine ⟨fun hhigh => ?_, fun hlow hal => ?_, fun hok => ?_⟩
    · rw [recordCheck, if_pos hhigh]
    · rw [recordCheck, if_neg (not_not.2 hlow), if_pos hal]
    · rw [hok]
      exact ⟨_, rfl, issued_of_withOp (startOp_units (.inl ⟨a, false, rfl⟩))⟩
  · intro s s1 a addr ds pa hready hkind hbegin hread
    set asid := if bits (ds.getD 2 0) 63 48 = 0 then a.asid else bits (ds.getD 2 0) 63 48 with hasid
    have hexec : exec .launchPlacement s = .next ((s1.placeRecord a.id.paddock asid ds pa (some a.uid)).updAsync a.uid
        (fun x => { x with kind := .launch addr true })) := by
      show execLaunchPlacement s = _
      unfold execLaunchPlacement
      rw [hready]
      dsimp only
      rw [hbegin, hkind, if_neg Bool.false_ne_true]
      dsimp only
      rw [hread]
    obtain ⟨hqueued, hasync⟩ := queued_placeRecord s1 a.id.paddock asid ds pa (some a.uid)
    refine ⟨_, hexec, hqueued, ?_⟩
    show List.map _ (s1.placeRecord a.id.paddock asid ds pa (some a.uid)).async = _
    rw [hasync]
    simp only [beq_iff_eq]
  · intro s n addr hvalid asid answer
    have hrun (hroom : (s.pk n).queue.length < 4096) : exec (.launchWindowPlace n addr) s = match s.recordCheck 0 asid false addr with
        | (_, .error _) => .next (s.updPk n fun p => { p with placeResult := 2 })
        | (s1, .wait _) => .next { s1 with placing := s1.placing ++ [(n, addr)] }
        | (s1, .fail _ _) => .next (s1.updPk n fun p => { p with placeResult := 2 })
        | (s1, .ok _) => match s1.readRecord 0 asid false addr.toNat with
          | (s2, .bad _ _ _) => .next (s2.updPk n fun p => { p with placeResult := 2 })
          | (s2, .wait) => .next { s2 with placing := s2.placing ++ [(n, addr)] }
          | (s2, .ok ds pa) => .next ((s2.placeRecord n (if bits (ds.getD 2 0) 63 48 = 0 then asid else bits (ds.getD 2 0) 63 48) ds pa none).updPk n
              fun p => { p with placeResult := 0 }) := by
      show execLaunchWindowPlace n addr s = _
      have hfree : s.queuesFree n = true := decide_eq_true hroom
      unfold execLaunchWindowPlace
      dsimp only
      rw [hvalid, hfree, if_neg (by decide), if_neg (by decide)] <;> rfl
    have hanswer (r : Nat) (h : exec (.launchWindowPlace n addr) s = .next (s.updPk n fun p => { p with placeResult := r })) : answer r :=
      ⟨_, h, rfl, (pk_updPk ..).trans (if_pos rfl), fun k hk => (pk_updPk ..).trans (if_neg hk)⟩
    refine ⟨fun hfull => hanswer 1 ?_, fun hroom hlow hal => hanswer 2 ?_, fun s1 m hroom hwait => ?_, fun s1 s2 ds pa hroom hok hread => ?_⟩
    · have hfree : s.queuesFree n = false := decide_eq_false (Nat.not_lt.2 hfull)
      show execLaunchWindowPlace n addr s = _
      unfold execLaunchWindowPlace
      dsimp only
      rw [hvalid, hfree, if_neg (by decide), if_pos (by decide)]
    · rw [hrun hroom, recordCheck, if_neg (not_not.2 hlow), if_pos hal]
    · rw [hrun hroom, hwait]
    · rw [hrun hroom, hok]
      dsimp only
      rw [hread]
      obtain ⟨⟨hserial, hqueue, hlaunch, hothers⟩, -⟩ :=
        queued_placeRecord s2 n (if bits (ds.getD 2 0) 63 48 = 0 then asid else bits (ds.getD 2 0) 63 48) ds pa none
      refine ⟨_, rfl, ?_, ?_, ?_, hlaunch, hothers⟩
      · rw [pk_updPk, if_pos rfl]
      · rw [pk_updPk, if_pos rfl]
        exact hserial
      · rw [pk_updPk, if_pos rfl]
        exact hqueue

end Sys2Proof.Machine
end

section
/-!
PROOFS. The granules of tile memory (10 R170-R173): where each lies, what one holds after it has been written, and its bytes.
-/

namespace Sys2Proof.Machine

open State

/-! ## Where a granule lies -/

/-- The store in which a granule lies, a workgroup's or a chute's, and its key there. -/
def granKey (place i : Nat) : Nat × Nat × Nat :=
  if place % 2 = 0 then (0, place / 128, 16777216 * (place / 2 % 64) + i) else (1, place / 2, i)

theorem granKey_even {place : Nat} (h : place % 2 = 0) (i : Nat) : granKey place i = (0, place / 128, 16777216 * (place / 2 % 64) + i) := if_pos h
theorem granKey_odd {place : Nat} (h : ¬place % 2 = 0) (i : Nat) : granKey place i = (1, place / 2, i) := if_neg h

/-- Granules of different places, or of different numbers below 2^24, lie apart (10 R170). -/
theorem granKey_inj {p q i j : Nat} (hi : i < 2 ^ 24) (hj : j < 2 ^ 24) : granKey p i = granKey q j ↔ p = q ∧ i = j := by
  refine ⟨fun h => ?_, fun ⟨hp, hij⟩ => by rw [hp, hij]⟩
  by_cases hp : p % 2 = 0
  · by_cases hq : q % 2 = 0
    · rw [granKey_even hp, granKey_even hq, Prod.mk.injEq, Prod.mk.injEq] at h
      obtain ⟨-, hwg, hkey⟩ := h
      omega
    · rw [granKey_even hp, granKey_odd hq] at h
      cases congrArg Prod.fst h
  · by_cases hq : q % 2 = 0
    · rw [granKey_odd hp, granKey_even hq] at h
      cases congrArg Prod.fst h
    · rw [granKey_odd hp, granKey_odd hq, Prod.mk.injEq, Prod.mk.injEq] at h
      obtain ⟨-, hchute, hkey⟩ := h
      omega

theorem gran_even (s : State) {p : Nat} (h : p % 2 = 0) (i : Nat) :
    s.gran p i = Store.get Granule.empty (s.wgAt (p / 128)).granule (16777216 * (p / 2 % 64) + i) := if_pos h
theorem gran_odd (s : State) {p : Nat} (h : ¬p % 2 = 0) (i : Nat) : s.gran p i = Store.get Granule.empty (s.chuteAt (p / 2)).granule i := if_neg h

theorem gran_of_key (s : State) {p q i j : Nat} (h : granKey p i = granKey q j) : s.gran p i = s.gran q j := by
  by_cases hp : p % 2 = 0
  · by_cases hq : q % 2 = 0
    · rw [granKey_even hp, granKey_even hq, Prod.mk.injEq, Prod.mk.injEq] at h
      rw [gran_even s hp, gran_even s hq, h.2.1, h.2.2]
    · rw [granKey_even hp, granKey_odd hq] at h
      cases congrArg Prod.fst h
  · by_cases hq : q % 2 = 0
    · rw [granKey_odd hp, granKey_even hq] at h
      cases congrArg Prod.fst h
    · rw [granKey_odd hp, granKey_odd hq, Prod.mk.injEq, Prod.mk.injEq] at h
      rw [gran_odd s hp, gran_odd s hq, h.2.1, h.2.2]

/-- A granule read after one has been written. -/
theorem gran_setGran (s : State) (p i q j : Nat) (x : Granule) :
    (s.setGran p i x).gran q j = if granKey q j = granKey p i then x else s.gran q j := by
  unfold setGran
  by_cases hp : p % 2 = 0
  · rw [if_pos hp]
    by_cases hq : q % 2 = 0
    · rw [gran_even _ hq, gran_even s hq, granKey_even hp, granKey_even hq, wgAt_updWg]
      by_cases hg : q / 128 = p / 128
      · rw [if_pos hg, hg]
        refine (Store.get_set ..).trans (if_congr ?_ rfl rfl)
        simp
      · rw [if_neg hg, if_neg fun h => hg (congrArg (·.2.1) h)]
    · rw [gran_odd _ hq, gran_odd s hq, granKey_even hp, granKey_odd hq, if_neg (fun h => by cases congrArg Prod.fst h)]
      rfl
  · rw [if_neg hp]
    by_cases hq : q % 2 = 0
    · rw [gran_even _ hq, gran_even s hq, granKey_odd hp, granKey_even hq, if_neg (fun h => by cases congrArg Prod.fst h)]
      rfl
    · rw [gran_odd _ hq, gran_odd s hq, granKey_odd hp, granKey_odd hq, chuteAt_updChute]
      by_cases hg : q / 2 = p / 2
      · rw [if_pos hg, hg]
        refine (Store.get_set ..).trans (if_congr ?_ rfl rfl)
        simp
      · rw [if_neg hg, if_neg fun h => hg (congrArg (·.2.1) h)]

theorem gran_setGran_self (s : State) (p i : Nat) (x : Granule) : (s.setGran p i x).gran p i = x := by rw [gran_setGran, if_pos rfl]

/-- Setting a full bit changes the full bit. -/
theorem gran_setFull (s : State) (p i q j : Nat) (full : Bool) :
    (s.setFull p full i).gran q j = if granKey q j = granKey p i then { s.gran q j with full := full } else s.gran q j := by
  unfold setFull
  rw [gran_setGran]
  split
  · next h => rw [gran_of_key s h]
  · rfl

/-! ## Bytes of a granule -/

/-- A byte of a granule's data. -/
def granByte (x : Granule) (b : Nat) : Byte := x.data.extractLsb' (8 * b) 8

theorem placeByte_eq (s : State) (p off : Nat) : s.placeByte p off = granByte (s.gran p (off / 16)) (off % 16) := rfl

/-- The bits that a byte mask chooses. -/
def maskBits (mask : BitVec 16) : BitVec 128 :=
  (List.range 16).foldl (fun a b => if mask.getLsbD b then a ||| (0xFF#128 <<< (8 * b)) else a) 0

theorem getLsbD_maskBits (mask : BitVec 16) {k : Nat} (hk : k < 128) : (maskBits mask).getLsbD k = mask.getLsbD (k / 8) := by
  have key : ∀ n, n ≤ 16 → ((List.range n).foldl (fun a b => if mask.getLsbD b then a ||| (0xFF#128 <<< (8 * b)) else a) (0 : BitVec 128)).getLsbD k =
      (decide (k / 8 < n) && mask.getLsbD (k / 8)) := by
    intro n
    induction n with
    | zero => intro _; simp
    | succ n ih =>
      intro hn
      have hbyte : (0xFF#128 <<< (8 * n)).getLsbD k = decide (k / 8 = n) := by
        rw [BitVec.getLsbD_shiftLeft, Bool.eq_iff_iff]
        simp only [Bool.and_eq_true, decide_eq_true_eq, Bool.not_eq_true']
        by_cases hlow : k < 8 * n
        · simp [hlow]; omega
        · rw [show (255#128).getLsbD (k - 8 * n) = decide (k - 8 * n < 8) from ?_]
          · simp [hlow, hk]; omega
          · have h255 : (255 : Nat) = 2 ^ 8 - 1 := rfl
            rw [BitVec.getLsbD_ofNat, h255, Nat.testBit_two_pow_sub_one, Bool.eq_iff_iff]
            simp; omega
      rw [List.range_succ, List.foldl_append, List.foldl_cons, List.foldl_nil]
      split
      · next hm =>
        rw [BitVec.getLsbD_or, ih (by omega), hbyte]
        by_cases hk8 : k / 8 = n
        · simp [hk8, hm]
        · have : (k / 8 < n + 1) = (k / 8 < n) := by rw [eq_iff_iff]; omega
          simp [hk8, this]
      · next hm =>
        rw [ih (by omega)]
        by_cases hk8 : k / 8 = n
        · simp [hk8, hm]
        · have : (k / 8 < n + 1) = (k / 8 < n) := by rw [eq_iff_iff]; omega
          simp [this]
  have := key 16 (le_refl _)
  rwa [show decide (k / 8 < 16) = true from decide_eq_true (by omega), Bool.true_and] at this

/-- A byte of a granule after others have been written into it. -/
theorem granByte_mergeGran (x : Granule) (mask : BitVec 16) (data : BitVec 128) {b : Nat} (hb : b < 16) :
    granByte (mergeGran x mask data) b = if mask.getLsbD b then data.extractLsb' (8 * b) 8 else granByte x b := by
  have hbit (y : BitVec 128) {i : Nat} (hi : i < 8) : (y.extractLsb' (8 * b) 8).getLsbD i = y.getLsbD (8 * b + i) := by simp [hi]
  refine BitVec.eq_of_getLsbD_eq fun i hi => ?_
  have hk : 8 * b + i < 128 := by omega
  have hmask := getLsbD_maskBits mask hk
  rw [show (8 * b + i) / 8 = b by omega] at hmask
  have hdata : (mergeGran x mask data).data = (x.data &&& ~~~(maskBits mask)) ||| (data &&& maskBits mask) := rfl
  unfold granByte
  rw [hbit _ hi, hdata, BitVec.getLsbD_or, BitVec.getLsbD_and, BitVec.getLsbD_and, BitVec.getLsbD_not, hmask]
  split
  · next hm => rw [hbit _ hi, hm]; simp
  · next hm => rw [hbit _ hi, Bool.not_eq_true _ |>.mp hm]; simp [hk]

/-- The bytes that a write within one granule leaves (11 R205). -/
theorem placeByte_writePlace (s : State) {p off n x j : Nat} (hfit : off % 16 + n ≤ 16) (hj : j < n) :
    (s.writePlace p off n x).placeByte p (off + j) = BitVec.ofNat 8 (x / 256 ^ j) := by
  have hgran : (off + j) / 16 = off / 16 := by omega
  have hbyte : (off + j) % 16 = off % 16 + j := by omega
  have hmask : (BitVec.ofNat 16 ((2 ^ n - 1) <<< (off % 16))).getLsbD (off % 16 + j) = true := by
    rw [BitVec.getLsbD_ofNat, Nat.testBit_shiftLeft, Nat.add_sub_cancel_left, Nat.testBit_two_pow_sub_one]
    simp; omega
  have h256 (m : Nat) : 256 ^ m = 2 ^ (8 * m) := by rw [Nat.pow_mul]
  rw [placeByte_eq, hgran, hbyte]
  unfold writePlace
  rw [gran_setGran_self, granByte_mergeGran _ _ _ (by omega), if_pos hmask]
  refine BitVec.eq_of_getLsbD_eq fun i hi => ?_
  rw [BitVec.getLsbD_extractLsb', BitVec.getLsbD_ofNat, BitVec.getLsbD_ofNat, h256, h256, Nat.testBit_shiftLeft, Nat.testBit_mod_two_pow,
    Nat.testBit_div_two_pow, show 8 * (off % 16 + j) + i - 8 * (off % 16) = i + 8 * j by omega]
  have hin : 8 * (off % 16 + j) + i < 128 := by omega
  have hlow : 8 * (off % 16) ≤ 8 * (off % 16 + j) + i := by omega
  have hhigh : i + 8 * j < 8 * n := by omega
  simp [hi, hin, hlow, hhigh]

end Sys2Proof.Machine
end

section
/-!
PROOFS. The landing of class 4 units (11 R205, R207, R212): what a unit reads and writes, how its operation goes on, the claim of a chute slot;
O23.
-/

namespace Sys2Proof.Machine

open State

/-! ## Changes that leave every byte as it is -/

/-- The bytes of tile memory and of chutes, of memory and of the caches are the same in s and t. -/
structure SameData (s t : State) : Prop where
  gran : ∀ p i, (t.gran p i).data = (s.gran p i).data
  cache : t.cache = s.cache
  mem : t.mem = s.mem

namespace SameData

variable {s t u : State}

theorem trans (h1 : SameData s t) (h2 : SameData t u) : SameData s u :=
  ⟨fun p i => (h2.gran p i).trans (h1.gran p i), h2.cache.trans h1.cache, h2.mem.trans h1.mem⟩

/-- A change of neither workgroups nor chutes, memory nor caches. -/
theorem of_rest (hwg : t.wg = s.wg) (hchute : t.chute = s.chute) (hcache : t.cache = s.cache) (hmem : t.mem = s.mem) : SameData s t :=
  ⟨fun p i => by unfold State.gran State.wgAt State.chuteAt; rw [hwg, hchute], hcache, hmem⟩

theorem refl (s : State) : SameData s s := of_rest rfl rfl rfl rfl

/-- A change of a workgroup that leaves its granules. -/
theorem updWg (s : State) (g : Nat) {f : Wg → Wg} (h : ∀ w, (f w).granule = w.granule) : SameData s (s.updWg g f) := by
  refine ⟨fun p i => ?_, rfl, rfl⟩
  by_cases hp : p % 2 = 0
  · rw [gran_even _ hp, gran_even s hp, wgAt_updWg]
    split
    · next hg => rw [hg, h]
    · rfl
  · rw [gran_odd _ hp, gran_odd s hp]
    rfl

/-- A change of a chute that leaves its granules' bytes. -/
theorem updChute (s : State) (key : Nat) {f : Chute → Chute}
    (h : ∀ c i, (Store.get Granule.empty (f c).granule i).data = (Store.get Granule.empty c.granule i).data) : SameData s (s.updChute key f) := by
  refine ⟨fun p i => ?_, rfl, rfl⟩
  by_cases hp : p % 2 = 0
  · rw [gran_even _ hp, gran_even s hp]
    rfl
  · rw [gran_odd _ hp, gran_odd s hp, chuteAt_updChute]
    split
    · next hg => rw [hg, h]
    · rfl

theorem setFull (s : State) (p : Nat) (full : Bool) (i : Nat) : SameData s (s.setFull p full i) := by
  have hrest : (s.setFull p full i).cache = s.cache ∧ (s.setFull p full i).mem = s.mem := by
    unfold State.setFull setGran
    split <;> exact ⟨rfl, rfl⟩
  refine ⟨fun q j => ?_, hrest.1, hrest.2⟩
  rw [gran_setFull]
  split <;> rfl

theorem hearClock (s : State) (core : Nat) (c : BitVec 48) : SameData s (s.hearClock core c) := by
  rw [hearClock_rest]
  exact of_rest rfl rfl rfl rfl

theorem emitAsync (s : State) (a : AsyncOp) (typ low : Nat) : SameData s (s.emitAsync a typ low) := of_rest rfl rfl rfl rfl

theorem countFe (s : State) (a : AsyncOp) : SameData s (s.countFe a) := by
  unfold State.countFe
  split
  · exact updWg s a.g (f := fun w => { w with progFe := w.progFe + 1 }) fun _ => rfl
  · exact refl s

theorem completeOp (s : State) (g : Nat) (id : WgId) (tl num : Nat) (err : Option Mark) : SameData s (s.completeOp g id tl num err) := by
  unfold State.completeOp
  split
  · exact refl s
  · refine updWg s g ?_
    exact fun _ => rfl

/-- A slot that is published keeps its bytes (14 R260). -/
theorem publishSlot (c : Chute) (slot i : Nat) :
    (Store.get Granule.empty (State.publishSlot c slot).granule i).data = (Store.get Granule.empty c.granule i).data := by
  have key : ∀ (xs : List Nat) (m : Store Granule), (Store.get Granule.empty (xs.foldl (fun m i =>
      Store.upd Granule.empty m (slot * chuteRow c + i) (fun g => { g with full := true })) m) i).data = (Store.get Granule.empty m i).data := by
    intro xs
    induction xs with
    | nil => intro m; rfl
    | cons x xs ih =>
      intro m
      rw [List.foldl_cons, ih, Store.get_upd]
      split
      · next h => rw [h]
      · rfl
  exact key _ c.granule

theorem finishOp (s : State) (a : AsyncOp) : SameData s (s.finishOp a) := by
  have hend : SameData s { (s.emitAsync a 0x39 (kindNum a.kind)) with async := s.async.filter (fun x => x.uid != a.uid) } := of_rest rfl rfl rfl rfl
  unfold State.finishOp
  dsimp only
  refine trans ?_ (completeOp ..)
  split
  · next key slot _ =>
    have hpublish : ∀ u : State, SameData u (u.updChute key (fun c => if c.live then State.publishSlot c slot else c)) := fun u =>
      updChute u key fun c i => by
        split
        · exact publishSlot c slot i
        · rfl
    split
    · refine (hend.trans (hpublish _)).trans (updWg _ a.g ?_)
      exact fun _ => rfl
    · exact hend.trans (hpublish _)
  · exact hend

theorem placeByte (h : SameData s t) (p off : Nat) : t.placeByte p off = s.placeByte p off := by
  rw [placeByte_eq, placeByte_eq]
  unfold granByte
  rw [h.gran]

theorem lineView (h : SameData s t) (n : Nat) : t.lineView n = s.lineView n := lineView_congr (copiesOf_congr h.cache n) (memLine_congr h.mem n)

end SameData

/-! ## The operation after its unit has landed (11 R205) -/

section Settle

variable {s : State} {a : AsyncOp} {u : Nat}

/-- A unit that has landed. -/
def AUnit.done (x : AUnit) : AUnit := { x with st := .landed, sent := none }
/-- The operation once its unit u has landed. -/
def AsyncOp.landed (a : AsyncOp) (u : Nat) : AsyncOp := { a with units := a.units.modify u AUnit.done }

theorem asyncAt_updAsync {uid : Nat} {f : AsyncOp → AsyncOp} (hf : ∀ a, (f a).uid = a.uid) (h : s.asyncAt uid = some a) :
    (s.updAsync uid f).asyncAt uid = some (f a) := by
  unfold asyncAt updAsync at *
  dsimp only
  rw [List.find?_map]
  have hpred : ((fun a => a.uid == uid) ∘ fun a => if (a.uid == uid) = true then f a else a) = fun a : AsyncOp => a.uid == uid := by
    funext b
    rw [Function.comp_apply]
    split
    · rw [hf]
    · rfl
  rw [hpred, h, Option.map_some, if_pos (by simpa using List.find?_some h)]

theorem asyncAt_congr {t : State} (h : t.async = s.async) (uid : Nat) : t.asyncAt uid = s.asyncAt uid := by unfold asyncAt; rw [h]

theorem asyncAt_of_filter {t : State} {uid : Nat} (h : t.async = s.async.filter (fun x => x.uid != uid)) : t.asyncAt uid = none := by
  unfold asyncAt
  rw [h, List.find?_eq_none]
  intro x hx
  have := (List.mem_filter.1 hx).2
  simpa using this

theorem async_completeOp (g : Nat) (id : WgId) (tl num : Nat) (err : Option Mark) : (s.completeOp g id tl num err).async = s.async := by
  unfold State.completeOp
  split <;> rfl

theorem async_finishOp : (s.finishOp a).async = s.async.filter (fun x => x.uid != a.uid) := by
  unfold State.finishOp
  dsimp only
  rw [async_completeOp]
  split
  · split <;> rfl
  · rfl

theorem async_hearClock (core : Nat) (c : BitVec 48) : (s.hearClock core c).async = s.async := by rw [hearClock_rest]

theorem async_setFull (p : Nat) (full : Bool) (i : Nat) : (s.setFull p full i).async = s.async := by
  unfold setFull setGran
  split <;> rfl

/-- A unit that has landed may fill its granule, and ends its operation where it is the last. -/
theorem settle_eq (h : s.asyncAt a.uid = some a) (hbegin : a.noBegin = false) : ∃ s2, SameData s s2 ∧
    s2.async = (s.updAsync a.uid (·.landed u)).async ∧
    s.settle a.uid u .landed = if (a.landed u).units.all (fun x => x.st != .pending) then s2.finishOp (a.landed u) else s2 := by
  have hat : (s.updAsync a.uid (·.landed u)).asyncAt a.uid = some (a.landed u) := asyncAt_updAsync (fun _ => rfl) h
  have hbegun : SameData s (s.updAsync a.uid (·.landed u)) := .of_rest rfl rfl rfl rfl
  have hfill (x y : Nat) (c : BitVec 48) (b : Bool) (s1 : State) (h1 : SameData s s1)
      (hasync : s1.async = (s.updAsync a.uid (·.landed u)).async) :
      SameData s (if b then (s1.setFull x true y).hearClock (s1.placeWg x).core c else s1) ∧
        (if b then (s1.setFull x true y).hearClock (s1.placeWg x).core c else s1).async = (s.updAsync a.uid (·.landed u)).async := by
    split
    · exact ⟨(h1.trans (.setFull ..)).trans (.hearClock ..), by rw [async_hearClock, async_setFull, hasync]⟩
    · exact ⟨h1, hasync⟩
  unfold settle
  dsimp only
  rw [show (s.updAsync a.uid fun a => { a with units := a.units.modify u fun x => { x with st := .landed, sent := none } }) =
    s.updAsync a.uid (·.landed u) from rfl, hat]
  dsimp only
  rw [show (a.landed u).noBegin = false from hbegin, if_neg Bool.false_ne_true]
  refine ⟨_, ?_, ?_, rfl⟩
  · split
    · split
      · exact hbegun
      · exact (hfill _ _ _ _ _ hbegun rfl).1
      · exact hbegun
    · exact hbegun
  · split
    · split
      · rfl
      · exact (hfill _ _ _ _ _ hbegun rfl).2
      · rfl
    · rfl

/-- A unit that has landed leaves every byte; its operation goes on while another is pending, and is over with the last. -/
theorem settle_landed (h : s.asyncAt a.uid = some a) (hbegin : a.noBegin = false) : SameData s (s.settle a.uid u .landed) ∧
    ((∃ y ∈ (a.landed u).units, y.st = .pending) → (s.settle a.uid u .landed).asyncAt a.uid = some (a.landed u)) ∧
    ((∀ y ∈ (a.landed u).units, y.st ≠ .pending) → (s.settle a.uid u .landed).asyncAt a.uid = none) := by
  obtain ⟨s2, hsame, hasync, hend⟩ := settle_eq (u := u) h hbegin
  have hall : (a.landed u).units.all (fun x => x.st != .pending) = true ↔ ∀ y ∈ (a.landed u).units, y.st ≠ .pending := by
    simp
  rw [hend]
  split
  · next hdone =>
    refine ⟨hsame.trans (.finishOp ..), ?_, fun _ => ?_⟩
    · rintro ⟨y, hy, hp⟩
      exact absurd hp (hall.1 hdone y hy)
    · exact asyncAt_of_filter async_finishOp
  · next hdone =>
    refine ⟨hsame, fun _ => ?_, fun hno => absurd (hall.2 hno) hdone⟩
    rw [asyncAt_congr hasync]
    exact asyncAt_updAsync (fun _ => rfl) h

end Settle

/-! ## A unit reads and writes (11 R207) -/

section Sides

variable {s t : State} {a : AsyncOp} {size : Nat} {line : Nat}

theorem OpReach.heard {addr : Dword} {acc : State.Access} {x : Xlat} (h : Heard s t line) (hr : OpReach s a addr size acc x) :
    OpReach t a addr size acc x := by
  obtain ⟨hlow, hal, hoff, hreach, hhand⟩ := hr
  refine ⟨hlow, hal, hoff, ?_, ?_⟩
  · rw [← hreach, h.rest]
    rfl
  · have hl1 (va : Nat) (priv : Bool) : t.l1Hit a.core a.asid va acc priv = s.l1Hit a.core a.asid va acc priv := by rw [h.rest]; rfl
    have htc (va : Nat) (priv : Bool) : t.tcHit (dieOf a.core) a.asid va acc priv = s.tcHit (dieOf a.core) a.asid va acc priv := by rw [h.rest]; rfl
    have hleaf (leaf : Dword) (log2 va : Nat) : t.leafPa leaf log2 va = s.leafPa leaf log2 va := by rw [h.rest]; rfl
    unfold AtHandFor at hhand ⊢
    simpa only [hl1, htc, hleaf] using hhand

theorem OpReach.unique {addr : Dword} {acc : State.Access} {x y : Xlat} (hx : OpReach s a addr size acc x) (hy : OpReach s a addr size acc y) :
    x = y := by
  obtain ⟨-, -, -, -, hx⟩ := hx
  obtain ⟨-, -, -, -, hy⟩ := hy
  have := (translate_of_atHand hx).symm.trans (translate_of_atHand hy)
  exact Look.ok.inj (Prod.mk.inj this).2

/-- An address that an operation reaches passes its checks. -/
theorem OpReach.check {addr : Dword} {acc : State.Access} {x : Xlat} (h : OpReach s a addr size acc x) (n : Nat) :
    s.checkAddr a.core a.id.paddock a.asid addr n size acc a.priv false = (s, .ok (.phys x none)) := by
  obtain ⟨hlow, hal, -, -, hhand⟩ := h
  rw [checkAddr_local s _ _ _ _ _ _ _ hlow hal, translate_of_atHand hhand]
  rfl

theorem Settled.heard {n : Nat} (hs : Settled s n) (h : Heard s t line) : Settled t n := by
  have hproxy := h.due n
  have hdir := h.dirAt n
  have hcopies : t.copiesOf n = s.copiesOf n := copiesOf_congr h.cache n
  have hpodAt : t.podAt n = s.podAt n := by rw [h.rest]; rfl
  have hmsgs : t.msgs = s.msgs := by rw [h.rest]; rfl
  refine ⟨by rw [hdir]; exact hs.state, by rw [hdir]; exact hs.queue, by rw [hdir]; exact hs.agents, ⟨?_, ?_⟩, by rw [hmsgs]; exact hs.still, ?_⟩
  · rw [← hs.pod.1]
    unfold podOk
    rw [hpodAt, hproxy]
  · rw [← hs.pod.2]
    unfold podFailed
    rw [hproxy]
  · rw [hcopies, hdir, h.memLine]
    exact hs.copies

/-- A unit whose source can be read reads it, and changes clocks alone. -/
theorem readSide_ok {side : UnitSide} {v : Nat} (h : UnitReads s a size side v) : ∃ t n, s.readSide a size side = .ok t v ∧ Heard s t n := by
  cases side with
  | data x => exact ⟨s, 0, congrArg _ h.symm, .refl s 0⟩
  | chute key r c => exact h.elim
  | tile g i h' r c sib =>
    obtain ⟨place, e, hnow, hfit, hfull, hpoison, rfl⟩ := h
    have hready : ¬(a.wf && !(s.gran place (eOff e r c / 16)).full) = true := by
      rw [Bool.and_eq_true]
      rintro ⟨hwf, hempty⟩
      rw [hfull hwf] at hempty
      cases hempty
    refine ⟨if a.wf then s.hearClock a.core (Store.get 0 s.lamport (s.placeWg place).core) else s, 0, ?_, ?_⟩
    · unfold readSide
      dsimp only
      rw [hnow]
      dsimp only
      rw [hfit, hpoison, if_neg Bool.false_ne_true, if_neg hready, if_neg Bool.false_ne_true]
    · split
      · exact .hearClock ..
      · exact .refl s 0
  | mem addr =>
    obtain ⟨x, hreach, hset, rfl⟩ := h
    have hheard := Heard.answeredTo s (corePtr a.core) (x.pa / 128)
    refine ⟨_, x.pa / 128, ?_, hheard⟩
    unfold readSide
    dsimp only
    rw [hreach.check size]
    dsimp only
    obtain ⟨-, -, -, hup, -⟩ := hreach
    rw [hup, if_neg Bool.false_ne_true, loadHome_settled hset]
    dsimp only
    rw [if_neg (by rw [hheard.dirAt]; exact hset.not_poisoned)]
    unfold viewBytes
    rw [hheard.lineView]

/-- The bytes of a value have come to a unit's destination, as s names it. -/
structure BytesLanded (s t : State) (a : AsyncOp) (size v : Nat) (dst : UnitSide) : Prop where
  mem : ∀ addr y, dst = .mem addr → OpReach s a addr size .write y → ∀ j, j < size →
    lineByte (t.lineView (y.pa / 128)) (y.pa % 128 + j) = BitVec.ofNat 8 (v / 256 ^ j)
  tile : ∀ g i h r c sib place e, dst = .tile g i h r c sib → s.tileNow g i h sib = .ok place e → ∀ j, j < size →
    t.placeByte place (eOff e r c + j) = BitVec.ofNat 8 (v / 256 ^ j)
  chute : ∀ key r c, dst = .chute key r c → ∀ j, j < size →
    t.placeByte (chutePlace key) (eOff (chuteEntry (s.chuteAt key)) r c + j) = BitVec.ofNat 8 (v / 256 ^ j)

theorem BytesLanded.same {u : State} {v : Nat} {dst : UnitSide} (h : BytesLanded s t a size v dst) (hs : SameData t u) :
    BytesLanded s u a size v dst := by
  refine ⟨fun addr y hd hr j hj => ?_, fun g i h' r c sib place e hd hn j hj => ?_, fun key r c hd j hj => ?_⟩
  · rw [hs.lineView]
    exact h.mem addr y hd hr j hj
  · rw [hs.placeByte]
    exact h.tile g i h' r c sib place e hd hn j hj
  · rw [hs.placeByte]
    exact h.chute key r c hd j hj

theorem BytesLanded.heard {u : State} {v : Nat} {dst : UnitSide} (h : Heard s t line) (hb : BytesLanded t u a size v dst) :
    BytesLanded s u a size v dst := by
  refine ⟨fun addr y hd hr => hb.mem addr y hd (hr.heard h), fun g i h' r c sib place e hd hn => hb.tile g i h' r c sib place e hd ?_,
    fun key r c hd j hj => ?_⟩
  · rw [← hn, h.rest]
    rfl
  · rw [← hb.chute key r c hd j hj, h.rest]
    rfl

theorem ElemWrites.heard {place r c : Nat} {e : BitVec 128} (h : Heard s t line) (hw : ElemWrites s a size place e r c) :
    ElemWrites t a size place e r c := by
  obtain ⟨hfit, hwe, hpoison, hfirst, htile⟩ := hw
  have hgran : t.gran = s.gran := by rw [h.rest]; rfl
  refine ⟨hfit, by rw [hgran]; exact hwe, by rw [hgran]; exact hpoison, ?_, ?_⟩
  · rw [← hfirst, h.rest]
    rfl
  · rw [← htile, h.rest]
    rfl

theorem UnitWrites.heard {dst : UnitSide} (h : Heard s t line) (hw : UnitWrites s a size dst) : UnitWrites t a size dst := by
  cases dst with
  | data x => trivial
  | chute key r c =>
    obtain ⟨hlive, hel⟩ := hw
    have hat : t.chuteAt key = s.chuteAt key := by rw [h.rest]; rfl
    unfold UnitWrites
    dsimp only
    rw [hat]
    exact ⟨hlive, hel.heard h⟩
  | tile g i h' r c sib =>
    obtain ⟨place, e, hnow, hel⟩ := hw
    refine ⟨place, e, ?_, hel.heard h⟩
    rw [← hnow, h.rest]
    rfl
  | mem addr =>
    obtain ⟨x, hreach, hset, hsmall⟩ := hw
    exact ⟨x, hreach.heard h, hset.heard h, hsmall⟩

/-- An element of a unit's size lies in one granule (10 R173, 11 R204). -/
theorem unit_in_granule {e : BitVec 128} {r c : Nat} (hsize : size ∈ [4, 8, 16]) (h : unitBad e size r c = false) : eOff e r c % 16 + size ≤ 16 := by
  unfold unitBad at h
  simp only [Bool.or_eq_false_iff, bne_eq_false_iff_eq] at h
  obtain ⟨⟨⟨-, halign⟩, -⟩, -⟩ := h
  unfold eOff ePitch
  simp only [List.mem_cons, List.not_mem_nil, or_false] at hsize
  generalize c * eWidth e = off at halign ⊢
  generalize (eCols e * eWidth e + 15) / 16 = rows
  rw [show r * (rows * 16) = r * rows * 16 from (Nat.mul_assoc ..).symm]
  generalize r * rows = base
  rcases hsize with rfl | rfl | rfl <;> omega

/-- A unit whose element can be written writes it (11 R205). -/
theorem writeTile_ok {place r c v : Nat} {e : BitVec 128} (h : ElemWrites s a size place e r c) (hk : ∀ k, a.kind ≠ .cpr k) :
    s.writeTile a size v place e r c = .ok (s.writePlace place (eOff e r c) size v) 0 := by
  obtain ⟨hfit, hwe, hpoison, hfirst, htile⟩ := h
  have hready : ¬(a.we && (s.gran place (eOff e r c / 16)).full) = true := by
    rw [Bool.and_eq_true]
    rintro ⟨hw, hfull⟩
    rw [hwe hw] at hfull
    cases hfull
  unfold writeTile
  dsimp only
  rw [hfit, hfirst, htile, hpoison, if_neg Bool.false_ne_true, if_neg (by decide), if_neg hready, if_neg (by simp)]
  split
  · next k hkind => exact absurd hkind (hk k)
  · rfl

/-- A unit's bytes are written to their line at its home (13 R239). -/
theorem writeHome_ok {pa v : Nat} (hset : Settled s (pa / 128)) (hk : ∀ k, a.kind ≠ .cpr k) :
    ∃ t, s.writeHome a pa size v = .ok t ∧ Wrote s t (pa / 128) (setLineBytes (s.lineView (pa / 128)) (pa % 128) size v) := by
  unfold writeHome
  dsimp only
  split
  · next hkind => exact absurd hkind (hk 7)
  · next k _ hkind => exact absurd hkind (hk k)
  · exact homeLine_settled hset _ _ _

theorem writePlace_rest (place off n v : Nat) : (s.writePlace place off n v).async = s.async ∧ (s.writePlace place off n v).carriage = s.carriage := by
  unfold writePlace setGran
  dsimp only
  split <;> exact ⟨rfl, rfl⟩

/-- A unit writes its bytes to memory that its operation reaches. -/
theorem writeSide_mem {addr : Dword} {x : Xlat} (hreach : OpReach s a addr size .write x) (hset : Settled s (x.pa / 128))
    (hk : ∀ k, a.kind ≠ .cpr k) (v : Nat) : ∃ t n, s.writeSide a size v (.mem addr) = .ok t n ∧
      Wrote s t (x.pa / 128) (setLineBytes (s.lineView (x.pa / 128)) (x.pa % 128) size v) := by
  obtain ⟨t, hhome, hwrote⟩ := writeHome_ok (a := a) (size := size) (v := v) hset hk
  have hcheck := hreach.check size
  obtain ⟨-, -, -, hup, -⟩ := hreach
  unfold writeSide
  dsimp only
  rw [hcheck]
  dsimp only
  rw [hup, if_neg Bool.false_ne_true, hhome]
  exact ⟨_, _, rfl, hwrote.traced (traceHome_traced ..)⟩

/-- A unit whose destination can be written writes its bytes there (11 R207). -/
theorem writeSide_ok {dst : UnitSide} (h : UnitWrites s a size dst) (hsize : size ∈ [4, 8, 16]) (hk : ∀ k, a.kind ≠ .cpr k) (v : Nat) :
    ∃ t n, s.writeSide a size v dst = .ok t n ∧ t.async = s.async ∧ t.carriage = s.carriage ∧ BytesLanded s t a size v dst := by
  cases dst with
  | data x => exact ⟨s, 0, rfl, rfl, rfl, nofun, nofun, nofun⟩
  | chute key r c =>
    obtain ⟨hlive, hel⟩ := h
    have hfit := hel.1
    refine ⟨_, _, (if_pos hlive).trans (writeTile_ok hel hk), (writePlace_rest ..).1, (writePlace_rest ..).2, nofun, nofun, ?_⟩
    intro key' r' c' hd j hj
    cases hd
    exact placeByte_writePlace s (unit_in_granule hsize hfit) hj
  | tile g i h' r c sib =>
    obtain ⟨place, e, hnow, hel⟩ := h
    have hfit := hel.1
    have hside : s.writeSide a size v (.tile g i h' r c sib) = .ok (s.writePlace place (eOff e r c) size v) 0 := by
      unfold writeSide
      dsimp only
      rw [hnow]
      exact writeTile_ok hel hk
    refine ⟨_, _, hside, (writePlace_rest ..).1, (writePlace_rest ..).2, nofun, ?_, nofun⟩
    · intro g' i' h'' r' c' sib' place' e' hd hnow' j hj
      cases hd
      cases hnow.symm.trans hnow'
      exact placeByte_writePlace s (unit_in_granule hsize hfit) hj
  | mem addr =>
    obtain ⟨x, hreach, hset, -⟩ := h
    have hlow : x.pa % 128 + size ≤ 128 := by
      obtain ⟨-, hal, hoff, -⟩ := hreach
      simp only [List.mem_cons, List.not_mem_nil, or_false] at hsize
      rcases hsize with rfl | rfl | rfl <;> omega
    obtain ⟨t, n, hside, hdone⟩ := writeSide_mem hreach hset hk v
    refine ⟨t, n, hside, by rw [hdone.rest]; rfl, by rw [hdone.rest]; rfl, fun addr' y hd hr j hj => ?_, nofun, nofun⟩
    cases hd
    rw [← hreach.unique hr, hdone.data, lineByte_setLineBytes _ _ (by omega), if_pos (by omega), Nat.add_sub_cancel_left]

end Sides

/-! ## A unit lands -/

section Land

variable {s t : State} {a : AsyncOp} {u : Nat} {x : AUnit}

theorem async_countFe : (s.countFe a).async = s.async := by
  unfold State.countFe
  split <;> rfl

/-- A unit of a local address is counted in no window (16 R291). -/
theorem unitLanded_eq (h : ∀ addr, x.dst = .mem addr → addr.toNat < 2 ^ 48 ∧ addr.toNat % x.size = 0) :
    s.unitLanded a u x = s.settle a.uid u .landed := by
  unfold unitLanded
  split
  · next pa win hpa =>
    split at hpa
    · unfold unitPa at hpa
      cases hdst : x.dst with
      | mem addr =>
        obtain ⟨hlow, hal⟩ := h addr hdst
        rw [hdst] at hpa
        dsimp only at hpa
        rw [checkAddr_local s _ _ _ _ _ _ _ hlow hal] at hpa
        have hwin : win = none := by
          generalize s.translate a.core a.asid addr.toNat .write a.priv false = r at hpa
          obtain ⟨s1, _ | _ | _ | _⟩ := r <;> cases hpa
          rfl
        rw [hwin]
        unfold countPod countStore sideAddr
        dsimp only
        rw [(local_bits hlow).1]
        rfl
      | _ => rw [hdst] at hpa; cases hpa
    · cases hpa
  · rfl

/-- A unit that has been written, and whose data were sound, has landed. -/
theorem unitDone_landed (h : s.asyncAt a.uid = some a) (hbegin : a.noBegin = false) (hcarry : laneIn s.carriage (u % 32) = false)
    (hlocal : ∀ addr, x.dst = .mem addr → addr.toNat < 2 ^ 48 ∧ addr.toNat % x.size = 0) (line : Nat) :
    SameData s (s.unitDone a u x line) ∧
      ((∃ y ∈ (a.landed u).units, y.st = .pending) → (s.unitDone a u x line).asyncAt a.uid = some (a.landed u)) ∧
      ((∀ y ∈ (a.landed u).units, y.st ≠ .pending) → (s.unitDone a u x line).asyncAt a.uid = none) := by
  have hdone : s.unitDone a u x line = (s.countFe a).settle a.uid u .landed := by
    unfold unitDone
    dsimp only
    rw [hcarry, if_neg Bool.false_ne_true, unitLanded_eq hlocal]
  obtain ⟨hsame, hpending, hlast⟩ := settle_landed (u := u) ((asyncAt_congr async_countFe a.uid).trans h) hbegin
  rw [hdone]
  exact ⟨(SameData.countFe s a).trans hsame, hpending, hlast⟩

theorem dstGone_of_writes {size : Nat} {dst : UnitSide} (h : UnitWrites s a size dst) : s.dstGone dst = false := by
  cases dst with
  | tile g i h' r c sib =>
    obtain ⟨place, e, hnow, -⟩ := h
    unfold dstGone
    dsimp only
    rw [hnow]
    rfl
  | _ => rfl

/-- A unit whose source can be read and whose destination can be written lands (11 R207). -/
theorem landUnit_lands {v : Nat} (h : s.asyncAt a.uid = some a) (hbegin : a.noBegin = false) (hcarry : laneIn s.carriage (u % 32) = false)
    (hsize : x.size ∈ [4, 8, 16]) (hk : ∀ k, a.kind ≠ .cpr k) (hread : UnitReads s a x.size x.src v) (hwrite : UnitWrites s a x.size x.dst) :
    BytesLanded s (s.landUnit a u x) a x.size v x.dst ∧
      ((∃ y ∈ (a.landed u).units, y.st = .pending) → (s.landUnit a u x).asyncAt a.uid = some (a.landed u)) ∧
      ((∀ y ∈ (a.landed u).units, y.st ≠ .pending) → (s.landUnit a u x).asyncAt a.uid = none) := by
  obtain ⟨s1, n, hsrc, hheard⟩ := readSide_ok hread
  obtain ⟨s2, line, hdst, hasync, hcarriage, hbytes⟩ := writeSide_ok (hwrite.heard hheard) hsize hk v
  have hlocal : ∀ addr, x.dst = .mem addr → addr.toNat < 2 ^ 48 ∧ addr.toNat % x.size = 0 := by
    intro addr hd
    rw [hd] at hwrite
    obtain ⟨y, ⟨hlow, hal, -⟩, -⟩ := hwrite
    exact ⟨hlow, hal⟩
  have hland : s.landUnit a u x = s2.unitDone a u x line := by
    unfold landUnit
    rw [dstGone_of_writes hwrite, if_neg Bool.false_ne_true, hsrc]
    dsimp only
    rw [hdst]
  have hs1 : s1.async = s.async ∧ s1.carriage = s.carriage := by
    constructor <;> rw [hheard.rest] <;> rfl
  obtain ⟨hsame, hpending, hlast⟩ := unitDone_landed (x := x) ((asyncAt_congr (hasync.trans hs1.1) a.uid).trans h) hbegin
    (by rw [hcarriage, hs1.2]; exact hcarry) hlocal line
  rw [hland]
  exact ⟨(hbytes.heard hheard).same hsame, hpending, hlast⟩

end Land

/-! ## The claim of a chute slot (11 R212) -/

/-- A unit whose row is a chute's slot. -/
def AUnit.toSlot (slot : Nat) (x : AUnit) : AUnit :=
  match x.dst with
  | .chute k _ col => { x with dst := .chute k slot col }
  | _ => x

/-- An operation that has claimed a slot of its chute. -/
def AsyncOp.claimed (a : AsyncOp) (key slot : Nat) : AsyncOp := { a with kind := .cpchute key (some slot), units := a.units.map (·.toSlot slot) }

theorem AUnit.row_toSlot {slot : Nat} {x : AUnit} {k r col : Nat} (h : (x.toSlot slot).dst = .chute k r col) : r = slot := by
  unfold AUnit.toSlot at h
  split at h
  · cases h
    rfl
  · next hne => exact absurd h (hne k r col)

/-- The engine that claims a slot has it, and its units' rows are the slot's. -/
theorem claimed_of_updAsync {s : State} {uid key slot : Nat} {a : AsyncOp} (ha : a ∈ (s.updAsync uid (·.claimed key slot)).async)
    (huid : a.uid = uid) : a.kind = .cpchute key (some slot) ∧ ∀ y ∈ a.units, ∀ k r col, y.dst = .chute k r col → r = slot := by
  obtain ⟨b, -, hb⟩ := List.mem_map.1 ha
  split at hb
  · subst hb
    refine ⟨rfl, fun y hy k r col hd => ?_⟩
    obtain ⟨x, -, rfl⟩ := List.mem_map.1 hy
    exact AUnit.row_toSlot hd
  · next hne =>
    subst hb
    exact absurd (beq_iff_eq.2 huid) hne

/-- Settles O23: a unit reads, writes and settles, each without disturbing the other bytes; the engine's claim is a change of one chute. -/
theorem asyncUnitsLand : Obligations.AsyncUnitsLand := by
  unfold Obligations.AsyncUnitsLand
  refine ⟨?_, ?_⟩
  · intro s n u v a x hat hsusp hbegin hunit hpend hsent hrow hsize hchute hcpr hwhole hcarry hread hwrite us
    have huid : a.uid = n := by
      have := List.find?_some hat
      simpa using this
    subst huid
    have hexec : exec (.asyncUnitLand a.uid u) s = .next (s.landUnit a u x) := by
      show execAsyncUnitLand a.uid u s = _
      unfold execAsyncUnitLand
      rw [hat]
      dsimp only
      rw [hsusp, if_neg Bool.false_ne_true, hunit]
      dsimp only
      rw [if_neg (by rw [hpend, hsent]; simp), hrow, if_neg Bool.false_ne_true, hwhole]
      split
      · next key hkind => exact absurd hkind (hchute key)
      · rfl
    obtain ⟨⟨hmem, htile, hch⟩, hpending, hlast⟩ := landUnit_lands (u := u) hat hbegin hcarry hsize hcpr hread hwrite
    refine ⟨_, hexec, hmem, htile, hch, fun hp => ?_, hlast⟩
    rw [hpending hp]
    rfl
  · intro s key c hclaim hc bit
    have hexec : exec .cpchuteClaim s = .next ((s.updChute key (fun c => chuteClaimed c true)).updAsync ((c.prodWait.headD (0, 0, 0)).1 - 2 ^ 50)
        (fun a => a.claimed key c.wptr.toNat)) := by
      show execCpchuteClaim s = _
      unfold execCpchuteClaim
      rw [hclaim]
      rfl
    refine ⟨_, hexec, rfl, ?_, fun k hk => (chuteAt_updChute s key k fun c => chuteClaimed c true).trans (if_neg hk), fun a ha huid => claimed_of_updAsync ha huid⟩
    have hat := (chuteAt_updChute s key key fun c => chuteClaimed c true).trans (if_pos rfl)
    rw [hc] at hat
    exact hat

end Sys2Proof.Machine
end

section
/-!
PROOFS. Accesses of an instruction to tile memory (09 R154-R158, 11 R193): what stays when granules change, the full bits that a load empties,
the clock that it hears, and an instruction that begins to wait.
-/

namespace Sys2Proof.Machine

open State

/-! ## A change of granules alone -/

/-- Only granules of workgroups and chutes differ between s and t. -/
structure GranOnly (s t : State) : Prop where
  rest : t = { s with wg := t.wg, chute := t.chute }
  wgs : ∀ g, t.wgAt g = { s.wgAt g with granule := (t.wgAt g).granule }
  chutes : ∀ k, t.chuteAt k = { s.chuteAt k with granule := (t.chuteAt k).granule }

namespace GranOnly

variable {s t u : State}

theorem refl (s : State) : GranOnly s s := ⟨rfl, fun _ => rfl, fun _ => rfl⟩

theorem trans (h1 : GranOnly s t) (h2 : GranOnly t u) : GranOnly s u := by
  refine ⟨?_, fun g => ?_, fun k => ?_⟩
  · conv_lhs => rw [h2.rest, h1.rest]
  · rw [h2.wgs g, h1.wgs g]
  · rw [h2.chutes k, h1.chutes k]

theorem setGran (s : State) (p i : Nat) (x : Granule) : GranOnly s (s.setGran p i x) := by
  unfold State.setGran
  split
  · refine ⟨rfl, fun g => ?_, fun _ => rfl⟩
    rw [wgAt_updWg]
    split
    · next hg => rw [hg]; rfl
    · rfl
  · refine ⟨rfl, fun _ => rfl, fun k => ?_⟩
    rw [chuteAt_updChute]
    split
    · next hk => rw [hk]
    · rfl

theorem foldl {α : Type} (p : Nat) (i : α → Nat) (x : State → α → Granule) (xs : List α) (s : State) :
    GranOnly s (xs.foldl (fun a y => a.setGran p (i y) (x a y)) s) := by
  induction xs generalizing s with
  | nil => exact refl s
  | cons y ys ih => exact (setGran ..).trans (ih _)

theorem focus (h : GranOnly s t) : t.focus = s.focus := by rw [h.rest]
theorem lamport (h : GranOnly s t) : t.lamport = s.lamport := by rw [h.rest]
theorem lanes (h : GranOnly s t) : t.lanes = s.lanes := by unfold State.lanes; rw [h.focus]

theorem here (h : GranOnly s t) : t.here = { s.here with granule := t.here.granule } := by
  unfold State.here
  rw [h.focus]
  exact h.wgs _

theorem spanAt (h : GranOnly s t) (g n : Nat) : t.spanAt g n = s.spanAt g n := by
  unfold State.spanAt
  rw [h.wgs g]
  rfl

theorem span (h : GranOnly s t) : t.span = s.span := by
  unfold State.span
  rw [h.focus, h.spanAt]

theorem byte (h : GranOnly s t) (a : Nat) : t.byte a = s.byte a := by rw [h.rest]; rfl

end GranOnly

/-- A granule's owner keeps its core when granules of the place change. -/
theorem placeWg_setGran_core (s : State) (p i : Nat) (x : Granule) : ((s.setGran p i x).placeWg p).core = (s.placeWg p).core := by
  have hgran := GranOnly.setGran s p i x
  unfold placeWg
  by_cases hp : p % 2 = 0
  · rw [if_pos hp, if_pos hp, hgran.wgs]
  · have hwg : (s.setGran p i x).wg = s.wg := by rw [setGran, if_neg hp]; rfl
    rw [if_neg hp, if_neg hp, hgran.chutes, hwg]

theorem placeWg_foldl_core {α : Type} (p : Nat) (i : α → Nat) (x : State → α → Granule) (xs : List α) (s : State) :
    ((xs.foldl (fun a y => a.setGran p (i y) (x a y)) s).placeWg p).core = (s.placeWg p).core := by
  induction xs generalizing s with
  | nil => rfl
  | cons y ys ih => exact (ih _).trans (placeWg_setGran_core ..)

/-! ## The clock that a load hears (12 R223) -/

theorem tileHear_rest (s : State) (p : Nat) : s.tileHear p = { s with lamport := (s.tileHear p).lamport } := hearClock_rest ..

/-- What is heard does not depend on granules. -/
theorem tileHear_granOnly {s t : State} (h : GranOnly s t) {p : Nat} (hcore : (t.placeWg p).core = (s.placeWg p).core) :
    t.tileHear p = { t with lamport := (s.tileHear p).lamport } := by
  have hhere : t.here.core = s.here.core := by rw [h.here]
  have hlamport : (t.tileHear p).lamport = (s.tileHear p).lamport := by
    unfold tileHear hearClock
    rw [hhere, hcore, h.lamport]
    split
    · rfl
    · exact h.lamport
  rw [← hlamport]
  exact tileHear_rest t p

/-! ## Granules that a load empties (09 R158) -/

namespace Emptied

variable {s t u : State} {p : Nat} {f : Nat → Prop}

theorem focus (h : Emptied s t p f) : t.focus = s.focus := by rw [h.1]

/-- A change of the issuing workgroup's tile registers and of one span of it empties nothing. -/
theorem of_here (p : Nat) (hrest : t = { s with wg := t.wg }) (hgroups : ∀ g, g ≠ s.focus.g → t.wgAt g = s.wgAt g)
    (hhere : t.here = { s.here with span := t.here.span, t := t.here.t }) (hspans : ∀ n, n ≠ s.focus.sp → t.here.spanAt n = s.here.spanAt n) :
    Emptied s t p (fun _ => False) := by
  have hfocus : t.focus = s.focus := by rw [hrest]
  have hgranule (g : Nat) : (t.wgAt g).granule = (s.wgAt g).granule := by
    by_cases hg : g = s.focus.g
    · have h := congrArg Wg.granule hhere
      unfold State.here at h
      rw [hfocus] at h
      rw [hg, h]
    · rw [hgroups g hg]
  have hgran (q i : Nat) : t.gran q i = s.gran q i := by
    by_cases hq : q % 2 = 0
    · rw [gran_even _ hq, gran_even s hq, hgranule]
    · rw [gran_odd _ hq, gran_odd s hq, hrest]
      rfl
  refine ⟨?_, fun q g _ => ⟨fun h => h.2.elim, fun _ => hgran q g⟩, fun g hg => by rw [hgroups g hg], ?_, hspans⟩
  · conv_lhs => rw [hrest]
    rw [show t.chute = s.chute by rw [hrest]]
  · rw [show t.here.granule = s.here.granule by rw [hhere]]
    exact hhere

theorem of_onlySpan (p : Nat) (h : OnlySpan s t) : Emptied s t p (fun _ => False) :=
  of_here p h.rest h.groups (by conv_lhs => rw [h.here]
                                rw [show t.here.t = s.here.t by rw [h.here]]) h.spans

theorem of_hereRetired (p : Nat) {w : Wg} (hw : w = { s.here with t := w.t }) (h : HereRetired s t w) : Emptied s t p (fun _ => False) := by
  obtain ⟨hrest, -, hgroups, hhere, hspans, -⟩ := h
  refine of_here p hrest hgroups ?_ hspans
  rw [show t.here.t = w.t by rw [hhere]]
  conv_lhs => rw [hhere, hw]

/-- A later change that empties nothing. -/
theorem trans (h1 : Emptied s t p f) (h2 : Emptied t u p (fun _ => False)) : Emptied s u p f := by
  have hfocus := h1.focus
  obtain ⟨hrest1, hgran1, hgroups1, hhere1, hspans1⟩ := h1
  obtain ⟨hrest2, hgran2, hgroups2, hhere2, hspans2⟩ := h2
  have hkept (q g : Nat) (hg : g < 2 ^ 24) : u.gran q g = t.gran q g := (hgran2 q g hg).2 fun h => h.2
  refine ⟨?_, fun q g hg => ?_, fun g hg => ?_, ?_, fun n hn => ?_⟩
  · conv_lhs => rw [hrest2, hrest1]
  · rw [hkept q g hg]
    exact hgran1 q g hg
  · rw [hgroups2 g (hfocus ▸ hg), hgroups1 g hg]
  · conv_lhs => rw [hhere2, hhere1]
  · rw [hspans2 n (hfocus ▸ hn), hspans1 n hn]

theorem of_granOnly (h : GranOnly s t) (hgran : ∀ q g, g < 2 ^ 24 →
    (q = p ∧ f g → t.gran q g = { s.gran q g with full := false }) ∧ (¬(q = p ∧ f g) → t.gran q g = s.gran q g)) : Emptied s t p f := by
  refine ⟨h.rest, hgran, fun g _ => h.wgs g, ?_, fun n _ => ?_⟩
  · conv_lhs => rw [h.here]
    rw [show t.here.t = s.here.t by rw [h.here], show t.here.span = s.here.span by rw [h.here]]
  · exact congrArg (fun m => Store.get Span.fresh m n) (by rw [h.here])

/-- The same under another clock. -/
theorem clocked (h : Emptied s t p f) (m : Store (BitVec 48)) : Emptied { s with lamport := m } { t with lamport := m } p f :=
  ⟨congrArg (fun z : State => { z with lamport := m }) h.1, h.2⟩

theorem congr {f' : Nat → Prop} (h : Emptied s t p f) (hf : ∀ g, f g ↔ f' g) : Emptied s t p f' := by
  rwa [show f' = f from funext fun g => (propext (hf g)).symm]

end Emptied

/-- The granules of a list become empty. -/
def clearFulls {α : Type} (s : State) (p : Nat) (i : α → Nat) (xs : List α) : State := xs.foldl (fun a y => a.setFull p false (i y)) s

section ClearFulls

variable {α : Type} (s : State) (p : Nat) (i : α → Nat) (xs : List α)

theorem granOnly_clearFulls : GranOnly s (clearFulls s p i xs) :=
  GranOnly.foldl p i (fun a y => { a.gran p (i y) with full := false }) xs s

theorem gran_clearFulls (q j : Nat) : (clearFulls s p i xs).gran q j =
    if ∃ y ∈ xs, granKey q j = granKey p (i y) then { s.gran q j with full := false } else s.gran q j := by
  induction xs generalizing s with
  | nil => rw [if_neg (by simp)]; rfl
  | cons y ys ih =>
    refine (ih (s.setFull p false (i y))).trans ?_
    rw [gran_setFull]
    by_cases hy : granKey q j = granKey p (i y)
    · rw [if_pos hy]
      exact (ite_self _).trans (if_pos ⟨y, List.mem_cons_self .., hy⟩).symm
    · rw [if_neg hy]
      refine if_congr ?_ rfl rfl
      simp [hy]

/-- A list of granules that is emptied, and the clock of their core heard. -/
theorem emptied_clearFulls (hsmall : ∀ y ∈ xs, i y < 2 ^ 24) :
    Emptied (s.tileHear p) ((clearFulls s p i xs).tileHear p) p (fun g => ∃ y ∈ xs, g = i y) := by
  have honly := granOnly_clearFulls s p i xs
  have hempty : Emptied s (clearFulls s p i xs) p (fun g => ∃ y ∈ xs, g = i y) := by
    refine .of_granOnly honly fun q g hg => ?_
    have hiff : (∃ y ∈ xs, granKey q g = granKey p (i y)) ↔ q = p ∧ ∃ y ∈ xs, g = i y := by
      constructor
      · rintro ⟨y, hy, h⟩
        obtain ⟨hq, hg⟩ := (granKey_inj hg (hsmall y hy)).1 h
        exact ⟨hq, y, hy, hg⟩
      · rintro ⟨rfl, y, hy, rfl⟩
        exact ⟨y, hy, rfl⟩
    rw [gran_clearFulls]
    exact ⟨fun h => if_pos (hiff.2 h), fun h => if_neg (mt hiff.1 h)⟩
  have hcore := placeWg_foldl_core p i (fun a y => { a.gran p (i y) with full := false }) xs s
  rw [tileHear_granOnly honly hcore, tileHear_rest s p]
  exact hempty.clocked _

end ClearFulls

/-! ## An instruction that begins to wait (04 R74) -/

section Fresh

variable {s t : State}

/-- No tile instruction of the issuing set waits yet. -/
def TileFresh (s : State) : Prop := ∀ w ∈ s.span.tileWait, w.own ≠ s.lanes

theorem TileFresh.congr (h : TileFresh s) (hspan : t.span.tileWait = s.span.tileWait) (hlanes : t.lanes = s.lanes) : TileFresh t := by
  unfold TileFresh
  rw [hspan, hlanes]
  exact h

theorem TileFresh.find (h : TileFresh s) : s.span.tileWait.find? (fun x => x.own == s.lanes) = none :=
  List.find?_eq_none.2 fun w hw => by simpa using h w hw

theorem TileFresh.tileBegun (h : TileFresh s) : s.tileBegun = false :=
  List.any_eq_false.2 fun w hw => by simpa using h w hw

theorem TileFresh.tileProg (h : TileFresh s) (w : TileWait) : s.tileProg w = w := by
  unfold State.tileProg
  rw [h.find]
  rfl

theorem TileFresh.tileOver (h : TileFresh s) : s.tileOver = s := by
  unfold State.tileOver
  rw [h.find]

/-- It waits: its span keeps what is left of it, and its counter has risen. -/
theorem TileFresh.tileWaits (h : TileFresh s) (w : TileWait) : OnlySpan s (s.tileWaits w) ∧
    (s.tileWaits w).span = { s.span with k := (s.tileWaits w).span.k, wait := w.on, tileWait := s.span.tileWait ++ [w] } ∧
    ∀ n, (s.tileWaits w).span.kc n = if n = w.ctr ∧ n < 6 then s.span.kc n + 1 else s.span.kc n := by
  have hspan : (s.tileWaits w).span = { s.span with
      wait := w.on
      tileWait := s.span.tileWait ++ [w]
      k := if w.ctr < 6 then Store.upd 0 s.span.k w.ctr (fun n => n + 1) else s.span.k } := by
    unfold State.tileWaits
    rw [h.tileBegun, State.span_updSpan]
    simp
  refine ⟨onlySpan_updSpan .., by rw [hspan], fun n => ?_⟩
  rw [hspan]
  exact get_counter_rises s.span.k w.ctr n

end Fresh

end Sys2Proof.Machine
end

section
/-!
PROOFS. tld and tld.perm (09 R155, R156): the bytes that a load names, what it answers, and the tile register that it fills.
-/

namespace Sys2Proof.Machine

open State

/-! ## The bytes of a rectangle of elements -/

/-- The elements of a configured tile, each with the row and column of the handle that it names. -/
def gridElems (x : Dword) (src : Nat → Nat → Nat × Nat) : Elems :=
  (List.range (tcRows x)).flatMap fun i => (List.range (tcCols x)).map fun j => (i * tcCols x + j, src i j)

theorem rectElems_eq (x : Dword) (row col : Nat) : rectElems x row col = gridElems x fun i j => (row + i, col + j) := rfl

/-- Byte c of element (i, j) of a tile, with the granule and the byte there that it names. -/
def gridByte (place : Nat) (e : BitVec 128) (x : Dword) (src : Nat → Nat → Nat × Nat) (i j c : Nat) : Nat × Nat × Nat × Nat :=
  ((i * tcCols x + j) * eWidth e + c, place, (eOff e (src i j).1 (src i j).2 + c) / 16, (eOff e (src i j).1 (src i j).2 + c) % 16)

theorem mem_gridElems {x : Dword} {src : Nat → Nat → Nat × Nat} {q : Nat × Nat × Nat} :
    q ∈ gridElems x src ↔ ∃ i j, i < tcRows x ∧ j < tcCols x ∧ q = (i * tcCols x + j, src i j) := by
  simp only [gridElems, List.mem_flatMap, List.mem_map, List.mem_range]
  constructor
  · rintro ⟨i, hi, j, hj, rfl⟩
    exact ⟨i, j, hi, hj, rfl⟩
  · rintro ⟨i, j, hi, hj, rfl⟩
    exact ⟨i, hi, j, hj, rfl⟩

theorem mem_loadBytes {place : Nat} {e : BitVec 128} {x : Dword} {src : Nat → Nat → Nat × Nat} {b : Nat × Nat × Nat × Nat} :
    b ∈ loadBytes place e (gridElems x src) ↔
      ∃ i j c, i < tcRows x ∧ j < tcCols x ∧ c < eWidth e ∧ b = gridByte place e x src i j c := by
  simp only [loadBytes, List.mem_flatMap, List.mem_map, List.mem_range]
  constructor
  · rintro ⟨q, hq, c, hc, rfl⟩
    obtain ⟨i, j, hi, hj, rfl⟩ := mem_gridElems.1 hq
    exact ⟨i, j, c, hi, hj, hc, rfl⟩
  · rintro ⟨i, j, c, hi, hj, hc, rfl⟩
    exact ⟨_, mem_gridElems.2 ⟨i, j, hi, hj, rfl⟩, c, hc, rfl⟩

theorem bits_lt {n : Nat} (w : BitVec n) (hi lo : Nat) : bits w hi lo < 2 ^ (hi + 1 - lo) := Nat.mod_lt _ (Nat.two_pow_pos _)

/-- A handle of elements of at most 16 bytes has fewer than 2^24 granules (10 R173). -/
theorem eOff_lt {e : BitVec 128} {row col c : Nat} (hw : eWidth e ≤ 16) (hrow : row < eRows e) (hcol : col < eCols e) (hc : c < eWidth e) :
    eOff e row col + c < 2 ^ 28 := by
  have hrows : eRows e ≤ 2 ^ 12 := bits_lt e 58 47
  have hcols : eCols e ≤ 2 ^ 12 := bits_lt e 46 35
  have hsize : eCols e * eWidth e ≤ 2 ^ 12 * 16 := Nat.mul_le_mul hcols hw
  have hpitch : ePitch e ≤ 2 ^ 16 := by
    unfold ePitch
    omega
  have hin : col * eWidth e + c < ePitch e := by
    have := row_pos_lt hcol hc
    unfold ePitch
    omega
  calc eOff e row col + c = row * ePitch e + (col * eWidth e + c) := Nat.add_assoc ..
    _ < eRows e * ePitch e := row_pos_lt hrow hin
    _ ≤ 2 ^ 12 * 2 ^ 16 := Nat.mul_le_mul hrows hpitch

theorem tcW_le (x : Dword) : tcW x ≤ 8 := by
  unfold tcW fmtBytes
  split <;> [skip; split <;> [skip; split <;> [skip; split]]] <;> decide

/-! ## What a load of a tile register answers (09 R155, R156) -/

/-- A load of a tile register that passes its checks: its handle is bound with the tile's element width, its elements lie inside it, in granules
without poison which nothing earlier of its span has still to access. -/
structure TileLoadable (s : State) (k : BitVec 3) (n : BitVec 4) (h : BitVec 6) (r : TileRef) (x : Dword) (src : Nat → Nat → Nat × Nat)
    (place : Nat) (e : BitVec 128) : Prop where
  cfg : s.here.cfg n.toNat = x
  ref : s.tileRef s.focus.g h.toNat r = .ok place e
  width : eWidth e = tcW x
  inside : ∀ i j, i < tcRows x → j < tcCols x → (src i j).1 < eRows e ∧ (src i j).2 < eCols e
  poison : ∀ i, (s.gran place i).poison = false
  busy : s.tileBusy ((loadBytes place e (gridElems x src)).map fun b => (b.2.1, b.2.2.1)) = false
  fresh : TileFresh s
  counter : k = 7#3 ∨ (k.toNat < 6 ∧ s.span.kc k.toNat < 63)

/-- The register writes of a load. -/
def loadRegWrites (s : State) (place r : Nat) (bs : List (Nat × Nat × Nat × Nat)) : List RegWrite :=
  bs.map fun b => .t r b.1 (s.placeByte place (16 * b.2.2.1 + b.2.2.2))

/-- The state in which a load has emptied the granules that .wfc empties. -/
def tileCleared (s : State) (fe : BitVec 2) (place : Nat) (bs : List (Nat × Nat × Nat × Nat)) : State :=
  if fe = 2#2 then clearFulls s place (fun b => b.2.2.1) bs else s

/-- The state in which a load has emptied them and, with .wf and .wfc, heard their core's clock. -/
def tileLoaded (s : State) (fe : BitVec 2) (place : Nat) (bs : List (Nat × Nat × Nat × Nat)) : State :=
  if fe = 0#2 then tileCleared s fe place bs else (tileCleared s fe place bs).tileHear place

theorem granOnly_tileCleared (s : State) (fe : BitVec 2) (place : Nat) (bs : List (Nat × Nat × Nat × Nat)) :
    GranOnly s (tileCleared s fe place bs) := by
  unfold tileCleared
  split
  · exact granOnly_clearFulls ..
  · exact .refl s

theorem tileLoaded_keeps (s : State) {fe : BitVec 2} (h : fe ≠ 2#2) (place : Nat) (bs : List (Nat × Nat × Nat × Nat)) :
    tileLoaded s fe place bs = if fe = 0#2 then s else s.tileHear place := by
  rw [tileLoaded, tileCleared, if_neg h]

theorem tileLoaded_empties (s : State) (place : Nat) (bs : List (Nat × Nat × Nat × Nat)) :
    tileLoaded s 2 place bs = (clearFulls s place (fun b => b.2.2.1) bs).tileHear place := rfl

theorem tileHear_granOnly_span {s t : State} (h : GranOnly s t) (p : Nat) : (t.tileHear p).span = s.span ∧ (t.tileHear p).lanes = s.lanes := by
  rw [tileHear_rest]
  exact ⟨h.span, h.lanes⟩

theorem tileLoaded_span (s : State) (fe : BitVec 2) (place : Nat) (bs : List (Nat × Nat × Nat × Nat)) :
    (tileLoaded s fe place bs).span = s.span ∧ (tileLoaded s fe place bs).lanes = s.lanes := by
  have h := granOnly_tileCleared s fe place bs
  unfold tileLoaded
  split
  · exact ⟨h.span, h.lanes⟩
  · exact tileHear_granOnly_span h place

section TileLoad

variable {s : State} {k : BitVec 3} {fe : BitVec 2} {n : BitVec 4} {h : BitVec 6} {r : TileRef} {x : Dword} {src : Nat → Nat → Nat × Nat}
  {place : Nat} {e : BitVec 128}

theorem TileLoadable.not_outside (hl : TileLoadable s k n h r x src place e) :
    ¬(eWidth e ≠ tcW x ∨ (gridElems x src).any (fun q => decide (eRows e ≤ q.2.1) || decide (eCols e ≤ q.2.2)) = true) := by
  rintro (hwidth | hany)
  · exact hwidth hl.width
  · obtain ⟨q, hq, hout⟩ := List.any_eq_true.1 hany
    obtain ⟨i, j, hi, hj, rfl⟩ := mem_gridElems.1 hq
    obtain ⟨hrow, hcol⟩ := hl.inside i j hi hj
    simp at hout
    omega

theorem TileLoadable.not_full (hl : TileLoadable s k n h r x src place e) : ¬(63 ≤ s.span.kc k.toNat ∧ k ≠ 7#3 ∧ !s.tileBegun) := fun hx =>
  absurd (hl.counter.resolve_left hx.2.1).2 (Nat.not_lt.2 hx.1)

theorem TileLoadable.not_busy (hl : TileLoadable s k n h r x src place e) :
    ¬s.tileBusy ((loadBytes place e (gridElems x src)).map fun b => (b.2.1, b.2.2.1)) = true := by
  rw [hl.busy]
  exact Bool.false_ne_true

/-- All its granules may be read: it does so. -/
theorem tileLoad_ready (hl : TileLoadable s k n h r x src place e)
    (hready : fe = 0#2 ∨ (loadBytes place e (gridElems x src)).find? (fun b => !(s.gran place b.2.2.1).full) = none) :
    tileLoad k fe n h r (gridElems x src) s = (tileLoaded s fe place (loadBytes place e (gridElems x src))).counted k s.lanes [.t n.toNat]
      (loadRegWrites s place n.toNat (loadBytes place e (gridElems x src))) := by
  have hpoison : (loadBytes place e (gridElems x src)).find? (fun b => (s.gran place b.2.2.1).poison) = none :=
    List.find?_eq_none.2 fun b _ => by simp [hl.poison]
  have hfind : (if fe = 0#2 then none else (loadBytes place e (gridElems x src)).find? (fun b => !(s.gran place b.2.2.1).full)) = none := by
    rcases hready with hfe | hnone
    · rw [if_pos hfe]
    · rw [hnone]; exact ite_self _
  have hover := (hl.fresh.congr (congrArg Span.tileWait (tileLoaded_span s fe place _).1) (tileLoaded_span s fe place
    (loadBytes place e (gridElems x src))).2).tileOver
  unfold tileLoad
  dsimp only
  rw [hl.fresh.tileProg, hl.ref, hl.cfg]
  dsimp only [tileStart]
  refine (if_neg hl.not_outside).trans ((if_neg hl.not_busy).trans ((if_neg hl.not_full).trans ?_))
  rw [hfind, hpoison]
  show (tileLoaded s fe place (loadBytes place e (gridElems x src))).tileOver.counted k s.lanes [.t n.toNat]
    (loadRegWrites s place n.toNat (loadBytes place e (gridElems x src))) = _
  rw [hover]

/-- With .wf and .wfc it waits for its first granule that is empty. -/
theorem tileLoad_waits (hl : TileLoadable s k n h r x src place e) {b : Nat × Nat × Nat × Nat} (hfe : fe ≠ 0#2)
    (hb : (loadBytes place e (gridElems x src)).find? (fun b => !(s.gran place b.2.2.1).full) = some b) :
    tileLoad k fe n h r (gridElems x src) s = .next (s.tileWaits
      { (s.tileStart s.lanes x (gridElems x src) [] [.t n.toNat] k.toNat) with
        on := .granule place b.2.2.1, lanes := s.lanes, grans := (loadBytes place e (gridElems x src)).map (fun b => (b.2.1, b.2.2.1)) }) := by
  unfold tileLoad
  dsimp only
  rw [hl.fresh.tileProg, hl.ref, hl.cfg]
  dsimp only [tileStart]
  refine (if_neg hl.not_outside).trans ((if_neg hl.not_busy).trans ((if_neg hl.not_full).trans ?_))
  rw [if_neg hfe, hb]
  rfl

end TileLoad

end Sys2Proof.Machine
end

section
/-!
PROOFS. tld and tld.perm (09 R155, R156): the tile register that a load fills, and what each answers.
-/

namespace Sys2Proof.Machine

open State

/-! ## The bytes of a tile register that a result writes -/

/-- Only tile registers of the issuing workgroup differ between s and t. -/
structure TilesOnly (s t : State) : Prop where
  rest : t = { s with wg := t.wg }
  groups : ∀ g, g ≠ s.focus.g → t.wgAt g = s.wgAt g
  here : t.here = { s.here with t := t.here.t }

namespace TilesOnly

variable {s t u : State}

theorem refl (s : State) : TilesOnly s s := ⟨rfl, fun _ _ => rfl, rfl⟩

theorem focus (h : TilesOnly s t) : t.focus = s.focus := by rw [h.rest]

theorem trans (h1 : TilesOnly s t) (h2 : TilesOnly t u) : TilesOnly s u := by
  refine ⟨?_, fun g hg => ?_, ?_⟩
  · conv_lhs => rw [h2.rest, h1.rest]
  · rw [h2.groups g (h1.focus ▸ hg), h1.groups g hg]
  · conv_lhs => rw [h2.here, h1.here]

theorem spanAt (h : TilesOnly s t) (n : Nat) : t.here.spanAt n = s.here.spanAt n :=
  congrArg (fun m => Store.get Span.fresh m n) (by rw [h.here])

theorem setTByte (s : State) (r off : Nat) (x : Byte) : TilesOnly s (s.updHere fun w => w.setTByte r off x) := by
  have hhere : (s.updHere fun w => w.setTByte r off x).here = s.here.setTByte r off x := State.wgAt_updWg_self ..
  exact ⟨rfl, fun g hg => State.wgAt_updWg_ne s _ hg, by rw [hhere]; rfl⟩

/-- The instruction that has written them is complete. -/
theorem retire (h : TilesOnly s t) : HereRetired s t.retire { s.here with t := t.retire.here.t } ∧ t.retire.here.t = t.here.t := by
  have honly : OnlySpan t t.retire := onlySpan_updSpan t _
  have hfocus := h.focus
  have ht : t.retire.here.t = t.here.t := by rw [honly.here]
  have hspan : t.span = s.span := by
    show t.here.spanAt t.focus.sp = _
    rw [h.spanAt, hfocus]
    rfl
  refine ⟨⟨?_, fun a => ?_, fun g hg => ?_, ?_, fun n hn => ?_, ?_⟩, ht⟩
  · exact honly.rest.trans (congrArg (fun z : State => { z with wg := t.retire.wg }) h.rest)
  · rw [honly.bytes, h.rest]
    rfl
  · rw [honly.groups g (hfocus ▸ hg), h.groups g hg]
  · rw [ht]
    conv_lhs => rw [honly.here, h.here]
  · rw [honly.spans n (hfocus ▸ hn), h.spanAt]
  · rw [State.span_retire, hspan, show t.lanes = s.lanes by unfold State.lanes; rw [hfocus], hfocus]

end TilesOnly

/-- Bytes of tile register r are written, each with what G gives its position. -/
theorem writeRegs_tile {α : Type} (s : State) (r : Nat) (pos : α → Nat) {F : α → Byte} {G : Nat → Byte} (bs : List α)
    (hG : ∀ b ∈ bs, F b = G (pos b)) :
    TilesOnly s (s.writeRegs s.focus.g s.focus.sp (bs.map fun b => .t r (pos b) (F b))) ∧
      ∀ m, Store.get 0 (s.writeRegs s.focus.g s.focus.sp (bs.map fun b => .t r (pos b) (F b))).here.t m =
        if ∃ b ∈ bs, 4096 * r + pos b = m then G (m - 4096 * r) else Store.get 0 s.here.t m := by
  induction bs generalizing s with
  | nil => exact ⟨.refl s, fun m => (if_neg (by simp)).symm⟩
  | cons b bs ih =>
    obtain ⟨honly, hget⟩ := ih (s.updHere fun w => w.setTByte r (pos b) (F b)) fun y hy => hG y (List.mem_cons_of_mem _ hy)
    refine ⟨(TilesOnly.setTByte ..).trans honly, fun m => (hget m).trans ?_⟩
    have hhere : (s.updHere fun w => w.setTByte r (pos b) (F b)).here = s.here.setTByte r (pos b) (F b) := State.wgAt_updWg_self ..
    have hset : Store.get 0 (s.here.setTByte r (pos b) (F b)).t m = if m = 4096 * r + pos b then F b else Store.get 0 s.here.t m :=
      Store.get_set ..
    rw [hhere, hset, hG b (List.mem_cons_self ..)]
    by_cases hb : 4096 * r + pos b = m
    · rw [if_pos (show m = 4096 * r + pos b from hb.symm)]
      refine Eq.trans ?_ (if_pos ⟨b, List.mem_cons_self .., hb⟩).symm
      rw [← hb, Nat.add_sub_cancel_left]
      exact ite_self _
    · rw [if_neg (show ¬m = 4096 * r + pos b from fun h => hb h.symm)]
      refine if_congr ?_ rfl rfl
      simp [hb]

/-- What a load gives byte m of its tile register: the byte of the handle that it names. -/
def loadedByte (s : State) (place : Nat) (e : BitVec 128) (x : Dword) (src : Nat → Nat → Nat × Nat) (m : Nat) : Byte :=
  s.placeByte place (eOff e (src (m / eWidth e / tcCols x) (m / eWidth e % tcCols x)).1 (src (m / eWidth e / tcCols x) (m / eWidth e % tcCols x)).2 +
    m % eWidth e)

theorem loadedByte_at (s : State) (place : Nat) (e : BitVec 128) (x : Dword) (src : Nat → Nat → Nat × Nat) {i j c : Nat} (hj : j < tcCols x)
    (hc : c < eWidth e) : loadedByte s place e x src ((i * tcCols x + j) * eWidth e + c) =
      s.placeByte place (eOff e (src i j).1 (src i j).2 + c) := by
  have hdiv (a : Nat) {b k : Nat} (hb : b < k) : (a * k + b) / k = a ∧ (a * k + b) % k = b := by
    rw [Nat.mul_comm]
    exact ⟨by rw [Nat.mul_add_div (by omega), Nat.div_eq_of_lt hb, Nat.add_zero], by rw [Nat.mul_add_mod, Nat.mod_eq_of_lt hb]⟩
  rw [loadedByte, (hdiv _ hc).1, (hdiv _ hc).2, (hdiv _ hj).1, (hdiv _ hj).2]

/-- The tile register that a load has filled: each element's bytes are those that it names, and every other byte is as it was. -/
theorem loadRegWrites_fill (s u : State) (n : Nat) (place : Nat) (e : BitVec 128) (x : Dword) (src : Nat → Nat → Nat × Nat) :
    let t := u.writeRegs u.focus.g u.focus.sp (loadRegWrites s place n (loadBytes place e (gridElems x src)))
    TilesOnly u t ∧
      (∀ i j b, i < tcRows x → j < tcCols x → b < eWidth e → Store.get 0 t.here.t (4096 * n + ((i * tcCols x + j) * eWidth e + b)) =
        s.placeByte place (eOff e (src i j).1 (src i j).2 + b)) ∧
      ∀ m, m < 4096 * n ∨ 4096 * n + tcRows x * tcCols x * eWidth e ≤ m → Store.get 0 t.here.t m = Store.get 0 u.here.t m := by
  obtain ⟨honly, hget⟩ := writeRegs_tile u n (fun b => b.1) (G := loadedByte s place e x src)
    (F := fun b => s.placeByte place (16 * b.2.2.1 + b.2.2.2)) (loadBytes place e (gridElems x src)) fun b hb => by
      obtain ⟨i, j, c, hi, hj, hc, rfl⟩ := mem_loadBytes.1 hb
      show s.placeByte place _ = loadedByte s place e x src ((i * tcCols x + j) * eWidth e + c)
      rw [loadedByte_at s place e x src hj hc]
      exact congrArg _ (Nat.div_add_mod ..)
  refine ⟨honly, fun i j b hi hj hb => ?_, fun m hm => ?_⟩
  · refine (hget _).trans ((if_pos ⟨_, mem_loadBytes.2 ⟨i, j, b, hi, hj, hb, rfl⟩, rfl⟩).trans ?_)
    rw [Nat.add_sub_cancel_left]
    exact loadedByte_at s place e x src hj hb
  · refine (hget _).trans (if_neg ?_)
    rintro ⟨b, hb, hpos⟩
    obtain ⟨i, j, c, hi, hj, hc, rfl⟩ := mem_loadBytes.1 hb
    have hlt := row_pos_lt (row_pos_lt hi hj) hc
    simp only [gridByte] at hpos
    omega

/-- A load without a counter fills its register and is complete. -/
theorem counted_fill (s u : State) (L : Lanes) (dests : List RegName) (n : Nat) (place : Nat) (e : BitVec 128) (x : Dword)
    (src : Nat → Nat → Nat × Nat) :
    ∃ t, u.counted 7#3 L dests (loadRegWrites s place n (loadBytes place e (gridElems x src))) = .next t ∧
      HereRetired u t { u.here with t := t.here.t } ∧
      (∀ i j b, i < tcRows x → j < tcCols x → b < eWidth e → t.here.tByte n ((i * tcCols x + j) * eWidth e + b) =
        s.placeByte place (eOff e (src i j).1 (src i j).2 + b)) ∧
      ∀ m, m < 4096 * n ∨ 4096 * n + tcRows x * tcCols x * eWidth e ≤ m → Store.get 0 t.here.t m = Store.get 0 u.here.t m := by
  obtain ⟨honly, hin, hout⟩ := loadRegWrites_fill s u n place e x src
  obtain ⟨hret, ht⟩ := honly.retire
  refine ⟨_, if_pos rfl, hret, fun i j b hi hj hb => ?_, fun m hm => ?_⟩
  · unfold Wg.tByte
    rw [ht]
    exact hin i j b hi hj hb
  · rw [ht]
    exact hout m hm

/-! ## tld and tld.perm -/

section Answers

variable {s : State} {k : BitVec 3} {fe : BitVec 2} {n : BitVec 4} {h : BitVec 6} {r : TileRef} {x : Dword} {src : Nat → Nat → Nat × Nat}
  {place : Nat} {e : BitVec 128}

/-- The granules that a load names lie among the first 2^24 of their handle (10 R173). -/
theorem TileLoadable.small (hl : TileLoadable s k n h r x src place e) {b : Nat × Nat × Nat × Nat} (hb : b ∈ loadBytes place e (gridElems x src)) :
    b.2.2.1 < 2 ^ 24 := by
  obtain ⟨i, j, c, hi, hj, hc, rfl⟩ := mem_loadBytes.1 hb
  obtain ⟨hrow, hcol⟩ := hl.inside i j hi hj
  have hw : eWidth e ≤ 16 := by
    have := tcW_le x
    rw [hl.width]
    omega
  have := eOff_lt hw hrow hcol hc
  show (eOff e (src i j).1 (src i j).2 + c) / 16 < 2 ^ 24
  omega

/-- The bytes of tile register n that a load of it leaves. -/
def TileFilled (s t : State) (n : Nat) (place : Nat) (e : BitVec 128) (x : Dword) (src : Nat → Nat → Nat × Nat) : Prop :=
  (∀ i j b, i < tcRows x → j < tcCols x → b < tcW x →
    t.here.tByte n ((i * tcCols x + j) * tcW x + b) = s.placeByte place (eOff e (src i j).1 (src i j).2 + b)) ∧
  ∀ m, m < 4096 * n ∨ 4096 * n + tcRows x * tcCols x * tcW x ≤ m → Store.get 0 t.here.t m = Store.get 0 s.here.t m

/-- Without a counter, the register is written at once. -/
theorem counted_filled (hl : TileLoadable s 7 n h r x src place e) {u : State} (hu : u.here.t = s.here.t) :
    ∃ t, u.counted 7#3 s.lanes [.t n.toNat] (loadRegWrites s place n.toNat (loadBytes place e (gridElems x src))) = .next t ∧
      HereRetired u t { u.here with t := t.here.t } ∧ TileFilled s t n.toNat place e x src := by
  obtain ⟨t, hcounted, hret, hin, hout⟩ := counted_fill s u s.lanes [.t n.toNat] n.toNat place e x src
  rw [hl.width] at hin hout
  exact ⟨t, hcounted, hret, hin, fun m hm => (hout m hm).trans (by rw [hu])⟩

/-- A load that empties nothing, plain or with .wf. -/
theorem tileLoad_keeps (hl : TileLoadable s k n h r x src place e)
    (hready : fe = 0#2 ∨ (loadBytes place e (gridElems x src)).find? (fun b => !(s.gran place b.2.2.1).full) = none) (hfe : fe ≠ 2#2) :
    (k = 7#3 → ∃ t, tileLoad k fe n h r (gridElems x src) s = .next t ∧
      HereRetired (if fe = 0#2 then s else s.tileHear place) t { s.here with t := t.here.t } ∧ TileFilled s t n.toNat place e x src) ∧
    (k ≠ 7#3 → CountedResult (tileLoad k fe n h r (gridElems x src) s) (if fe = 0#2 then s else s.tileHear place) k s.lanes [.t n.toNat]
      (loadRegWrites s place n.toNat (loadBytes place e (gridElems x src)))) := by
  rw [tileLoad_ready hl hready, tileLoaded_keeps s hfe]
  have hwg : (if fe = 0#2 then s else s.tileHear place).wg = s.wg ∧ (if fe = 0#2 then s else s.tileHear place).focus = s.focus := by
    split
    · exact ⟨rfl, rfl⟩
    · rw [tileHear_rest]; exact ⟨rfl, rfl⟩
  generalize (if fe = 0#2 then s else s.tileHear place) = u at hwg ⊢
  obtain ⟨hwg, hfocus⟩ := hwg
  have hhere : u.here = s.here := by unfold State.here State.wgAt; rw [hwg, hfocus]
  refine ⟨fun h7 => ?_, fun h7 => countedResult_counted u h7 ?_⟩
  · subst h7
    obtain ⟨t, ht, hret, hfill⟩ := counted_filled hl (u := u) (by rw [hhere])
    rw [hhere] at hret
    exact ⟨t, ht, hret, hfill⟩
  · rw [span_of_wg hwg hfocus]
    exact (hl.counter.resolve_left h7).2

/-- A load with .wfc empties the granules that it names. -/
theorem tileLoad_empties (hl : TileLoadable s k n h r x src place e)
    (hready : (loadBytes place e (gridElems x src)).find? (fun b => !(s.gran place b.2.2.1).full) = none) :
    ∃ t, tileLoad k 2 n h r (gridElems x src) s = .next t ∧
      Emptied (s.tileHear place) t place (fun g => ∃ b ∈ loadBytes place e (gridElems x src), g = b.2.2.1) ∧
      (k = 7#3 → t.span = s.span.movedOn s.lanes s.focus.next ∧ TileFilled s t n.toNat place e x src) ∧
      (k ≠ 7#3 → t.span = (s.span.addPending k.toNat s.lanes [.t n.toNat]
        (loadRegWrites s place n.toNat (loadBytes place e (gridElems x src)))).movedOn s.lanes s.focus.next) := by
  have hclear := granOnly_clearFulls s place (fun b => b.2.2.1) (loadBytes place e (gridElems x src))
  have hempty := emptied_clearFulls s place (fun b => b.2.2.1) (loadBytes place e (gridElems x src)) fun _ hb => hl.small hb
  obtain ⟨hspan, hlanes⟩ := tileHear_granOnly_span hclear place
  have hrest := tileHear_rest (clearFulls s place (fun b => b.2.2.1) (loadBytes place e (gridElems x src))) place
  have hfocus : (State.tileHear (clearFulls s place (fun b => b.2.2.1) (loadBytes place e (gridElems x src))) place).focus = s.focus := by
    rw [hrest]; exact hclear.focus
  have ht : (State.tileHear (clearFulls s place (fun b => b.2.2.1) (loadBytes place e (gridElems x src))) place).here.t = s.here.t := by
    rw [hrest]
    show (clearFulls ..).here.t = _
    rw [hclear.here]
  rw [tileLoad_ready hl (.inr hready), tileLoaded_empties]
  generalize State.tileHear (clearFulls ..) place = u at hempty hspan hlanes hfocus ht
  by_cases h7 : k = 7#3
  · subst h7
    obtain ⟨t, hcounted, hret, hfill⟩ := counted_filled hl ht
    have hmoved := hret.2.2.2.2.2
    rw [hspan, hlanes, hfocus] at hmoved
    exact ⟨t, hcounted, hempty.trans (.of_hereRetired place rfl hret), fun _ => ⟨hmoved, hfill⟩, fun h => absurd rfl h⟩
  · have hlow : ¬63 ≤ u.span.kc k.toNat := by
      rw [hspan]
      exact Nat.not_le.2 (hl.counter.resolve_left h7).2
    have hdone := retired_done u fun sp => sp.addPending k.toNat s.lanes [.t n.toNat]
      (loadRegWrites s place n.toNat (loadBytes place e (gridElems x src)))
    refine ⟨_, (if_neg h7).trans (if_neg hlow), hempty.trans (.of_onlySpan place hdone.1), fun h => absurd h h7, fun _ => ?_⟩
    rw [hdone.2, hspan, hlanes, hfocus]

end Answers

end Sys2Proof.Machine
end

section
/-!
PROOFS. ldt (11 R193): the lanes' elements of a handle, what a load of them answers, and O12.
-/

namespace Sys2Proof.Machine

open State

/-! ## Sets of lanes -/

theorem and_lanesWhere_congr {S : Lanes} {f g : Nat → Bool} (h : ∀ l ∈ lanesOf S, f l = g l) : S &&& lanesWhere f = S &&& lanesWhere g := by
  refine lanes_ext fun l hl => ?_
  rw [laneIn_and, laneIn_and, laneIn_lanesWhere _ _ hl, laneIn_lanesWhere _ _ hl]
  by_cases hS : laneIn S l
  · rw [h l ((mem_lanesOf S l).2 ⟨hl, hS⟩)]
  · simp [hS]

theorem and_lanesWhere_true {S : Lanes} {f : Nat → Bool} (h : ∀ l ∈ lanesOf S, f l = true) : S &&& lanesWhere f = S := by
  refine lanes_ext fun l hl => ?_
  rw [laneIn_and, laneIn_lanesWhere _ _ hl]
  by_cases hS : laneIn S l
  · rw [h l ((mem_lanesOf S l).2 ⟨hl, hS⟩), Bool.and_true]
  · simp [hS]

theorem and_lanesWhere_false {S : Lanes} {f : Nat → Bool} (h : ∀ l ∈ lanesOf S, f l = false) : S &&& lanesWhere f = 0 := by
  refine lanes_ext fun l hl => ?_
  rw [laneIn_and, laneIn_lanesWhere _ _ hl]
  by_cases hS : laneIn S l
  · rw [h l ((mem_lanesOf S l).2 ⟨hl, hS⟩), Bool.and_false, laneIn_zero]
  · rw [Bool.eq_false_iff.2 hS, Bool.false_and, laneIn_zero]

theorem and_not_zero (S : Lanes) : S &&& ~~~(0 : Lanes) = S := BitVec.and_allOnes

theorem and_not_self (S : Lanes) : S &&& ~~~S = 0 := lanes_ext fun l hl => by
  rw [laneIn_and, laneIn_not _ _ hl, laneIn_zero, Bool.and_not_self]

theorem lanesOf_zero : lanesOf 0 = [] := rfl

theorem lanesOf_and {S T : Lanes} {l : Nat} (h : l ∈ lanesOf (S &&& T)) : l ∈ lanesOf S := by
  obtain ⟨hl, hin⟩ := (mem_lanesOf _ l).1 h
  rw [laneIn_and, Bool.and_eq_true] at hin
  exact (mem_lanesOf S l).2 ⟨hl, hin.1⟩

theorem lowest_mem {S : Lanes} (h : S ≠ 0) : State.lowest S ∈ lanesOf S := by
  cases hS : lanesOf S with
  | nil => exact absurd hS (lanesOf_ne_nil h)
  | cons l ls => rw [State.lowest, hS]; exact List.mem_cons_self ..

theorem failsOf_eq_zero {t : TileWait} (h : t.failed = []) : State.failsOf t = 0 := by
  refine lanes_ext fun l hl => ?_
  rw [State.failsOf, laneIn_lanesWhere _ _ hl, h]
  simp [laneIn]

/-! ## The elements of the active lanes (11 R193) -/

/-- The byte offset of the element that lane l of S names. -/
def laneOff (e : BitVec 128) (sp : Span) (c : Coord) (S : Lanes) (l : Nat) : Nat := elemOff e (laneElems sp c S) l

theorem elemOfLane_laneElems {sp : Span} {c : Coord} {S : Lanes} {l : Nat} (h : l ∈ lanesOf S) :
    elemOfLane (laneElems sp c S) l = (c.row sp l, c.col sp l) := by
  rw [elemOfLane, laneElems, find_lane_map (fun l => (c.row sp l, c.col sp l)) h]
  rfl

theorem elemOff_laneElems (e : BitVec 128) (sp : Span) (c : Coord) (S : Lanes) (l : Nat) : elemOff e (laneElems sp c S) l = laneOff e sp c S l := rfl

theorem laneOff_eq (e : BitVec 128) {sp : Span} {c : Coord} {S : Lanes} {l : Nat} (h : l ∈ lanesOf S) :
    laneOff e sp c S l = eOff e (c.row sp l) (c.col sp l) := by
  rw [laneOff, elemOff, elemOfLane_laneElems h]

/-- The elements of the active lanes lie inside their handle, which is bound with their width, in granules without poison; nothing of the set
waits. -/
structure LaneTile (s : State) (S : Lanes) (h : BitVec 6) (r : TileRef) (c : Coord) (size place : Nat) (e : BitVec 128) : Prop where
  some : S ≠ 0
  ref : s.tileRef s.focus.g h.toNat r = .ok place e
  fit : ∀ l, l < 32 → laneIn S l → eWidth e = size ∧ c.row s.span l < eRows e ∧ c.col s.span l < eCols e
  poison : ∀ i, (s.gran place i).poison = false
  fresh : TileFresh s

theorem LaneTile.no_bad {s : State} {S : Lanes} {h : BitVec 6} {r : TileRef} {c : Coord} {size place : Nat} {e : BitVec 128}
    (ht : LaneTile s S h r c size place e) : S &&& lanesWhere (elemBad e size (laneElems s.span c S)) = 0 := by
  refine and_lanesWhere_false fun l hl => ?_
  obtain ⟨hlt, hin⟩ := (mem_lanesOf S l).1 hl
  obtain ⟨hsize, hrow, hcol⟩ := ht.fit l hlt hin
  rw [elemBad, elemOfLane_laneElems hl]
  simp [hsize, hrow, hcol]

/-- Their granules are among the first 2^24 of the handle (10 R173). -/
theorem LaneTile.small {s : State} {S : Lanes} {h : BitVec 6} {r : TileRef} {c : Coord} {size place : Nat} {e : BitVec 128}
    (ht : LaneTile s S h r c size place e) (hsize : size ≤ 16) {l : Nat} (hl : l ∈ lanesOf S) : laneOff e s.span c S l / 16 < 2 ^ 24 := by
  obtain ⟨hlt, hin⟩ := (mem_lanesOf S l).1 hl
  obtain ⟨hwidth, hrow, hcol⟩ := ht.fit l hlt hin
  have := eOff_lt (c := 0) (by omega) hrow hcol (Nat.two_pow_pos _)
  rw [laneOff_eq e hl]
  omega

/-! ## What a load of lanes answers (11 R193) -/

/-- The register writes of the lanes of L. -/
def laneWrites (s : State) (place : Nat) (off : Nat → Nat) (size d : Nat) (L : Lanes) : List RegWrite :=
  (lanesOf L).flatMap fun l => State.elemWrites size d l (s.placeBytes place (off l) size)

/-- The state in which a load has emptied the granules of the lanes of L that .wfc empties. -/
def laneCleared (s : State) (fe : BitVec 2) (place : Nat) (off : Nat → Nat) (L : Lanes) : State :=
  if fe = 2#2 then clearFulls s place (fun l => off l / 16) (lanesOf L) else s

/-- The state in which a load has emptied them and, with .wf and .wfc, heard their core's clock. -/
def laneLoaded (s : State) (fe : BitVec 2) (place : Nat) (off : Nat → Nat) (L : Lanes) : State :=
  if fe = 0#2 ∨ L = 0 then laneCleared s fe place off L else (laneCleared s fe place off L).tileHear place

section LaneLoaded

variable (s : State) (fe : BitVec 2) (place : Nat) (off : Nat → Nat) (L : Lanes)

theorem granOnly_laneCleared : GranOnly s (laneCleared s fe place off L) := by
  unfold laneCleared
  split
  · exact granOnly_clearFulls ..
  · exact .refl s

theorem laneLoaded_kept : (laneLoaded s fe place off L).span = s.span ∧ (laneLoaded s fe place off L).lanes = s.lanes ∧
    (laneLoaded s fe place off L).focus = s.focus := by
  have h := granOnly_laneCleared s fe place off L
  unfold laneLoaded
  split
  · exact ⟨h.span, h.lanes, h.focus⟩
  · rw [tileHear_rest]
    exact ⟨h.span, h.lanes, h.focus⟩

theorem laneLoaded_keeps (h : fe ≠ 2#2) : laneLoaded s fe place off L = if fe = 0#2 ∨ L = 0 then s else s.tileHear place := by
  rw [laneLoaded, laneCleared, if_neg h]

/-- The granules of the lanes that .wfc empties are empty, and no other has changed. -/
theorem emptied_laneLoaded (hsmall : ∀ l ∈ lanesOf L, off l / 16 < 2 ^ 24) :
    Emptied (if fe = 0#2 ∨ L = 0 then s else s.tileHear place) (laneLoaded s fe place off L) place
      (fun g => fe = 2#2 ∧ ∃ l ∈ lanesOf L, g = off l / 16) := by
  have hkept (u : State) (h : ∀ g, ¬(fe = 2#2 ∧ ∃ l ∈ lanesOf L, g = off l / 16)) :
      Emptied u u place (fun g => fe = 2#2 ∧ ∃ l ∈ lanesOf L, g = off l / 16) :=
    (Emptied.of_onlySpan place (OnlySpan.refl u)).congr fun g => ⟨False.elim, h g⟩
  by_cases hfe : fe = 2#2
  · by_cases hL : L = 0
    · have hstays : laneLoaded s fe place off L = s := by rw [laneLoaded, laneCleared, if_pos (.inr hL), if_pos hfe, hL]; rfl
      rw [hstays, if_pos (.inr hL)]
      exact hkept s fun g hg => by
        obtain ⟨-, l, hl, -⟩ := hg
        rw [hL] at hl
        cases hl
    · have hcond : ¬(fe = 0#2 ∨ L = 0) := by rw [hfe]; simpa using hL
      rw [laneLoaded, laneCleared, if_neg hcond, if_neg hcond, if_pos hfe]
      exact (emptied_clearFulls s place (fun l => off l / 16) (lanesOf L) hsmall).congr fun g => ⟨fun h => ⟨hfe, h⟩, fun h => h.2⟩
  · rw [laneLoaded_keeps s fe place off L hfe]
    exact hkept _ fun g hg => hfe hg.1

end LaneLoaded

section Ldt

variable {s : State} {k p : BitVec 3} {h : BitVec 6} {d : BitVec 7} {m : MemMod} {c : Coord} {size place : Nat} {e : BitVec 128} {ok : Lanes}

/-- What is left of a load's answer once its checks have passed: ok are the lanes whose granules may be read. -/
theorem ldt_eq (ht : LaneTile s (s.active p) h m.ref c size place e) (hk : k = 7#3 ∨ (k.toNat < 6 ∧ s.span.kc k.toNat < 63))
    (hbusy : s.tileBusy ((lanesOf (s.active p)).map fun l => (place, laneOff e s.span c (s.active p) l / 16)) = false)
    (hok : s.active p &&& lanesWhere (fun l => m.fe == 0#2 || (s.gran place (laneOff e s.span c (s.active p) l / 16)).full) = ok) :
    ldt size k p h d m c s =
      if s.active p &&& ~~~ok ≠ 0 then .next (((laneLoaded s m.fe place (laneOff e s.span c (s.active p)) ok).writeRegs s.focus.g s.focus.sp
          (laneWrites s place (laneOff e s.span c (s.active p)) size d.toNat ok)).tileWaits
        { (s.tileStart (s.active p) 0 (laneElems s.span c (s.active p)) [] (vN (size / 4) d) k.toNat) with
          on := .granule place (laneOff e s.span c (s.active p) (State.lowest (s.active p &&& ~~~ok)) / 16), lanes := s.active p &&& ~~~ok
          served := ok
          grans := (lanesOf (s.active p &&& ~~~ok)).map fun l => (place, laneOff e s.span c (s.active p) l / 16) })
      else (laneLoaded s m.fe place (laneOff e s.span c (s.active p)) ok).counted k ok (vN (size / 4) d)
        (laneWrites s place (laneOff e s.span c (s.active p)) size d.toNat ok) := by
  have hcounter : ¬(k ≠ 7#3 ∧ 63 ≤ s.span.kc k.toNat ∧ !s.tileBegun) := fun hx =>
    absurd (hk.resolve_left hx.1).2 (Nat.not_lt.2 hx.2.1)
  have hbad := ht.no_bad
  have hsome := ht.some
  unfold ldt
  dsimp only
  rw [ht.fresh.tileProg]
  generalize htile : s.tileStart (s.active p) 0 (laneElems s.span c (s.active p)) [] (vN (size / 4) d) k.toNat = t
  have hactive : t.active = s.active p := by rw [← htile]; rfl
  have hserved : t.served = 0 := by rw [← htile]; rfl
  have hfailed : t.failed = [] := by rw [← htile]; rfl
  have helems : t.elems = laneElems s.span c (s.active p) := by rw [← htile]; rfl
  have hfails : failsOf t = 0 := failsOf_eq_zero hfailed
  rw [if_neg hcounter, hactive, if_neg hsome, ht.ref]
  simp only [hserved, helems, hfails, hbad, and_not_zero, elemOff_laneElems]
  generalize laneOff e s.span c (s.active p) = off at hok hbusy ⊢
  have hpois : ok &&& lanesWhere (fun l => (s.gran place (off l / 16)).poison) = 0 := and_lanesWhere_false fun l _ => ht.poison _
  have hzero (L : Lanes) : 0 ||| L = L := BitVec.zero_or
  simp only [hok, hpois, and_not_zero, hzero, lanesOf_zero, List.foldl_nil, hbusy, Bool.false_eq_true, if_false, hfailed]
  split
  · rfl
  · next hall =>
    have hne : ok ≠ 0 := fun h0 => by
      rw [h0, and_not_zero] at hall
      exact hall hsome
    obtain ⟨hspan, hlanes, hfocus⟩ := laneLoaded_kept s m.fe place off ok
    have hover := (ht.fresh.congr (congrArg Span.tileWait hspan) hlanes).tileOver
    rw [if_neg hne]
    show Host.Outcome.next (State.raiseL (if k = 7#3 then (laneLoaded s m.fe place off ok).tileOver.writeRegs s.focus.g s.focus.sp _ else
      (laneLoaded s m.fe place off ok).tileOver.addPend k ok (vN (size / 4) d) _) 0 _ _) = _
    rw [hover]
    unfold counted
    by_cases h7 : k = 7#3
    · rw [if_pos h7, if_pos h7, hfocus]
      rfl
    · rw [if_neg h7, if_neg h7, if_neg (by rw [hspan]; exact Nat.not_le.2 (hk.resolve_left h7).2)]
      rfl

end Ldt

/-! ## The two ways in which a load of lanes goes on -/

section Results

variable {s : State} {fe : BitVec 2} {place : Nat} {off : Nat → Nat} {L : Lanes} {k : BitVec 3} {d : BitVec 7} {w : Nat} {f : Nat → Nat → Word}

/-- Registers v[d] … v[d+w-1] of the lanes of L hold f in sp, every other vector register what it held in the span of s. -/
def LanesHold (s : State) (sp : Span) (L : Lanes) (d : BitVec 7) (w : Nat) (f : Nat → Nat → Word) : Prop :=
  ∀ n l, l < 32 → sp.vr n l = if d.toNat ≤ n ∧ n < d.toNat + w ∧ laneIn L l then f (n - d.toNat) l else s.span.vr n l

/-- Vector registers of lanes that have not ended are written (07 R114). -/
theorem writeRegs_lanesWrites (u : State) (halive : ∀ l, l < 32 → laneIn L l → (u.span.laneAt l).ended = false) :
    OnlySpan u (u.writeRegs u.focus.g u.focus.sp (lanesWrites L d w f)) ∧
      (u.writeRegs u.focus.g u.focus.sp (lanesWrites L d w f)).span =
        { u.span with v := (u.writeRegs u.focus.g u.focus.sp (lanesWrites L d w f)).span.v } ∧
      LanesHold u (u.writeRegs u.focus.g u.focus.sp (lanesWrites L d w f)).span L d w f := by
  have hof (a : RegWrite) (ha : a ∈ lanesWrites L d w f) : a.OfLane := ofLane_of_mem_lanesWrites ha
  obtain ⟨honly, hspan⟩ := writeRegs_span u u.focus.g u.focus.sp (lanesWrites L d w f) fun a ha => (hof a ha).ne_t
  have hat : (u.writeRegs u.focus.g u.focus.sp (lanesWrites L d w f)).span = (lanesWrites L d w f).foldl Span.write1 u.span := by
    unfold State.span
    rw [show (u.writeRegs u.focus.g u.focus.sp (lanesWrites L d w f)).focus = u.focus by rw [honly.1]]
    exact hspan
  refine ⟨honly.onlySpan, ?_, fun n l hl => ?_⟩
  · rw [hat]
    exact (foldl_write1_ofLane u.span _ hof).1
  · obtain ⟨t, ht, -, hvr⟩ := vecResult_counted_none u (S := L) (dests := []) hof mem_lanesWrites halive
    obtain rfl := Host.Outcome.next.inj ((if_pos rfl).symm.trans ht)
    have := hvr n l hl
    rwa [State.span_retire] at this

/-- The lanes' bytes are at once in their registers, or outstanding; .wfc has emptied their granules. -/
theorem laneLoaded_counted (hk : k = 7#3 ∨ (k.toNat < 6 ∧ s.span.kc k.toNat < 63))
    (halive : ∀ l, l < 32 → laneIn L l → (s.span.laneAt l).ended = false) (hsmall : ∀ l ∈ lanesOf L, off l / 16 < 2 ^ 24) :
    let r := (laneLoaded s fe place off L).counted k L (vN w d) (lanesWrites L d w f)
    let heard := if fe = 0#2 ∨ L = 0 then s else s.tileHear place
    (fe ≠ 2#2 → k = 7#3 → VecResult r heard L d w f) ∧
      (fe ≠ 2#2 → k ≠ 7#3 → CountedResult r heard k L (vN w d) (lanesWrites L d w f)) ∧
      (fe = 2#2 → ∃ t, r = .next t ∧ Emptied heard t place (fun g => fe = 2#2 ∧ ∃ l ∈ lanesOf L, g = off l / 16) ∧
        (k = 7#3 → t.span = Span.movedOn { s.span with v := t.span.v } s.lanes s.focus.next ∧ LanesHold s t.span L d w f) ∧
        (k ≠ 7#3 → t.span = (s.span.addPending k.toNat L (vN w d) (lanesWrites L d w f)).movedOn s.lanes s.focus.next)) := by
  obtain ⟨hspan, hlanes, hfocus⟩ := laneLoaded_kept s fe place off L
  have hempty := emptied_laneLoaded s fe place off L hsmall
  have hkeeps := laneLoaded_keeps s fe place off L
  dsimp only
  generalize laneLoaded s fe place off L = u at hspan hlanes hfocus hempty hkeeps ⊢
  have hvec : VecResult (u.counted 7#3 L (vN w d) (lanesWrites L d w f)) u L d w f :=
    vecResult_counted_none u (fun a ha => ofLane_of_mem_lanesWrites ha) mem_lanesWrites (by rw [hspan]; exact halive)
  have hcounted (h7 : k ≠ 7#3) : CountedResult (u.counted k L (vN w d) (lanesWrites L d w f)) u k L (vN w d) (lanesWrites L d w f) :=
    countedResult_counted u h7 (by rw [hspan]; exact (hk.resolve_left h7).2)
  refine ⟨fun hfe h7 => ?_, fun hfe h7 => ?_, fun _ => ?_⟩
  · rw [h7, ← hkeeps hfe]
    exact hvec
  · rw [← hkeeps hfe]
    exact hcounted h7
  · by_cases h7 : k = 7#3
    · obtain ⟨t, ht, ⟨honly, hmoved⟩, hvr⟩ := hvec
      rw [hspan, hlanes, hfocus] at hmoved
      rw [hspan] at hvr
      exact ⟨t, h7 ▸ ht, hempty.trans (.of_onlySpan place honly), fun _ => ⟨hmoved, hvr⟩, fun h => absurd h7 h⟩
    · have hdone := retired_done u fun sp => sp.addPending k.toNat L (vN w d) (lanesWrites L d w f)
      have hlow : ¬63 ≤ u.span.kc k.toNat := by
        rw [hspan]
        exact Nat.not_le.2 (hk.resolve_left h7).2
      refine ⟨_, (if_neg h7).trans (if_neg hlow), hempty.trans (.of_onlySpan place hdone.1), fun h => absurd h h7, fun _ => ?_⟩
      rw [hdone.2, hspan, hlanes, hfocus]

/-- The lanes whose granules may be read are served, and the instruction waits for the others. -/
theorem laneLoaded_waits (hfresh : TileFresh s) (halive : ∀ l, l < 32 → laneIn L l → (s.span.laneAt l).ended = false)
    (hsmall : ∀ l ∈ lanesOf L, off l / 16 < 2 ^ 24) (x : TileWait) :
    let t := ((laneLoaded s fe place off L).writeRegs s.focus.g s.focus.sp (lanesWrites L d w f)).tileWaits x
    Emptied (if fe = 0#2 ∨ L = 0 then s else s.tileHear place) t place (fun g => fe = 2#2 ∧ ∃ l ∈ lanesOf L, g = off l / 16) ∧
      LanesHold s t.span L d w f ∧ (∀ n, t.span.kc n = if n = x.ctr ∧ n < 6 then s.span.kc n + 1 else s.span.kc n) ∧
      t.span = { s.span with v := t.span.v, k := t.span.k, wait := x.on, tileWait := s.span.tileWait ++ [x] } := by
  obtain ⟨hspan, hlanes, hfocus⟩ := laneLoaded_kept s fe place off L
  have hempty := emptied_laneLoaded s fe place off L hsmall
  dsimp only
  generalize laneLoaded s fe place off L = u at hspan hlanes hfocus hempty ⊢
  obtain ⟨honly, hwritten, hhold⟩ := writeRegs_lanesWrites (L := L) (d := d) (w := w) (f := f) u (by rw [hspan]; exact halive)
  rw [← hfocus]
  generalize State.writeRegs u u.focus.g u.focus.sp (lanesWrites L d w f) = z at honly hwritten hhold ⊢
  rw [hspan] at hwritten
  unfold LanesHold at hhold
  rw [hspan] at hhold
  have hfresh' : TileFresh z := hfresh.congr (by rw [hwritten]) (by
    rw [← hlanes]
    unfold State.lanes
    rw [show z.focus = u.focus by rw [honly.rest]])
  obtain ⟨hwaits, hafter, hkc⟩ := hfresh'.tileWaits x
  refine ⟨hempty.trans (.of_onlySpan place (honly.trans hwaits)), fun n l hl => ?_, fun n => ?_, ?_⟩
  · rw [hafter]
    exact hhold n l hl
  · rw [hkc, show z.span.kc n = s.span.kc n by rw [hwritten]; rfl]
  · have hv : (z.tileWaits x).span.v = z.span.v := by rw [hafter]
    rw [hv]
    conv_lhs => rw [hafter, hwritten]

end Results

theorem laneWrites_eq (s : State) (place : Nat) (e : BitVec 128) (sp : Span) (c : Coord) {S L : Lanes} (size : Nat) (d : BitVec 7)
    (h : ∀ l ∈ lanesOf L, l ∈ lanesOf S) : laneWrites s place (laneOff e sp c S) size d.toNat L =
      lanesWrites L d (size / 4) fun j l => BitVec.ofNat 32 (s.placeBytes place (eOff e (c.row sp l) (c.col sp l)) size / 2 ^ (32 * j)) := by
  refine List.flatMap_congr fun l hl => ?_
  rw [State.elemWrites, laneOff_eq e (h l hl)]
  simp only [Nat.shiftRight_eq_div_pow]

/-! ## O12 -/

/-- Settles O12: once the checks have passed, the lanes or the tile whose granules may be read get their bytes, and the instruction waits for the
rest. -/
theorem tileLoads : Obligations.TileLoads := by
  unfold Obligations.TileLoads
  refine ⟨?ldt, ?tld, ?perm⟩
  case ldt =>
    intro s k p h d m c place e S o x full R heard holds go hS href hpoison hbusy hfresh halive hk
    have hgo (i : Instr) (size : Nat) (hsize : size ≤ 16) (hexec : exec i s = ldt size k p h d m c s) : go i size := by
      intro hfit
      have ht : LaneTile s S h m.ref c size place e := ⟨hS, href, hfit, hpoison, hfresh⟩
      have hoff (l : Nat) (hl : l ∈ lanesOf S) : laneOff e s.span c S l = o l := laneOff_eq e hl
      have hin (L : Lanes) (hL : ∀ l ∈ lanesOf L, l ∈ lanesOf S) (g : Nat) : (∃ l ∈ lanesOf L, g = laneOff e s.span c S l / 16) ↔
          ∃ l, l < 32 ∧ laneIn L l ∧ g = o l / 16 := by
        constructor
        · rintro ⟨l, hl, hg⟩
          obtain ⟨hlt, hin⟩ := (mem_lanesOf L l).1 hl
          exact ⟨l, hlt, hin, by rw [hg, hoff l (hL l hl)]⟩
        · rintro ⟨l, hlt, hin, hg⟩
          have hl := (mem_lanesOf L l).2 ⟨hlt, hin⟩
          exact ⟨l, hl, by rw [hg, hoff l (hL l hl)]⟩
      have hbusy' : s.tileBusy ((lanesOf S).map fun l => (place, laneOff e s.span c S l / 16)) = false := by
        rw [List.map_congr_left fun l hl => by rw [hoff l hl]]
        exact hbusy
      have hok : S &&& lanesWhere (fun l => m.fe == 0#2 || (s.gran place (laneOff e s.span c S l / 16)).full) =
          S &&& lanesWhere (fun l => m.fe == 0#2 || full l) := and_lanesWhere_congr fun l hl => by rw [hoff l hl]
      have hsmall (L : Lanes) (hL : ∀ l ∈ lanesOf L, l ∈ lanesOf S) : ∀ l ∈ lanesOf L, laneOff e s.span c S l / 16 < 2 ^ 24 :=
        fun l hl => ht.small hsize (hL l hl)
      refine ⟨fun hready => ?ready, fun hfe hR => ?waits⟩
      case ready =>
        have hall : S &&& lanesWhere (fun l => m.fe == 0#2 || full l) = S := and_lanesWhere_true fun l hl => by
          obtain ⟨hlt, hin⟩ := (mem_lanesOf S l).1 hl
          rcases hready with hfe | hR
          · simp [hfe]
          · have hnot : laneIn R l = false := by rw [hR, laneIn_zero]
            rw [laneIn_and, laneIn_lanesWhere _ _ hlt, hin, Bool.true_and, Bool.not_eq_false'] at hnot
            rw [hnot, Bool.or_true]
        have hheard : heard = if m.fe = 0#2 ∨ S = 0 then s else s.tileHear place := by
          show (if m.fe = 0#2 ∨ S &&& ~~~R = 0 then s else s.tileHear place) = _
          rcases hready with hfe | hR
          · rw [if_pos (.inl hfe), if_pos (.inl hfe)]
          · rw [hR, and_not_zero]
        have hstep := ldt_eq (d := d) ht hk hbusy' (hok.trans hall)
        rw [if_neg (not_not.2 (and_not_self S)), laneWrites_eq s place e s.span c size d fun _ h => h] at hstep
        obtain ⟨hvec, hcounted, hempties⟩ := laneLoaded_counted (fe := m.fe) (d := d) (w := size / 4) (f := fun j l => x size l j) hk halive
          (hsmall S fun _ h => h)
        rw [hexec, hstep, hheard]
        refine ⟨hvec, hcounted, fun hfe => ?_⟩
        obtain ⟨t, ht, hempty, hspan⟩ := hempties hfe
        exact ⟨t, ht, hempty.congr fun g => by rw [hin S fun _ h => h]; exact ⟨fun h => h.2, fun h => ⟨hfe, h⟩⟩, hspan⟩
      case waits =>
        have hserved : S &&& lanesWhere (fun l => m.fe == 0#2 || full l) = S &&& ~~~R := lanes_ext fun l hl => by
          rw [laneIn_and, laneIn_and, laneIn_not _ _ hl, laneIn_and, laneIn_lanesWhere _ _ hl, laneIn_lanesWhere _ _ hl, beq_eq_false_iff_ne.2 hfe]
          cases laneIn S l <;> simp
        have hrest : S &&& ~~~(S &&& ~~~R) = R := lanes_ext fun l hl => by
          rw [laneIn_and, laneIn_not _ _ hl, laneIn_and, laneIn_not _ _ hl, laneIn_and]
          cases laneIn S l <;> simp
        have hsub : ∀ l ∈ lanesOf (S &&& ~~~R), l ∈ lanesOf S := fun l hl => lanesOf_and hl
        have hRsub : ∀ l ∈ lanesOf R, l ∈ lanesOf S := fun l hl => lanesOf_and hl
        have hstep := ldt_eq (d := d) ht hk hbusy' (hok.trans hserved)
        rw [hrest, if_pos hR, laneWrites_eq s place e s.span c size d hsub, hoff _ (hRsub _ (lowest_mem hR)),
          List.map_congr_left fun l hl => by rw [hoff l (hRsub l hl)]] at hstep
        obtain ⟨hempty, hhold, hkc, hspan⟩ := laneLoaded_waits (fe := m.fe) (d := d) (w := size / 4) (f := fun j l => x size l j) hfresh
          (fun l hl hin => halive l hl ((mem_lanesOf S l).1 (hsub l ((mem_lanesOf _ l).2 ⟨hl, hin⟩))).2) (hsmall _ hsub)
          { (s.tileStart S 0 (laneElems s.span c S) [] (vN (size / 4) d) k.toNat) with
            on := .granule place (o (State.lowest R) / 16), lanes := R, served := S &&& ~~~R
            grans := (lanesOf R).map (fun l => (place, o l / 16)) }
        exact ⟨_, hexec.trans hstep, hempty.congr fun g => by rw [hin _ hsub], hhold, hkc, hspan⟩
    exact ⟨hgo _ 4 (by decide) rfl, hgo _ 8 (by decide) rfl, hgo _ 16 (by decide) rfl⟩
  case tld =>
    intro s k fe dy dx n sib h c place e x row col bs r bytes ws empty heard huse href hwidth hrows hcols hpoison hbusy hfresh hk
    have hl : TileLoadable s k n h ⟨dx, dy, sib⟩ x (fun i j => (row + i, col + j)) place e :=
      ⟨rfl, href, hwidth, fun i j hi hj => ⟨by dsimp only; omega, by dsimp only; omega⟩, hpoison, hbusy, hfresh, hk⟩
    have hexec : r = tileLoad k fe n h ⟨dx, dy, sib⟩ (gridElems x fun i j => (row + i, col + j)) s := by
      show execTld k fe dy dx n sib h c s = _
      unfold execTld
      rw [huse, if_neg (by simp)]
      rfl
    rw [hexec]
    refine ⟨fun hready => ⟨fun hfe => (tileLoad_keeps hl hready hfe).1, fun hfe => (tileLoad_keeps hl hready hfe).2, fun hfe => ?_⟩,
      fun b hfe hb => ?_⟩
    · have hheard : heard = s.tileHear place := if_neg (by rw [hfe]; decide)
      subst hfe
      rw [hheard]
      exact tileLoad_empties hl (hready.resolve_left (by decide))
    · obtain ⟨honly, hspan, hkc⟩ := TileFresh.tileWaits hfresh
        { (s.tileStart s.lanes x (rectElems x row col) [] [.t n.toNat] k.toNat) with
          on := .granule place b.2.2.1, lanes := s.lanes, grans := bs.map (fun b => (b.2.1, b.2.2.1)) }
      exact ⟨_, tileLoad_waits hl hfe hb, honly, hkc, hspan⟩
  case perm =>
    intro s tT n bb h c place e x y tab src hn hT hne hfmt hrows hpr hneed hal hentry hplace hwidth hinside hpoison hbusy hfresh
    have hl : TileLoadable s 7 n h ⟨0, 0, 0⟩ x src place e := by
      refine ⟨rfl, ?_, hwidth, hinside, hpoison, hbusy _, hfresh, .inl rfl⟩
      unfold tileRef
      refine (if_pos rfl).trans ((if_pos hal).trans ?_)
      rw [hplace]
      exact congrArg _ hentry
    have hexec : exec (.tldPerm 7 0 tT bb n h c) s = tileLoad 7 0 n h ⟨0, 0, 0⟩ (gridElems x src) s := by
      show execTldPerm 7 0 tT bb n h c s = _
      have hlegal : (!s.tileBegun && (!s.tUsable n || !s.tUsable tT || tT == n || tcFmt y != 0x05 || tcRows y != 1 || tcPR y ||
          decide (tcCols y < (if bb = 1#1 then tcRows x else tcCols x)))) = false := by
        simp [hn, hT, hne, hfmt, hrows, hpr, Nat.not_lt.2 hneed]
      exact if_neg (by rw [hlegal]; exact Bool.false_ne_true)
    obtain ⟨t, ht, hret, hin, hout⟩ := (tileLoad_keeps (fe := 0) hl (.inl rfl) (by decide)).1 rfl
    exact ⟨t, hexec.trans ht, hret, hin, hout⟩

end Sys2Proof.Machine
end

section
/-!
PROOFS. Stores to tile memory (09 R157, 11 R193): the granules that they write, and the clock that goes with them.
-/

namespace Sys2Proof.Machine

open State

/-! ## Bytes gathered by granule -/

/-- The numbers of a list, each once. -/
def firstOnes (a xs : List Nat) : List Nat := xs.foldl (fun a g => if a.contains g then a else a ++ [g]) a

theorem mem_firstOnes (a xs : List Nat) (n : Nat) : n ∈ firstOnes a xs ↔ n ∈ a ∨ n ∈ xs := by
  induction xs generalizing a with
  | nil => simp [firstOnes]
  | cons x xs ih =>
    rw [firstOnes, List.foldl_cons, ← firstOnes, ih]
    split
    · next hx =>
      have hx : x ∈ a := List.contains_iff_mem.1 hx
      rw [List.mem_cons]
      constructor
      · rintro (h | h)
        · exact .inl h
        · exact .inr (.inr h)
      · rintro (h | rfl | h)
        · exact .inl h
        · exact .inl hx
        · exact .inr h
    · simp [or_assoc]

theorem nodup_firstOnes {a : List Nat} (xs : List Nat) (h : a.Nodup) : (firstOnes a xs).Nodup := by
  induction xs generalizing a with
  | nil => exact h
  | cons x xs ih =>
    rw [firstOnes, List.foldl_cons, ← firstOnes]
    split
    · exact ih h
    · next hx =>
      have hx : x ∉ a := fun hmem => hx (List.contains_iff_mem.2 hmem)
      exact ih (h.append (List.nodup_singleton x) (by simpa using hx))

/-- The bytes of a list that lie in granule g. -/
def bytesIn (bs : List (Nat × Byte)) (g : Nat) : List (Nat × Byte) := bs.filter fun b => b.1 / 16 == g
/-- The places in a granule that a list of bytes names. -/
def bytesMask (bs : List (Nat × Byte)) : BitVec 16 := bs.foldl (fun m b => m ||| BitVec.twoPow 16 (b.1 % 16)) 0
/-- One byte put at its place in a granule. -/
def putByte (d : BitVec 128) (b : Nat × Byte) : BitVec 128 :=
  (d &&& ~~~(0xFF#128 <<< (8 * (b.1 % 16)))) ||| ((b.2.setWidth 128 : BitVec 128) <<< (8 * (b.1 % 16)))
/-- A list of bytes put at their places, one after the other. -/
def bytesData (bs : List (Nat × Byte)) : BitVec 128 := bs.foldl putByte 0

/-- The granules that a list of bytes touches, each with its places and its data. -/
theorem byGranule_eq (bs : List (Nat × Byte)) :
    byGranule bs = (firstOnes [] (bs.map fun b => b.1 / 16)).map fun g => (g, bytesMask (bytesIn bs g), bytesData (bytesIn bs g)) := rfl

theorem mem_byGranule (bs : List (Nat × Byte)) (x : Nat × BitVec 16 × BitVec 128) :
    x ∈ byGranule bs ↔ (∃ b ∈ bs, b.1 / 16 = x.1) ∧ x = (x.1, bytesMask (bytesIn bs x.1), bytesData (bytesIn bs x.1)) := by
  rw [byGranule_eq, List.mem_map]
  constructor
  · rintro ⟨g, hg, rfl⟩
    rw [mem_firstOnes] at hg
    exact ⟨List.mem_map.1 (hg.resolve_left (List.not_mem_nil)), rfl⟩
  · rintro ⟨hb, hx⟩
    exact ⟨x.1, (mem_firstOnes ..).2 (.inr (List.mem_map.2 hb)), hx.symm⟩

theorem nodup_byGranule (bs : List (Nat × Byte)) : ((byGranule bs).map Prod.fst).Nodup := by
  rw [byGranule_eq, List.map_map]
  exact (List.map_id _).symm ▸ nodup_firstOnes _ List.nodup_nil

theorem getLsbD_bytesMask (bs : List (Nat × Byte)) (i : Nat) : (bytesMask bs).getLsbD i = bs.any fun b => b.1 % 16 == i := by
  induction bs using List.reverseRecOn with
  | nil => simp [bytesMask]
  | append_singleton bs b ih =>
    rw [bytesMask, List.foldl_append, ← bytesMask, List.foldl_cons, List.foldl_nil, BitVec.getLsbD_or, ih, List.any_append,
      BitVec.getLsbD_twoPow]
    simp [Nat.mod_lt, beq_eq_decide]

/-- A byte read after one has been put at a place. -/
theorem extract_putByte (d : BitVec 128) (b : Nat × Byte) {i : Nat} (hi : i < 16) :
    (putByte d b).extractLsb' (8 * i) 8 = if b.1 % 16 = i then b.2 else d.extractLsb' (8 * i) 8 := by
  have hk := Nat.mod_lt b.1 (show 0 < 16 by decide)
  unfold putByte
  generalize b.1 % 16 = k at hk ⊢
  refine BitVec.eq_of_getLsbD_eq fun j hj => ?_
  have hin : 8 * i + j < 128 := by omega
  have h255 : (255#128).getLsbD (8 * i + j - 8 * k) = decide (8 * i + j - 8 * k < 8) := by
    rw [BitVec.getLsbD_ofNat, show (255 : Nat) = 2 ^ 8 - 1 from rfl, Nat.testBit_two_pow_sub_one, Bool.eq_iff_iff]
    simp; omega
  rw [BitVec.getLsbD_extractLsb', BitVec.getLsbD_or, BitVec.getLsbD_and, BitVec.getLsbD_not, BitVec.getLsbD_shiftLeft, BitVec.getLsbD_shiftLeft,
    BitVec.getLsbD_setWidth, h255]
  split
  · next hki =>
    subst hki
    rw [Nat.add_sub_cancel_left]
    simp [hj, hin, show ¬8 * k + j < 8 * k by omega, show j < 128 by omega]
  · next hki =>
    rw [BitVec.getLsbD_extractLsb']
    have hout : 8 * i + j < 8 * k ∨ 8 ≤ 8 * i + j - 8 * k := by omega
    rcases hout with hlow | hhigh
    · simp [hj, hin, hlow]
    · simp [hj, hin, Nat.not_lt.2 hhigh, BitVec.getLsbD_of_ge b.2 _ hhigh]

/-- The last byte that is put at a place stands there. -/
theorem extract_bytesData {xs ys : List (Nat × Byte)} {b : Nat × Byte} (h : ∀ y ∈ ys, y.1 % 16 ≠ b.1 % 16) :
    (bytesData (xs ++ b :: ys)).extractLsb' (8 * (b.1 % 16)) 8 = b.2 := by
  have hi := Nat.mod_lt b.1 (show 0 < 16 by decide)
  induction ys using List.reverseRecOn with
  | nil => rw [bytesData, List.foldl_append, List.foldl_cons, List.foldl_nil, extract_putByte _ _ hi, if_pos rfl]
  | append_singleton ys y ih =>
    rw [← List.cons_append, ← List.append_assoc, bytesData, List.foldl_append, ← bytesData, List.foldl_cons, List.foldl_nil,
      extract_putByte _ _ hi, if_neg (h y (by simp))]
    exact ih fun z hz => h z (by simp [hz])

/-! ## The granules that a store writes -/

/-- A granule once bytes of it have been stored. -/
def storedGran (x : Granule) (g : Nat × BitVec 16 × BitVec 128) : Granule := { mergeGran x g.2.1 g.2.2 with full := true }

section StoreGrans

variable (s : State) (place : Nat) (gs : List (Nat × BitVec 16 × BitVec 128))

theorem storeGrans_eq : s.storeGrans place gs = gs.foldl (fun a g => a.setGran place g.1 (storedGran (a.gran place g.1) g)) s := rfl

theorem granOnly_storeGrans : GranOnly s (s.storeGrans place gs) := by
  rw [storeGrans_eq]
  exact GranOnly.foldl place Prod.fst (fun a g => storedGran (a.gran place g.1) g) gs s

theorem placeWg_storeGrans_core : ((s.storeGrans place gs).placeWg place).core = (s.placeWg place).core := by
  rw [storeGrans_eq]
  exact placeWg_foldl_core place Prod.fst (fun a g => storedGran (a.gran place g.1) g) gs s

/-- A granule that is not stored to is as it was. -/
theorem gran_storeGrans_other {q j : Nat} (h : ∀ g ∈ gs, granKey q j ≠ granKey place g.1) : (s.storeGrans place gs).gran q j = s.gran q j := by
  induction gs generalizing s with
  | nil => rfl
  | cons g gs ih =>
    have hrest := ih (s.setGran place g.1 (storedGran (s.gran place g.1) g)) fun y hy => h y (List.mem_cons_of_mem _ hy)
    refine hrest.trans ?_
    rw [gran_setGran, if_neg (h g (List.mem_cons_self ..))]

/-- Of granules stored to once each, each holds what has been stored over what it held. -/
theorem gran_storeGrans_of_mem (hnodup : (gs.map Prod.fst).Nodup) (hsmall : ∀ g ∈ gs, g.1 < 2 ^ 24) {g : Nat × BitVec 16 × BitVec 128} (hg : g ∈ gs) :
    (s.storeGrans place gs).gran place g.1 = storedGran (s.gran place g.1) g := by
  induction gs generalizing s with
  | nil => cases hg
  | cons y ys ih =>
    rw [List.map_cons, List.nodup_cons] at hnodup
    have hstep : s.storeGrans place (y :: ys) = (s.setGran place y.1 (storedGran (s.gran place y.1) y)).storeGrans place ys := rfl
    have hkey {a b : Nat × BitVec 16 × BitVec 128} (ha : a ∈ y :: ys) (hb : b ∈ y :: ys) (hne : a.1 ≠ b.1) : granKey place a.1 ≠ granKey place b.1 :=
      fun h => hne ((granKey_inj (hsmall a ha) (hsmall b hb)).1 h).2
    rw [hstep]
    rcases List.mem_cons.1 hg with rfl | hin
    · rw [gran_storeGrans_other, gran_setGran_self]
      exact fun z hz => hkey hg (List.mem_cons_of_mem _ hz) fun h => hnodup.1 (h ▸ List.mem_map_of_mem hz)
    · rw [ih (s.setGran place y.1 (storedGran (s.gran place y.1) y)) hnodup.2 (fun z hz => hsmall z (List.mem_cons_of_mem _ hz)) hin, gran_setGran,
        if_neg (hkey hg (List.mem_cons_self ..) fun h => hnodup.1 (h ▸ List.mem_map_of_mem hin))]

/-- The clock that goes with the granules stored (12 R223). -/
theorem tellGrans_clock : let t := s.tellGrans place gs
    let mine := Store.get 0 s.lamport s.here.core
    t = { s.storeGrans place gs with lamport := t.lamport } ∧ ∀ n, Store.get 0 t.lamport n =
      if gs ≠ [] ∧ n = (s.placeWg place).core ∧ precedes (Store.get 0 s.lamport n) mine then mine else Store.get 0 s.lamport n := by
  dsimp only
  by_cases hgs : gs = []
  · rw [tellGrans, if_pos hgs, hgs]
    exact ⟨rfl, fun n => (if_neg (by simp)).symm⟩
  · have honly := granOnly_storeGrans s place gs
    have hcore : (s.storeGrans place gs).here.core = s.here.core := by rw [honly.here]
    rw [tellGrans, if_neg hgs, tileTell, placeWg_storeGrans_core, hcore, honly.lamport]
    refine ⟨hearClock_rest .., fun n => (lamport_hearClock ..).trans ?_⟩
    rw [honly.lamport]
    exact if_congr (by simp [hgs]) rfl rfl

end StoreGrans

section ByGranule

variable {s : State} {place : Nat} {bs : List (Nat × Byte)}

/-- A granule that a list of bytes touches, once they are stored. -/
theorem gran_stored (hsmall : ∀ b ∈ bs, b.1 < 2 ^ 28) {j : Nat} (hj : ∃ b ∈ bs, b.1 / 16 = j) :
    (s.storeGrans place (byGranule bs)).gran place j = storedGran (s.gran place j) (j, bytesMask (bytesIn bs j), bytesData (bytesIn bs j)) :=
  gran_storeGrans_of_mem s place (byGranule bs) (nodup_byGranule bs) (fun g hg => by
      obtain ⟨⟨b, hb, hbg⟩, -⟩ := (mem_byGranule bs g).1 hg
      have := hsmall b hb
      omega) (g := (j, bytesMask (bytesIn bs j), bytesData (bytesIn bs j))) ((mem_byGranule ..).2 ⟨hj, rfl⟩)

/-- Every other granule. -/
theorem gran_not_stored (hsmall : ∀ b ∈ bs, b.1 < 2 ^ 28) {q j : Nat} (hj : j < 2 ^ 24) (h : q ≠ place ∨ ∀ b ∈ bs, b.1 / 16 ≠ j) :
    (s.storeGrans place (byGranule bs)).gran q j = s.gran q j := by
  refine gran_storeGrans_other s place (byGranule bs) fun g hg hkey => ?_
  obtain ⟨⟨b, hb, hbg⟩, -⟩ := (mem_byGranule bs g).1 hg
  have := hsmall b hb
  obtain ⟨hq, hgj⟩ := (granKey_inj hj (by omega)).1 hkey
  rcases h with h | h
  · exact h hq
  · exact h b hb (hbg.trans hgj.symm)

theorem granByte_storedGran (x : Granule) (g : Nat × BitVec 16 × BitVec 128) {b : Nat} (hb : b < 16) :
    granByte (storedGran x g) b = if g.2.1.getLsbD b then g.2.2.extractLsb' (8 * b) 8 else granByte x b :=
  granByte_mergeGran x g.2.1 g.2.2 hb

/-- The last byte stored at a place stands. -/
theorem placeByte_stored (hsmall : ∀ b ∈ bs, b.1 < 2 ^ 28) {xs ys : List (Nat × Byte)} {o : Nat} {v : Byte} (hbs : bs = xs ++ (o, v) :: ys)
    (hlast : ∀ y ∈ ys, y.1 ≠ o) : (s.storeGrans place (byGranule bs)).placeByte place o = v := by
  have hin : (o, v) ∈ bs := by rw [hbs]; simp
  have hsplit : bytesIn bs (o / 16) = bytesIn xs (o / 16) ++ (o, v) :: bytesIn ys (o / 16) := by
    rw [hbs]
    unfold bytesIn
    rw [List.filter_append, List.filter_cons_of_pos (by simp)]
  have hmask : (bytesMask (bytesIn bs (o / 16))).getLsbD (o % 16) = true := by
    rw [getLsbD_bytesMask, hsplit]
    simp
  rw [placeByte_eq, gran_stored hsmall ⟨_, hin, rfl⟩, granByte_storedGran _ _ (Nat.mod_lt _ (by decide)), if_pos hmask, hsplit]
  refine extract_bytesData (b := (o, v)) fun y hy hmod => ?_
  obtain ⟨hmem, hgran⟩ := List.mem_filter.1 hy
  have hgran := beq_iff_eq.1 hgran
  have hne := hlast y hmem
  dsimp only at hmod
  omega

/-- A byte at a place where nothing is stored is as it was. -/
theorem placeByte_not_stored (hsmall : ∀ b ∈ bs, b.1 < 2 ^ 28) {o : Nat} (ho : o < 2 ^ 28) (h : ∀ b ∈ bs, b.1 ≠ o) :
    (s.storeGrans place (byGranule bs)).placeByte place o = s.placeByte place o := by
  by_cases hgran : ∃ b ∈ bs, b.1 / 16 = o / 16
  · have hmask : (bytesMask (bytesIn bs (o / 16))).getLsbD (o % 16) = false := by
      rw [getLsbD_bytesMask]
      refine List.any_eq_false.2 fun b hb => ?_
      obtain ⟨hmem, hdiv⟩ := List.mem_filter.1 hb
      have hdiv := beq_iff_eq.1 hdiv
      have hne := h b hmem
      rw [beq_iff_eq]
      omega
    rw [placeByte_eq, gran_stored hsmall hgran, granByte_storedGran _ _ (Nat.mod_lt _ (by decide)), hmask, if_neg Bool.false_ne_true, placeByte_eq]
  · rw [placeByte_eq, gran_not_stored hsmall (by omega) (.inr fun b hb hdiv => hgran ⟨b, hb, hdiv⟩), placeByte_eq]

end ByGranule

end Sys2Proof.Machine
end

section
/-!
PROOFS. stt and tst (11 R193, 09 R157): what a store of lanes and a store of a tile answer; O13.
-/

namespace Sys2Proof.Machine

open State

/-! ## The elements that lanes store -/

/-- The element of whole words that a lane holds from register d on (11 R187). -/
def wordsElem (sp : Span) (size d l : Nat) : Nat := (List.range (size / 4)).foldr (fun j x => (sp.vr (d + j) l).toNat + 2 ^ 32 * x) 0

theorem elemOf_words (sp : Span) {size : Nat} (h : size ∈ [4, 8, 16]) (d l : Nat) : elemOf sp size d l = wordsElem sp size d l := by
  simp only [List.mem_cons, List.not_mem_nil, or_false] at h
  rcases h with rfl | rfl | rfl
  · have hlt := (sp.vr d l).isLt
    show (sp.vr d l).toNat % 256 ^ 4 = (sp.vr d l).toNat + 2 ^ 32 * 0
    omega
  · show (sp.pair d l).toNat = (sp.vr d l).toNat + 2 ^ 32 * ((sp.vr (d + 1) l).toNat + 2 ^ 32 * 0)
    rw [toNat_pair_eq]
    omega
  · show (sp.group d l).toNat = (sp.vr d l).toNat + 2 ^ 32 * ((sp.vr (d + 1) l).toNat + 2 ^ 32 * ((sp.vr (d + 2) l).toNat +
      2 ^ 32 * ((sp.vr (d + 2 + 1) l).toNat + 2 ^ 32 * 0)))
    rw [toNat_group, toNat_pair_eq, toNat_pair_eq]
    omega

/-- An element of 4, 8 or 16 bytes lies in one granule (10 R173). -/
theorem elem_in_granule {e : BitVec 128} {size : Nat} (hsize : size ∈ [4, 8, 16]) (hwidth : eWidth e = size) (row col : Nat) :
    eOff e row col % 16 + size ≤ 16 := by
  unfold eOff ePitch
  rw [hwidth]
  generalize (eCols e * size + 15) / 16 = pitch
  rw [show row * (pitch * 16) = row * pitch * 16 from (Nat.mul_assoc ..).symm]
  generalize row * pitch = base
  simp only [List.mem_cons, List.not_mem_nil, or_false] at hsize
  rcases hsize with rfl | rfl | rfl <;> omega

/-- The bytes that the lanes of S store, lane by lane. -/
def lanesBytes (S : Lanes) (size : Nat) (off elem : Nat → Nat) : List (Nat × Byte) :=
  (lanesOf S).flatMap fun l => (List.range size).map fun j => (off l + j, BitVec.ofNat 8 (elem l / 256 ^ j))

theorem lanesBytes_congr {S : Lanes} (size : Nat) {off off' elem elem' : Nat → Nat} (hoff : ∀ l ∈ lanesOf S, off l = off' l)
    (helem : ∀ l ∈ lanesOf S, elem l = elem' l) : lanesBytes S size off elem = lanesBytes S size off' elem' :=
  List.flatMap_congr fun l hl => by rw [hoff l hl, helem l hl]

/-- The granules that they touch are those of the lanes' elements, each of which lies in one. -/
theorem lanesBytes_granule {S : Lanes} {size : Nat} {off elem : Nat → Nat} (hpos : 0 < size) (hin : ∀ l ∈ lanesOf S, off l % 16 + size ≤ 16)
    (n : Nat) : (∃ b ∈ lanesBytes S size off elem, b.1 / 16 = n) ↔ ∃ l ∈ lanesOf S, off l / 16 = n := by
  constructor
  · rintro ⟨b, hb, hn⟩
    obtain ⟨l, hl, hb⟩ := List.mem_flatMap.1 hb
    obtain ⟨j, hj, rfl⟩ := List.mem_map.1 hb
    have hj := List.mem_range.1 hj
    have := hin l hl
    exact ⟨l, hl, by dsimp only at hn; omega⟩
  · rintro ⟨l, hl, hn⟩
    exact ⟨(off l + 0, _), List.mem_flatMap.2 ⟨l, hl, List.mem_map.2 ⟨0, List.mem_range.2 hpos, rfl⟩⟩, hn⟩

/-- A store of granules leaves the spans. -/
theorem tellGrans_kept (s : State) (place : Nat) (gs : List (Nat × BitVec 16 × BitVec 128)) :
    (s.tellGrans place gs).span = s.span ∧ (s.tellGrans place gs).lanes = s.lanes := by
  have h := granOnly_storeGrans s place gs
  rw [(tellGrans_clock s place gs).1]
  exact ⟨h.span, h.lanes⟩

theorem TileFresh.tellGrans {s : State} (h : TileFresh s) (place : Nat) (gs : List (Nat × BitVec 16 × BitVec 128)) :
    (s.tellGrans place gs).tileOver = s.tellGrans place gs := by
  obtain ⟨hspan, hlanes⟩ := tellGrans_kept s place gs
  exact (h.congr (congrArg Span.tileWait hspan) hlanes).tileOver

/-! ## What a store of lanes answers (11 R193) -/

section Stt

variable {s : State} {p : BitVec 3} {h : BitVec 6} {d : BitVec 7} {m : MemMod} {c : Coord} {size place : Nat} {e : BitVec 128}

/-- May a granule be written now: plain at once, with .we when it is empty. -/
def granFree (s : State) (fe : BitVec 2) (place : Nat) (g : Nat × BitVec 16 × BitVec 128) : Bool := fe == 0#2 || !(s.gran place g.1).full

/-- The lanes of S whose granule is among those of a list. -/
def namingLanes (S : Lanes) (off : Nat → Nat) (xs : List (Nat × BitVec 16 × BitVec 128)) : Lanes :=
  S &&& lanesWhere fun l => xs.any fun g => g.1 == off l / 16

/-- The granules that the active lanes store to. -/
def sttGrans (s : State) (p : BitVec 3) (d : BitVec 7) (c : Coord) (size : Nat) (e : BitVec 128) : List (Nat × BitVec 16 × BitVec 128) :=
  byGranule (lanesBytes (s.active p) size (laneOff e s.span c (s.active p)) (elemOf s.span size d.toNat))

/-- What is left of a store's answer once its checks have passed: the granules that may be written are, and the instruction waits for the lanes of
the others. -/
theorem stt_eq (ht : LaneTile s (s.active p) h m.ref c size place e) (hcarry : s.active p &&& s.carriage = 0)
    (hbusy : s.tileBusy ((sttGrans s p d c size e).map fun g => (place, g.1)) = false) :
    stt size p h d m c s =
      if namingLanes (s.active p) (laneOff e s.span c (s.active p)) ((sttGrans s p d c size e).filter fun g => !granFree s m.fe place g) ≠ 0 then
        .next ((s.tellGrans place ((sttGrans s p d c size e).filter (granFree s m.fe place))).tileWaits
          { (s.tileStart (s.active p) 0 (laneElems s.span c (s.active p))
              ((lanesOf (s.active p)).map fun l => (l, elemOf s.span size d.toNat l)) [] 7) with
            on := .granule place (laneOff e s.span c (s.active p) (State.lowest
              (namingLanes (s.active p) (laneOff e s.span c (s.active p)) ((sttGrans s p d c size e).filter fun g => !granFree s m.fe place g))) / 16)
            lanes := namingLanes (s.active p) (laneOff e s.span c (s.active p)) ((sttGrans s p d c size e).filter fun g => !granFree s m.fe place g)
            served := namingLanes (s.active p) (laneOff e s.span c (s.active p)) ((sttGrans s p d c size e).filter (granFree s m.fe place))
            grans := (lanesOf (namingLanes (s.active p) (laneOff e s.span c (s.active p))
              ((sttGrans s p d c size e).filter fun g => !granFree s m.fe place g))).map fun l => (place, laneOff e s.span c (s.active p) l / 16) })
      else .next (s.tellGrans place ((sttGrans s p d c size e).filter (granFree s m.fe place))).retire := by
  have hbad := ht.no_bad
  have hsome := ht.some
  unfold stt
  dsimp only
  rw [ht.fresh.tileProg]
  generalize htile : s.tileStart (s.active p) 0 (laneElems s.span c (s.active p))
    ((lanesOf (s.active p)).map fun l => (l, elemOf s.span size d.toNat l)) [] 7 = t
  have hactive : t.active = s.active p := by rw [← htile]; rfl
  have hserved : t.served = 0 := by rw [← htile]; rfl
  have hfailed : t.failed = [] := by rw [← htile]; rfl
  have helems : t.elems = laneElems s.span c (s.active p) := by rw [← htile]; rfl
  have hvals : t.vals = (lanesOf (s.active p)).map fun l => (l, elemOf s.span size d.toNat l) := by rw [← htile]; rfl
  have hfails : failsOf t = 0 := failsOf_eq_zero hfailed
  have hgs : byGranule ((lanesOf (s.active p)).flatMap fun l => (List.range size).map fun j => (laneOff e s.span c (s.active p) l + j,
      BitVec.ofNat 8 (((t.vals.find? fun v => v.1 == l).map Prod.snd).getD 0 / 256 ^ j))) = sttGrans s p d c size e := by
    refine congrArg byGranule (List.flatMap_congr fun l hl => ?_)
    rw [hvals, find_lane_map _ hl]
    rfl
  rw [hactive, if_neg hsome, ht.ref]
  simp only [hserved, helems, hfails, hbad, and_not_zero, elemOff_laneElems, hgs]
  generalize laneOff e s.span c (s.active p) = off at ⊢
  generalize sttGrans s p d c size e = gs at hbusy ⊢
  have hrefuse (i : Nat) (mask : BitVec 16) : s.granRefuses place i mask = false := by rw [granRefuses, ht.poison, Bool.false_and]
  have hcarried (L : Lanes) : s.active p &&& L &&& s.carriage = 0 := by
    rw [BitVec.and_assoc, BitVec.and_comm L, ← BitVec.and_assoc, hcarry]
    exact BitVec.zero_and
  have hzero (L : Lanes) : 0 ||| L = L := BitVec.zero_or
  have hnone : s.active p &&& lanesWhere (fun _ => false) = 0 := and_lanesWhere_false fun _ _ => rfl
  simp only [hbusy, Bool.false_eq_true, if_false, hcarried, hrefuse, lanesOf_zero, List.any_nil, Bool.and_false, Bool.not_false, Bool.and_true,
    List.filter_false, hnone, hzero, List.foldl_nil, hfailed]
  rw [ht.fresh.tellGrans]
  rfl

/-- The granules of lanes that a store names are those of the lanes' elements. -/
theorem mem_sttGrans_fst (ht : LaneTile s (s.active p) h m.ref c size place e) (hsize : size ∈ [4, 8, 16]) (i : Nat) :
    (∃ g ∈ sttGrans s p d c size e, g.1 = i) ↔ ∃ l ∈ lanesOf (s.active p), laneOff e s.span c (s.active p) l / 16 = i := by
  have hpos : 0 < size := by
    simp only [List.mem_cons, List.not_mem_nil, or_false] at hsize
    omega
  have hin (l : Nat) (hl : l ∈ lanesOf (s.active p)) : laneOff e s.span c (s.active p) l % 16 + size ≤ 16 := by
    obtain ⟨hlt, hin⟩ := (mem_lanesOf _ l).1 hl
    rw [laneOff_eq e hl]
    exact elem_in_granule hsize (ht.fit l hlt hin).1 ..
  have hgran := lanesBytes_granule (elem := elemOf s.span size d.toNat) hpos hin i
  rw [← hgran]
  constructor
  · rintro ⟨g, hg, rfl⟩
    exact ((mem_byGranule ..).1 hg).1
  · intro hb
    exact ⟨_, (mem_byGranule _ (i, bytesMask (bytesIn _ i), bytesData (bytesIn _ i))).2 ⟨hb, rfl⟩, rfl⟩

/-- The lanes of those granules of which P holds. -/
theorem namingLanes_sttGrans (ht : LaneTile s (s.active p) h m.ref c size place e) (hsize : size ∈ [4, 8, 16]) (P : Nat → Bool) :
    namingLanes (s.active p) (laneOff e s.span c (s.active p)) ((sttGrans s p d c size e).filter fun g => P g.1) =
      s.active p &&& lanesWhere fun l => P (laneOff e s.span c (s.active p) l / 16) := by
  refine and_lanesWhere_congr fun l hl => ?_
  rw [Bool.eq_iff_iff, List.any_eq_true]
  constructor
  · rintro ⟨g, hg, hgl⟩
    obtain ⟨-, hP⟩ := List.mem_filter.1 hg
    rwa [beq_iff_eq.1 hgl] at hP
  · intro hP
    obtain ⟨g, hg, hgl⟩ := (mem_sttGrans_fst (d := d) ht hsize _).2 ⟨l, hl, rfl⟩
    exact ⟨g, List.mem_filter.2 ⟨hg, by rwa [hgl]⟩, beq_iff_eq.2 hgl⟩

/-- A store of lanes writes its granules when all may be written, and else waits for the lanes whose granules are full. -/
theorem stt_answers (ht : LaneTile s (s.active p) h m.ref c size place e) (hsize : size ∈ [4, 8, 16]) (hcarry : s.active p &&& s.carriage = 0) :
    let S := s.active p
    let o := fun l => eOff e (c.row s.span l) (c.col s.span l)
    let R := S &&& lanesWhere fun l => (s.gran place (o l / 16)).full
    let gs := byGranule (lanesBytes S size o (wordsElem s.span size d.toNat))
    s.tileBusy (gs.map fun g => (place, g.1)) = false →
      (m.fe = 0#2 ∨ R = 0 → stt size p h d m c s = .next (s.tellGrans place gs).retire) ∧
      (m.fe ≠ 0#2 → R ≠ 0 → stt size p h d m c s = .next ((s.tellGrans place (gs.filter fun g => !(s.gran place g.1).full)).tileWaits
        { (s.tileStart S 0 (laneElems s.span c S) ((lanesOf S).map fun l => (l, wordsElem s.span size d.toNat l)) [] 7) with
          on := .granule place (o (State.lowest R) / 16), lanes := R, served := S &&& ~~~R, grans := (lanesOf R).map fun l => (place, o l / 16) })) := by
  intro S o R gs hbusy
  have hoff (l : Nat) (hl : l ∈ lanesOf S) : laneOff e s.span c S l = o l := laneOff_eq e hl
  have helem : elemOf s.span size d.toNat = wordsElem s.span size d.toNat := funext fun l => elemOf_words s.span hsize d.toNat l
  have hgs : sttGrans s p d c size e = gs := congrArg byGranule (lanesBytes_congr size hoff fun l _ => by rw [helem])
  have hstep := stt_eq (d := d) ht hcarry (by rw [hgs]; exact hbusy)
  have hrest := namingLanes_sttGrans (d := d) ht hsize fun i => !(m.fe == 0#2 || !(s.gran place i).full)
  have hserved := namingLanes_sttGrans (d := d) ht hsize fun i => m.fe == 0#2 || !(s.gran place i).full
  change namingLanes _ _ ((sttGrans s p d c size e).filter fun g => !granFree s m.fe place g) = _ at hrest
  change namingLanes _ _ ((sttGrans s p d c size e).filter (granFree s m.fe place)) = _ at hserved
  rw [hrest, hserved, hgs, helem] at hstep
  have hR : R = S &&& lanesWhere fun l => (s.gran place (laneOff e s.span c S l / 16)).full := and_lanesWhere_congr fun l hl => by rw [hoff l hl]
  refine ⟨fun hready => ?_, fun hfe hne => ?_⟩
  · have hfree (l : Nat) (hl : l ∈ lanesOf S) : (m.fe == 0#2 || !(s.gran place (laneOff e s.span c S l / 16)).full) = true := by
      rcases hready with hfe | hzero
      · rw [hfe]
        rfl
      · obtain ⟨hlt, hin⟩ := (mem_lanesOf S l).1 hl
        have hnot : laneIn R l = false := by rw [hzero, laneIn_zero]
        rw [hR, laneIn_and, laneIn_lanesWhere _ _ hlt, hin, Bool.true_and] at hnot
        rw [hnot, Bool.not_false, Bool.or_true]
    have hall : gs.filter (granFree s m.fe place) = gs := List.filter_eq_self.2 fun g hg => by
      obtain ⟨l, hl, hgl⟩ := (mem_sttGrans_fst (d := d) ht hsize g.1).1 ⟨g, by rwa [hgs], rfl⟩
      have := hfree l hl
      rwa [hgl] at this
    rw [hstep, if_neg (not_not.2 (and_lanesWhere_false fun l hl => by rw [hfree l hl]; rfl)), hall]
  · have hfe' : (m.fe == 0#2) = false := beq_eq_false_iff_ne.2 hfe
    have hfree : granFree s m.fe place = fun g => !(s.gran place g.1).full := funext fun g => by rw [granFree, hfe', Bool.false_or]
    have hkept : S &&& lanesWhere (fun l => !(s.gran place (laneOff e s.span c S l / 16)).full) = S &&& ~~~R := lanes_ext fun l hl => by
      rw [hR, laneIn_and, laneIn_and, laneIn_not _ _ hl, laneIn_and, laneIn_lanesWhere _ _ hl, laneIn_lanesWhere _ _ hl]
      cases laneIn S l <;> simp
    have hRsub : ∀ l ∈ lanesOf R, l ∈ lanesOf S := fun l hl => lanesOf_and hl
    have hgrans : ((lanesOf R).map fun l => (place, laneOff e s.span c S l / 16)) = (lanesOf R).map fun l => (place, o l / 16) :=
      List.map_congr_left fun l hl => by rw [hoff l (hRsub l hl)]
    simp only [hfe', Bool.false_or, Bool.not_not] at hstep
    rw [← hR, hkept, hfree, if_pos hne, hoff _ (hRsub _ (lowest_mem hne)), hgrans] at hstep
    exact hstep

end Stt

/-! ## What a store of a tile answers (09 R157) -/

section Tst

variable {s : State} {fe : BitVec 2} {dy dx n : BitVec 4} {sib : BitVec 1} {h : BitVec 6} {c : Coord} {place : Nat} {e : BitVec 128}

/-- The granules that a tile is stored to, each with its places and its data. -/
def tstGrans (s : State) (n : BitVec 4) (c : Coord) (place : Nat) (e : BitVec 128) : List (Nat × BitVec 16 × BitVec 128) :=
  byGranule ((loadBytes place e (rectElems (s.here.cfg n.toNat) (c.row s.span 0) (c.col s.span 0))).map fun b =>
    (16 * b.2.2.1 + b.2.2.2, s.here.tByte n.toNat b.1))

/-- The granules that may be written are, and the instruction waits for the first of the others. -/
theorem tst_answers (huse : s.tUsable n = true) (href : s.tileRef s.focus.g h.toNat ⟨dx, dy, sib⟩ = .ok place e)
    (hwidth : eWidth e = tcW (s.here.cfg n.toNat)) (hrows : c.row s.span 0 + tcRows (s.here.cfg n.toNat) ≤ eRows e)
    (hcols : c.col s.span 0 + tcCols (s.here.cfg n.toNat) ≤ eCols e) (hpoison : ∀ i, (s.gran place i).poison = false)
    (hcarry : laneIn s.carriage s.lowLane = false) (hbusy : s.tileBusy ((tstGrans s n c place e).map fun g => (place, g.1)) = false)
    (hfresh : TileFresh s) :
    ((tstGrans s n c place e).filter (fun g => !granFree s fe place g) = [] → exec (.tst fe dy dx n sib h c) s =
      .next (s.tellGrans place ((tstGrans s n c place e).filter (granFree s fe place))).retire) ∧
    ∀ g, ((tstGrans s n c place e).filter (fun g => !granFree s fe place g)).head? = some g → exec (.tst fe dy dx n sib h c) s =
      .next ((s.tellGrans place ((tstGrans s n c place e).filter (granFree s fe place))).tileWaits
        { (s.tileStart s.lanes (s.here.cfg n.toNat) (rectElems (s.here.cfg n.toNat) (c.row s.span 0) (c.col s.span 0))
            ((List.range (tcRows (s.here.cfg n.toNat) * tcCols (s.here.cfg n.toNat) * tcW (s.here.cfg n.toNat))).map
              (fun b => (b, (s.here.tByte n.toNat b).toNat))) [] 7) with
          on := .granule place g.1, lanes := s.lanes, wrote := ((tstGrans s n c place e).filter (granFree s fe place)).map Prod.fst
          grans := ((tstGrans s n c place e).filter fun g => !granFree s fe place g).map fun g => (place, g.1) }) := by
  show ((_ = [] → execTst fe dy dx n sib h c s = _) ∧ ∀ g, _ → execTst fe dy dx n sib h c s = _)
  have hrect := rectElems_eq (s.here.cfg n.toNat) (c.row s.span 0) (c.col s.span 0)
  unfold execTst
  dsimp only
  rw [huse, if_neg (by simp), href, hfresh.tileProg]
  generalize hx : s.here.cfg n.toNat = x at *
  generalize htile : s.tileStart s.lanes x (rectElems x (c.row s.span 0) (c.col s.span 0))
    ((List.range (tcRows x * tcCols x * tcW x)).map fun b => (b, (s.here.tByte n.toNat b).toNat)) [] 7 = t
  have hcfg : t.cfg = x := by rw [← htile]; rfl
  have helems : t.elems = rectElems x (c.row s.span 0) (c.col s.span 0) := by rw [← htile]; rfl
  have hvals : t.vals = (List.range (tcRows x * tcCols x * tcW x)).map fun b => (b, (s.here.tByte n.toNat b).toNat) := by rw [← htile]; rfl
  have hwrote : t.wrote = [] := by rw [← htile]; rfl
  have hgs : byGranule ((loadBytes place e (rectElems x (c.row s.span 0) (c.col s.span 0))).map fun b =>
      (16 * b.2.2.1 + b.2.2.2, BitVec.ofNat 8 (t.vals.getD b.1 (0, 0)).2)) = tstGrans s n c place e := by
    unfold tstGrans
    rw [hx]
    refine congrArg byGranule (List.map_congr_left fun b hb => ?_)
    rw [hrect] at hb
    obtain ⟨i, j, o, hi, hj, ho, rfl⟩ := mem_loadBytes.1 hb
    have hlt : (i * tcCols x + j) * eWidth e + o < tcRows x * tcCols x * tcW x := by
      rw [← hwidth]
      exact row_pos_lt (row_pos_lt hi hj) ho
    have hval : t.vals.getD ((i * tcCols x + j) * eWidth e + o) (0, 0) =
        ((i * tcCols x + j) * eWidth e + o, (s.here.tByte n.toNat ((i * tcCols x + j) * eWidth e + o)).toNat) := by
      rw [hvals]
      simp [List.getD, hlt]
    show (_, BitVec.ofNat 8 (t.vals.getD ((i * tcCols x + j) * eWidth e + o) (0, 0)).2) = _
    rw [hval, BitVec.ofNat_toNat, BitVec.setWidth_eq]
    rfl
  have hinside : (rectElems x (c.row s.span 0) (c.col s.span 0)).any (fun q => decide (eRows e ≤ q.2.1) || decide (eCols e ≤ q.2.2)) = false := by
    rw [hrect]
    refine List.any_eq_false.2 fun q hq => ?_
    obtain ⟨i, j, hi, hj, rfl⟩ := mem_gridElems.1 hq
    simp
    omega
  have hrefuse (i : Nat) (mask : BitVec 16) : s.granRefuses place i mask = false := by rw [granRefuses, hpoison, Bool.false_and]
  have hfind (xs : List (Nat × BitVec 16 × BitVec 128)) : xs.find? (fun _ => false) = none := List.find?_eq_none.2 fun _ _ => Bool.false_ne_true
  have hfree (g : Nat × BitVec 16 × BitVec 128) : (fe == 0#2 || !(s.gran place g.1).full) = granFree s fe place g := rfl
  simp only [hcfg, helems, hwidth, hinside, ne_eq, not_true_eq_false, Bool.false_eq_true, or_false, if_false, hgs, hwrote, List.contains_nil, Bool.not_false,
    List.filter_true, hbusy, hcarry, hrefuse, Bool.or_false, hfind, hfree, List.nil_append]
  generalize tstGrans s n c place e = gs
  constructor
  · intro hrest
    rw [hrest]
    show done (State.tileOver _) = _
    rw [hfresh.tellGrans]
    rfl
  · intro g hg
    generalize gs.filter (fun g => !granFree s fe place g) = rest at hg ⊢
    cases rest with
    | nil => cases hg
    | cons y ys =>
      obtain rfl := Option.some.inj hg
      rfl

end Tst

/-! ## O13 -/

/-- Settles O13: once the checks have passed, the granules that may be written are written one by one, each with the bytes gathered for it. -/
theorem tileStores : Obligations.TileStores := by
  unfold Obligations.TileStores
  refine ⟨?stt, ?tst, ?bytes, fun s place gs => tellGrans_clock s place gs⟩
  case stt =>
    intro s p h d m c place e S o R go hS href hpoison hcarry hfresh
    exact ⟨fun hfit => stt_answers ⟨hS, href, hfit, hpoison, hfresh⟩ (by decide) hcarry,
      fun hfit => stt_answers ⟨hS, href, hfit, hpoison, hfresh⟩ (by decide) hcarry,
      fun hfit => stt_answers ⟨hS, href, hfit, hpoison, hfresh⟩ (by decide) hcarry⟩
  case tst =>
    intro s fe dy dx n sib h c place e x row col gs full free r huse href hwidth hrows hcols hpoison hcarry hbusy hfresh
    obtain ⟨hready, hwaits⟩ := tst_answers (fe := fe) huse href hwidth hrows hcols hpoison hcarry hbusy hfresh
    refine ⟨fun hall => ?_, fun g hfe hg => ?_⟩
    · have hfree (g : Nat × BitVec 16 × BitVec 128) (hg : g ∈ gs) : granFree s fe place g = true := by
        rcases hall with hfe | hfull
        · rw [granFree, hfe]
          rfl
        · have hnot := List.filter_eq_nil_iff.1 hfull g hg
          rw [granFree, Bool.eq_false_iff.2 hnot, Bool.not_false, Bool.or_true]
      have hself : gs.filter (granFree s fe place) = gs := List.filter_eq_self.2 hfree
      have hnone : gs.filter (fun g => !granFree s fe place g) = [] := List.filter_eq_nil_iff.2 fun g hg => by rw [hfree g hg]; decide
      have hexec := hready hnone
      change r = .next (s.tellGrans place (gs.filter (granFree s fe place))).retire at hexec
      rwa [hself] at hexec
    · have hfree : granFree s fe place = fun g => !(s.gran place g.1).full := funext fun g => by
        rw [granFree, beq_eq_false_iff_ne.2 hfe, Bool.false_or]
      simp only [hfree, Bool.not_not] at hwaits
      exact hwaits g hg
  case bytes =>
    intro s place bs hsmall t
    refine ⟨fun xs o v ys hbs hlast => placeByte_stored hsmall hbs hlast, fun o ho h => placeByte_not_stored hsmall ho h, fun b hb => ?_,
      fun p i hi h => gran_not_stored hsmall hi h, fun a => (granOnly_storeGrans ..).byte a⟩
    exact congrArg Granule.full (gran_stored hsmall ⟨b, hb, rfl⟩)

end Sys2Proof.Machine
end

section
/-!
PROOFS. The loss of a party (13 R247), the revocation of an extent (13 R248), data that prove wrong (11 R188), and O46: what each does to the
lines' entries, and what it leaves.
-/

namespace Sys2Proof.Store

variable {α : Type}

/-- A collection of one entry reads as its default at every other key. -/
theorem get_singleton_ne (d : α) {n k : Nat} (v : α) (h : k ≠ n) : get d [(n, v)] k = d := if_neg h

/-- An entry that a change of every listed value leaves listed. -/
theorem get_mapVals_of_ne [DecidableEq α] (d : α) (f : Nat → α → α) (m : Store α) (k : Nat) (hd : get d m k ≠ d)
    (hf : f k (get d m k) ≠ d) : get d (mapVals d f m) k = f k (get d m k) := by
  induction m with
  | nil => exact absurd rfl hd
  | cons e m ih =>
    have hcons : mapVals d f (e :: m) = if f e.1 e.2 = d then mapVals d f m else (e.1, f e.1 e.2) :: mapVals d f m := by
      unfold mapVals
      rw [List.filterMap_cons]
      split <;> simp_all
    rw [hcons]
    by_cases hk : k = e.1
    · subst hk
      rw [get_cons, if_pos rfl] at hf ⊢
      rw [if_neg hf, get_cons, if_pos rfl]
    · rw [get_cons, if_neg hk] at hd hf ⊢
      split
      · exact ih hd hf
      · rw [get_cons, if_neg hk, ih hd hf]

end Sys2Proof.Store

namespace Sys2Proof.Machine

/-! ## Lists and entries that a fold leaves as they are -/

theorem nodup_eraseDups {α : Type} [BEq α] [LawfulBEq α] : ∀ xs : List α, xs.eraseDups.Nodup
  | [] => .nil
  | x :: xs => by
    rw [List.eraseDups_cons, List.nodup_cons]
    refine ⟨fun h => ?_, nodup_eraseDups _⟩
    rw [List.mem_eraseDups, List.mem_filter] at h
    simp at h
termination_by xs => xs.length
decreasing_by exact Nat.lt_succ_of_le (List.length_filter_le ..)

/-- Steps each of which would leave a as it is. -/
theorem foldl_eq_self {α β : Type} (f : β → α → β) (a : β) (xs : List α) (h : ∀ x ∈ xs, f a x = a) : xs.foldl f a = a := by
  induction xs with
  | nil => rfl
  | cons x xs ih => rw [List.foldl_cons, h x (by simp), ih fun y hy => h y (by simp [hy])]

namespace State

variable {s t : State}

/-! ## Reads of the two directories -/

theorem dirAt_setDir_self (s : State) (n : Nat) (d : DirEntry) : (s.setDir n d).dirAt n = d := Store.get_set_self ..
theorem dirAt_setDir_ne (s : State) {n k : Nat} (d : DirEntry) (h : k ≠ n) : (s.setDir n d).dirAt k = s.dirAt k := Store.get_set_ne _ _ _ h
theorem proxyAt_setProxy_self (s : State) (n : Nat) (c : CacheLine) : (s.setProxy n c).proxyAt n = c := Store.get_set_self ..
theorem podAt_setPod_self (s : State) (n : Nat) (d : DirEntry) : (s.setPod n d).podAt n = d := Store.get_set_self ..
theorem podAt_setPod_ne (s : State) {n k : Nat} (d : DirEntry) (h : k ≠ n) : (s.setPod n d).podAt k = s.podAt k := Store.get_set_ne _ _ _ h

/-- Only messages may have been sent between two states. -/
def OnlySent (s t : State) : Prop := t = { s with msgs := t.msgs, outbox := t.outbox }
/-- Only the error logs, with the monitors on their lines, may differ between two states (15 R281). -/
def OnlyLogged (s t : State) : Prop := t = { s with mem := t.mem, wg := t.wg, late := t.late, paddock := t.paddock }
/-- The lines stand alike in both directories and in every cache. -/
structure SameLines (s t : State) : Prop where
  dir : t.dir = s.dir
  pod : t.pod = s.pod
  cache : t.cache = s.cache
  proxy : t.proxy = s.proxy

/-- A fold whose steps each stand in a relation that is reflexive and transitive. -/
theorem foldl_related {α : Type} {R : State → State → Prop} (hrefl : ∀ s, R s s) (htrans : ∀ {s t u}, R s t → R t u → R s u) (f : State → α → State)
    (hf : ∀ s x, R s (f s x)) (xs : List α) (s : State) : R s (xs.foldl f s) := by
  induction xs generalizing s with
  | nil => exact hrefl s
  | cons x xs ih => exact htrans (hf s x) (ih _)

theorem OnlySent.trans {u : State} (h1 : OnlySent s t) (h2 : OnlySent t u) : OnlySent s u := by
  unfold OnlySent at h1 h2 ⊢
  conv_lhs => rw [h2, h1]

theorem OnlyLogged.trans {u : State} (h1 : OnlyLogged s t) (h2 : OnlyLogged t u) : OnlyLogged s u := by
  unfold OnlyLogged at h1 h2 ⊢
  conv_lhs => rw [h2, h1]

theorem onlySent_send (s : State) (h : Hdr) (m : Msg) : OnlySent s (s.send h m) := by
  unfold send
  split_ifs <;> rfl

theorem onlyLogged_logError (s : State) (pkn : Nat) (a : Dword) (rank : Option (BitVec 22)) (r c k : Nat) (o : BitVec 20) :
    OnlyLogged s (s.logError pkn a rank r c k o) := by
  have hbytes (b n x : Nat) : OnlyLogged s (s.setBytes b n x) := by
    unfold OnlyLogged
    rw [setBytes_rest]
  have hafter (u : State) (n k : Nat) (f : Paddock → Paddock) : OnlyLogged u ((u.trigger n).updPk k f) := rfl
  unfold logError
  dsimp only
  split_ifs
  · rfl
  · exact (hbytes ..).trans (hafter ..)
  · rfl

theorem onlyLogged_logLine (s : State) (n : Nat) (p : BitVec 13) (k : Nat) (pk : Option Nat) : OnlyLogged s (s.logLine n p k pk) :=
  foldl_related (R := OnlyLogged) (fun _ => rfl) .trans _ (fun _ _ => onlyLogged_logError ..) _ s

namespace SameLines

theorem trans {u : State} (h1 : SameLines s t) (h2 : SameLines t u) : SameLines s u :=
  ⟨h2.dir.trans h1.dir, h2.pod.trans h1.pod, h2.cache.trans h1.cache, h2.proxy.trans h1.proxy⟩

theorem of_sent (h : OnlySent s t) : SameLines s t := by
  unfold OnlySent at h
  refine ⟨?_, ?_, ?_, ?_⟩ <;> rw [h]

theorem of_logged (h : OnlyLogged s t) : SameLines s t := by
  unfold OnlyLogged at h
  refine ⟨?_, ?_, ?_, ?_⟩ <;> rw [h]

theorem send (s : State) (h : Hdr) (m : Msg) : SameLines s (s.send h m) := of_sent (onlySent_send ..)
theorem trigger (s : State) (n : Nat) : SameLines s (s.trigger n) := ⟨rfl, rfl, rfl, rfl⟩
theorem toPod (s : State) (p : BitVec 13) (n : Nat) (m : Msg) : SameLines s (s.toPod p n m) := send ..

theorem dirAt (h : SameLines s t) (n : Nat) : t.dirAt n = s.dirAt n := by rw [State.dirAt, h.dir]; rfl
theorem podAt (h : SameLines s t) (n : Nat) : t.podAt n = s.podAt n := by rw [State.podAt, h.pod]; rfl
theorem cacheAt (h : SameLines s t) (core n : Nat) : t.cacheAt core n = s.cacheAt core n := by rw [State.cacheAt, h.cache]; rfl
theorem proxyAt (h : SameLines s t) (n : Nat) : t.proxyAt n = s.proxyAt n := by rw [State.proxyAt, h.proxy]; rfl

end SameLines

/-! ## A line at which no request waits is poisoned (13 R233) -/

/-- The directories as the line's poison leaves them, before its held notices are answered. -/
def emptied (s : State) (n : Nat) : State :=
  ((s.quash n).setDir n { s.dirAt n with queue := [], held := [], serving := none }).setPod n DirEntry.idle

/-- Does no request wait at a line, and is none served there. -/
def Unasked (s : State) (n : Nat) : Prop := (s.dirAt n).queue = [] ∧ (s.dirAt n).serving = none ∧ (s.podAt n).serving = none

/-- Then its poison is the entry's and the answers to the held notices. -/
theorem spoil_eq {n : Nat} (h : s.Unasked n) : s.spoil n =
    ((s.dirAt n).held ++ (s.podAt n).held).foldl (fun a e => a.answer e.1 .putAck) ((s.emptied n).enterP n) := by
  obtain ⟨hqueue, hserving, hpod⟩ := h
  unfold spoil emptied
  dsimp only
  rw [hqueue, hserving, hpod]
  rfl

/-- What the answers to held notices leave. -/
theorem sameLines_spoil {n : Nat} (h : s.Unasked n) : SameLines ((s.emptied n).enterP n) (s.spoil n) := by
  rw [spoil_eq h]
  exact .of_sent (foldl_related (R := OnlySent) (fun _ => rfl) .trans _ (fun _ _ => onlySent_send ..) _ _)

/-- The entry of the line itself: in P at its home, gone at the proxy of another device's line. -/
theorem dirAt_enterP_emptied (s : State) (n : Nat) :
    ((s.emptied n).enterP n).dirAt n = if isPod n then DirEntry.idle else { DirEntry.idle with state := .P } := by
  have hempty : (s.emptied n).dirAt n = { s.dirAt n with queue := [], held := [], serving := none } := dirAt_setDir_self ..
  have hfree (st : HomeState) : ((s.emptied n).freeDir n st).dirAt n = { DirEntry.idle with state := st } := by
    rw [freeDir, dirAt_setDir_self, hempty]
    rfl
  unfold enterP
  split
  · rw [toPod, (SameLines.send ..).dirAt]
    exact hfree .I
  · exact hfree .P

theorem dirAt_enterP_ne (s : State) {n k : Nat} (h : k ≠ n) : (s.enterP n).dirAt k = s.dirAt k := by
  have hfree (st : HomeState) : ((s.dropCopies n).freeDir n st).dirAt k = s.dirAt k := dirAt_setDir_ne _ _ h
  unfold enterP
  split
  · rw [toPod, (SameLines.send ..).dirAt]
    exact hfree .I
  · exact hfree .P

theorem podAt_enterP (s : State) (n k : Nat) : (s.enterP n).podAt k = s.podAt k := by
  unfold enterP
  split
  · rw [(SameLines.toPod ..).podAt]
    rfl
  · rfl

theorem dirAt_spoil {n : Nat} (h : s.Unasked n) :
    (s.spoil n).dirAt n = if isPod n then DirEntry.idle else { DirEntry.idle with state := .P } := by
  rw [(sameLines_spoil h).dirAt, dirAt_enterP_emptied]

theorem dirAt_spoil_ne {n k : Nat} (h : s.Unasked n) (hk : k ≠ n) : (s.spoil n).dirAt k = s.dirAt k := by
  rw [(sameLines_spoil h).dirAt, dirAt_enterP_ne _ hk]
  exact dirAt_setDir_ne _ _ hk

theorem podAt_spoil {n : Nat} (h : s.Unasked n) : (s.spoil n).podAt n = DirEntry.idle := by
  rw [(sameLines_spoil h).podAt, podAt_enterP]
  exact podAt_setPod_self ..

theorem podAt_spoil_ne {n k : Nat} (h : s.Unasked n) (hk : k ≠ n) : (s.spoil n).podAt k = s.podAt k := by
  rw [(sameLines_spoil h).podAt, podAt_enterP]
  exact podAt_setPod_ne _ _ hk

/-- No core keeps a copy of it. -/
theorem cacheAt_spoil {n core : Nat} (h : s.Unasked n) (hn : n < 2 ^ 53) : (s.spoil n).cacheAt core n = CacheLine.none := by
  have hdrop : ((s.emptied n).enterP n).cache = s.cache.filter (fun e => e.1 % 2 ^ 53 != n) := by
    unfold enterP
    split
    · rw [(SameLines.toPod ..).cache]
      rfl
    · rfl
  rw [(sameLines_spoil h).cacheAt, State.cacheAt, hdrop]
  refine Store.get_of_not_mem _ _ _ fun e he hkey => ?_
  have hne := (List.mem_filter.1 he).2
  rw [hkey, cacheKey, Nat.mul_add_mod_self_right, Nat.mod_eq_of_lt hn] at hne
  simp at hne

/-- Another device's line leaves the proxy. -/
theorem proxyAt_spoil {n : Nat} (h : s.Unasked n) (hpod : isPod n = true) : (s.spoil n).proxyAt n = CacheLine.none := by
  rw [(sameLines_spoil h).proxyAt]
  unfold enterP
  rw [if_pos hpod, (SameLines.toPod ..).proxyAt, (SameLines.trigger ..).proxyAt, proxyAt_setProxy_self]

theorem homeOnly_spoil {n : Nat} (h : s.Unasked n) : HomeOnly s (s.spoil n) := by
  have hemptied : HomeOnly s (s.emptied n) := .of_rest rfl
  have henter (u : State) : HomeOnly u (u.enterP n) := by
    unfold enterP
    split
    · exact ((((HomeOnly.dropCopies ..).trans (.freeDir ..)).trans (.setProxy ..)).trans (.trigger ..)).trans (.toPod ..)
    · exact ((HomeOnly.dropCopies ..).trans (.freeDir ..)).trans (.trigger ..)
  rw [spoil_eq h]
  exact (hemptied.trans (henter _)).trans (.foldl _ (fun _ _ => .send ..) _ _)

/-- With no notice held and no message of the line on its way, nothing is sent at its home and nothing taken back. -/
theorem msgs_spoil {n : Nat} (h : s.Unasked n) (hhome : isPod n = false) (hheld : (s.dirAt n).held = [] ∧ (s.podAt n).held = [])
    (hmsgs : ∀ m ∈ s.msgs, m.1.line ≠ n) : (s.spoil n).msgs = s.msgs := by
  have hquash : (s.quash n).msgs = s.msgs := List.filter_eq_self.2 fun m hm => by rw [bne_iff_ne.2 (hmsgs m hm), Bool.true_or]
  rw [spoil_eq h, hheld.1, hheld.2]
  show ((s.emptied n).enterP n).msgs = s.msgs
  unfold enterP
  rw [if_neg (by rw [hhome]; decide)]
  exact hquash

/-! ## Entries of either directory -/

@[simp] theorem entAt_setEnt_self (s : State) (pod : Bool) (n : Nat) (d : DirEntry) : (s.setEnt pod n d).entAt pod n = d := by
  cases pod
  · exact dirAt_setDir_self ..
  · exact podAt_setPod_self ..

theorem entAt_setEnt_ne (s : State) (pod b : Bool) {n k : Nat} (d : DirEntry) (h : k ≠ n) : (s.setEnt pod n d).entAt b k = s.entAt b k := by
  cases pod <;> cases b
  · exact dirAt_setDir_ne _ _ h
  · rfl
  · rfl
  · exact podAt_setPod_ne _ _ h

@[simp] theorem entAt_setEnt_other (s : State) (pod : Bool) (n k : Nat) (d : DirEntry) : (s.setEnt pod n d).entAt (!pod) k = s.entAt (!pod) k := by
  cases pod <;> rfl

/-- Both entries of a line. -/
theorem forall_entAt {pod : Bool} {n : Nat} {P : DirEntry → Prop} (h : P (s.entAt pod n)) (hother : P (s.entAt (!pod) n)) :
    P (s.dirAt n) ∧ P (s.podAt n) := by
  cases pod
  · exact ⟨h, hother⟩
  · exact ⟨hother, h⟩

/-- Writing an entry as it stands leaves every entry. -/
theorem entAt_setEnt_same {pod : Bool} {n : Nat} {d : DirEntry} (h : s.entAt pod n = d) (b : Bool) (k : Nat) :
    (s.setEnt pod n d).entAt b k = s.entAt b k := by
  by_cases hk : k = n
  · subst hk
    cases hb : pod == b
    · obtain rfl : b = !pod := by cases pod <;> cases b <;> simp_all
      exact entAt_setEnt_other ..
    · obtain rfl := eq_of_beq hb
      rw [entAt_setEnt_self, h]
  · exact entAt_setEnt_ne _ _ _ _ hk

theorem homeOnly_setEnt (s : State) (pod : Bool) (n : Nat) (d : DirEntry) : HomeOnly s (s.setEnt pod n d) := by
  cases pod
  · exact .setDir ..
  · exact .setPod ..

theorem msgs_setEnt (s : State) (pod : Bool) (n : Nat) (d : DirEntry) : (s.setEnt pod n d).msgs = s.msgs := by cases pod <;> rfl

/-- Of the entries of both directories only those of one line may differ between two states; no message has been sent or taken back. -/
structure EntriesBut (s t : State) (line : Nat) : Prop where
  rest : HomeOnly s t
  ent : ∀ b k, k ≠ line → t.entAt b k = s.entAt b k
  msgs : t.msgs = s.msgs

/-- None differs. -/
structure EntriesKept (s t : State) : Prop where
  rest : HomeOnly s t
  ent : ∀ b k, t.entAt b k = s.entAt b k
  msgs : t.msgs = s.msgs

theorem EntriesKept.refl (s : State) : EntriesKept s s := ⟨.refl s, fun _ _ => rfl, rfl⟩

theorem EntriesKept.trans {u : State} (h1 : EntriesKept s t) (h2 : EntriesKept t u) : EntriesKept s u :=
  ⟨h1.rest.trans h2.rest, fun b k => (h2.ent b k).trans (h1.ent b k), h2.msgs.trans h1.msgs⟩

theorem EntriesBut.kept {u : State} {n : Nat} (h1 : EntriesBut s t n) (h2 : EntriesKept t u) : EntriesBut s u n :=
  ⟨h1.rest.trans h2.rest, fun b k hk => (h2.ent b k).trans (h1.ent b k hk), h2.msgs.trans h1.msgs⟩

theorem EntriesKept.but {u : State} {n : Nat} (h1 : EntriesKept s t) (h2 : EntriesBut t u n) : EntriesBut s u n :=
  ⟨h1.rest.trans h2.rest, fun b k hk => (h2.ent b k hk).trans (h1.ent b k), h2.msgs.trans h1.msgs⟩

theorem entriesBut_setEnt (s : State) (pod : Bool) (n : Nat) (d : DirEntry) : EntriesBut s (s.setEnt pod n d) n :=
  ⟨homeOnly_setEnt .., fun b _ hk => entAt_setEnt_ne s pod b d hk, msgs_setEnt ..⟩

theorem entriesKept_setEnt {pod : Bool} {n : Nat} {d : DirEntry} (h : s.entAt pod n = d) : EntriesKept s (s.setEnt pod n d) :=
  ⟨homeOnly_setEnt .., entAt_setEnt_same h, msgs_setEnt ..⟩

/-! ## A party is lost (13 R247) -/

/-- Is a message or a waiting request one that party p of a directory has sent. -/
def isOf (pod : Bool) (p : BitVec 13) (e : Hdr × Msg) : Bool := e.1.pod == pod && e.1.src == p

/-- The home drops nothing where the party has asked nothing. -/
theorem dropRequests_kept {pod : Bool} {n : Nat} {p : BitVec 13} (hqueue : ∀ e ∈ (s.dirAt n).queue, isOf pod p e = false)
    (hheld : (s.entAt pod n).held = []) : EntriesKept s (s.dropRequests pod n p) := by
  have hself : (s.dirAt n).queue.filter (fun e => !isOf pod p e) = (s.dirAt n).queue := List.filter_eq_self.2 fun e he => by rw [hqueue e he]; rfl
  have h1 : EntriesKept s (s.setDir n { s.dirAt n with queue := (s.dirAt n).queue.filter (fun e => !isOf pod p e) }) := by
    rw [hself]
    exact entriesKept_setEnt (pod := false) rfl
  have hnone (x : DirEntry) (hx : x.held = []) (f : Hdr × Msg → Bool) : x = { x with held := x.held.filter f } := by
    cases x
    cases hx
    rfl
  exact h1.trans (entriesKept_setEnt (hnone _ (by rw [h1.ent, hheld]) _))

/-- A line with which the lost party has nothing to do: nobody holds it in the party's directory, and the party has no request waiting there. -/
structure Quiet (s : State) (pod : Bool) (p : BitVec 13) (n : Nat) : Prop where
  idle : s.entAt pod n = DirEntry.idle
  queue : ∀ e ∈ (s.dirAt n).queue, isOf pod p e = false

theorem Quiet.kept {pod : Bool} {p : BitVec 13} {n : Nat} (h : Quiet s pod p n) (ht : ∀ b, t.entAt b n = s.entAt b n) : Quiet t pod p n :=
  ⟨(ht pod).trans h.idle, fun e he => h.queue e (by rwa [show t.dirAt n = s.dirAt n from ht false] at he)⟩

theorem loseLine_quiet {pod : Bool} {p : BitVec 13} {n : Nat} (h : Quiet s pod p n) : EntriesKept s (loseLine pod p s n) := by
  have hdrop := dropRequests_kept h.queue (by rw [h.idle]; rfl)
  have hidle := (hdrop.ent pod n).trans h.idle
  have hself : loseLine pod p s n = s.dropRequests pod n p := by
    unfold loseLine
    dsimp only
    rw [hidle]
    simp [DirEntry.idle]
  rwa [hself]

theorem foldl_loseLine_quiet {pod : Bool} {p : BitVec 13} (ns : List Nat) (h : ∀ n ∈ ns, Quiet s pod p n) :
    EntriesKept s (ns.foldl (loseLine pod p) s) := by
  induction ns generalizing s with
  | nil => exact .refl s
  | cons n ns ih =>
    have hn := loseLine_quiet (h n (by simp))
    exact hn.trans (ih fun k hk => (h k (by simp [hk])).kept fun b => hn.ent b k)

/-- The party's loss is what it does to the one line that it has to do with. -/
theorem foldl_loseLine {pod : Bool} {p : BitVec 13} {n : Nat} {ns : List Nat} {x y : DirEntry} (hnodup : ns.Nodup) (hmem : n ∈ ns)
    (hquiet : ∀ k, k ≠ n → Quiet s pod p k)
    (hline : ∀ u, EntriesKept s u →
      EntriesBut u (loseLine pod p u n) n ∧ (loseLine pod p u n).entAt pod n = x ∧ (loseLine pod p u n).entAt (!pod) n = y) :
    EntriesBut s (ns.foldl (loseLine pod p) s) n ∧ (ns.foldl (loseLine pod p) s).entAt pod n = x ∧
      (ns.foldl (loseLine pod p) s).entAt (!pod) n = y := by
  obtain ⟨before, after, rfl⟩ := List.append_of_mem hmem
  rw [List.nodup_append] at hnodup
  obtain ⟨-, hafter, hbefore⟩ := hnodup
  have hne (k : Nat) (hk : k ∈ before) : k ≠ n := hbefore k hk n (by simp)
  have hne' (k : Nat) (hk : k ∈ after) : k ≠ n := fun h => (List.nodup_cons.1 hafter).1 (h ▸ hk)
  rw [List.foldl_append, List.foldl_cons]
  have h1 := foldl_loseLine_quiet before fun k hk => hquiet k (hne k hk)
  obtain ⟨h2, hx, hy⟩ := hline _ h1
  have h3 := foldl_loseLine_quiet (s := loseLine pod p (before.foldl (loseLine pod p) s) n) after fun k hk =>
    (hquiet k (hne' k hk)).kept fun b => (h2.ent b k (hne' k hk)).trans (h1.ent b k)
  exact ⟨(h1.but h2).kept h3, (h3.ent ..).trans hx, (h3.ent ..).trans hy⟩

/-- A line of this device that stands still: its entry in one directory is d, nobody holds it in the other, nothing waits, is served or
travels. -/
structure Still (s : State) (pod : Bool) (n : Nat) (d : DirEntry) : Prop where
  entry : s.entAt pod n = d
  other : s.entAt (!pod) n = DirEntry.idle
  queue : d.queue = []
  held : d.held = []
  serving : d.serving = none
  fwdTo : d.fwdTo = none
  coarse : d.coarse = false
  home : isPod n = false
  msgs : ∀ m ∈ s.msgs, m.1.line ≠ n

namespace Still

variable {pod : Bool} {n : Nat} {d : DirEntry} {p : BitVec 13}

theorem kept (h : Still s pod n d) (ht : EntriesKept s t) : Still t pod n d :=
  { h with entry := (ht.ent ..).trans h.entry, other := (ht.ent ..).trans h.other, msgs := by rw [ht.msgs]; exact h.msgs }

theorem emptyQueue (h : Still s pod n d) : (s.dirAt n).queue = [] :=
  (forall_entAt (P := fun d => d.queue = []) (by rw [h.entry]; exact h.queue) (by rw [h.other]; rfl)).1

theorem noneHeld (h : Still s pod n d) : (s.dirAt n).held = [] ∧ (s.podAt n).held = [] :=
  forall_entAt (P := fun d => d.held = []) (by rw [h.entry]; exact h.held) (by rw [h.other]; rfl)

theorem unasked (h : Still s pod n d) : s.Unasked n :=
  ⟨h.emptyQueue, forall_entAt (P := fun d => d.serving = none) (by rw [h.entry]; exact h.serving) (by rw [h.other]; rfl)⟩

/-- The home has nothing of the party to drop there. -/
theorem dropped (h : Still s pod n d) : EntriesKept s (s.dropRequests pod n p) :=
  dropRequests_kept (by rw [h.emptyQueue]; simp) (by rw [h.entry]; exact h.held)

/-- The line of the lost owner is poisoned. -/
theorem loseLine_owner (h : Still s pod n d) (hstate : d.state = .X ∨ d.state = .O) (howner : d.owner = p) :
    EntriesBut s (loseLine pod p s n) n ∧ (loseLine pod p s n).entAt false n = { DirEntry.idle with state := .P } ∧
      (loseLine pod p s n).entAt true n = DirEntry.idle := by
  have hdrop := h.dropped (p := p)
  have h' := h.kept hdrop
  have hpoison : loseLine pod p s n = (s.dropRequests pod n p).poison n p 3 := by
    unfold loseLine
    dsimp only
    rw [h'.entry, if_pos (.inl ⟨hstate.imp_right .inl, howner⟩)]
  have hlog := onlyLogged_logLine ((s.dropRequests pod n p).spoil n) n p 3 none
  have hsame := SameLines.of_logged hlog
  rw [hpoison, poison]
  refine ⟨hdrop.but ⟨(homeOnly_spoil h'.unasked).trans (.logLine ..), fun b k hk => ?_, ?_⟩, ?_, ?_⟩
  · cases b
    · exact (hsame.dirAt k).trans (dirAt_spoil_ne h'.unasked hk)
    · exact (hsame.podAt k).trans (podAt_spoil_ne h'.unasked hk)
  · rw [hlog]
    exact msgs_spoil h'.unasked h.home h'.noneHeld h'.msgs
  · refine (hsame.dirAt n).trans ?_
    rw [dirAt_spoil h'.unasked, h.home]
    rfl
  · exact (hsame.podAt n).trans (podAt_spoil h'.unasked)

/-- A change of the entry alone. -/
theorem loseLine_entry (h : Still s pod n d) {d' : DirEntry}
    (hlose : loseLine pod p s n = (s.dropRequests pod n p).setEnt pod n d') :
    EntriesBut s (loseLine pod p s n) n ∧ (loseLine pod p s n).entAt pod n = d' ∧
      (loseLine pod p s n).entAt (!pod) n = DirEntry.idle := by
  rw [hlose]
  exact ⟨h.dropped.but (entriesBut_setEnt ..), entAt_setEnt_self .., (entAt_setEnt_other ..).trans ((h.dropped.ent ..).trans h.other)⟩

theorem mem_partiesOf (h : Still s pod n d) (hp : p ∈ d.ptrs) : p ∈ partiesOf pod d := by
  have hall : partiesOf pod d = d.ptrs := by
    cases pod <;> simp [partiesOf, members, podMembers, h.coarse]
  rwa [hall]

/-- A lost sharer leaves the sharers. -/
theorem loseLine_sharer (h : Still s pod n d) (hstate : d.state = .S) (hp : p ∈ d.ptrs) :
    EntriesBut s (loseLine pod p s n) n ∧ (loseLine pod p s n).entAt pod n =
      { d with ptrs := d.ptrs.filter (fun x => x ≠ p), state := if ∀ x ∈ d.ptrs, x = p then .I else .S } ∧
      (loseLine pod p s n).entAt (!pod) n = DirEntry.idle := by
  have hentry := (h.kept (h.dropped (p := p))).entry
  refine h.loseLine_entry ?_
  unfold loseLine
  dsimp only
  rw [hentry]
  simp [hstate, h.serving, h.fwdTo, h.coarse, h.mem_partiesOf hp, hentry]

/-- A line in D keeps the mark of a lost holder. -/
theorem loseLine_holder (h : Still s pod n d) (hstate : d.state = .D) (hp : p ∈ d.ptrs) :
    EntriesBut s (loseLine pod p s n) n ∧ (loseLine pod p s n).entAt pod n = { d with lostHolder := true } ∧
      (loseLine pod p s n).entAt (!pod) n = DirEntry.idle := by
  have hentry := (h.kept (h.dropped (p := p))).entry
  refine h.loseLine_entry ?_
  unfold loseLine
  dsimp only
  rw [hentry]
  simp [hstate, h.serving, h.fwdTo, h.mem_partiesOf hp, hentry]

end Still

/-- The machine once a party of this device is recorded as lost: its messages and those to it are gone. -/
def withoutParty (s : State) (p : Party) (q : BitVec 13) : State :=
  { s with lost := s.lost ++ [p], msgs := s.msgs.filter (fun m => m.1.pod || (m.1.src ≠ q && m.1.dst ≠ q)) }

/-- The machine once device n is recorded as lost: its slot is unreachable, its waiter nodes and its messages are gone (log 31). -/
def withoutDevice (s : State) (n : Nat) : State :=
  { s with
    lost := s.lost ++ [.device n]
    slotDown := if s.slotDown.contains n then s.slotDown else s.slotDown ++ [n]
    waitq := (s.waitq.map (fun (w : WaitQueue) => { w with nodes := w.nodes.filter (fun x => nodePeer x ≠ some n) })).filter (fun w => w.nodes ≠ [])
    msgs := s.msgs.filter (fun m => !(m.1.pod && m.1.src == BitVec.ofNat 13 n)) }

theorem declareLost_again {p : Party} (h : p ∈ s.lost) : s.declareLost p = s := if_pos (by simpa using h)

theorem declareLost_party {p : Party} {q : BitVec 13} (h : p ∉ s.lost) (hq : partyPtr p = some q) :
    s.declareLost p = s.entryLines.foldl (loseLine false q) (s.withoutParty p q) := by
  have hnew : ¬s.lost.contains p = true := by simpa using h
  unfold declareLost
  rw [if_neg hnew]
  cases p with
  | core n => dsimp only; rw [hq]; rfl
  | agent n => dsimp only; rw [hq]; rfl
  | device n => cases hq

/-- Waiters of other devices' words stay as they are where no request for one is under way. -/
theorem declareLost_device {n : Nat} (h : Party.device n ∉ s.lost)
    (hremote : ∀ r ∈ s.remote, (∀ x, r.packet.kind ≠ .waitq x) ∧ ∀ x, r.packet.kind ≠ .wake x) :
    s.declareLost (.device n) = s.entryLines.foldl (loseLine true (BitVec.ofNat 13 n)) (s.withoutDevice n) := by
  have hnew : ¬s.lost.contains (.device n) = true := by simpa using h
  have hnone : (s.withoutDevice n).loseWaiters n = s.withoutDevice n := by
    unfold loseWaiters
    dsimp only
    rw [List.filter_eq_nil_iff.2 fun r hr => ?_]
    · rfl
    · obtain ⟨hwait, hwake⟩ := hremote r hr
      split
      · next x hx => exact absurd hx (hwait x)
      · next x hx => exact absurd hx (hwake x)
      · simp
  unfold declareLost
  rw [if_neg hnew]
  exact congrArg (s.entryLines.foldl (loseLine true (BitVec.ofNat 13 n))) hnone

theorem mem_slotDown_withoutDevice (s : State) (n k : Nat) : k ∈ (s.withoutDevice n).slotDown ↔ k ∈ s.slotDown ∨ k = n := by
  unfold withoutDevice
  dsimp only
  split
  · next h => exact ⟨.inl, fun hk => hk.elim id fun hk => hk ▸ List.contains_iff_mem.1 h⟩
  · simp

theorem nodePeer_withoutDevice (s : State) (n : Nat) : ∀ w ∈ (s.withoutDevice n).waitq, ∀ x ∈ w.nodes, nodePeer x ≠ some n := by
  intro w hw x hx
  obtain ⟨v, -, rfl⟩ := List.mem_map.1 (List.mem_filter.1 hw).1
  simpa using (List.mem_filter.1 hx).2

/-- A line with an entry is one of the lines that a loss looks at. -/
theorem mem_entryLines {pod : Bool} {n : Nat} {d : DirEntry} (h : (if pod then s.pod else s.dir) = [(n, d)]) : n ∈ s.entryLines := by
  rw [entryLines, List.mem_eraseDups, List.mem_append]
  cases pod
  · exact .inl (by rw [show s.dir = [(n, d)] from h]; simp [Store.keys])
  · exact .inr (by rw [show s.pod = [(n, d)] from h]; simp [Store.keys])

/-- Where one line alone has an entry in the party's directory, every other line is none of the party's. -/
theorem quiet_of_single {pod : Bool} {n k : Nat} {d : DirEntry} {p : BitVec 13} (h : (if pod then s.pod else s.dir) = [(n, d)]) (hk : k ≠ n)
    (hqueue : pod = true → ∀ e ∈ s.dir, ∀ x ∈ e.2.queue, x.1.pod = false) : Quiet s pod p k := by
  cases pod
  · have hidle : s.dirAt k = DirEntry.idle := by
      rw [dirAt, show s.dir = [(n, d)] from h, Store.get_singleton_ne _ _ hk]
    exact ⟨hidle, by rw [hidle]; exact fun e he => nomatch he⟩
  · refine ⟨?_, fun e he => ?_⟩
    · show s.podAt k = _
      rw [podAt, show s.pod = [(n, d)] from h, Store.get_singleton_ne _ _ hk]
    · rcases Store.mem_or_get_eq DirEntry.idle s.dir k with hmem | hidle
      · rw [isOf, hqueue rfl _ hmem e he]
        rfl
      · rw [dirAt, hidle] at he
        cases he

/-- A party's loss at the one line that has an entry in its directory. -/
theorem foldl_loseLine_single {pod : Bool} {n : Nat} {d x y : DirEntry} {p : BitVec 13} (hone : (if pod then s.pod else s.dir) = [(n, d)])
    (hqueue : pod = true → ∀ e ∈ s.dir, ∀ x ∈ e.2.queue, x.1.pod = false) (hstill : Still s pod n d)
    (hline : ∀ u, Still u pod n d → EntriesBut u (loseLine pod p u n) n ∧ (loseLine pod p u n).entAt pod n = x ∧
      (loseLine pod p u n).entAt (!pod) n = y) :
    EntriesBut s (s.entryLines.foldl (loseLine pod p) s) n ∧ (s.entryLines.foldl (loseLine pod p) s).entAt pod n = x ∧
      (s.entryLines.foldl (loseLine pod p) s).entAt (!pod) n = y :=
  foldl_loseLine (nodup_eraseDups _) (mem_entryLines hone) (fun _ hk => quiet_of_single hone hk hqueue) fun _ hu => hline _ (hstill.kept hu)

/-! ## An extent is revoked (13 R248) -/

theorem homeOnly_replyAll (s : State) (pod : Bool) (ps : List (BitVec 13)) (n : Nat) (m : Msg) : HomeOnly s (s.replyAll pod ps n m) := by
  refine .foldl _ (fun s p => ?_) ps s
  unfold reply
  split
  · exact .toPod ..
  · exact .send ..

theorem revoked_of_homeOnly (h : HomeOnly s t) : t.revoked = s.revoked := by rw [h.rest]

/-- Asking for a line revokes nothing more. -/
theorem revoked_askBack (pod : Bool) (p : BitVec 13) (s : State) (n : Nat) : (askBack pod p s n).revoked = s.revoked := by
  have hreply (u : State) (q : BitVec 13) (m : Msg) : (u.reply pod q n m).revoked = u.revoked := by
    unfold reply
    split
    · exact revoked_of_homeOnly (.toPod ..)
    · exact revoked_of_homeOnly (.send ..)
  have hasked (u : State) (d : DirEntry) (ps : List (BitVec 13)) (m : Msg) : ((u.setEnt pod n d).replyAll pod ps n m).revoked = u.revoked :=
    revoked_of_homeOnly ((homeOnly_setEnt ..).trans (homeOnly_replyAll ..))
  have hmerge (u : State) (h : Hdr) : (u.endMerge h .recall).revoked = u.revoked := by
    have hsum : (if h.pod then u.podMerge h.line h.pk else u.mergeHome h.line h.pk).revoked = u.revoked := by
      split
      · exact revoked_of_homeOnly (.podMerge ..)
      · exact revoked_of_homeOnly (.mergeHome ..)
    exact (revoked_of_homeOnly (homeOnly_setEnt ..)).trans hsum
  unfold askBack
  dsimp only
  split
  · rfl
  · split
    · split
      · exact hmerge ..
      · exact hasked ..
    · split
      · exact (hreply ..).trans (hasked ..)
      · exact hasked ..


theorem askBack_unrecorded {pod : Bool} {p : BitVec 13} {n : Nat} (h : s.recordsHost pod n p = false) : askBack pod p s n = s :=
  if_pos (by rw [h]; rfl)

/-- The lines of an extent in a directory with one entry. -/
theorem extentLines_single {n first count : Nat} {d : DirEntry} (h : s.dir = [(n, d)]) (hfirst : first ≤ n) (hlast : n < first + count) :
    s.extentLines false first count = [n] := by
  show (Store.keys s.dir).filter _ = [n]
  rw [h]
  show [n].filter _ = [n]
  rw [List.filter_singleton, decide_eq_true hfirst, decide_eq_true hlast]
  rfl

theorem mem_extentLines {pod : Bool} {n first count : Nat} (h : n ∈ s.extentLines pod first count) : first ≤ n ∧ n < first + count := by
  simpa using (List.mem_filter.1 h).2

/-! ## What a home sends (13 R236) -/

/-- Does a message to a party leave the device: the party is an agent. -/
def isAway (p : BitVec 13) : Bool := decide (0x1000 ≤ p.toNat ∧ p ≠ 0x1FFF#13)

/-- A message of this device's own directory goes into the network, or out of the device. -/
theorem send_here {h : Hdr} (hpod : h.pod = false) (m : Msg) : s.send h m = { s with
    msgs := s.msgs ++ [(h, m)].filter (fun x => !isAway x.1.dst)
    outbox := s.outbox ++ ([(h, m)].filter (fun x => isAway x.1.dst)).map (fun x => .coh x.1 x.2) } := by
  have haway : (if h.pod then h.dst ≠ s.mySlot else (isAgent h.dst && decide (h.dst ≠ 0x1FFF#13)) = true) ↔ isAway h.dst = true := by
    simp [hpod, isAgent, isAway]
  unfold send
  by_cases hleaves : isAway h.dst = true
  · rw [if_pos (haway.2 hleaves)]
    simp [hleaves]
  · rw [if_neg (mt haway.1 hleaves)]
    simp [hleaves]

theorem homeSends_nil (line req kind : Nat) (hm : t.msgs = s.msgs) (ho : t.outbox = s.outbox) : HomeSends s t line req kind [] :=
  ⟨[], rfl, by simp [hm], by simp [ho]⟩

/-- A home sends one message more. -/
theorem homeSends_send {line req kind : Nat} {out : List (BitVec 13 × Msg)} (h : HomeSends s t line req kind out) {g : Hdr} {m : Msg}
    (hg : unstamped (g, m) = unstamped ({ (s.fromHome g.dst line) with
      req := if isAnswer m then req else 0, kind := if m = .err false then kind else 1 }, m)) :
    HomeSends s (t.send g m) line req kind (out ++ [(g.dst, m)]) := by
  obtain ⟨xs, hxs, hmsgs, hout⟩ := h
  have hpod : g.pod = false := congrArg (fun x : Hdr × Msg => x.1.pod) hg
  refine ⟨xs ++ [(g, m)], ?_, ?_, ?_⟩
  · rw [List.map_append, hxs, List.map_append, List.map_singleton, hg]
    rfl
  · rw [send_here hpod, hmsgs, List.filter_append, List.append_assoc]
    rfl
  · rw [send_here hpod, hout, List.filter_append, List.map_append, List.append_assoc]
    rfl

/-- A recall alone. -/
theorem homeSends_recall (q : BitVec 13) (line : Nat) (hm : t.msgs = s.msgs) (ho : t.outbox = s.outbox) (hclock : t.sliceClock = s.sliceClock) :
    HomeSends s (t.send (t.fromHome q line) .recall) line 0 1 [(q, .recall)] := by
  refine homeSends_send (out := []) (homeSends_nil line 0 1 hm ho) (g := t.fromHome q line) (m := .recall) ?_
  unfold unstamped fromHome sliceClockAt
  rw [hclock]
  rfl

/-- The host that owns a line alone is recalled. -/
theorem askBack_owner {p : BitVec 13} {n : Nat} {d : DirEntry} (hd : s.dirAt n = d) (hstate : d.state = .X) (howner : d.owner = p)
    (hptrs : d.ptrs = []) (hcoarse : d.coarse = false) (hpod : s.podAt n = DirEntry.idle) :
    askBack false p s n = (s.setDir n { d with state := .BInv, acks := 1, serving := none, before := .X, fwdTo := some p, replied := [] }).send
      (s.fromHome p n) .recall := by
  have hent : s.entAt false n = d := hd
  have hnone : s.recipients false d none = [] := by simp [recipients, partiesOf, members, hptrs, hcoarse]
  have hrec : s.recordsHost false n p = true := by simp [recordsHost, hent, hstate, howner]
  have hidle : s.lineBusy n = false := by simp [lineBusy, hd, hstate, hpod, HomeState.busy, DirEntry.idle]
  unfold askBack
  dsimp only
  rw [hrec, hidle, hent, hstate, hnone, howner]
  simp [replyAll, reply, setEnt]
  rfl

/-! ## Data that prove wrong (11 R188) -/

/-- The messages that wait in the network or have left the device. -/
def underWay (s : State) : List OutMsg := s.outbox ++ s.msgs.map (fun e => .coh e.1 e.2)

theorem mem_underWay_send (s : State) (h : Hdr) (m : Msg) (x : OutMsg) : x ∈ (s.send h m).underWay ↔ x ∈ s.underWay ∨ x = .coh h m := by
  unfold send underWay
  split_ifs <;> simp [or_comm, or_left_comm]

/-- The pod home of another device's line is told of its poison. -/
theorem err_underWay_spoil {n : Nat} (h : s.Unasked n) (hpod : isPod n = true) :
    ∃ g, OutMsg.coh g (.err false) ∈ (s.spoil n).underWay ∧ g.line = n ∧ g.dst = s.podHome n ∧ g.pod = true := by
  have hhome (u : State) : u.podHome n = s.podHome n := by
    unfold podHome
    rw [if_pos hpod, if_pos hpod]
  let u : State := ((((s.emptied n).dropCopies n).freeDir n .I).setProxy n CacheLine.none).trigger n
  have henter : (s.emptied n).enterP n = u.send (u.fromPod (u.podHome n) n) (.err false) := if_pos hpod
  refine ⟨u.fromPod (u.podHome n) n, ?_, rfl, hhome u, rfl⟩
  rw [spoil_eq h, henter]
  exact foldl_related (R := fun a b => ∀ x, x ∈ a.underWay → x ∈ b.underWay) (fun _ _ hx => hx) (fun h1 h2 x hx => h2 x (h1 x hx)) _
    (fun _ _ _ hx => (mem_underWay_send ..).2 (.inl hx)) _ _ _ ((mem_underWay_send ..).2 (.inr rfl))

/-- A workgroup with granules keeps them when monitors are triggered. -/
theorem granule_trigger {g : Nat} (h : (s.wgAt g).granule ≠ []) (n : Nat) : ((s.trigger n).wgAt g).granule = (s.wgAt g).granule := by
  have hne (w : Wg) (hw : w.granule ≠ []) : w ≠ Wg.none := fun hn => hw (by rw [hn]; rfl)
  have hwg : (s.trigger n).wgAt g = { s.wgAt g with span := Store.mapVals Span.fresh (fun _ => Span.triggered n) (s.wgAt g).span } :=
    Store.get_mapVals_of_ne Wg.none (fun _ w => { w with span := Store.mapVals Span.fresh (fun _ => Span.triggered n) w.span }) s.wg _
      (hne _ h) (hne _ h)
  rw [hwg]

/-- A granule that is not empty keeps what it holds. -/
theorem gran_trigger {place i : Nat} (h : s.gran place i ≠ Granule.empty) (n : Nat) : (s.trigger n).gran place i = s.gran place i := by
  by_cases hplace : place % 2 = 0
  · have hgran (u : State) : u.gran place i = (u.wgAt (place / 128)).granuleAt (place / 2 % 64) i := if_pos hplace
    rw [hgran] at h ⊢
    have hlisted : (s.wgAt (place / 128)).granule ≠ [] := fun hnil => h (by rw [Wg.granuleAt, hnil]; rfl)
    rw [hgran, Wg.granuleAt, granule_trigger hlisted, Wg.granuleAt]
  · have hgran (u : State) : u.gran place i = Store.get Granule.empty (u.chuteAt (place / 2)).granule i := if_neg hplace
    rw [hgran, hgran]
    rfl

theorem gran_logError {place i : Nat} (h : s.gran place i ≠ Granule.empty) (pkn : Nat) (a : Dword) (rank : Option (BitVec 22)) (r c k : Nat)
    (o : BitVec 20) : (s.logError pkn a rank r c k o).gran place i = s.gran place i := by
  have hbytes (b n x : Nat) : (s.setBytes b n x).gran place i = s.gran place i := by
    rw [setBytes_rest]
    rfl
  have hupd (u : State) (n : Nat) (f : Paddock → Paddock) : (u.updPk n f).gran place i = u.gran place i := rfl
  unfold logError
  dsimp only
  split_ifs
  · exact hupd ..
  · rw [hupd, gran_trigger (by rwa [hbytes]), hbytes]
  · exact hupd ..

/-- The machine once an extent is revoked from a host. -/
def withRevoked (s : State) (host first count : Nat) : State := { s with revoked := s.revoked ++ [⟨host, first, count, false⟩] }

/-- The machine once the time for the answers of a revoked extent's host is over. -/
def withLapsed (s : State) (host first count : Nat) : State := { s with revoked := s.revoked.map (fun (r : Revoked) =>
  if r.host = host ∧ r.first = first ∧ r.count = count then { r with lapsed := true } else r) }

theorem revoked_foldl_askBack (pod : Bool) (p : BitVec 13) (ns : List Nat) (s : State) : (ns.foldl (askBack pod p) s).revoked = s.revoked :=
  foldl_related (R := fun a b => b.revoked = a.revoked) (fun _ => rfl) (fun h1 h2 => h2.trans h1) _ (fun _ _ => revoked_askBack ..) ns s

/-- The revoked host's new requests are refused. -/
theorem revokedFor_of_last {pod : Bool} {host first count n : Nat} (h : t.revoked = s.revoked ++ [⟨host, first, count, false⟩])
    (hhost : pod = true ∨ 0x1000 ≤ (BitVec.ofNat 13 host).toNat) (hfirst : first ≤ n) (hlast : n < first + count) :
    t.revokedFor pod (BitVec.ofNat 13 host) n false = true := by
  have hagent : (pod || isAgent (BitVec.ofNat 13 host)) = true := by
    rw [Bool.or_eq_true, isAgent]
    exact hhost.imp_right decide_eq_true
  rw [revokedFor, hagent, h]
  simp [hfirst, hlast]

theorem exec_revocationTimeout_none {host first count : Nat}
    (h : ∀ x ∈ s.revoked, ¬(x.host = host ∧ x.first = first ∧ x.count = count ∧ x.lapsed = false)) :
    exec (.revocationTimeout host first count) s = .next s := by
  have hnone : s.revoked.any (fun r => r.host == host && r.first == first && r.count == count && !r.lapsed) = false := by
    rw [List.any_eq_false]
    intro x hx hmatch
    exact h x hx (by simpa [and_assoc] using hmatch)
  show execRevocationTimeout host first count s = _
  unfold execRevocationTimeout
  dsimp only
  rw [hnone]
  rfl

/-- The line of a host that has not answered in time is poisoned. -/
theorem exec_revocationTimeout {host first count : Nat} (h : (⟨host, first, count, false⟩ : Revoked) ∈ s.revoked) :
    exec (.revocationTimeout host first count) s = .next (((s.withLapsed host first count).extentLines (hostPod host) first count).foldl
      (fun a n => if a.recordsHost (hostPod host) n (BitVec.ofNat 13 host) then a.poison n (BitVec.ofNat 13 host) 2 else a)
      (s.withLapsed host first count)) := by
  have hsome : s.revoked.any (fun r => r.host == host && r.first == first && r.count == count && !r.lapsed) = true :=
    List.any_eq_true.2 ⟨_, h, by simp⟩
  show execRevocationTimeout host first count s = _
  unfold execRevocationTimeout
  dsimp only
  rw [hsome]
  rfl

theorem mem_withLapsed {host first count : Nat} (h : (⟨host, first, count, false⟩ : Revoked) ∈ s.revoked) :
    (⟨host, first, count, true⟩ : Revoked) ∈ (s.withLapsed host first count).revoked :=
  List.mem_map.2 ⟨_, h, by simp⟩

/-- A line's poison with its log entry: the entry is in P, nothing more is revoked. -/
theorem poison_spoils {n : Nat} (h : s.Unasked n) (hhome : isPod n = false) (p : BitVec 13) (kind : Nat) :
    (s.poison n p kind).dirAt n = { DirEntry.idle with state := .P } ∧ (s.poison n p kind).revoked = s.revoked := by
  refine ⟨?_, revoked_of_homeOnly ((homeOnly_spoil h).trans (.logLine ..))⟩
  rw [poison, (SameLines.of_logged (onlyLogged_logLine ..)).dirAt, dirAt_spoil h, hhome]
  rfl

/-- A line whose data prove wrong: its poison and the entries of the error logs. -/
theorem onlyLogged_spoilData (s : State) (n kind : Nat) : OnlyLogged (s.spoil n) (s.spoilData n kind) :=
  foldl_related (R := OnlyLogged) (fun _ => rfl) .trans _ (fun _ _ => onlyLogged_logError ..) _ _

end State

/-! ## O46 -/

section Losses

variable {s : State} {line : Nat} {d x y : DirEntry}

theorem lost_of_homeOnly {t : State} (h : HomeOnly s t) : t.lost = s.lost := by rw [h.rest]

/-- What the loss of device n leaves of the fields that it changes beside the lines (log 31). -/
def DeviceGone (s t : State) (n : Nat) : Prop :=
  t.lost = s.lost ++ [.device n] ∧ (∀ k, k ∈ t.slotDown ↔ k ∈ s.slotDown ∨ k = n) ∧ (∀ w ∈ t.waitq, ∀ x ∈ w.nodes, State.nodePeer x ≠ some n) ∧
    t.msgs = s.msgs.filter (fun m => !(m.1.pod && m.1.src == BitVec.ofNat 13 n))

theorem deviceGone_of_homeOnly {t : State} {n : Nat} (h : HomeOnly (s.withoutDevice n) t) (hmsgs : t.msgs = (s.withoutDevice n).msgs) :
    DeviceGone s t n := by
  have hrest := h.rest
  refine ⟨?_, fun k => ?_, ?_, hmsgs⟩
  · rw [hrest]
    rfl
  · rw [show t.slotDown = (s.withoutDevice n).slotDown by rw [hrest]]
    exact State.mem_slotDown_withoutDevice ..
  · rw [show t.waitq = (s.withoutDevice n).waitq by rw [hrest]]
    exact State.nodePeer_withoutDevice s n

/-- The loss of a device with which no line has to do. -/
theorem declareLost_device_alone {n : Nat} (hnew : Party.device n ∉ s.lost)
    (hremote : ∀ r ∈ s.remote, (∀ x, r.packet.kind ≠ .waitq x) ∧ ∀ x, r.packet.kind ≠ .wake x) (hpod : s.pod = []) (hdir : s.dir = []) :
    s.declareLost (.device n) = s.withoutDevice n := by
  have hnone : s.entryLines = [] := by
    rw [State.entryLines, hpod, hdir]
    rfl
  rw [State.declareLost_device hnew hremote, hnone]
  rfl

/-- The loss of a device at the one line of the pod directory. -/
theorem declareLost_device_line {n : Nat} (hnew : Party.device n ∉ s.lost)
    (hremote : ∀ r ∈ s.remote, (∀ x, r.packet.kind ≠ .waitq x) ∧ ∀ x, r.packet.kind ≠ .wake x) (hone : s.pod = [(line, d)])
    (hqueue : ∀ e ∈ s.dir, ∀ x ∈ e.2.queue, x.1.pod = false) (hstill : State.Still s true line d)
    (hline : ∀ u, State.Still u true line d → State.EntriesBut u (State.loseLine true (BitVec.ofNat 13 n) u line) line ∧
      (State.loseLine true (BitVec.ofNat 13 n) u line).entAt true line = x ∧ (State.loseLine true (BitVec.ofNat 13 n) u line).entAt false line = y) :
    DeviceGone s (s.declareLost (.device n)) n ∧ (s.declareLost (.device n)).podAt line = x ∧ (s.declareLost (.device n)).dirAt line = y ∧
      ∀ k, k ≠ line → (s.declareLost (.device n)).dirAt k = s.dirAt k := by
  have hs : State.Still (s.withoutDevice n) true line d := { hstill with msgs := fun m hm => hstill.msgs m (List.mem_filter.1 hm).1 }
  obtain ⟨hbut, hx, hy⟩ := State.foldl_loseLine_single (s := s.withoutDevice n) (pod := true) hone (fun _ => hqueue) hs hline
  rw [State.declareLost_device hnew hremote]
  exact ⟨deviceGone_of_homeOnly hbut.rest hbut.msgs, hx, hy, fun k hk => hbut.ent false k hk⟩

/-- The loss of a core or an agent at the one line of this device's directory. -/
theorem declareLost_party_line {p : Party} {q : BitVec 13} (hnew : p ∉ s.lost) (hptr : partyPtr p = some q) (hone : s.dir = [(line, d)])
    (hstill : State.Still s false line d)
    (hline : ∀ u, State.Still u false line d → State.EntriesBut u (State.loseLine false q u line) line ∧
      (State.loseLine false q u line).entAt false line = x ∧ (State.loseLine false q u line).entAt true line = y) :
    (s.declareLost p).lost = s.lost ++ [p] ∧ (s.declareLost p).dirAt line = x ∧
      (s.declareLost p).msgs = s.msgs.filter (fun m => m.1.pod || (m.1.src ≠ q && m.1.dst ≠ q)) ∧
      ∀ k, k ≠ line → (s.declareLost p).dirAt k = s.dirAt k := by
  have hs : State.Still (s.withoutParty p q) false line d := { hstill with msgs := fun m hm => hstill.msgs m (List.mem_filter.1 hm).1 }
  obtain ⟨hbut, hx, -⟩ := State.foldl_loseLine_single (s := s.withoutParty p q) (pod := false) hone (fun h => nomatch h) hs hline
  rw [State.declareLost_party hnew hptr]
  exact ⟨lost_of_homeOnly hbut.rest, hx, hbut.msgs, fun k hk => hbut.ent false k hk⟩

end Losses

section Revocations

variable {s : State} {host first count line : Nat} {d : DirEntry}

theorem exec_extentRevoke : exec (.extentRevoke host first count) s = .next
    (((s.withRevoked host first count).extentLines (State.hostPod host) first count).foldl (State.askBack (State.hostPod host) (BitVec.ofNat 13 host))
      (s.withRevoked host first count)) := rfl

/-- Where the host holds no line of the extent, its revocation asks for none. -/
theorem exec_extentRevoke_none
    (h : ∀ n, first ≤ n → n < first + count → s.recordsHost (State.hostPod host) n (BitVec.ofNat 13 host) = false) :
    exec (.extentRevoke host first count) s = .next (s.withRevoked host first count) := by
  rw [exec_extentRevoke, foldl_eq_self _ (s.withRevoked host first count) _ fun n hn =>
    State.askBack_unrecorded (h n (State.mem_extentLines hn).1 (State.mem_extentLines hn).2)]

/-- The host's one line of the extent is recalled. -/
theorem exec_extentRevoke_owner (hdir : s.dir = [(line, d)]) (hpod : State.hostPod host = false) (hfirst : first ≤ line)
    (hlast : line < first + count) (hstate : d.state = .X) (howner : d.owner = BitVec.ofNat 13 host) (hptrs : d.ptrs = [])
    (hcoarse : d.coarse = false) (hidle : s.podAt line = DirEntry.idle) :
    ∃ t, exec (.extentRevoke host first count) s = .next t ∧
      t.dirAt line = { d with state := .BInv, acks := 1, serving := none, before := .X, fwdTo := some (BitVec.ofNat 13 host), replied := [] } ∧
      HomeSends s t line 0 1 [(BitVec.ofNat 13 host, .recall)] := by
  have hentry : (s.withRevoked host first count).dirAt line = d := by
    show Store.get DirEntry.idle s.dir line = d
    rw [hdir]
    exact if_pos rfl
  refine ⟨_, exec_extentRevoke, ?_⟩
  rw [hpod, State.extentLines_single (show (s.withRevoked host first count).dir = _ from hdir) hfirst hlast, List.foldl_cons, List.foldl_nil,
    State.askBack_owner hentry hstate howner hptrs hcoarse hidle]
  exact ⟨by rw [(State.SameLines.send ..).dirAt, State.dirAt_setDir_self], State.homeSends_recall _ _ rfl rfl rfl⟩

/-- Where the host holds no line of the extent any more, nothing is poisoned when its time is over. -/
theorem exec_revocationTimeout_unrecorded (hmem : (⟨host, first, count, false⟩ : Revoked) ∈ s.revoked)
    (h : ∀ n, first ≤ n → n < first + count → s.recordsHost (State.hostPod host) n (BitVec.ofNat 13 host) = false) :
    exec (.revocationTimeout host first count) s = .next (s.withLapsed host first count) := by
  rw [State.exec_revocationTimeout hmem, foldl_eq_self _ (s.withLapsed host first count) _ fun n hn =>
    if_neg (Bool.eq_false_iff.1 (h n (State.mem_extentLines hn).1 (State.mem_extentLines hn).2))]

/-- The host's one line of the extent is poisoned when its time is over. -/
theorem exec_revocationTimeout_line (hmem : (⟨host, first, count, false⟩ : Revoked) ∈ s.revoked) (hdir : s.dir = [(line, d)])
    (hpod : State.hostPod host = false) (hhome : isPod line = false) (hidle : s.podAt line = DirEntry.idle) (hfirst : first ≤ line)
    (hlast : line < first + count) (hqueue : d.queue = []) (hserving : d.serving = none)
    (hrec : s.recordsHost (State.hostPod host) line (BitVec.ofNat 13 host) = true) :
    ∃ t, exec (.revocationTimeout host first count) s = .next t ∧ t.dirAt line = { DirEntry.idle with state := .P } ∧
      (⟨host, first, count, true⟩ : Revoked) ∈ t.revoked := by
  have hentry : (s.withLapsed host first count).dirAt line = d := by
    show Store.get DirEntry.idle s.dir line = d
    rw [hdir]
    exact if_pos rfl
  have hunasked : (s.withLapsed host first count).Unasked line := by
    refine ⟨by rw [hentry, hqueue], by rw [hentry, hserving], ?_⟩
    show (s.podAt line).serving = none
    rw [hidle]
    rfl
  have hrecords : (s.withLapsed host first count).recordsHost false line (BitVec.ofNat 13 host) = true := by rwa [hpod] at hrec
  refine ⟨_, State.exec_revocationTimeout hmem, ?_⟩
  rw [hpod, State.extentLines_single (show (s.withLapsed host first count).dir = _ from hdir) hfirst hlast, List.foldl_cons, List.foldl_nil,
    if_pos hrecords]
  obtain ⟨hspoilt, hkept⟩ := State.poison_spoils hunasked hhome (BitVec.ofNat 13 host) 2
  exact ⟨hspoilt, by rw [hkept]; exact State.mem_withLapsed hmem⟩

end Revocations

/-- Settles O46: a loss looks at every line with an entry, of which one has to do with the party; a revocation asks for each line of the extent; a
timeout and data that prove wrong poison a line. -/
theorem lostPartiesAndRevocations : Obligations.LostPartiesAndRevocations := by
  unfold Obligations.LostPartiesAndRevocations
  refine ⟨fun s p line d => ?losses, fun s host first count line d => ?revocations, fun s n k => ?lineFails, fun s place i => ?granFails⟩
  case losses =>
    intro both still idle
    have hboth (f : Res → Prop) (t : State) (ht : s.declareLost p = t) : both f ↔ f (.next t) := by
      subst ht
      exact and_self_iff
    clear_value both
    refine ⟨fun hp => (hboth (fun r => r = .next s) _ (State.declareLost_again hp)).2 rfl, ?device, ?party⟩
    case device =>
      rintro n hnew rfl hremote q gone
      refine ⟨fun hpod hdir => ?_, ?_⟩
      · rw [hboth _ _ (declareLost_device_alone hnew hremote hpod hdir)]
        exact ⟨_, rfl, deviceGone_of_homeOnly (.refl _) rfl, rfl⟩
      · intro hone hstill hdir _ hqueue to'
        obtain ⟨hqueue', hheld, hserving, hfwd, hcoarse, hhome, hmsgs⟩ := hstill
        have hentry : s.podAt line = d := by rw [State.podAt, hone]; exact if_pos rfl
        have hs : State.Still s true line d := ⟨hentry, hdir, hqueue', hheld, hserving, hfwd, hcoarse, hhome, hmsgs⟩
        have hto {x y : DirEntry} (h : ∀ u, State.Still u true line d → State.EntriesBut u (State.loseLine true q u line) line ∧
            (State.loseLine true q u line).entAt true line = x ∧ (State.loseLine true q u line).entAt false line = y) : to' x y :=
          (hboth _ _ rfl).2 ⟨_, rfl, declareLost_device_line hnew hremote hone hqueue hs h⟩
        exact ⟨fun hstate howner => hto fun u hu => (hu.loseLine_owner hstate howner).imp_right And.symm,
          fun hstate hmem => hto fun u hu => hu.loseLine_sharer hstate hmem, fun hstate hmem => hto fun u hu => hu.loseLine_holder hstate hmem⟩
    case party =>
      intro q hnew hptr hone hstill hidle to'
      obtain ⟨hqueue', hheld, hserving, hfwd, hcoarse, hhome, hmsgs⟩ := hstill
      have hentry : s.dirAt line = d := by rw [State.dirAt, hone]; exact if_pos rfl
      have hs : State.Still s false line d := ⟨hentry, hidle, hqueue', hheld, hserving, hfwd, hcoarse, hhome, hmsgs⟩
      have hto {x : DirEntry} (y : DirEntry) (h : ∀ u, State.Still u false line d → State.EntriesBut u (State.loseLine false q u line) line ∧
          (State.loseLine false q u line).entAt false line = x ∧ (State.loseLine false q u line).entAt true line = y) : to' x :=
        (hboth _ _ rfl).2 ⟨_, rfl, declareLost_party_line hnew hptr hone hs h⟩
      exact ⟨fun hstate howner => hto idle fun u hu => hu.loseLine_owner hstate howner,
        fun hstate hmem => hto idle fun u hu => hu.loseLine_sharer hstate hmem, fun hstate hmem => hto idle fun u hu => hu.loseLine_holder hstate hmem⟩
  case revocations =>
    intro p pod r late none'
    have hrevoked := State.revoked_foldl_askBack pod p ((s.withRevoked host first count).extentLines pod first count) (s.withRevoked host first count)
    exact ⟨⟨_, exec_extentRevoke, hrevoked, fun hhost n hfirst hlast => State.revokedFor_of_last hrevoked hhost hfirst hlast⟩,
      fun hnone => ⟨_, exec_extentRevoke_none hnone, rfl⟩, exec_extentRevoke_owner (line := line) (d := d), State.exec_revocationTimeout_none,
      fun hmem => ⟨fun hnone => ⟨_, exec_revocationTimeout_unrecorded hmem hnone, rfl, State.mem_withLapsed hmem⟩,
        exec_revocationTimeout_line (line := line) (d := d) hmem⟩⟩
  case lineFails =>
    intro d hpod hqueue hserving
    have h : s.Unasked n := ⟨hqueue, hserving, by rw [hpod]; rfl⟩
    have hlog := State.onlyLogged_spoilData s n k
    have hsame := State.SameLines.of_logged hlog
    refine ⟨_, rfl, fun hhome => ?_, fun hfar => ⟨?_, ?_, ?_⟩, fun core hcore hn => ?_⟩
    · rw [hsame.dirAt, State.dirAt_spoil h, hhome]
      rfl
    · rw [hsame.dirAt, State.dirAt_spoil h, if_pos hfar]
    · rw [hsame.proxyAt, State.proxyAt_spoil h hfar]
    · rw [show (s.spoilData n k).outbox = (s.spoil n).outbox by rw [hlog], show (s.spoilData n k).msgs = (s.spoil n).msgs by rw [hlog]]
      exact State.err_underWay_spoil h hfar
    · rw [hsame.cacheAt, State.cacheAt_spoil h hn]
  case granFails =>
    have hpoison : { s.gran place i with poison := true } ≠ Granule.empty := fun h => nomatch congrArg Granule.poison h
    refine ⟨_, rfl, ?_⟩
    rw [State.granFails, State.gran_logError (by rwa [gran_setGran_self]), gran_setGran_self]

end Sys2Proof.Machine
end

section
/-!
PROOFS. The clauses of O45 on the answers to numbered requests, for states in the canonical form: there they hold.
-/

namespace Sys2Proof.Machine

/-- A span whose waiting instructions have their sent requests changed by f. -/
def Span.withSent (f : List Sent → List Sent) (sp : Span) : Span :=
  { sp with memWait := sp.memWait.map (fun w => { w with sent := f w.sent }) }

/-- The spans of a workgroup so changed. -/
def Wg.withSent (f : List Sent → List Sent) (w : Wg) : Wg :=
  { w with span := Store.mapVals Span.fresh (fun _ => Span.withSent f) w.span }

/-- In the canonical form every span is read so changed. -/
theorem State.spanAt_mapSent (s : State) (hs : Canonical s) (f : List Sent → List Sent) (g k : Nat) :
    (s.mapSent f).spanAt g k = (s.spanAt g k).withSent f := by
  have hg : (s.mapSent f).wgAt g = (s.wgAt g).withSent f :=
    Store.get_mapVals_of_wf Wg.none (fun _ => Wg.withSent f) s.wg hs.wg g rfl
  rw [State.spanAt, hg]
  exact Store.get_mapVals_of_wf Span.fresh (fun _ => Span.withSent f) (s.wgAt g).span (hs.span g) k rfl

/-- Clocks that cores hear are all that they change. -/
theorem State.foldl_hearClock_rest (s : State) (cores : List Nat) (x : BitVec 48) :
    cores.foldl (fun a c => a.hearClock c x) s = { s with lamport := (cores.foldl (fun a c => a.hearClock c x) s).lamport } :=
  State.foldl_related (R := fun s t => t = { s with lamport := t.lamport }) (fun _ => rfl)
    (fun {s t u} h1 h2 => by conv_lhs => rw [h2, h1]) _ (fun _ _ => hearClock_rest ..) cores s

section
variable {s : State} {h : Hdr} {m : Msg} {f : Sent → Option Sent}

/-- The message m has reached whoever sent the requests that f changes: it has left the network, and every span holds its requests so changed. -/
def ReachesSenders (r : Res) (s : State) (h : Hdr) (m : Msg) (f : Sent → Option Sent) : Prop :=
  ∃ t, r = .next t ∧ t = { s with wg := t.wg, lamport := t.lamport, msgs := s.msgs.erase (h, m) } ∧
    ∀ g k, t.spanAt g k = (s.spanAt g k).withSent (fun l => l.filterMap f)

/-- A state that differs from that of the changed requests in the cores' clocks alone. -/
theorem ReachesSenders.of_mapSent {t : State} {l : List Sent → List Sent} (hs : Canonical s) (hl : l = fun x => x.filterMap f)
    (ht : t = { (s.take h m).mapSent l with lamport := t.lamport }) : ReachesSenders (.next t) s h m f := by
  refine ⟨t, rfl, ?_, fun g k => ?_⟩
  · conv_lhs => rw [ht]
    rw [show t.wg = ((s.take h m).mapSent l).wg by rw [ht]]
    rfl
  · have hspan := State.spanAt_mapSent (s.take h m) ⟨hs.mem, hs.cache, hs.wg, hs.span⟩ l g k
    rw [State.spanAt, State.wgAt, show t.wg = ((s.take h m).mapSent l).wg by rw [ht]]
    rw [hl] at hspan ⊢
    exact hspan

end

section
variable {s : State} {h : Hdr} {f : State → State}

/-- A core's response raises its clock and acts. -/
theorem State.arriveRsp_core (hpod : h.pod = false) (hcore : h.dst.toNat < 4096) (m : Msg) : s.arriveRsp h m f = f (s.hear h.dst.toNat h) := by
  have hagent : State.isAgent h.dst = false := decide_eq_false (by omega)
  unfold State.arriveRsp
  rw [hpod, hagent]
  rfl

/-- With no asynchronous operation, an answer reaches instructions alone. -/
theorem State.answerReq_rest (hasync : s.async = []) (x : Answer) :
    s.answerReq h x = { s.mapSent (fun l => l.map (fun y => if y.line == h.line && y.req == h.req then { y with resp := some x } else y)) with
      lamport := (s.answerReq h x).lamport } := by
  have hunits : s.unitsFor h = [] := by rw [State.unitsFor, hasync]; rfl
  unfold State.answerReq
  dsimp only
  rw [hunits]
  exact State.foldl_hearClock_rest ..

theorem State.retryReq_rest (hasync : s.async = []) :
    s.retryReq h = { s.mapSent (fun l => l.filter (fun y => !(y.line == h.line && y.req == h.req))) with lamport := (s.retryReq h).lamport } := by
  have hunits : s.unitsFor h = [] := by rw [State.unitsFor, hasync]; rfl
  unfold State.retryReq
  dsimp only
  rw [hunits]
  exact State.foldl_hearClock_rest ..

end

/-- The clauses of O45 on a core's answers to a numbered request hold of every state in the canonical form. -/
theorem answers_heard_of_canonical (s : State) (hs : Canonical s) (h : Hdr) (v : LineData) (excl : Bool) (n : Nat) (hpod : h.pod = false)
    (hcore : h.dst.toNat < 4096) (hreq : h.req ≠ 0) (hasync : s.async = []) :
    let mine := fun (y : Sent) => y.line = h.line ∧ y.req = h.req
    let told := fun (i : Instr) (m : Msg) (x : Answer) => ReachesSenders (exec i s) s h m (fun y => some (if mine y then { y with resp := some x } else y))
    told (.data h v excl) (.data v excl) (.data v) ∧ told (.putack h) .putAck .ack ∧
      ((∀ c ∈ s.combined, c.1 ≠ (h, .redAck n)) → told (.redack h n) (.redAck n) .ack) ∧
      told (.err h false) (.err false) (.err h.kind) ∧ ReachesSenders (exec (.err h true) s) s h (.err true) (fun y => if mine y then none else some y) := by
  intro mine told
  have hear (m : Msg) : (s.take h m).hear h.dst.toNat h = { s.take h m with lamport := ((s.take h m).hear h.dst.toNat h).lamport } := hearClock_rest ..
  have htold (m : Msg) (x : Answer) : ReachesSenders (.next (((s.take h m).hear h.dst.toNat h).answerReq h x)) s h m
      (fun y => some (if mine y then { y with resp := some x } else y)) := by
    refine .of_mapSent hs (l := fun l => l.map (fun y => if y.line == h.line && y.req == h.req then { y with resp := some x } else y)) ?_ ?_
    · funext l
      rw [List.filterMap_eq_map']
      simp [mine]
    · rw [State.answerReq_rest (by rw [hear]; exact hasync)]
      rw [hear]
      rfl
  have hhome : h.dst ≠ 0x1FFF#13 := fun h => absurd hcore (by rw [h]; decide)
  refine ⟨?_, ?_, fun halone => ?_, ?_, ?_⟩
  · show ReachesSenders (execData ..) ..
    rw [execData, State.arriveRsp_core hpod hcore, if_pos hreq]
    exact htold ..
  · show ReachesSenders (execPutack ..) ..
    rw [execPutack, State.arriveRsp_core hpod hcore, if_pos hreq]
    exact htold ..
  · show ReachesSenders (execRedack ..) ..
    have hnone : (s.take h (.redAck n)).combined.find? (fun c => c.1 == (h, .redAck n)) = none :=
      List.find?_eq_none.2 fun c hc hmatch => halone c hc (eq_of_beq hmatch)
    unfold execRedack
    dsimp only
    rw [hnone]
    dsimp only
    rw [State.arriveRsp_core hpod hcore, if_pos hreq]
    exact htold ..
  · show ReachesSenders (execErr ..) ..
    unfold execErr
    dsimp only
    rw [if_neg (by simp [hhome, hpod]), State.arriveRsp_core hpod hcore, if_pos hreq, if_neg Bool.false_ne_true]
    exact htold ..
  · show ReachesSenders (execErr ..) ..
    unfold execErr
    dsimp only
    rw [if_neg (by simp [hhome, hpod]), State.arriveRsp_core hpod hcore, if_pos hreq]
    refine .of_mapSent hs (l := fun l => l.filter (fun y => !(y.line == h.line && y.req == h.req))) ?_ ?_
    · funext l
      rw [← List.filterMap_eq_filter]
      refine List.filterMap_congr fun y _ => ?_
      have hkept : (!(y.line == h.line && y.req == h.req)) = !decide (mine y) := by rw [Bool.eq_iff_iff]; simp [mine]
      rw [Option.guard, hkept]
      by_cases hy : mine y <;> simp [hy]
    · rw [if_pos rfl, State.retryReq_rest (by rw [hear]; exact hasync), hear]
      rfl

end Sys2Proof.Machine
end

section
/-!
PROOFS. The clauses of O43 and O44 on a line's data that a home writes, for states in the canonical form: an atomic, a reduction or a whole-line
write at a line that nobody has, and the owner's put notice with data. There they hold.
-/

namespace Sys2Proof.Machine

/-- Since s the home of a line of this device has left it the entry d and the data x, and has sent the messages out under the number of a request;
the keys of the homes' sc events are key, and the line's monitors are triggered if it counts as a write. -/
structure AtHome (s t : State) (line req : Nat) (key : Store (BitVec 61)) (write : Bool) (x : LineData) (d : DirEntry)
    (out : List (BitVec 13 × Msg)) : Prop where
  rest : t = { s.traced t with dir := t.dir, msgs := t.msgs, outbox := t.outbox, driftOrder := t.driftOrder, combined := t.combined
                               homeKey := key, mem := t.mem, wg := t.wg }
  data : t.memLine line = x
  bytes : ∀ a, a / 128 ≠ line → t.byte a = s.byte a
  entry : t.dirAt line = d
  entries : ∀ n, n ≠ line → t.dirAt n = s.dirAt n
  sends : HomeSends s t line req 1 out
  wg : t.wg = if write then (s.trigger line).wg else s.wg

namespace AtHome

variable {s t u : State} {line req : Nat} {key : Store (BitVec 61)} {write : Bool} {x : LineData} {d : DirEntry} {out : List (BitVec 13 × Msg)}

theorem refl (s : State) (line req : Nat) : AtHome s s line req s.homeKey false (s.memLine line) (s.dirAt line) [] :=
  ⟨rfl, rfl, fun _ _ => rfl, rfl, fun _ _ => rfl, State.homeSends_nil _ _ _ rfl rfl, rfl⟩

/-- A step that changes nothing of what AtHome says but the keys: the trace and the routers' record of combined messages may differ. -/
theorem aside {key' : Store (BitVec 61)} (h : AtHome s t line req key write x d out)
    (hu : u = { t.traced u with combined := u.combined, homeKey := key' }) : AtHome s u line req key' write x d out := by
  obtain ⟨hrest, hdata, hbytes, hentry, hentries, ⟨xs, hxs, hmsgs, hout⟩, hwg⟩ := h
  have hmem : u.mem = t.mem := by rw [hu]; rfl
  have hdir : u.dir = t.dir := by rw [hu]; rfl
  have hsent : u.msgs = t.msgs ∧ u.outbox = t.outbox := by rw [hu]; exact ⟨rfl, rfl⟩
  refine ⟨?_, (State.memLine_congr hmem line).trans hdata, fun a ha => ?_, ?_, fun n hn => ?_, ⟨xs, hxs, hsent.1.trans hmsgs, hsent.2.trans hout⟩, ?_⟩
  · rw [hu, hrest]; rfl
  · rw [← hbytes a ha, State.byte, hmem]; rfl
  · rw [← hentry, State.dirAt, hdir]; rfl
  · rw [← hentries n hn, State.dirAt, hdir]; rfl
  · rw [← hwg, hu]; rfl

theorem traced (h : AtHome s t line req key write x d out) (hu : u = t.traced u) : AtHome s u line req key write x d out :=
  h.aside (by conv_lhs => rw [hu]
              rw [show u.combined = t.combined by rw [hu]; rfl, show key = t.homeKey by rw [h.rest]]; rfl)

theorem setDir (h : AtHome s t line req key write x d out) (d' : DirEntry) : AtHome s (t.setDir line d') line req key write x d' out := by
  refine ⟨?_, (State.memLine_setDir ..).trans h.data, h.bytes, State.dirAt_setDir_self .., fun n hn =>
    (State.dirAt_setDir_ne _ _ hn).trans (h.entries n hn), h.sends, h.wg⟩
  unfold State.setDir
  rw [h.rest]
  rfl

theorem setMemLine (h : AtHome s t line req key write x d out) (v : LineData) : AtHome s (t.setMemLine line v) line req key write v d out := by
  obtain ⟨hrest, hdata, hbytes, hentry, hentries, ⟨xs, hxs, hmsgs, hout⟩, hwg⟩ := h
  have hdata' := State.memLine_setMemLine t line v
  have hbytes' (a : Nat) (ha : a / 128 ≠ line) := State.byte_setMemLine_ne t line a v ha
  rw [State.setMemLine_rest] at hdata' hbytes' ⊢
  refine ⟨?_, hdata', fun a ha => (hbytes' a ha).trans (hbytes a ha), hentry, hentries, ⟨xs, hxs, hmsgs, hout⟩, hwg⟩
  rw [hrest]
  rfl

theorem trigger (h : AtHome s t line req key false x d out) : AtHome s (t.trigger line) line req key true x d out := by
  refine ⟨?_, (State.memLine_congr (s := t) (t := t.trigger line) rfl line).trans h.data, h.bytes, h.entry, h.entries, h.sends, ?_⟩
  · unfold State.trigger
    rw [h.rest]
    rfl
  · show (t.trigger line).wg = (s.trigger line).wg
    have hwg : t.wg = s.wg := h.wg
    unfold State.trigger
    rw [hwg]

/-- The home's answer to a request of a party of this device. -/
theorem answer {g : Hdr} {m : Msg} (h : AtHome s t line req key write x d out) (hpod : g.pod = false) (hline : g.line = line) (hreq : g.req = req)
    (hm : isAnswer m = true) (herr : m ≠ .err false) : AtHome s (t.answer g m) line req key write x d (out ++ [(g.src, m)]) := by
  have hsame := State.SameLines.send t (t.backHdr g) m
  have hsent := State.onlySent_send t (t.backHdr g) m
  have hback : t.backHdr g = { t.fromHome g.src line with req := req } := by
    rw [State.backHdr, hpod, hline, hreq]
    rfl
  have hclock : t.sliceClock = s.sliceClock := by rw [h.rest]; rfl
  have hsends : HomeSends s (t.answer g m) line req 1 (out ++ [(g.src, m)]) := by
    rw [State.answer, hback]
    refine State.homeSends_send (g := { t.fromHome g.src line with req := req }) h.sends ?_
    rw [if_pos hm, if_neg herr]
    unfold unstamped State.fromHome State.sliceClockAt
    rw [hclock]
  have hmem : (t.answer g m).mem = t.mem := by rw [State.answer, hsent]
  refine ⟨?_, (State.memLine_congr hmem line).trans h.data, fun a ha => ?_, (hsame.dirAt line).trans h.entry,
    fun n hn => (hsame.dirAt n).trans (h.entries n hn), hsends, ?_⟩
  · rw [State.answer, hsent, h.rest]
    rfl
  · rw [← h.bytes a ha, State.byte, hmem]
    rfl
  · rw [← h.wg, State.answer, hsent]

/-- What O43 and O44 say of a home's write, in the canonical form. -/
theorem homeWrites {s : State} {h : Hdr} {m : Msg} (hs : Canonical s)
    (hat : AtHome ((s.take h m).hearSlice h.line h.clock) t h.line h.req key write x d out) :
    HomeWrites (.next t) s h m key write x d out := by
  have hbase := State.hearSlice_rest (s.take h m) h.line h.clock
  have hwg : ((s.take h m).hearSlice h.line h.clock).wg = s.wg := by rw [hbase]; rfl
  refine ⟨t, rfl, hat.rest, hat.data, fun a ha => ?_, hat.entry, fun n hn => ?_, hat.sends, fun g n => ?_⟩
  · rw [hat.bytes a ha, hbase]; rfl
  · rw [hat.entries n hn, hbase]; rfl
  · have hspan : t.spanAt g n = if write then (s.trigger h.line).spanAt g n else s.spanAt g n := by
      rw [State.spanAt, State.wgAt, hat.wg]
      split
      · unfold State.trigger
        rw [hwg]
        rfl
      · rw [hwg]
        rfl
    rw [hspan]
    cases write with
    | true =>
      rw [if_pos rfl, spanAt_trigger hs]
      simp [triggered]
    | false =>
      simp

end AtHome

/-! ## An atomic, a reduction or a whole-line write at a line that nobody has (13 R239) -/

section Performed
variable {s t : State} {h : Hdr} {key : Store (BitVec 61)} {d : DirEntry} {x : LineData}

/-- The greatest of the sc events at each home's line, after the event of a request (12 R223). -/
def keysAfter (s : State) (h : Hdr) : Store (BitVec 61) := if h.sc then Store.set 0 s.homeKey h.line (h.clock ++ h.src) else s.homeKey

/-- Is a request an sc event that comes behind a greater one of its line. -/
def StaleAt (s : State) (h : Hdr) : Prop :=
  let key := Store.get 0 s.homeKey h.line
  key ≠ 0 ∧ (precedes h.clock (key.extractLsb' 13 48) ∨ (h.clock = key.extractLsb' 13 48 ∧ h.src.toNat < (key.extractLsb' 0 13).toNat))

/-- Has a line's slice heard a clock: its own stands there or further. -/
def State.HasHeard (s : State) (line : Nat) (c : BitVec 48) : Prop := precedes (s.sliceClockAt line) c = false

theorem State.HasHeard.hearSlice {line : Nat} {c : BitVec 48} (hheard : s.HasHeard line c) : s.hearSlice line c = s := by
  rw [State.hearSlice, hheard]
  exact if_neg Bool.false_ne_true

theorem State.hasHeard_hearSlice (s : State) (line : Nat) (c : BitVec 48) : (s.hearSlice line c).HasHeard line c := by
  unfold HasHeard State.hearSlice
  split
  · have hself : precedes c c = false := by simp [precedes]
    rw [sliceClockAt, Store.get_set_self, hself]
  · next hc => exact Bool.eq_false_iff.2 hc

/-- An sc event that is not stale is its line's greatest. -/
theorem AtHome.scHome {line req : Nat} {out : List (BitVec 13 × Msg)} (hat : AtHome s t line req s.homeKey false x d out)
    (hclock : t.HasHeard h.line h.clock) (hkey : h.sc = false ∨ ¬StaleAt s h) :
    ∃ u, t.scHome h = some u ∧ AtHome s u line req (keysAfter s h) false x d out := by
  have hkeys : t.homeKey = s.homeKey := by rw [hat.rest]
  unfold State.scHome keysAfter
  by_cases hsc : h.sc = true
  · have hfresh := hkey.resolve_left (by simp [hsc])
    unfold StaleAt at hfresh
    rw [hsc, hclock.hearSlice, hkeys]
    dsimp only at hfresh ⊢
    rw [if_neg hfresh]
    exact ⟨_, rfl, (hat.aside rfl).traced (State.emitHome_traced ..)⟩
  · rw [Bool.not_eq_true] at hsc
    rw [hsc]
    exact ⟨t, rfl, hat⟩

theorem State.served_traced (s : State) (h : Hdr) (m : Msg) (st : HomeState) : s.served h m st = s.traced (s.served h m st) := by
  unfold State.served
  split
  · rfl
  · exact emitHome_traced ..

theorem State.faddMark_traced (s : State) (h : Hdr) (rs : List AmoReq) : s.faddMark h rs = s.traced (s.faddMark h rs) := by
  unfold State.faddMark
  split
  · exact emitHome_traced ..
  · rfl

/-- The requests that write at the home: what each writes over the line, and the home's answer. -/
inductive Writing : Msg → (LineData → LineData) → (LineData → Msg) → Prop
  | amo (r : List AmoReq) : Writing (.amo r) (fun old => (State.amoLine r old).1) (fun old => .data old false)
  | redOp (r : List AmoReq) (n : Nat) : Writing (.redOp r n) (fun old => (State.amoLine r old).1) (fun _ => .redAck n)
  | wrLine (v : LineData) : Writing (.wrLine v) (fun _ => v) (fun _ => .putAck)

/-- Such a request is performed on the line as the home has it. -/
theorem AtHome.performHome {m : Msg} {new : LineData → LineData} {ans : LineData → Msg} (hm : Writing m new ans)
    (hat : AtHome s t h.line h.req s.homeKey false x d []) (hclock : t.HasHeard h.line h.clock) (hpod : h.pod = false)
    (hkey : h.sc = false ∨ ¬StaleAt s h) :
    AtHome s (t.performHome h m) h.line h.req (keysAfter s h) true (new x) d [(h.src, ans x)] := by
  obtain ⟨u, hu, hat'⟩ := hat.scHome hclock hkey
  have hwrite (y : LineData) (a : Msg) (ha : isAnswer a = true) (herr : a ≠ .err false) :
      AtHome s (((u.setMemLine h.line y).trigger h.line).answer h a) h.line h.req (keysAfter s h) true y d [(h.src, a)] :=
    (hat'.setMemLine y).trigger.answer hpod rfl rfl ha herr
  unfold State.performHome
  rw [hu]
  dsimp only
  rw [hat'.data]
  cases hm with
  | amo r => exact (hwrite _ _ rfl (by simp)).traced (State.faddMark_traced ..)
  | redOp r n =>
    have hacked := hwrite (State.amoLine r x).1 (.redAck n) rfl (by simp)
    exact hacked.aside (by conv_rhs => rw [show keysAfter s h = _ from (congrArg State.homeKey hacked.rest).symm]
                           rfl)
  | wrLine v => exact hwrite _ _ rfl (by simp)

/-- A request reaches a line of this device, at which nothing refuses it and no peer holds it, with neither notices nor requests before it. -/
structure State.Ready (s : State) (h : Hdr) : Prop where
  pod : h.pod = false
  home : isPod h.line = false
  peer : s.podAt h.line = DirEntry.idle
  unrevoked : s.revokedFor false h.src h.line false = false
  reached : s.unreachable (128 * h.line) = false
  carriage : laneIn s.carriage 0 = false

theorem State.stateAt_here (hpod : h.pod = false) : s.stateAt h.pod h.line = (s.dirAt h.line).state := by
  rw [hpod]
  exact ite_eq_right_iff.2 fun hP => hP.symm

/-- Then it is served at once, in P or at a line that is not busy. -/
theorem State.Ready.request {m : Msg} {new : LineData → LineData} {ans : LineData → Msg} (hr : s.Ready h) (hm : Writing m new ans)
    (hclock : s.HasHeard h.line h.clock)
    (hstate : (s.dirAt h.line).state = .P ∨ ((s.dirAt h.line).state.busy = false ∧ (s.dirAt h.line).held = [] ∧ (s.dirAt h.line).queue = [])) :
    s.request h m false = s.serve h m := by
  obtain ⟨hpod, hhome, hpeer, hunrevoked, hreached, hcarriage⟩ := hr
  have hfailed : s.podFailed h.line = false := by rw [podFailed, hhome]; rfl
  have hok : s.podOk h.line .home = true := by rw [podOk, if_neg (by rw [hhome]; decide), hpeer]; rfl
  have hgained (t : State) : t.gained h.line = t := by rw [gained, hhome]; rfl
  have hneed : m.need = some .home := by cases hm <;> rfl
  have hdrift : s.driftWaits h m = false := by cases hm <;> rfl
  unfold State.request
  dsimp only
  rw [hclock.hearSlice, stateAt_here hpod, hpod, hunrevoked, hreached, hcarriage, Bool.and_false, if_neg Bool.false_ne_true, if_neg Bool.false_ne_true,
    if_neg Bool.false_ne_true]
  by_cases hP : (s.dirAt h.line).state = .P
  · rw [if_pos hP]
  · obtain ⟨hbusy, hheld, hqueue⟩ := hstate.resolve_left hP
    have hquiet : s.lineBusy h.line = false := by rw [lineBusy, hbusy, hpeer]; rfl
    rw [if_neg hP, hquiet, hheld, hqueue, hdrift, hfailed, hneed]
    dsimp only
    rw [hok, hgained]
    rfl

/-- The requests that write, served as from I. -/
theorem State.serveI_writing {m : Msg} {new : LineData → LineData} {ans : LineData → Msg} (hm : Writing m new ans) (hpod : h.pod = false) :
    s.serveI h m = (s.setDir h.line { DirEntry.idle with queue := (s.dirAt h.line).queue, held := (s.dirAt h.line).held }).performHome h m := by
  have hset (e : DirEntry) : s.setEnt h.pod h.line e = s.setDir h.line e := by rw [hpod]; rfl
  have hent : s.entAt h.pod h.line = s.dirAt h.line := by rw [hpod]; rfl
  unfold State.serveI
  dsimp only
  rw [hent]
  cases hm <;> exact congrArg (fun a => State.performHome a h _) (hset _)

/-- A line of which no core has a copy stays as it is when every core gives its copy up. -/
theorem State.outCopies_of_none {line : Nat} (hnone : s.copiesOf line = []) : s.outCopies line = s := by
  have hkeys (e : Nat × CacheLine) (he : e ∈ s.cache) : (e.1 % 2 ^ 53 != line) = true := by
    have hcopy := List.filter_eq_nil_iff.1 (List.map_eq_nil_iff.1 hnone) e he
    simpa using hcopy
  have hcache (f : Nat × CacheLine → Option (Nat × CacheLine)) (hf : ∀ e, (e.1 % 2 ^ 53 != line) = true → f e = some e) :
      s.cache.filterMap f = s.cache := by
    rw [List.filterMap_congr fun e he => hf e (hkeys e he)]
    exact List.filterMap_some
  unfold State.outCopies
  rw [hcache _ fun e he => if_pos he]

/-- Has a line nothing that must leave before a request is performed at its home: it is in I, or shared by the requester alone, of which no
core has a copy, or in P for a whole-line write. -/
def State.Free (s : State) (h : Hdr) (m : Msg) : Prop :=
  let d := s.dirAt h.line
  d.state = .I ∨ (d.state = .S ∧ s.recipients false d (some h.src) = [] ∧ s.copiesOf h.line = []) ∨ (d.state = .P ∧ ∃ v, m = .wrLine v)

/-- There a writing request is performed at once. -/
theorem State.Free.serve {m : Msg} {new : LineData → LineData} {ans : LineData → Msg} (hf : s.Free h m) (hm : Writing m new ans)
    (hpod : h.pod = false) : s.serve h m =
      ((s.setDir h.line { DirEntry.idle with queue := (s.dirAt h.line).queue, held := (s.dirAt h.line).held }).performHome h m).served h m
        (s.dirAt h.line).state := by
  have hent : s.entAt h.pod h.line = s.dirAt h.line := by rw [hpod]; rfl
  unfold State.serve
  dsimp only
  rw [stateAt_here hpod, hent]
  obtain hI | ⟨hS, hothers, hcopies⟩ | ⟨hP, v, rfl⟩ := hf
  · rw [hI, ← serveI_writing hm hpod]
  · have hothers' : s.recipients h.pod (s.dirAt h.line) (some h.src) = [] := by rw [hpod]; exact hothers
    have hconclude (b : Bool) : s.conclude h m b = s.serveI h m := by
      have hcopied : s.conclude h m b = (if h.pod then s else s.outCopies h.line).serveI h m := by cases hm <;> rfl
      rw [hcopied, hpod, if_neg Bool.false_ne_true, outCopies_of_none hcopies]
    rw [hS, ← serveI_writing hm hpod, hothers', ← hconclude (!(decide (m = .upg) && (partiesOf h.pod (s.dirAt h.line)).contains h.src))]
    cases hm <;> rfl
  · rw [hP]
    rfl

/-- A request at a home hears its clock first. -/
theorem State.request_hearSlice (s : State) (h : Hdr) (m : Msg) (old : Bool) :
    (s.hearSlice h.line h.clock).request h m old = s.request h m old := by
  unfold State.request
  dsimp only
  rw [(hasHeard_hearSlice ..).hearSlice]

/-- Neither the messages under way nor the slices' clocks decide how a writing request is served. -/
theorem State.Ready.heard {m : Msg} (hr : s.Ready h) (hf : s.Free h m) :
    ((s.take h m).hearSlice h.line h.clock).Ready h ∧ ((s.take h m).hearSlice h.line h.clock).Free h m := by
  obtain ⟨hpod, hhome, hpeer, hunrevoked, hreached, hcarriage⟩ := hr
  rw [hearSlice_rest]
  exact ⟨⟨hpod, hhome, hpeer, hunrevoked, hreached, hcarriage⟩, hf⟩

/-- What a free home writes for such a request. -/
theorem State.Free.request {m : Msg} {new : LineData → LineData} {ans : LineData → Msg} (hf : s.Free h m) (hr : s.Ready h) (hm : Writing m new ans)
    (hclock : s.HasHeard h.line h.clock) (hkey : h.sc = false ∨ ¬StaleAt s h)
    (hfirst : (s.dirAt h.line).state = .P ∨ ((s.dirAt h.line).held = [] ∧ (s.dirAt h.line).queue = [])) :
    AtHome s (s.request h m false) h.line h.req (keysAfter s h) true (new (s.memLine h.line))
      { DirEntry.idle with queue := (s.dirAt h.line).queue, held := (s.dirAt h.line).held } [(h.src, ans (s.memLine h.line))] := by
  have hstate : (s.dirAt h.line).state = .P ∨
      ((s.dirAt h.line).state.busy = false ∧ (s.dirAt h.line).held = [] ∧ (s.dirAt h.line).queue = []) := by
    refine hfirst.imp_right (And.intro ?_)
    obtain hI | ⟨hS, -⟩ | ⟨hP, -⟩ := hf
    · rw [hI]; rfl
    · rw [hS]; rfl
    · rw [hP]; rfl
  rw [hr.request hm hclock hstate, hf.serve hm hr.pod]
  exact (((AtHome.refl s h.line h.req).setDir _).performHome hm hclock hr.pod hkey).traced (served_traced ..)

/-- The clauses of O43 on what a home writes, for states in the canonical form. -/
theorem request_homeWrites_of_canonical {m : Msg} {new : LineData → LineData} {ans : LineData → Msg} (hs : Canonical s) (hm : Writing m new ans)
    (hr : s.Ready h) (hf : s.Free h m) (hkey : h.sc = false ∨ ¬StaleAt s h)
    (hfirst : (s.dirAt h.line).state = .P ∨ ((s.dirAt h.line).held = [] ∧ (s.dirAt h.line).queue = [])) :
    HomeWrites (.next ((s.take h m).request h m false)) s h m (keysAfter s h) true (new (s.memLine h.line))
      { DirEntry.idle with queue := (s.dirAt h.line).queue, held := (s.dirAt h.line).held } [(h.src, ans (s.memLine h.line))] := by
  obtain ⟨hr0, hf0⟩ := hr.heard (m := m) hf
  refine AtHome.homeWrites hs ?_
  have hrest := State.hearSlice_rest (s.take h m) h.line h.clock
  have hclock := State.hasHeard_hearSlice (s.take h m) h.line h.clock
  rw [← State.request_hearSlice]
  generalize (s.take h m).hearSlice h.line h.clock = s0 at *
  have hdir : s0.dirAt h.line = s.dirAt h.line := by rw [hrest]; rfl
  have hmem : s0.memLine h.line = s.memLine h.line := State.memLine_congr (by rw [hrest]; rfl) _
  have hkeys : keysAfter s0 h = keysAfter s h ∧ (StaleAt s0 h ↔ StaleAt s h) := by rw [hrest]; exact ⟨rfl, .rfl⟩
  have hat := hf0.request hr0 hm hclock (hkey.imp_right (mt hkeys.2.1)) (by rwa [hdir])
  rwa [hkeys.1, hmem, hdir] at hat

/-- At a line of which nothing must leave but what the requester has, with the canonical form, each of the three is performed as O43 says. -/
theorem performs_of_canonical (r : List AmoReq) (n : Nat) (v : LineData) (hs : Canonical s) (hr : s.Ready h)
    (hkey : h.sc = false ∨ ¬StaleAt s h) (hheld : (s.dirAt h.line).held = []) (hqueue : (s.dirAt h.line).queue = [])
    (hstate : (s.dirAt h.line).state = .I ∨
      ((s.dirAt h.line).state = .S ∧ s.recipients false (s.dirAt h.line) (some h.src) = [] ∧ s.copiesOf h.line = [])) :
    HomeWrites (exec (.amoMsg h r) s) s h (.amo r) (keysAfter s h) true (State.amoLine r (s.memLine h.line)).1 DirEntry.idle
        [(h.src, .data (s.memLine h.line) false)] ∧
      HomeWrites (exec (.redop h r n) s) s h (.redOp r n) (keysAfter s h) true (State.amoLine r (s.memLine h.line)).1 DirEntry.idle
        [(h.src, .redAck n)] ∧
      HomeWrites (exec (.wrline h v) s) s h (.wrLine v) (keysAfter s h) true v DirEntry.idle [(h.src, .putAck)] := by
  have hwrites {m : Msg} {new : LineData → LineData} {ans : LineData → Msg} (hm : Writing m new ans) :=
    request_homeWrites_of_canonical hs hm hr (hstate.imp_right .inl) hkey (.inr ⟨hheld, hqueue⟩)
  rw [hheld, hqueue] at hwrites
  exact ⟨hwrites (.amo r), hwrites (.redOp r n), hwrites (.wrLine v)⟩

end Performed

/-! ## The owner's put notice with data (13 R239) -/

section Returned
variable {s t : State} {h : Hdr} {m : Msg} {v : LineData}

/-- The owner of a line of this device gives it back with its data: no forward is on its way to it, and the data pass their carriage check. -/
structure State.GivesBack (s : State) (h : Hdr) : Prop where
  pod : h.pod = false
  home : isPod h.line = false
  owned : (s.dirAt h.line).state = .X ∨ (s.dirAt h.line).state = .O
  owner : (s.dirAt h.line).owner = h.src
  unasked : (s.dirAt h.line).fwdTo ≠ some h.src
  carriage : laneIn s.carriage 0 = false

/-- The entry of a line that its owner has left. -/
def DirEntry.left (d : DirEntry) : DirEntry :=
  if d.state = .X ∨ (d.ptrs = [] ∧ d.coarse = false) then { DirEntry.idle with queue := d.queue, held := d.held } else { d with state := .S, owner := 0 }

/-- The line's data as a party that gives them back leaves them: an agent's count as a write, a core's are written already. -/
def State.returned (s : State) (h : Hdr) (v : LineData) : State :=
  if isAgent h.src then (s.setMemLine h.line v).trigger h.line else s.setMemLine h.line v

theorem AtHome.returned (s : State) (h : Hdr) (v : LineData) :
    AtHome s (s.returned h v) h.line h.req s.homeKey (State.isAgent h.src) v (s.dirAt h.line) [] := by
  have hdata := (AtHome.refl s h.line h.req).setMemLine v
  unfold State.returned
  cases State.isAgent h.src with
  | true => exact hdata.trigger
  | false => exact hdata

/-- A home writes the data of its line's owner. -/
theorem State.GivesBack.put (hg : s.GivesBack h) (hclock : s.HasHeard h.line h.clock) (htravels : s.fwdTravels h = false) :
    AtHome s (s.put h m (some v)) h.line h.req s.homeKey (isAgent h.src) v (s.dirAt h.line).left [(h.src, .putAck)] := by
  obtain ⟨hpod, hhome, howned, howner, hunasked, hcarriage⟩ := hg
  have hent : s.entAt h.pod h.line = s.dirAt h.line := by rw [hpod]; rfl
  have hset (u : State) (e : DirEntry) : u.setEnt h.pod h.line e = u.setDir h.line e := by rw [hpod]; rfl
  have hsoil (u : State) : u.soil h.line = u := if_neg (by rw [hhome]; decide)
  have hlive : (s.dirAt h.line).state ≠ .P := by obtain hX | hO := howned <;> simp [*]
  have hleft : (s.dirAt h.line).left = if (s.dirAt h.line).state = .X ∨ (decide ((s.dirAt h.line).ptrs = []) && !(s.dirAt h.line).coarse) = true
      then { DirEntry.idle with queue := (s.dirAt h.line).queue, held := (s.dirAt h.line).held }
      else { s.dirAt h.line with state := .S, owner := 0 } := by
    simp [DirEntry.left]
  unfold State.put
  dsimp only
  rw [hclock.hearSlice, stateAt_here hpod, hent, htravels, if_neg fun hP => hlive hP.1, hsoil, hset, ← hleft, hcarriage, hpod, Bool.and_false,
    Bool.false_or, Option.isSome_some, Bool.and_true, if_neg (by simpa using hunasked), if_pos ⟨howned, howner⟩, if_neg Bool.false_ne_true]
  exact (((AtHome.returned s h v).setDir _).answer hpod rfl rfl rfl (by simp)).traced (served_traced ..)

/-- A message that leaves the network takes no forward on its way with it that was not there. -/
theorem State.fwdTravels_take (hfree : s.fwdTravels h = false) : ((s.take h m).hearSlice h.line h.clock).fwdTravels h = false := by
  rw [hearSlice_rest]
  unfold State.fwdTravels at hfree ⊢
  rw [List.any_eq_false] at hfree ⊢
  exact fun x hx => hfree x (List.mem_of_mem_erase hx)

/-- The clause of O44 on an owner's data, for states in the canonical form. -/
theorem put_homeWrites_of_canonical (hs : Canonical s) (hg : s.GivesBack h) (htravels : s.fwdTravels h = false) :
    HomeWrites (.next ((s.take h m).put h m (some v))) s h m s.homeKey (State.isAgent h.src) v (s.dirAt h.line).left [(h.src, .putAck)] := by
  refine AtHome.homeWrites hs ?_
  have hrest := State.hearSlice_rest (s.take h m) h.line h.clock
  have hclock := State.hasHeard_hearSlice (s.take h m) h.line h.clock
  have htravels0 := State.fwdTravels_take (m := m) htravels
  have hput : (s.take h m).put h m (some v) = ((s.take h m).hearSlice h.line h.clock).put h m (some v) := by
    conv_rhs => rw [State.put, hclock.hearSlice]
    rfl
  rw [hput]
  generalize (s.take h m).hearSlice h.line h.clock = s0 at *
  have hkept : s0.dirAt h.line = s.dirAt h.line ∧ s0.homeKey = s.homeKey := by rw [hrest]; exact ⟨rfl, rfl⟩
  have hg0 : s0.GivesBack h := by
    obtain ⟨hpod, hhome, howned, howner, hunasked, hcarriage⟩ := hg
    rw [hrest]
    exact ⟨hpod, hhome, howned, howner, hunasked, hcarriage⟩
  have hat := hg0.put (m := m) (v := v) hclock htravels0
  rwa [hkept.1, hkept.2] at hat

/-- A reply that is not the last is counted (13 R235). -/
theorem AtHome.acked {d : DirEntry} (hat : AtHome s t h.line h.req s.homeKey (State.isAgent h.src) v d []) (hpod : h.pod = false)
    (hacks : 1 < d.acks) :
    AtHome s ((t.setDir h.line { d with fwdTo := none }).ack h.pod h.line 1 [h.src] h.stamp none) h.line h.req s.homeKey (State.isAgent h.src) v
      { d with fwdTo := none, acks := d.acks - 1, replied := h.src :: d.replied, stamp := State.maxD d.stamp h.stamp } [] := by
  have hent (u : State) : u.entAt false h.line = u.dirAt h.line := rfl
  have hset (u : State) (e : DirEntry) : u.setEnt false h.line e = u.setDir h.line e := rfl
  rw [hpod, State.ack, hent, hset, State.dirAt_setDir_self]
  dsimp only
  rw [if_neg (Nat.not_le.2 hacks)]
  exact (hat.setDir _).setDir _

/-- The clause of O44 on the data that a recalled owner sends with one of several replies, for states in the canonical form. -/
theorem fwdack_homeWrites_of_canonical {d : DirEntry} (hs : Canonical s) (hpod : h.pod = false) (hhome : isPod h.line = false)
    (htravels : s.fwdTravels h = false) (hentry : s.dirAt h.line = d) (hstate : d.state = .BInv) (hasked : d.fwdTo = some h.src)
    (hacks : 1 < d.acks) (hdrop : d.drop = false) (hserving : ∀ y, d.serving = some y → y.2 ≠ .getX ∧ y.2 ≠ .upg) :
    HomeWrites (exec (.fwdack h (some v)) s) s h (.fwdAck (some v)) s.homeKey (State.isAgent h.src) v
      { d with fwdTo := none, acks := d.acks - 1, replied := h.src :: d.replied, stamp := State.maxD d.stamp h.stamp } [] := by
  show HomeWrites (execFwdack h (some v) s) ..
  refine AtHome.homeWrites hs ?_
  have hrest := State.hearSlice_rest (s.take h (.fwdAck (some v))) h.line h.clock
  have htravels0 := State.fwdTravels_take (m := .fwdAck (some v)) htravels
  generalize (s.take h (.fwdAck (some v))).hearSlice h.line h.clock = s0 at *
  obtain ⟨hdir, hkey⟩ : s0.dirAt h.line = d ∧ s0.homeKey = s.homeKey := by rw [hrest]; exact ⟨hentry, rfl⟩
  have hent (u : State) : u.entAt h.pod h.line = u.dirAt h.line := by rw [hpod]; rfl
  have hset (u : State) (e : DirEntry) : u.setEnt h.pod h.line e = u.setDir h.line e := by rw [hpod]; rfl
  have hlate : s0.tooLate h = false := by rw [State.tooLate, State.stateAt_here hpod, hdir, hstate]; rfl
  have hsoil (u : State) : u.soil h.line = u := if_neg (by rw [hhome]; decide)
  have hback : (if h.pod || State.isAgent h.src then ((s0.setMemLine h.line v).soil h.line).trigger h.line
      else (s0.setMemLine h.line v).soil h.line) = s0.returned h v := by rw [hpod, hsoil]; rfl
  have hreturned := AtHome.returned s0 h v
  rw [hdir] at hreturned
  have hcounted := hreturned.acked hpod hacks
  rw [hkey] at hcounted
  rcases hserv : d.serving with _ | ⟨g, m⟩
  · simpa only [hent, hset, hdir, hlate, htravels0, hback, hasked, hstate, hdrop, hserv, hreturned.entry, ne_eq, not_true, if_false,
      Bool.false_eq_true] using hcounted
  · obtain ⟨hgetX, hupg⟩ := hserving _ hserv
    simpa only [hent, hset, hdir, hlate, htravels0, hback, hasked, hstate, hdrop, hserv, hgetX, hupg, hreturned.entry, ne_eq, not_true, if_false,
      Bool.false_eq_true, or_self] using hcounted

end Returned

end Sys2Proof.Machine
end

section
/-!
PROOFS. O43, O44 and O45, each of which speaks of what every span holds after a change of all of them, in every state, the canonical form not asked
for: states in which each fails (as O48's state listedTwice).
-/

namespace Sys2Proof.Machine

/-- What span 0 of workgroup 0 holds in its scalar registers after an answer. -/
def Res.scalars : Res → Store Dword
  | .next t => (t.spanAt 0 0).s
  | _ => []

theorem Res.scalars_of_next {r : Res} {t : State} (h : r = .next t) : Res.scalars r = (t.spanAt 0 0).s := by rw [h]; rfl

/-- The state listedTwice on a device that is ready. -/
def readyTwice : State := { listedTwice with readiness := (List.range 48).map (fun i => (i, 2)) }

/-- The state listedTwice where the first agent owns line 0. -/
def ownedTwice : State := { listedTwice with dir := [(0, { DirEntry.idle with state := .X, owner := 0x1000 })] }

/-- A message of a party to the home of line 0. -/
def toLine0 (p : BitVec 13) : Hdr := { src := p, dst := 0x1FFF, line := 0, clock := 0, stamp := 0 }

/-- The home's answer to a request with number 1 of core 3. -/
def answer0 : Hdr := { src := 0x1FFF, dst := 3, line := 0, clock := 0, stamp := 0, req := 1 }

/-- Refutes O43: an Amo that the home performs triggers the monitors of its line, which goes through every listed workgroup; where workgroup 0 is
listed twice and the first entry is the default, that entry leaves, and span 0 reads s1 = 1 where it read 0. Of canonical
states the clause holds: performs_of_canonical. -/
theorem not_homeRequests : ¬ Obligations.HomeRequests := by
  unfold Obligations.HomeRequests
  intro h
  obtain ⟨-, -, hserved⟩ := h readyTwice (toLine0 3) ⟨0, 0⟩ [] 0 0 rfl rfl rfl
  obtain ⟨-, -, -, hstates⟩ := hserved (by decide) (by decide +kernel) (by decide)
  obtain ⟨hI, -⟩ := hstates rfl rfl (.inr (by decide +kernel))
  obtain ⟨-, -, -, -, hperforms⟩ := hI rfl
  obtain ⟨-, -, t, ht, -, -, -, -, -, -, hspan⟩ := hperforms (.inl rfl)
  have hread : (t.spanAt 0 0).s = (readyTwice.spanAt 0 0).s := congrArg Span.s (hspan 0 0)
  rw [← Res.scalars_of_next ht] at hread
  exact absurd hread (by decide +kernel)

/-- Refutes O44: the data of an owner's put notice trigger the monitors of the line, with the same outcome as in O43's state. Of
canonical states its clauses on such data hold: put_homeWrites_of_canonical, fwdack_homeWrites_of_canonical. -/
theorem not_homeNotices : ¬ Obligations.HomeNotices := by
  unfold Obligations.HomeNotices
  rintro ⟨h, -⟩
  obtain ⟨howner, -⟩ := h ownedTwice (toLine0 0x1000) 0 rfl
  obtain ⟨-, hdata, -⟩ := howner ⟨.inl rfl, rfl⟩ (by decide)
  obtain ⟨⟨t, ht, -, -, -, -, -, -, hspan⟩, -⟩ := hdata rfl (by decide)
  have hread : (t.spanAt 0 0).s = (ownedTwice.spanAt 0 0).s := congrArg Span.s (hspan 0 0)
  rw [← Res.scalars_of_next ht] at hread
  exact absurd hread (by decide +kernel)

/-- Refutes O45: an answer to a numbered request goes to the units of every listed workgroup, with the same outcome as in O43's
state. Of canonical states the clauses on answers hold: answers_heard_of_canonical. -/
theorem not_cacheMessages : ¬ Obligations.CacheMessages := by
  unfold Obligations.CacheMessages
  intro h
  obtain ⟨-, -, hheard, -⟩ := h listedTwice answer0 0 0 false false ⟨0, 0⟩ 0 rfl
  obtain ⟨-, ⟨t, ht, -, hspan⟩, -⟩ := hheard (by decide) (by decide) rfl
  have hread : (t.spanAt 0 0).s = (listedTwice.spanAt 0 0).s := congrArg Span.s (hspan 0 0)
  rw [← Res.scalars_of_next ht] at hread
  exact absurd hread (by decide +kernel)

end Sys2Proof.Machine
end

section
/-!
PROOFS. What an instruction leaves that changes its workgroup and its span (14 R251); the instructions on chutes (14 R255, R260); O26.
-/

namespace Sys2Proof.Store

variable {α : Type}

/-- A change of n neighbouring values of a collection, from key o on. -/
theorem get_foldl_upd [DecidableEq α] (d : α) (f : α → α) (o n j : Nat) (m : Store α) :
    get d ((List.range n).foldl (fun m i => upd d m (o + i) f) m) j =
      if o ≤ j ∧ j < o + n then f (get d m j) else get d m j := by
  induction n generalizing j with
  | zero => rw [if_neg (by omega)]; rfl
  | succ n ih =>
    rw [List.range_succ, List.foldl_append, List.foldl_cons, List.foldl_nil, get_upd, ih, ih]
    by_cases hj : j = o + n
    · rw [if_pos hj, if_neg (by omega), if_pos (by omega), hj]
    · rw [if_neg hj]
      exact if_congr (by omega) rfl rfl

end Sys2Proof.Store

namespace Sys2Proof.Machine

/-- A change of the span's scalar registers alone, as what the registers become. -/
theorem Span.setS_eq (sp : Span) (d : BitVec 6) (x : Dword) {S : Store Dword} (hS : S = (sp.setS d x).s) :
    sp.setS d x = { sp with s := S } := by rw [hS]; exact setS_rest sp d x

/-! ## A change of the issuing workgroup and of its span -/

section HereMoved

variable {s : State}

/-- A workgroup is changed, not its spans, and an instruction completes in the state that this leaves. -/
theorem HereMoved.of_retired {t : State} {f : Wg → Wg} {q : Span} (hspan : (f s.here).span = s.here.span)
    (h : Retired (s.updHere f) t q) : HereMoved s t (f s.here) q := by
  obtain ⟨⟨hrest, hbytes, hgroups, hhere, hspans⟩, hq⟩ := h
  have hw : (s.updHere f).here = f s.here := State.wgAt_updWg_self ..
  rw [hw] at hhere hspans
  refine ⟨hrest, hbytes, fun g hg => (hgroups g hg).trans (State.wgAt_updWg_ne s f hg), hhere, fun n hn => ?_, hq⟩
  exact (hspans n hn).trans (congrArg (Store.get Span.fresh · n) hspan)

/-- The issuing span after a change of its workgroup that leaves the spans. -/
theorem span_updHere {f : Wg → Wg} (hspan : (f s.here).span = s.here.span) : (s.updHere f).span = s.span := by
  have hw : (s.updHere f).here = f s.here := State.wgAt_updWg_self ..
  show (s.updHere f).here.spanAt s.focus.sp = _
  rw [hw]
  exact congrArg (Store.get Span.fresh · s.focus.sp) hspan

/-- An instruction changes its workgroup, not its spans, then its span, and completes. -/
theorem hereMoved_done (f : Wg → Wg) (q : Span → Span) (hspan : (f s.here).span = s.here.span) :
    HereMoved s ((s.updHere f).updSpan q).retire (f s.here) (q s.span) := by
  have h := retired_done (s.updHere f) q
  rw [span_updHere hspan] at h
  exact .of_retired hspan h

/-- The issuing span once an instruction has changed its workgroup and it, and is complete. -/
theorem span_done (f : Wg → Wg) (q : Span → Span) (hspan : (f s.here).span = s.here.span) :
    ((s.updHere f).updSpan q).retire.span = (q s.span).movedOn s.lanes s.focus.next := by
  rw [State.span_retire, State.span_updSpan, span_updHere hspan]
  rfl

/-- A span that holds a scalar result and moves on. -/
theorem scalarIs_of_span {t : State} {q : Span} {d : BitVec 6} {x : Dword} (hspan : t.span = q.movedOn s.lanes s.focus.next)
    (hq : q.s = (s.span.setS d x).s) : ScalarIs s t d x := by
  have hsr (n : BitVec 6) : q.sr n = (s.span.setS d x).sr n := by unfold Span.sr; rw [hq]
  intro n
  rw [hspan, Span.movedOn_sr, hsr, Span.sr_setS]

/-- An instruction changes its workgroup, not its spans, gives a scalar result and completes. -/
theorem scalarMoved_done (f : Wg → Wg) (d : BitVec 6) (x : Dword) (hspan : (f s.here).span = s.here.span) :
    ∃ t, done ((s.updHere f).updSpan (fun sp => sp.setS d x)) = .next t ∧ ScalarIs s t d x ∧
      HereMoved s t (f s.here) { s.span with s := t.span.s } := by
  have hq : _ = (s.span.setS d x).movedOn s.lanes s.focus.next := span_done f (fun sp => sp.setS d x) hspan
  refine ⟨_, rfl, scalarIs_of_span hq rfl, ?_⟩
  rw [← Span.setS_eq s.span d x (by rw [hq, Span.movedOn_s])]
  exact hereMoved_done f _ hspan

end HereMoved

/-! ## Wait lists and slots of a chute (14 R255, R260) -/

namespace State

variable {s : State}

/-- The issuing set is first in a wait list that it enters, or heads already; the others stay behind it. -/
theorem joined_first {q : List (Nat × Nat × Nat)} (hl : s.lanes ≠ 0)
    (hq : q = [] ∨ q.head? = some (s.focus.g, s.focus.sp, s.lanes.toNat)) :
    s.firstIn (s.joined q) = true ∧ (s.joined q).tail = q.tail := by
  have hmine : s.mineIn (s.focus.g, s.focus.sp, s.lanes.toNat) = true := by
    simp only [mineIn, BitVec.ofNat_toNat, BitVec.setWidth_eq, BitVec.and_self, beq_self_eq_true, Bool.true_and, bne_iff_ne]
    exact hl
  rcases hq with rfl | hq
  · exact ⟨hmine, rfl⟩
  · obtain ⟨ys, rfl⟩ := List.head?_eq_some_iff.1 hq
    have hjoined : s.joined ((s.focus.g, s.focus.sp, s.lanes.toNat) :: ys) = (s.focus.g, s.focus.sp, s.lanes.toNat) :: ys :=
      if_pos (by rw [List.any_cons, hmine, Bool.true_or])
    rw [hjoined]
    exact ⟨hmine, rfl⟩

/-- Where one stage's chute alone is the issuing member's, its handle names that chute (14 R255, R260). -/
theorem chuteFor_unique {pk core h stage st : Nat} {serial : Word} (hst : st < 8)
    (hone : ∀ x, x < 8 → ((s.chuteAt (chuteKey pk serial core h x)).live = true ∧
      ((s.chuteAt (chuteKey pk serial core h x)).fromStage = stage ∨ (s.chuteAt (chuteKey pk serial core h x)).toStage = stage) ↔ x = st)) :
    s.chuteFor pk serial core h stage = chuteKey pk serial core h st := by
  unfold chuteFor
  set ours : Nat → Bool := fun k => (s.chuteAt k).live && ((s.chuteAt k).fromStage == stage || (s.chuteAt k).toStage == stage) with hours
  have hiff (x : Nat) (hx : x < 8) : ours (chuteKey pk serial core h x) = true ↔ x = st := by
    simp only [hours, Bool.and_eq_true, Bool.or_eq_true, beq_iff_eq]
    exact hone x hx
  show (((List.range 8).map (chuteKey pk serial core h)).find? ours).getD _ = _
  rw [List.find?_map]
  cases hfind : (List.range 8).find? (ours ∘ chuteKey pk serial core h) with
  | none => exact absurd ((hiff st hst).2 rfl) (List.find?_eq_none.1 hfind st (List.mem_range.2 hst))
  | some x =>
    have hx : x = st := (hiff x (List.mem_range.1 (List.mem_of_find?_eq_some hfind))).1
      (List.find?_some (p := ours ∘ chuteKey pk serial core h) hfind)
    rw [hx]
    rfl

/-- Setting or clearing the full bits of a slot's row reaches the granules of the row alone. -/
theorem granule_setRow (c : Chute) (k j : Nat) (full : Bool) :
    Store.get Granule.empty (setRow c k full).granule j =
      if k * chuteRow c ≤ j ∧ j < (k + 1) * chuteRow c then { Store.get Granule.empty c.granule j with full := full }
      else Store.get Granule.empty c.granule j := by
  rw [Nat.succ_mul]
  exact Store.get_foldl_upd ..

end State

/-! ## Chute instructions (14 R260) -/

section Chute

variable {s : State}

/-- A chute is changed, the workgroup counts the instruction, and the span moves on: the instruction is complete. -/
theorem ChuteDone.of_moved {t : State} {key : Nat} {g : Chute → Chute} {q : Span}
    (h : HereMoved (s.updChute key g) t { s.here with progChute := s.here.progChute + 1 } q) : ChuteDone s t key (g (s.chuteAt key)) q := by
  obtain ⟨hrest, -⟩ := id h
  have hchute : t.chute = (s.updChute key g).chute := by rw [hrest]
  have hget (k : Nat) : t.chuteAt k = (s.updChute key g).chuteAt k := congrArg (Store.get Chute.none · k) hchute
  refine ⟨?_, (hget key).trans ((State.chuteAt_updChute ..).trans (if_pos rfl)),
    fun k hk => (hget k).trans ((State.chuteAt_updChute s key k g).trans (if_neg hk))⟩
  rw [hchute]
  exact h

theorem chuteDone_retire (key : Nat) (g : Chute → Chute) :
    ChuteDone s (s.updChute key g).countChute.retire key (g (s.chuteAt key)) s.span :=
  .of_moved (hereRetired_done (s.updChute key g) (fun w => { w with progChute := w.progChute + 1 }) rfl)

theorem chuteDone_scalar (key : Nat) (g : Chute → Chute) (d : BitVec 6) (x : Dword) :
    ∃ t, done ((s.updChute key g).countChute.updSpan (fun sp => sp.setS d x)) = .next t ∧ ScalarIs s t d x ∧
      ChuteDone s t key (g (s.chuteAt key)) { s.span with s := t.span.s } := by
  obtain ⟨t, ht, hscalar, hmoved⟩ := scalarMoved_done (s := s.updChute key g) (fun w => { w with progChute := w.progChute + 1 }) d x rfl
  exact ⟨t, ht, hscalar, .of_moved hmoved⟩

variable {d h : BitVec 6} {b : SOp}

/-- Code 07 for a producer's instruction on a chute that is not its stage's. -/
theorem chuteProducer_faults (hstray : (s.chuteAt (s.chuteHere h)).live = false ∨ (s.chuteAt (s.chuteHere h)).fromStage ≠ s.here.stage) :
    Faults (exec (.chqClaim d h) s) s 0x07 0 ∧ Faults (exec (.chqPub h b) s) s 0x07 0 := by
  have hno : (!((s.chuteAt (s.chuteHere h)).live && (s.chuteAt (s.chuteHere h)).fromStage == s.here.stage)) = true := by
    rcases hstray with hs | hs <;> simp [hs]
  exact ⟨if_pos hno, if_pos (by rw [hno]; rfl)⟩

/-- Code 07 for a consumer's. -/
theorem chuteConsumer_faults (hstray : (s.chuteAt (s.chuteHere h)).live = false ∨ (s.chuteAt (s.chuteHere h)).toStage ≠ s.here.stage) :
    Faults (exec (.chqWait d h) s) s 0x07 0 ∧ Faults (exec (.chqRel h b) s) s 0x07 0 := by
  have hno : (!((s.chuteAt (s.chuteHere h)).live && (s.chuteAt (s.chuteHere h)).toStage == s.here.stage)) = true := by
    rcases hstray with hs | hs <;> simp [hs]
  exact ⟨if_pos hno, if_pos (by rw [hno]; rfl)⟩

variable {c : Chute} {k : Nat}

/-- Code 07 for the publication of a slot that is not filling. -/
theorem chqPub_faults (hc : s.chuteAt (s.chuteHere h) = c) (hk : (s.span.opB b).toNat = k)
    (hbad : c.slotsM1.toNat < k ∨ c.claimed.getLsbD k = false ∨ c.full.getLsbD k = true ∨ c.engine.getLsbD k = true) :
    Faults (exec (.chqPub h b) s) s 0x07 0 := by
  subst hc hk
  refine if_pos ?_
  simp only [Bool.or_eq_true, decide_eq_true_eq, Bool.not_eq_true']
  tauto

/-- Code 07 for the release of a slot that is not in use. -/
theorem chqRel_faults (hc : s.chuteAt (s.chuteHere h) = c) (hk : (s.span.opB b).toNat = k)
    (hbad : c.slotsM1.toNat < k ∨ c.taken.getLsbD k = false) : Faults (exec (.chqRel h b) s) s 0x07 0 := by
  subst hc hk
  refine if_pos ?_
  simp only [Bool.or_eq_true, decide_eq_true_eq, Bool.not_eq_true']
  tauto

/-- A claim takes the next slot in ring order where that is free and nobody waits before the issue set. -/
theorem chqClaim_takes (hc : s.chuteAt (s.chuteHere h) = c) (hlive : c.live = true) (hfrom : c.fromStage = s.here.stage)
    (hl : s.lanes ≠ 0) (hfirst : c.prodWait = [] ∨ c.prodWait.head? = some (s.focus.g, s.focus.sp, s.lanes.toNat))
    (hfree : c.claimed.getLsbD c.wptr.toNat = false) :
    ∃ t, exec (.chqClaim d h) s = .next t ∧ ScalarIs s t d (c.wptr.setWidth 64) ∧
      ChuteDone s t (s.chuteHere h) { chuteClaimed c false with prodWait := c.prodWait.tail } { s.span with s := t.span.s } := by
  subst hc
  obtain ⟨hhead, htail⟩ := s.joined_first hl hfirst
  rw [← htail]
  obtain ⟨t, ht, hdone⟩ := chuteDone_scalar (s.chuteHere h) (fun _ => chuteClaimed { s.chuteAt (s.chuteHere h) with
    prodWait := s.joined (s.chuteAt (s.chuteHere h)).prodWait } false) d ((s.chuteAt (s.chuteHere h)).wptr.setWidth 64)
  refine ⟨t, Eq.trans ?_ ht, hdone⟩
  show execChqClaim d h s = _
  rw [execChqClaim, if_neg (by simp [hlive, hfrom]), if_pos (by simp [hhead, chuteFree, hfree])]

/-- A wait takes the oldest published slot where nobody waits before the issue set. -/
theorem chqWait_takes (hc : s.chuteAt (s.chuteHere h) = c) (hlive : c.live = true) (hto : c.toStage = s.here.stage)
    (hl : s.lanes ≠ 0) (hfirst : c.consWait = [] ∨ c.consWait.head? = some (s.focus.g, s.focus.sp, s.lanes.toNat))
    (hfull : c.full.getLsbD c.rptr.toNat = true) (htaken : c.taken.getLsbD c.rptr.toNat = false) :
    ∃ t, exec (.chqWait d h) s = .next t ∧ ScalarIs s t d (c.rptr.setWidth 64) ∧ ChuteDone s t (s.chuteHere h) { c with
      taken := c.taken ||| BitVec.twoPow 64 c.rptr.toNat, rptr := BitVec.ofNat 6 ((c.rptr.toNat + 1) % (c.slotsM1.toNat + 1)),
      consWait := c.consWait.tail } { s.span with s := t.span.s } := by
  subst hc
  obtain ⟨hhead, htail⟩ := s.joined_first hl hfirst
  rw [← htail]
  obtain ⟨t, ht, hdone⟩ := chuteDone_scalar (s.chuteHere h) (fun c => { c with
    taken := c.taken ||| BitVec.twoPow 64 (s.chuteAt (s.chuteHere h)).rptr.toNat
    consWait := (s.joined (s.chuteAt (s.chuteHere h)).consWait).tail
    rptr := BitVec.ofNat 6 (((s.chuteAt (s.chuteHere h)).rptr.toNat + 1) % ((s.chuteAt (s.chuteHere h)).slotsM1.toNat + 1)) }) d
    ((s.chuteAt (s.chuteHere h)).rptr.setWidth 64)
  refine ⟨t, Eq.trans ?_ ht, hdone⟩
  show execChqWait d h s = _
  rw [execChqWait, if_neg (by simp [hlive, hto]), if_pos (by simp [hhead, hfull, htaken])]

/-- A publication marks a filling slot and sets the full bits of its row. -/
theorem chqPub_publishes (hc : s.chuteAt (s.chuteHere h) = c) (hk : (s.span.opB b).toNat = k) (hlive : c.live = true)
    (hfrom : c.fromStage = s.here.stage) (hslot : k ≤ c.slotsM1.toNat) (hclaimed : c.claimed.getLsbD k = true)
    (hfull : c.full.getLsbD k = false) (heng : c.engine.getLsbD k = false) :
    ∃ t, exec (.chqPub h b) s = .next t ∧ ChuteDone s t (s.chuteHere h) (State.publishSlot c k) s.span := by
  subst hc hk
  refine ⟨_, ?_, chuteDone_retire (s.chuteHere h) fun c => State.publishSlot c (s.span.opB b).toNat⟩
  show execChqPub h b s = _
  rw [execChqPub, if_neg (by simp [hlive, hfrom, hslot, hclaimed, hfull, heng])]
  rfl

/-- A chute whose slot k is free again, with the full bits of its row cleared (14 R260). -/
def Chute.released (c : Chute) (k : Nat) : Chute :=
  { State.setRow c k false with
    taken := c.taken &&& ~~~(BitVec.twoPow 64 k), full := c.full &&& ~~~(BitVec.twoPow 64 k)
    claimed := c.claimed &&& ~~~(BitVec.twoPow 64 k), engine := c.engine &&& ~~~(BitVec.twoPow 64 k) }

/-- A release frees a slot in use. -/
theorem chqRel_releases (hc : s.chuteAt (s.chuteHere h) = c) (hk : (s.span.opB b).toNat = k) (hlive : c.live = true)
    (hto : c.toStage = s.here.stage) (hslot : k ≤ c.slotsM1.toNat) (htaken : c.taken.getLsbD k = true) :
    ∃ t, exec (.chqRel h b) s = .next t ∧ ChuteDone s t (s.chuteHere h) (c.released k) s.span := by
  subst hc hk
  refine ⟨_, ?_, chuteDone_retire (s.chuteHere h) fun c => c.released (s.span.opB b).toNat⟩
  show execChqRel h b s = _
  rw [execChqRel, if_neg (by simp [hlive, hto, hslot, htaken])]
  rfl

end Chute

/-- Settles O26: a handle names the one chute of the stage; an instruction whose guards hold changes its chute, its count and its span
alone, and any other raises code 07. -/
theorem chutes : Obligations.Chutes := by
  unfold Obligations.Chutes
  intro s d h b key keyOf ours c k row bit nextOf first filled
  have hrow (full : Bool) (m : Store Granule) (hm : m = (State.setRow c k full).granule) : filled m full := by
    rw [hm]
    exact fun j => State.granule_setRow c k j full
  refine ⟨fun st hst hone => State.chuteFor_unique hst hone, chuteProducer_faults, chuteConsumer_faults, chqPub_faults rfl rfl,
    chqRel_faults rfl rfl, fun hlive hfrom => ⟨chqClaim_takes rfl hlive hfrom, fun hslot hclaimed hfull heng => ?_⟩,
    fun hlive hto => ⟨chqWait_takes rfl hlive hto, fun hslot htaken => ?_⟩⟩
  · obtain ⟨t, ht, hdone⟩ := chqPub_publishes rfl rfl hlive hfrom hslot hclaimed hfull heng
    obtain ⟨-, hchute, -⟩ := id hdone
    have hgran : (t.chuteAt key).granule = (State.setRow c k true).granule := (congrArg Chute.granule hchute).trans rfl
    refine ⟨t, ht, hrow true _ hgran, ?_⟩
    rw [hgran]
    exact hdone
  · obtain ⟨t, ht, hdone⟩ := chqRel_releases rfl rfl hlive hto hslot htaken
    obtain ⟨-, hchute, -⟩ := id hdone
    have hgran : (t.chuteAt key).granule = (State.setRow c k false).granule := (congrArg Chute.granule hchute).trans rfl
    refine ⟨t, ht, hrow false _ hgran, ?_⟩
    rw [hgran]
    exact hdone

end Sys2Proof.Machine
end

section
/-!
PROOFS. Waiter queues and monitors (14 R262, R264, R265); O27.
-/

namespace Sys2Proof.Machine

/-! ## What completes and what waits (14 R251) -/

section Moves

variable {s : State}

/-- Two changes of the open clause of an issue set, one after the other. -/
theorem Span.updClause_updClause (sp : Span) (S : Lanes) (f g : Clause → Clause)
    (hf : ∀ c, (f c).lanes = c.lanes ∧ (f c).suspended = c.suspended) :
    (sp.updClause S f).updClause S g = sp.updClause S (fun c => g (f c)) := by
  have hopen (c : Clause) : Span.openFor S (f c) = Span.openFor S c := by
    obtain ⟨hl, hs⟩ := hf c
    rw [Span.openFor, Span.openFor, hl, hs]
  have hfirst (cs : List Clause) : Span.updFirst (Span.openFor S) (fun c => [g c]) (Span.updFirst (Span.openFor S) (fun c => [f c]) cs) =
      Span.updFirst (Span.openFor S) (fun c => [g (f c)]) cs := by
    induction cs with
    | nil => rfl
    | cons c cs ih =>
      by_cases hc : Span.openFor S c = true
      · simp [Span.updFirst, hc, hopen]
      · simp [Span.updFirst, hc, ih]
  unfold Span.updClause
  rw [hfirst]

/-- An instruction that waits keeps the operand that it has read. -/
theorem waits_waitWith (w : WaitKind) (x : Dword) : Waits (.next (s.waitWith w x)) s w x := by
  refine ⟨_, rfl, (onlySpan_updSpan s _).trans (onlySpan_updSpan _ _), ?_⟩
  unfold State.waitWith State.waitOn
  rw [State.span_updSpan, State.span_updSpan]
  refine congrArg (fun sp : Span => { sp with wait := w }) ?_
  exact s.span.updClause_updClause s.lanes (fun c => { c with arg := some (s.focus.pos, x) }) _ fun _ => ⟨rfl, rfl⟩

end Moves

/-! ## waitq (14 R262) -/

section Waitq

variable {s s1 : State} {d a : BitVec 6} {b : SOp} {pa : Nat}

/-- A waitq that has no node checks the word at its home. -/
theorem exec_waitq_checks (hans : s.waiterAnswer = none) (hnode : s.span.node = none) (hword : s.waiterWord (s.span.sr a) = (s, .ok pa))
    (hpod : isPod (pa / 128) = false) :
    exec (.waitq d a b) s = s.waitCheck d pa ((s.span.opB b).setWidth 32) (s.span.sr a) := by
  show execWaitq d a b s = _
  unfold execWaitq
  rw [hans, hnode]
  dsimp only
  rw [hword]
  dsimp only
  rw [hpod, if_neg Bool.false_ne_true]

/-- A waitq whose node a wake has released gives 1. -/
theorem exec_waitq_released {n : Node} (hans : s.waiterAnswer = none) (hnode : s.span.node = some n) (hmine : n.lanes &&& s.lanes ≠ 0)
    (hrel : n.released = true) :
    exec (.waitq d a b) s = done ((s.countWaiter 1).updSpan (fun sp => { sp.setS d 1 with node := none })) := by
  show execWaitq d a b s = _
  unfold execWaitq
  rw [hans, hnode]
  dsimp only
  rw [if_neg hmine, if_pos hrel]

/-- waitq of a released node: 1, the node is gone and the return counted. -/
theorem waitq_released {n : Node} (hans : s.waiterAnswer = none) (hnode : s.span.node = some n) (hmine : n.lanes &&& s.lanes ≠ 0)
    (hrel : n.released = true) :
    ∃ t, exec (.waitq d a b) s = .next t ∧ ScalarIs s t d 1 ∧
      HereMoved s t { s.here with progWaiter := s.here.progWaiter + 1 } { s.span with s := t.span.s, node := none } := by
  obtain ⟨t, ht, hmoved⟩ : ∃ t, done ((s.countWaiter 1).updSpan (fun sp => { sp.setS d 1 with node := none })) = .next t ∧
      HereMoved s t { s.here with progWaiter := s.here.progWaiter + 1 } { s.span.setS d 1 with node := none } :=
    ⟨_, rfl, hereMoved_done (fun w => { w with progWaiter := w.progWaiter + 1 }) _ rfl⟩
  obtain ⟨-, -, -, -, -, hspan⟩ := id hmoved
  refine ⟨t, (exec_waitq_released hans hnode hmine hrel).trans ht, scalarIs_of_span hspan rfl, ?_⟩
  have hs : t.span.s = (s.span.setS d 1).s := by rw [hspan, Span.movedOn_s]
  rw [Span.setS_eq s.span d 1 hs] at hmoved
  exact hmoved

/-- The issuing span's node enters the waiter queue with a key, which stands in W, and the issue set waits. -/
def State.noded (s : State) (key : Nat) (S : Lanes) (W : List WaitQueue) : State :=
  ({ s with waitq := W }.updSpan (fun sp => { sp with node := some ⟨key, S, false⟩ })).waitOn (.waiter key)

theorem noded_node (key : Nat) (S : Lanes) (W : List WaitQueue) :
    (s.noded key S W).waitq = W ∧ (s.noded key S W).span.node = some ⟨key, S, false⟩ ∧ (s.noded key S W).span.wait = .waiter key ∧
      s.noded key S W = { s with wg := (s.noded key S W).wg, waitq := (s.noded key S W).waitq } := by
  have hspan : (s.noded key S W).span = _ := State.span_updSpan _ _
  rw [State.span_updSpan] at hspan
  refine ⟨rfl, ?_, ?_, rfl⟩
  · rw [hspan]; rfl
  · rw [hspan]

/-- The check of a word that the home has read: the word's value decides, then the queue, then the room for a header. -/
theorem waitCheck_read (hload : s.loadHome (State.corePtr s.here.core) (pa / 128) (some s.here.paddock) = .ok s1)
    (hP : (s1.dirAt (pa / 128)).state ≠ .P) (x : Word) (addr : Dword) :
    s.waitCheck d pa x addr =
      let key := State.waiterKey pa s.jobHere
      if s1.viewBytes pa 4 ≠ x.toNat then done ((s1.countWaiter 1).updSpan (fun sp => sp.setS d 0))
      else match s1.queueAt key with
        | none =>
          if Config.waiterHeaders ≤ (s1.waitq.filter (fun q => q.paddock == s.here.paddock)).length then
            done ((s1.countWaiter 1).updSpan (fun sp => sp.setS d 2))
          else .next (s1.noded key s.lanes (s1.waitq ++ [⟨key, pa, s.jobHere, s.here.paddock, [(s.focus.g, s.focus.sp)]⟩]))
        | some _ => .next (s1.noded key s.lanes (s1.waitq.map (fun q =>
            if q.key = key then { q with nodes := q.nodes ++ [(s.focus.g, s.focus.sp)] } else q))) := by
  unfold State.waitCheck
  dsimp only
  rw [hload]
  dsimp only
  rw [if_neg hP]
  rfl

end Waitq

/-! ## wake (14 R262) -/

/-- A node that a wake has released. -/
def Node.woken (n : Node) : Node := { n with released := true }

/-- What a wake of the nodes es may change: clocks, and of the workgroups the nodes of the spans that es names. -/
structure Woken (s t : State) (es : List (Nat × Nat)) : Prop where
  rest : t = { s with wg := t.wg, lamport := t.lamport }
  groups : ∀ g, t.wgAt g = { s.wgAt g with span := (t.wgAt g).span }
  spans : ∀ g n, t.spanAt g n = { s.spanAt g n with node := (t.spanAt g n).node }
  released : ∀ g n, (g, n) ∈ es → (s.wgAt g).res ≠ .none → (t.spanAt g n).node = (s.spanAt g n).node.map Node.woken
  others : ∀ g n, (g, n) ∉ es → (t.spanAt g n).node = (s.spanAt g n).node

namespace Woken

theorem refl (s : State) : Woken s s [] :=
  ⟨rfl, fun _ => rfl, fun _ _ => rfl, fun _ _ h => absurd h List.not_mem_nil, fun _ _ _ => rfl⟩

/-- A clock that a core hears is no change of the spans. -/
theorem hearClock {s t : State} {es : List (Nat × Nat)} (h : Woken s t es) (core : Nat) (x : BitVec 48) :
    Woken s (t.hearClock core x) es := by
  obtain ⟨hrest, hgroups, hspans, hreleased, hothers⟩ := h
  obtain ⟨L, hclock⟩ : ∃ L, t.hearClock core x = { t with lamport := L } := ⟨_, hearClock_rest t core x⟩
  rw [hclock]
  refine ⟨?_, hgroups, hspans, hreleased, hothers⟩
  conv_lhs => rw [hrest]

/-- One node of a span of this device is released, where its workgroup stands. -/
theorem releaseNode (clock : BitVec 48) (s : State) (e : Nat × Nat) (he : State.nodePeer e = none) :
    Woken s (State.releaseNode clock s e) [e] := by
  unfold State.releaseNode
  rw [if_neg (not_not.2 he)]
  split
  · next hres =>
    refine ⟨rfl, fun _ => rfl, fun _ _ => rfl, fun g n hmem hg => ?_, fun _ _ _ => rfl⟩
    obtain rfl := List.mem_singleton.1 hmem
    exact absurd hres hg
  · refine hearClock ⟨rfl, fun g => ?_, fun g n => ?_, fun g n hmem _ => ?_, fun g n hmem => ?_⟩ _ _
    · rw [wgAt_updSpanAt]
      split
      · next h => subst h; rfl
      · rfl
    · rw [State.spanAt_updSpanAt]
      split
      · next h => obtain ⟨rfl, rfl⟩ := h; rfl
      · rfl
    · obtain rfl := List.mem_singleton.1 hmem
      rw [State.spanAt_updSpanAt, if_pos ⟨rfl, rfl⟩]
      rfl
    · rw [State.spanAt_updSpanAt, if_neg]
      rintro ⟨rfl, rfl⟩
      exact hmem (List.mem_singleton.2 rfl)

theorem trans {s t u : State} {xs ys : List (Nat × Nat)} (h1 : Woken s t xs) (h2 : Woken t u ys) : Woken s u (xs ++ ys) := by
  have hres (g : Nat) : (t.wgAt g).res = (s.wgAt g).res := by rw [h1.groups g]
  refine ⟨?_, fun g => ?_, fun g n => ?_, fun g n hmem hg => ?_, fun g n hmem => ?_⟩
  · conv_lhs => rw [h2.rest, h1.rest]
  · conv_lhs => rw [h2.groups g, h1.groups g]
  · conv_lhs => rw [h2.spans g n, h1.spans g n]
  · have hidem (x : Option Node) : (x.map Node.woken).map Node.woken = x.map Node.woken := by cases x <;> rfl
    by_cases hy : (g, n) ∈ ys
    · rw [h2.released g n hy (by rwa [hres])]
      by_cases hx : (g, n) ∈ xs
      · rw [h1.released g n hx hg, hidem]
      · rw [h1.others g n hx]
    · rw [h2.others g n hy]
      exact h1.released g n ((List.mem_append.1 hmem).resolve_right hy) hg
  · rw [List.mem_append, not_or] at hmem
    rw [h2.others g n hmem.2, h1.others g n hmem.1]

/-- The nodes of a list, one after another. -/
theorem foldl (clock : BitVec 48) (s : State) (es : List (Nat × Nat)) (hes : ∀ e ∈ es, State.nodePeer e = none) :
    Woken s (es.foldl (State.releaseNode clock) s) es := by
  induction es generalizing s with
  | nil => exact refl s
  | cons e es ih =>
    obtain ⟨he, hes⟩ := List.forall_mem_cons.1 hes
    exact (releaseNode clock s e he).trans (ih _ hes)

end Woken

theorem State.here_of_focus {s t : State} (h : t.focus = s.focus) : t.here = t.wgAt s.focus.g := by rw [← h]; rfl

theorem State.span_of_focus {s t : State} (h : t.focus = s.focus) : t.span = t.spanAt s.focus.g s.focus.sp := by rw [← h]; rfl

/-- An instruction that leaves the issuing span its node leaves every span its node. -/
theorem HereMoved.node {s t : State} {w : Wg} {q : Span} (h : HereMoved s t w q) (hq : q.node = s.span.node) (g n : Nat) :
    (t.spanAt g n).node = (s.spanAt g n).node := by
  obtain ⟨hrest, -, hgroups, -, hspans, hspan⟩ := h
  have hfocus : t.focus = s.focus := by rw [hrest]
  have hthere : t.here = t.wgAt s.focus.g := State.here_of_focus hfocus
  by_cases hg : g = s.focus.g
  · subst hg
    by_cases hn : n = s.focus.sp
    · subst hn
      have ht : t.span = t.spanAt s.focus.g s.focus.sp := State.span_of_focus hfocus
      rw [← ht, hspan, Span.movedOn_node, hq]
      rfl
    · have hthis := hspans n hn
      rw [hthere] at hthis
      exact congrArg Span.node hthis
  · exact congrArg (fun w : Wg => (w.spanAt n).node) (hgroups g hg)

section Wake

variable {s : State} {d a : BitVec 6} {b : SOp}

/-- A wake of a word of this device releases nodes of the word's queue and counts them. -/
theorem exec_wake {pa : Nat} (hans : s.waiterAnswer = none) (hword : s.waiterWord (s.span.sr a) = (s, .ok pa))
    (hpod : isPod (pa / 128) = false) :
    exec (.wake d a b) s =
      let r := s.wakeQueue (State.waiterKey pa s.jobHere) ((s.span.opB b).toNat % 2 ^ 32) (Store.get 0 s.lamport s.here.core)
      done ((r.1.countWaiter r.2).updSpan (fun sp => sp.setS d (BitVec.ofNat 64 r.2))) := by
  show execWake d a b s = _
  unfold execWake
  rw [hans]
  dsimp only
  rw [hword]
  dsimp only
  rw [hpod, if_neg Bool.false_ne_true]

/-- The first nodes of a queue are released and leave it; a queue without nodes is gone. -/
theorem wakeQueue_woken (key n : Nat) (clock : BitVec 48) :
    let nodes := ((s.queueAt key).map (·.nodes)).getD []
    let k := min n nodes.length
    (∀ e ∈ nodes, State.nodePeer e = none) → ∃ v, Woken s v (nodes.take k) ∧
      s.wakeQueue key n clock = ({ v with
        waitq := (s.waitq.map (fun q => if q.key = key then { q with nodes := q.nodes.drop k } else q)).filter (fun q => q.nodes ≠ []) }, k) := by
  intro nodes k hnodes
  have h := Woken.foldl clock s (nodes.take k) fun e he => hnodes e (List.mem_of_mem_take he)
  have hqueue : ((nodes.take k).foldl (State.releaseNode clock) s).waitq = s.waitq := by rw [h.rest]
  refine ⟨_, h, ?_⟩
  rw [← hqueue]
  rfl

/-- A wake that has released nodes, in the state v, gives their number and counts them. -/
theorem Woken.done {v : State} {es : List (Nat × Nat)} (h : Woken s v es) (W : List WaitQueue) (k : Nat) :
    ∃ t, done ((({ v with waitq := W } : State).countWaiter k).updSpan (fun sp => sp.setS d (BitVec.ofNat 64 k))) = .next t ∧
      ScalarIs s t d (BitVec.ofNat 64 k) ∧ t = { s with wg := t.wg, waitq := t.waitq, lamport := t.lamport } ∧
      t.here.progWaiter = s.here.progWaiter + BitVec.ofNat 32 k ∧ t.waitq = W ∧ ∀ g n, (t.spanAt g n).node = (v.spanAt g n).node := by
  obtain ⟨hrest, hgroups, hspans, -, -⟩ := h
  have hfocus : v.focus = s.focus := by rw [hrest]
  have hspan : v.span = { s.span with node := v.span.node } := by
    have hv : v.span = v.spanAt s.focus.g s.focus.sp := State.span_of_focus hfocus
    rw [hv]
    exact hspans s.focus.g s.focus.sp
  have hhere : v.here.progWaiter = s.here.progWaiter := by
    have hv : v.here = v.wgAt s.focus.g := State.here_of_focus hfocus
    rw [hv, hgroups]
    rfl
  obtain ⟨t, ht, hscalar, hmoved⟩ := scalarMoved_done (s := { v with waitq := W })
    (fun w => { w with progWaiter := w.progWaiter + BitVec.ofNat 32 k }) d (BitVec.ofNat 64 k) rfl
  obtain ⟨htrest, -, -, hthere, -, -⟩ := id hmoved
  have hqueue : t.waitq = W := by rw [htrest]
  refine ⟨t, ht, fun n => (hscalar n).trans ?_, ?_, ?_, hqueue, hmoved.node rfl⟩
  · have hsr : v.span.sr n = s.span.sr n := by rw [hspan]; rfl
    rw [← hsr]
    rfl
  · have hlamport : t.lamport = v.lamport := by rw [htrest]
    rw [hqueue, hlamport]
    conv_lhs => rw [htrest, hrest]
  · rw [hthere, ← hhere]
    rfl

end Wake

/-! ## Monitors (14 R264, R265) -/

section Monitor

variable {s : State} {d a : BitVec 6} {b : SOp}

/-- mon arms the monitor on the line of an address that can be reached. -/
theorem mon_arms {y : Xlat} {w : Option (Nat × Nat)}
    (hcheck : s.checkAddr s.here.core s.here.paddock s.asid (s.span.sr a) 1 1 .read s.privileged false = (s, .ok (.phys y w)))
    (hreach : s.unreachable y.pa = false) :
    ∃ t, exec (.mon a) s = .next t ∧ Retired s t { s.span with mon := some ⟨y.pa / 128, false⟩ } := by
  refine ⟨_, ?_, retired_done s fun sp => { sp with mon := some ⟨y.pa / 128, false⟩ }⟩
  show execMon a s = _
  unfold execMon
  dsimp only
  rw [hcheck]
  dsimp only
  rw [hreach, if_neg Bool.false_ne_true]
  rfl

/-- mon of an address that cannot be reached: code 09, with the error's record. -/
theorem exec_mon_unreachable {y : Xlat} {w : Option (Nat × Nat)}
    (hcheck : s.checkAddr s.here.core s.here.paddock s.asid (s.span.sr a) 1 1 .read s.privileged false = (s, .ok (.phys y w)))
    (hreach : s.unreachable y.pa = true) :
    exec (.mon a) s = .next ((s.errLine (s.span.sr a) (y.pa / 128) 9 (State.downKind y.pa)).raiseAll 0x09 (s.span.sr a)) := by
  show execMon a s = _
  unfold execMon
  dsimp only
  rw [hcheck]
  dsimp only
  rw [if_pos hreach]

/-- mwait of a monitor that has triggered disarms it. -/
theorem mwait_triggered {l : Nat} (hmon : s.span.mon = some ⟨l, true⟩) :
    ∃ t, exec (.mwait d b) s = .next t ∧ ScalarIs s t d 1 ∧ Retired s t { s.span with s := t.span.s, mon := none } := by
  have hexec : exec (.mwait d b) s = done (s.updSpan (fun sp => { sp.setS d 1 with mon := none })) := by
    show execMwait d b s = _
    unfold execMwait
    rw [hmon]
    rfl
  obtain ⟨t, ht, hmoved⟩ : ∃ t, done (s.updSpan (fun sp => { sp.setS d 1 with mon := none })) = .next t ∧
      Retired s t { s.span.setS d 1 with mon := none } := ⟨_, rfl, retired_done s _⟩
  obtain ⟨-, hspan⟩ := id hmoved
  refine ⟨t, hexec.trans ht, scalarIs_of_span hspan rfl, ?_⟩
  have hs : t.span.s = (s.span.setS d 1).s := by rw [hspan, Span.movedOn_s]
  rw [Span.setS_eq s.span d 1 hs] at hmoved
  exact hmoved

/-- mwait of a monitor that has not triggered: 0 at once with a timeout of 0, else a wait. -/
theorem mwait_armed {l : Nat} (hmon : s.span.mon = some ⟨l, false⟩) :
    (s.argOr (s.span.opB b) = 0 → ScalarResult (exec (.mwait d b) s) s d 0) ∧
      (s.argOr (s.span.opB b) ≠ 0 → Waits (exec (.mwait d b) s) s .mwait (s.argOr (s.span.opB b))) := by
  have hexec : exec (.mwait d b) s = if s.argOr (s.span.opB b) = 0 then done (s.updSpan (fun sp => sp.setS d 0))
      else .next (s.waitWith .mwait (s.argOr (s.span.opB b))) := by
    show execMwait d b s = _
    unfold execMwait
    rw [hmon]
    rfl
  rw [hexec]
  refine ⟨fun ht => ?_, fun ht => ?_⟩
  · rw [if_pos ht]
    exact scalarResult_done s d fun _ => 0
  · rw [if_neg ht]
    exact waits_waitWith ..

/-- mwait without a monitor gives 0. -/
theorem mwait_unarmed (hmon : s.span.mon = none) : ScalarResult (exec (.mwait d b) s) s d 0 := by
  have hexec : exec (.mwait d b) s = done (s.updSpan (fun sp => sp.setS d 0)) := by
    show execMwait d b s = _
    unfold execMwait
    rw [hmon]
  rw [hexec]
  exact scalarResult_done s d fun _ => 0

end Monitor

/-- Settles O27: a waitq by the word's value, its queue and the room for a header; a wake by the nodes it releases; mon and mwait by the
monitor of the span. -/
theorem waitersAndMonitors : Obligations.WaitersAndMonitors := by
  unfold Obligations.WaitersAndMonitors
  intro s d a b addr x job me hans
  refine ⟨fun s1 pa hnode hword hpod hload hP => ?_, fun n => waitq_released hans, fun pa hword hpod => ?_, fun y w hcheck =>
    ⟨mon_arms hcheck, exec_mon_unreachable hcheck⟩, mwait_unarmed, fun l => mwait_triggered, fun l => mwait_armed⟩
  · intro key counted mine gives
    have hexec := (exec_waitq_checks (d := d) (b := b) hans hnode hword hpod).trans (waitCheck_read hload hP ..)
    rw [BitVec.toNat_setWidth] at hexec
    have hgives (v : Dword) (h : exec (.waitq d a b) s = done ((s1.countWaiter 1).updSpan (fun sp => sp.setS d v))) : gives v := by
      obtain ⟨t, ht, hmoved⟩ := scalarMoved_done (s := s1) (fun w => { w with progWaiter := w.progWaiter + 1 }) d v rfl
      exact ⟨t, h.trans ht, hmoved⟩
    refine ⟨fun hne => hgives 0 (hexec.trans (if_pos hne)), fun heq hqueue hfull => hgives 2 ?_, fun heq hqueue hroom => ?_,
      fun heq hqueue => ?_⟩
    all_goals
      replace hexec := hexec.trans (if_neg (not_not.2 heq))
    · replace hqueue : s1.queueAt (State.waiterKey pa s.jobHere) = none := hqueue
      rw [hqueue] at hexec
      exact hexec.trans (if_pos hfull)
    · replace hqueue : s1.queueAt (State.waiterKey pa s.jobHere) = none := hqueue
      rw [hqueue] at hexec
      exact ⟨_, hexec.trans (if_neg (Nat.not_le.2 hroom)), noded_node ..⟩
    · obtain ⟨q, hq⟩ : ∃ q, s1.queueAt (State.waiterKey pa s.jobHere) = some q := Option.ne_none_iff_exists'.1 hqueue
      rw [hq] at hexec
      exact ⟨_, hexec, noded_node ..⟩
  · intro key nodes k hnodes
    obtain ⟨v, hwoken, hqueue⟩ := wakeQueue_woken (s := s) key x (Store.get 0 s.lamport s.here.core) hnodes
    obtain ⟨t, ht, hscalar, hrest, hcount, hleft, hnode⟩ := hwoken.done (d := d) _ k
    refine ⟨t, ?_, hscalar, hrest, hcount, hleft, fun e he hres => ?_, fun g n hn => ?_⟩
    · refine (exec_wake hans hword hpod).trans (Eq.trans ?_ ht)
      dsimp only
      rw [show s.wakeQueue (State.waiterKey pa s.jobHere) ((s.span.opB b).toNat % 2 ^ 32) (Store.get 0 s.lamport s.here.core) = _ from hqueue]
    · exact (hnode e.1 e.2).trans (hwoken.released e.1 e.2 he hres)
    · exact (hnode g n).trans (hwoken.others g n hn)

end Sys2Proof.Machine
end

section
/-!
PROOFS. The first record of a queue is admitted, refused or left (14 R252, R254, R255); O41.
-/

namespace Sys2Proof.Machine

open State

/-! ## The head of a paddock's queues (14 R254) -/

/-- Of two records of the queues, in their order, the one that goes first. -/
def State.firstOf (a : Option QueuedLaunch) (q : QueuedLaunch) : Option QueuedLaunch :=
  match a with
  | none => some q
  | some b => if b.prio < q.prio then some q else a

theorem headOf_eq_foldl (p : Paddock) : headOf p = p.queue.foldl State.firstOf none := rfl

section Queue

variable {p : Paddock} {q : QueuedLaunch} {xs ys : List QueuedLaunch}

/-- The head is the first record of the highest level. -/
theorem headOf_eq_some (hqueue : p.queue = xs ++ q :: ys) (hxs : ∀ x ∈ xs, x.prio < q.prio) (hys : ∀ y ∈ ys, y.prio ≤ q.prio) :
    headOf p = some q := by
  have hbefore : ∀ b ∈ xs.foldl State.firstOf none, b.prio < q.prio := by
    refine List.foldlRecOn (motive := fun a => ∀ b ∈ a, b.prio < q.prio) xs State.firstOf
      (fun b hb => absurd hb (Option.not_mem_none b)) fun a ha x hx b hb => ?_
    unfold State.firstOf at hb
    split at hb
    · cases hb; exact hxs x hx
    · split at hb
      · cases hb; exact hxs x hx
      · exact ha b hb
  have hhead : State.firstOf (xs.foldl State.firstOf none) q = some q := by
    cases h : xs.foldl State.firstOf none with
    | none => rfl
    | some b => exact if_pos (hbefore b h)
  rw [headOf_eq_foldl, hqueue, List.foldl_append, List.foldl_cons, hhead]
  refine List.foldlRecOn (motive := fun a => a = some q) ys State.firstOf rfl fun a ha y hy => ?_
  rw [ha]
  exact if_neg (Nat.not_lt.2 (hys y hy))

/-- Without its head the queue holds the other records, in their order. -/
theorem erase_head (hqueue : p.queue = xs ++ q :: ys) (hxs : ∀ x ∈ xs, x.prio < q.prio) : p.queue.erase q = xs ++ ys := by
  have hq : q ∉ xs := fun h => Nat.lt_irrefl _ (hxs q h)
  rw [hqueue, List.erase_append_right _ hq, List.erase_cons_head]

end Queue

/-! ## The step of a paddock's queues -/

section Step

variable {s : State} {n : Nat} {q : QueuedLaunch}

/-- Nothing is done for a paddock that is away, is leaving or has no record. -/
theorem exec_launchAdmission_idle (h : (s.pk n).resident = false ∨ s.leaving n = true ∨ (s.pk n).queue = []) :
    exec (.launchAdmission n) s = .next s := by
  show execLaunchAdmission n s = _
  unfold execLaunchAdmission
  split
  · rfl
  · next hgo =>
    rw [Bool.not_eq_true', not_or] at hgo
    rcases h with h | h | h
    · exact absurd h hgo.1
    · exact absurd h hgo.2
    · rw [headOf_eq_foldl, h]
      rfl

/-- Else the head is refused, left or admitted. -/
theorem exec_launchAdmission_head (hres : (s.pk n).resident = true) (hleave : s.leaving n = false) (hhead : headOf (s.pk n) = some q) :
    exec (.launchAdmission n) s =
      let l := s.launchAt (2 ^ 32 * n + q.serial.toNat)
      if s.refusal l ≠ 0 then .next ((s.dequeue q n).refuse l (s.refusal l))
      else if s.headWaits l then .next s
      else .next ((s.dequeue q n).admitLaunch l) := by
  show execLaunchAdmission n s = _
  unfold execLaunchAdmission
  rw [if_neg (by simp [hres, hleave]), hhead]

theorem headWaits_iff (l : Launch) :
    s.headWaits l = true ↔ s.parkFree l.paddock < l.images ∨ ∃ c ∈ l.cores, s.tileFree c < l.chuteBytes := by
  simp [headWaits]

theorem queues_dequeue : (s.dequeue q n).queues n = ((s.pk n).nextSerial, (s.pk n).queue.erase q) := by
  rw [State.queues, dequeue, pk_updPk, if_pos rfl]

end Step

/-- Records that stand as in another state. -/
theorem Recorded.congr {s t s' t' : State} {typ unit idx : Nat} {w2 w3 : Dword} (h : Recorded s t typ unit idx w2 w3)
    (hs : s'.records = s.records) (ht : t'.records = t.records) : Recorded s' t' typ unit idx w2 w3 := by
  obtain ⟨r, hr, hrest⟩ := h
  exact ⟨r, by rw [ht, hr, hs], hrest⟩

/-! ## Refusal (14 R254) -/

section Refuse

variable {s : State} {l : Launch} {reason : Nat}

/-- A launch that nobody's operation issued is refused: state 6 with its reason, and the record. -/
theorem refuse_refuses (hissuer : l.issuer = none) :
    let t := s.refuse l reason
    t.queues = s.queues ∧ t.launchAt l.key = { s.launchAt l.key with state := 6, reason := reason, live := false } ∧
      Recorded s t 0x19 1 l.home (l.serial.setWidth 64) (BitVec.ofNat 64 (6 + 256 * reason)) := by
  intro t
  have hput := HomeOnly.putStatus (s.updLaunch l.key (fun l => { l with state := 6, reason := reason, live := false })) l.key
  have ht : t = ((s.updLaunch l.key (fun l => { l with state := 6, reason := reason, live := false })).putStatus l.key).emit 0x19 0x01
      l.home (dieOf l.home) (some l.paddock) 0xFFFFF false (l.serial.setWidth 64) (BitVec.ofNat 64 (6 + 256 * reason)) 0 := by
    show s.refuse l reason = _
    unfold refuse
    rw [hissuer]
  rw [ht]
  refine ⟨?_, ?_, ?_⟩
  · exact (queues_congr rfl).trans (queues_putStatus _ _)
  · rw [launchAt_emit, hput.launchAt, launchAt_updLaunch, if_pos rfl]
  · exact (emit_records ..).congr hput.records.symm rfl

end Refuse

/-! ## Admission (14 R254, R255) -/

/-- A fold ends with what one of its steps sets and every step keeps. -/
theorem foldl_holds {α β : Type} {f : β → α → β} (P : β → Prop) {xs : List α} {x : α} (hx : x ∈ xs) (hset : ∀ b, P (f b x))
    (hkeep : ∀ b, P b → ∀ y ∈ xs, P (f b y)) (b : β) : P (xs.foldl f b) := by
  obtain ⟨as, bs, rfl⟩ := List.append_of_mem hx
  rw [List.foldl_append, List.foldl_cons]
  exact List.foldlRecOn (motive := P) bs f (hset _) fun b hb y hy => hkeep b hb y (List.mem_append_right _ (List.mem_cons_of_mem _ hy))

section Admit

variable {s : State} {l : Launch}

/-- The chute that a declaration of a launch makes on a core, empty (14 R255). -/
def Launch.newChute (l : Launch) (d : Dword) (core : Nat) : Chute :=
  { Chute.none with
    live := true, paddock := l.paddock, serial := l.serial, core := core, handle := dHandle d, fromStage := dFrom d, toStage := dTo d
    slotsM1 := BitVec.ofNat 6 (dRows d - 1), width := dWidth d, colsM1 := dCols d - 1 }

/-- The chute of a declaration on a core is made. -/
def State.makeChute (s : State) (l : Launch) (d : Dword) (core : Nat) : State :=
  s.updChute (chuteKey l.paddock l.serial core (dHandle d) (dFrom d)) fun _ => l.newChute d core

theorem makeChutes_eq : s.makeChutes l = l.chutes.foldl (fun a d => l.cores.foldl (fun a core => a.makeChute l d core) a) s := rfl

theorem makeChutes_rest : s.makeChutes l = { s with chute := (s.makeChutes l).chute } := by
  rw [makeChutes_eq]
  refine List.foldlRecOn (motive := fun t : State => t = { s with chute := t.chute }) l.chutes _ rfl fun t ht d _ => ?_
  refine List.foldlRecOn (motive := fun t : State => t = { s with chute := t.chute }) l.cores _ ht fun t ht core _ => ?_
  conv_lhs => rw [ht]
  rfl

/-- Chutes of a launch on two cores, or of two declarations, that share a key are those of one core, handle and stage. -/
theorem chuteKey_injective {d e : Dword} {c c' : Nat}
    (h : chuteKey l.paddock l.serial c (dHandle d) (dFrom d) = chuteKey l.paddock l.serial c' (dHandle e) (dFrom e)) :
    c = c' ∧ dHandle d = dHandle e ∧ dFrom d = dFrom e := by
  have hd : dHandle d < 64 ∧ dFrom d < 8 := ⟨bits_lt d 55 50, bits_lt d 61 59⟩
  have he : dHandle e < 64 ∧ dFrom e < 8 := ⟨bits_lt e 55 50, bits_lt e 61 59⟩
  unfold chuteKey at h
  omega

/-- The chute of a declaration stands on a core, empty. -/
def State.HasChute (l : Launch) (d : Dword) (core : Nat) (s : State) : Prop :=
  s.chuteAt (chuteKey l.paddock l.serial core (dHandle d) (dFrom d)) = l.newChute d core

theorem hasChute_makeChute (d : Dword) (core : Nat) (s : State) : (s.makeChute l d core).HasChute l d core :=
  (chuteAt_updChute ..).trans (if_pos rfl)

/-- Where no other declaration names its stage and handle, the launch's other chutes leave a declaration's chute. -/
theorem hasChute_makeChute_of_hasChute {d e : Dword} {core c : Nat} (hone : dHandle e = dHandle d → dFrom e = dFrom d → e = d)
    (hs : s.HasChute l d core) : (s.makeChute l e c).HasChute l d core := by
  rw [State.HasChute, State.makeChute, chuteAt_updChute]
  split
  · next hkey =>
    obtain ⟨rfl, hhandle, hfrom⟩ := chuteKey_injective hkey
    rw [hone hhandle.symm hfrom.symm]
  · exact hs

/-- A declaration whose stage and handle no other names has its chute on every core of the rectangle. -/
theorem hasChute_makeChutes {d : Dword} {core : Nat} (hd : d ∈ l.chutes) (hcore : core ∈ l.cores)
    (hone : ∀ e ∈ l.chutes, dHandle e = dHandle d → dFrom e = dFrom d → e = d) : (s.makeChutes l).HasChute l d core := by
  rw [makeChutes_eq]
  refine foldl_holds (State.HasChute l d core) hd (fun t => ?_) (fun t ht e he => ?_) s
  · exact foldl_holds (State.HasChute l d core) hcore (hasChute_makeChute d core)
      (fun t ht c _ => hasChute_makeChute_of_hasChute (fun _ _ => rfl) ht) t
  · exact List.foldlRecOn (motive := State.HasChute l d core) l.cores _ ht fun t ht c _ =>
      hasChute_makeChute_of_hasChute (hone e he) ht

/-- A window enters its paddock's table, which leaves the queues and the rest of the machine. -/
theorem enterWindow_rest (s : State) (pkn : Nat) (serial : Word) (region : Nat) (base : Dword) (size : Nat) :
    ∃ P, (s.enterWindow pkn serial region base size).1 = { s with paddock := P } ∧
      (s.enterWindow pkn serial region base size).1.queues = s.queues := by
  unfold enterWindow
  split
  · exact ⟨_, rfl, rfl⟩
  · split
    · exact ⟨_, rfl, rfl⟩
    · refine ⟨_, rfl, queues_updPk s (fun p => ?_) pkn⟩
      exact ⟨rfl, rfl⟩

/-- The windows of an admitted launch's record enter their paddock's table (14 R254). -/
def State.enterWindows (s : State) (l : Launch) : State :=
  (windowsOf l).foldl (fun a w => (a.enterWindow l.paddock l.serial (bits w.2 4 0) w.1 (bits w.2 47 8 * 256)).1) s

theorem enterWindows_rest (s : State) (l : Launch) :
    ∃ P, s.enterWindows l = { s with paddock := P } ∧ (s.enterWindows l).queues = s.queues := by
  unfold State.enterWindows
  refine List.foldlRecOn (motive := fun t : State => ∃ P, t = { s with paddock := P } ∧ t.queues = s.queues) (windowsOf l) _
    ⟨_, rfl, rfl⟩ fun t ht w _ => ?_
  obtain ⟨P, rfl, hqueues⟩ := ht
  obtain ⟨P', hrest, hqueues'⟩ := enterWindow_rest { s with paddock := P } l.paddock l.serial (bits w.2 4 0) w.1 (bits w.2 47 8 * 256)
  exact ⟨P', hrest, hqueues'.trans hqueues⟩

/-- A launch is admitted: state 2 and its record kept, a trace record, and its chutes. -/
theorem admitLaunch_admits :
    let t := s.admitLaunch l
    t.queues = s.queues ∧ t.launchAt l.key = { s.launchAt l.key with state := 2, admitted := true } ∧
      Recorded s t 0x18 1 l.home (l.serial.setWidth 64 ||| BitVec.ofNat 64 (2 ^ 32 * l.prio)) 2 ∧
      t.chute = ((s.updLaunch l.key fun l => { l with state := 2, admitted := true }).makeChutes l).chute := by
  intro t
  set s1 := (s.updLaunch l.key fun l => { l with state := 2, admitted := true }).makeChutes l with hs1
  set s2 := (s1.enterWindows l).emit 0x18 0x01 l.home (dieOf l.home) (some l.paddock) 0xFFFFF false
    (l.serial.setWidth 64 ||| BitVec.ofNat 64 (2 ^ 32 * l.prio)) 2 0 with hs2
  have ht : t = s2.putStatus l.key := rfl
  have hput := HomeOnly.putStatus s2 l.key
  have hmade : s1 = _ := makeChutes_rest
  obtain ⟨P, hwindows, hqueues⟩ := enterWindows_rest s1 l
  rw [ht]
  refine ⟨?_, ?_, ?_, ?_⟩
  · refine (queues_putStatus s2 l.key).trans (Eq.trans (queues_congr rfl) (hqueues.trans ?_))
    exact queues_congr (by rw [hmade]; rfl)
  · have hlaunch : (s1.enterWindows l).launchAt l.key =
        (s.updLaunch l.key fun l => { l with state := 2, admitted := true }).launchAt l.key := by
      rw [hwindows, hmade]
      rfl
    rw [hput.launchAt, hs2, launchAt_emit, hlaunch, launchAt_updLaunch, if_pos rfl]
  · refine (emit_records ..).congr (s := s1.enterWindows l) ?_ hput.records
    rw [hwindows, hmade]
    rfl
  · rw [hput.rest, hs2, emit_chute, hwindows]

end Admit

/-! ## Reasons to refuse (14 R254) -/

section Refusal

variable {s : State} {l : Launch} {c : PaddockCfg}

/-- The geometry of a launch meets 03 R39 and its rectangle lies in its paddock's. -/
def Launch.Fits (l : Launch) (c : PaddockCfg) : Prop :=
  1 ≤ l.rectW ∧ l.rectW ≤ 64 ∧ 1 ≤ l.rectH ∧ l.rectH ≤ 64 ∧ c.ox ≤ l.orgX ∧ l.orgX + l.rectW ≤ c.ox + c.w ∧
    c.oy ≤ l.orgY ∧ l.orgY + l.rectH ≤ c.oy + c.h ∧ 1 ≤ l.gx ∧ 1 ≤ l.gy ∧ 1 ≤ l.gz ∧ l.pw ≤ 16 ∧ l.ph ≤ 16 ∧
    l.rectW % l.pw = 0 ∧ l.gx % l.pw = 0 ∧ l.rectH % l.ph = 0 ∧ l.gy % l.ph = 0 ∧ l.stages ≤ 8 ∧
    ∀ st, st < l.stages → 1 ≤ l.nspans st ∧ l.nspans st ≤ 8

theorem badGeometry_eq_false_iff : badGeometry l c = false ↔ l.Fits c := by
  simp [badGeometry, Launch.Fits, and_assoc]

/-- A stage that starts at address 0 is a bad record. -/
theorem badRecord_of_entryPc {st : Nat} (hst : st < l.stages) (hpc : l.entryPc st = 0) : s.badRecord l = true := by
  have hany : (List.range l.stages).any (fun st => l.entryPc st == 0) = true :=
    List.any_eq_true.2 ⟨st, List.mem_range.2 hst, beq_iff_eq.2 hpc⟩
  simp only [badRecord, hany, Bool.or_true, Bool.true_or]

/-- What stands below the geometry in the order of reasons. -/
theorem refusal_of_fits (hfits : l.Fits (s.pk l.paddock).cfg) :
    s.refusal l =
      if (s.pk l.paddock).cfg.parkArea * 4194304 < l.images then 2
      else if l.gridBar ∧ Config.entriesPerCore < perCore l then 3
      else if s.badRecord l then 4
      else if s.neverFits l then 5
      else 0 := by
  unfold refusal
  dsimp only
  rw [badGeometry_eq_false_iff.2 hfits, if_neg Bool.false_ne_true]

theorem refusal_of_not_fits (hfits : ¬l.Fits (s.pk l.paddock).cfg) : s.refusal l = 1 := by
  rw [← badGeometry_eq_false_iff, Bool.not_eq_false] at hfits
  exact if_pos hfits

theorem refusal_eq_one_iff : s.refusal l = 1 ↔ ¬l.Fits (s.pk l.paddock).cfg := by
  by_cases hfits : l.Fits (s.pk l.paddock).cfg
  · rw [refusal_of_fits hfits]
    grind
  · simp [refusal_of_not_fits hfits, hfits]

theorem refusal_eq_two_iff :
    s.refusal l = 2 ↔ l.Fits (s.pk l.paddock).cfg ∧ (s.pk l.paddock).cfg.parkArea * 4194304 < l.images := by
  by_cases hfits : l.Fits (s.pk l.paddock).cfg
  · rw [refusal_of_fits hfits]
    grind
  · simp [refusal_of_not_fits hfits, hfits]

theorem refusal_eq_three_iff :
    s.refusal l = 3 ↔ l.Fits (s.pk l.paddock).cfg ∧ l.images ≤ (s.pk l.paddock).cfg.parkArea * 4194304 ∧ l.gridBar = true ∧
      64 < perCore l := by
  by_cases hfits : l.Fits (s.pk l.paddock).cfg
  · rw [refusal_of_fits hfits, Config.entriesPerCore]
    grind
  · simp [refusal_of_not_fits hfits, hfits]

/-- Reason 4 where no lower reason applies and a stage starts at address 0. -/
theorem refusal_eq_four {st : Nat} (hfits : l.Fits (s.pk l.paddock).cfg) (hpark : l.images ≤ (s.pk l.paddock).cfg.parkArea * 4194304)
    (hbar : l.gridBar = false ∨ perCore l ≤ 64) (hst : st < l.stages) (hpc : l.entryPc st = 0) : s.refusal l = 4 := by
  have hroom : ¬(l.gridBar = true ∧ Config.entriesPerCore < perCore l) := by
    rintro ⟨hflag, hmost⟩
    rcases hbar with hbar | hbar
    · exact Bool.false_ne_true (hbar.symm.trans hflag)
    · exact Nat.not_lt.2 hbar hmost
  rw [refusal_of_fits hfits, if_neg (Nat.not_lt.2 hpark), if_neg hroom, if_pos (badRecord_of_entryPc hst hpc)]

end Refusal

/-- Settles O41: the head of the highest level, and what becomes of it: a refusal with the lowest reason, nothing, or an admission with the
launch's chutes. -/
theorem launchAdmission : Obligations.LaunchAdmission := by
  unfold Obligations.LaunchAdmission
  intro s n q xs ys p k l r mb left
  refine ⟨exec_launchAdmission_idle, fun hres hleave hqueue hxs hys hpk hserial => ?_, refusal_eq_one_iff, refusal_eq_two_iff,
    refusal_eq_three_iff, fun hfits hpark hbar ⟨st, hst, hpc⟩ => refusal_eq_four hfits hpark hbar hst hpc⟩
  have hkey : l.key = k := by rw [Launch.key, hpk, hserial]
  have hexec : r = _ := exec_launchAdmission_head hres hleave (headOf_eq_some hqueue hxs hys)
  have hleft (t : State) (ht : t.queues = (s.dequeue q n).queues) : left t := by
    have hn := (congrFun ht n).trans queues_dequeue
    exact (congrArg Prod.snd hn).trans (erase_head hqueue hxs)
  refine ⟨fun hreason hissuer => ?_, fun hnone hwait => ?_, fun hnone himages hchutes => ?_⟩
  · obtain ⟨hq, hlaunch, hrec⟩ := refuse_refuses (s := s.dequeue q n) (reason := s.refusal l) hissuer
    rw [hkey] at hlaunch
    refine ⟨_, hexec.trans (if_pos hreason), hleft _ hq, ?_, ?_, ?_, hrec.congr rfl rfl⟩
    · rw [hlaunch]
    · rw [hlaunch]
    · rw [hlaunch]
  · have hheld : s.headWaits l = true := (headWaits_iff l).2 (by rwa [hpk])
    exact hexec.trans ((if_neg (not_not.2 hnone)).trans (if_pos hheld))
  · have hgo : ¬s.headWaits l = true := by
      rw [headWaits_iff, hpk]
      rintro (h | ⟨c, hc, h⟩)
      · exact Nat.not_lt.2 himages h
      · exact Nat.not_lt.2 (hchutes c hc) h
    obtain ⟨hq, hlaunch, hrec, hmade⟩ := admitLaunch_admits (s := s.dequeue q n) (l := l)
    rw [hkey] at hlaunch
    refine ⟨_, hexec.trans ((if_neg (not_not.2 hnone)).trans (if_neg hgo)), hleft _ hq, ?_, ?_, ?_, hrec.congr rfl rfl,
      fun d hd core hcore _ hone => ?_⟩
    · rw [hlaunch]
    · rw [hlaunch]
    · rw [hlaunch]
      rfl
    · have hchute := (congrArg (Store.get Chute.none · (chuteKey l.paddock l.serial core (dHandle d) (dFrom d))) hmade).trans
        (hasChute_makeChutes hd hcore hone)
      rw [Launch.newChute, hpk] at hchute
      exact hchute

end Sys2Proof.Machine
end
